-- ==== Sys2Proof/Word.lean ====
section
/-! DEFINITION. The words of the module and the one table type that holds its sparse state. -/

namespace Sys2Proof

/-- A quadword: a register of the register space (00_scope R6, 18 R331). -/
abbrev Word64 := BitVec 64
/-- A vector element (07 R132). -/
abbrev Word32 := BitVec 32
/-- A byte of scratchpad, HBM or a segment payload. -/
abbrev Byte := BitVec 8

/-- Sparse state keyed by a unit number, an offset or an address: pairs with strictly rising keys, none
of which holds the value that an unlisted key reads as (Machine/Tables.lean). -/
abbrev Tbl (α : Type) := List (Nat × α)

end Sys2Proof
end

