-- ==== Sys2Proof/Syntax.lean ====
section
/-! DEFINITION. The commands: one constructor per row of spec/opcode_table.json, with what the event or operation carries.
Units (rings, tiles, cores, ports, stacks, wharves) are numbers; WellFormed.lean says which exist. -/

namespace Sys2Proof
open Sys2Proof

/-- The fields of a V-slot operation other than its opcode (04 R76). -/
structure VArg where
  vd : Nat
  va : Nat
  vb : Nat
  vc : Nat
  pm : Nat
  n : Nat
  rnd : Nat
  fmt : Nat
  s : Nat
  src : Nat
  deriving DecidableEq, Repr

/-- An ECC event found by the read a command performs: lane index × 8,192 + line for the scratchpad, codeword number for
HBM; the syndrome or symbol position; whether it is uncorrectable (05 R98, 14 R267). -/
structure Upset where
  at_ : Nat
  syn : Nat
  bad : Bool
  deriving DecidableEq, Repr

/-- The bucket-table entry whose turn it is at the wharf, and the check-bit event that its reads meet, if any (10 R199, R201; 05 R98; 14 R267). -/
structure BucketTurn where
  bucket : Nat
  ecc : Option Upset := none
  deriving DecidableEq, Repr

/-- A segment that has arrived, by its place; a tile that a halt notice reaches; a flight that ends, whose dump reads scratchpads: each with the
check-bit event that the reads of the command meet, if any (for the dump with its tile) (05 R98; 09 R187; 10 R203). -/
structure SegTurn where
  index : Nat
  ecc : Option Upset := none
  deriving DecidableEq, Repr
structure TileTurn where
  tile : Nat
  ecc : Option Upset := none
  deriving DecidableEq, Repr
structure FlightTurn where
  fid : Nat
  ecc : Option (Nat × Upset) := none
  deriving DecidableEq, Repr

/-- How a completion of a non-posted request comes back (01 R18, 14 R266): successful, Unsupported Request, Completer Abort,
or with EP set. -/
inductive CplStatus where
  | ok | ur | ca | ep
  deriving DecidableEq, Repr

/-- The blocks with ST fields (18 R336). -/
inductive Blk where
  | ring (r : Nat)
  | summary (p : Nat)
  | remote (p e : Nat)
  | rgrp (n : Nat)
  | port (p : Nat)
  | mile
  deriving DecidableEq, Repr

/-- What the receiver of a lane measures (12 R231, R242): output with the photodiode switched out, gain code that spans 80 % of the range,
centre of the widest opening in 1/64 UI, the four level means of the histogram, the opening; OMA and average power in 0.1 dBm. -/
structure LaneRead where
  offset : Int := 0
  gain : Nat := 0
  phase : Nat := 0
  levels : List Int := []
  opening : Nat := 0
  oma : Int := 0
  avg : Int := 0
  deriving DecidableEq, Repr

/-- What a hail step brings (11 R223): of the partner its nonce, capability, ephemeral key, the nonce of a report it asks for, its certificate,
whether chain and signature verify, and whether its report has arrived; of training the groups that pass, the shift in MHz of every ring
of the four fibre groups as each heater is stepped by 2.0 mW, the shift in MHz at which every ring was found (none: not found), the
readings of every receive lane; the credits it grants; offset, reference and hops; its module, port and LNK_SLICE bitmap. -/
structure HailInfo where
  nonce : List Byte := []
  cap : List Byte := []
  key : List Byte := []
  attest : Option (List Byte) := none
  cert : List Byte := []
  auth : Bool := false
  report : Bool := false
  txGroups : Nat := 0
  rxGroups : Nat := 0
  crossed : Bool := false
  steps : List Nat := []
  found : List (Option Nat) := []
  rx : List LaneRead := []
  credits : List Nat := []
  offset : Int := 0
  refModule : Nat := 0xFFFFFF
  refHops : Nat := 0xFFF
  module : Nat := 0
  port : Nat := 0
  slices : List Byte := []
  deriving DecidableEq, Repr

/-- What self-test finds at a cold reset (01 R11, 06 R111): cores (by uid) with a failing physical row, tiles that fail otherwise, quadrants
whose spare fails. -/
structure SelfTest where
  rows : List (Nat × Nat) := []
  bad : List Nat := []
  spareBad : List Nat := []
  deriving DecidableEq, Repr

/-- Sensors read (12 R229; 15 R286, R287): the eight of a tile, a wharf die, a stack, the photonic chiplet of a port, the panel under its
laser bank with the bank, in °C. -/
inductive Sample where
  | tile (n : Nat) (temps : List Nat)
  | wharf (w temp : Nat)
  | stack (st temp : Nat)
  | chiplet (p temp : Nat)
  | bank (p panel temp : Nat)
  deriving DecidableEq, Repr

/-- A droop sensor's reading: its number, and how far its local supply has fallen below the rail's set point, in millivolts (15 R283). -/
structure Droop where
  sensor : Nat
  mv : Nat
  deriving DecidableEq, Repr

/-- Hardware that fails in service (14 R272; 01 R9; 15 R295). -/
inductive HwFail where
  | tile (n : Nat)
  | router (site : Nat)
  | stack (st channel : Nat)
  | tollhouse
  | rail
  | pll
  | errq (w : Nat)
  deriving DecidableEq, Repr

/-- The commands. A core is named by uid = 4 × logical tile + core. -/
inductive Instr where
  -- scalar slot (04 R72)
  | sadd (uid d a b : Nat)
  | ssub (uid d a b : Nat)
  | sand (uid d a b : Nat)
  | sor (uid d a b : Nat)
  | sxor (uid d a b : Nat)
  | sshl (uid d a b : Nat)
  | sshr (uid d a b : Nat)
  | ssra (uid d a b : Nat)
  | smin (uid d a b : Nat)
  | smax (uid d a b : Nat)
  | scmpeq (uid d a b : Nat)
  | scmplt (uid d a b : Nat)
  | scmpltu (uid d a b : Nat)
  | saddi (uid d a imm : Nat)
  | ssubi (uid d a imm : Nat)
  | sandi (uid d a imm : Nat)
  | sori (uid d a imm : Nat)
  | sxori (uid d a imm : Nat)
  | sshli (uid d a imm : Nat)
  | sshri (uid d a imm : Nat)
  | ssrai (uid d a imm : Nat)
  | smini (uid d a imm : Nat)
  | smaxi (uid d a imm : Nat)
  | scmpeqi (uid d a imm : Nat)
  | scmplti (uid d a imm : Nat)
  | scmpltui (uid d a imm : Nat)
  | smul (uid d a b : Nat)
  | smulhu (uid d a b : Nat)
  | smulhs (uid d a b : Nat)
  | sld (uid d a imm : Nat)
  | sst (uid d a imm : Nat)
  | scsrr (uid d csr : Nat)
  | scsrw (uid a csr : Nat)
  | br (uid target : Nat)
  | brz (uid a target : Nat)
  | brnz (uid a target : Nat)
  | bri (uid a : Nat)
  | brl (uid d target : Nat)
  -- vector slot (04 R77)
  | vadd (uid : Nat) (f : VArg)
  | vsub (uid : Nat) (f : VArg)
  | vmul (uid : Nat) (f : VArg)
  | vfma (uid : Nat) (f : VArg)
  | vmax (uid : Nat) (f : VArg)
  | vmin (uid : Nat) (f : VArg)
  | vabs (uid : Nat) (f : VArg)
  | vneg (uid : Nat) (f : VArg)
  | vsel (uid : Nat) (f : VArg)
  | vmov (uid : Nat) (f : VArg)
  | vscale (uid : Nat) (f : VArg)
  | vcvt (uid : Nat) (f : VArg)
  | vcmplt (uid : Nat) (f : VArg)
  | vcmpeq (uid : Nat) (f : VArg)
  | viadd (uid : Nat) (f : VArg)
  | visub (uid : Nat) (f : VArg)
  | vimul (uid : Nat) (f : VArg)
  | vand (uid : Nat) (f : VArg)
  | vor (uid : Nat) (f : VArg)
  | vxor (uid : Nat) (f : VArg)
  | vshl (uid : Nat) (f : VArg)
  | vshr (uid : Nat) (f : VArg)
  | vbcast (uid : Nat) (f : VArg)
  | vexp (uid : Nat) (f : VArg)
  | vlog (uid : Nat) (f : VArg)
  | vrcp (uid : Nat) (f : VArg)
  | vrsqrt (uid : Nat) (f : VArg)
  | vtanh (uid : Nat) (f : VArg)
  | vexpsub (uid : Nat) (f : VArg)
  | vnorm (uid : Nat) (f : VArg)
  | vrsum (uid : Nat) (f : VArg)
  | vrmax (uid : Nat) (f : VArg)
  | vrmin (uid : Nat) (f : VArg)
  | vrsegsum (uid : Nat) (f : VArg)
  | vrsegmax (uid : Nat) (f : VArg)
  | vrsegmin (uid : Nat) (f : VArg)
  | vcompress (uid : Nat) (f : VArg)
  | vexpand (uid : Nat) (f : VArg)
  | vopt0 (uid : Nat) (f : VArg)
  | vopt1 (uid : Nat) (f : VArg)
  | vopt2 (uid : Nat) (f : VArg)
  | vopt3 (uid : Nat) (f : VArg)
  -- matrix slot (04 R78)
  | mmul (uid : Nat) (swap win : Bool) (acc row : Nat)
  | mswap (uid : Nat)
  | mshadow (uid : Nat) (part : Bool)
  -- load slot, half 0 or 1 (04 R79)
  | lfeed (uid half : Nat)
  | lvec (uid half v chunk : Nat)
  | lscl (uid half r : Nat)
  | lbind (uid half prog : Nat)
  | lbase (uid half r : Nat)
  | lskip (uid half : Nat)
  | lbind3 (uid half prog : Nat)
  | lbase3 (uid half r : Nat)
  -- store slot (04 R80)
  | tvec (uid v chunk : Nat)
  | tvec16 (uid v chunk : Nat)
  | tvec8 (uid v chunk : Nat)
  | tscl (uid r : Nat)
  | tbind (uid prog : Nat)
  | tbase (uid r : Nat)
  | tskip (uid : Nat)
  -- sync slot (04 R81)
  | ginc (uid tile gate imm : Nat)
  | gadd (uid tile gate s : Nat)
  | gwait (uid tile gate s : Nat)
  | gread (uid tile gate s : Nat)
  | mwait (uid s : Nat)
  | mread (uid s : Nat)
  -- core events
  | bundleIssue (uid : Nat)
  | operationLanding (uid : Nat) (ecc : Option Upset)
  | freezeEnd (uid : Nat)
  | rescaleFreezeEnd (uid : Nat)
  | coreWaitTimeout (uid : Nat)
  /-- The index-th denied request of the tile is granted `cycles` tile cycles after it was first presented. -/
  | requestGrant (tile index cycles : Nat)
  | patrolScrubClaim (tile bank : Nat) (ecc : Option Upset)
  | indexGroupArrival (uid gen : Nat)
  -- flights, gates and barges (09)
  /-- The ring engine's next descriptor of ring r is of the row's class; `ecc` is an event of the image source (14 R267). -/
  | imageLoad (r : Nat) (ecc : Option Upset)
  | flightLaunchAtEnd (r : Nat)
  | flightLaunchAtStart (r : Nat)
  | flightStopAtEop (r : Nat)
  | flightStopAtBundle (r : Nat)
  | barge (r : Nat)
  | gateSet (r : Nat)
  | gateAdd (r : Nat)
  | gateWait (r : Nat)
  | fenceThisRing (r : Nat)
  | fenceOtherRing (r : Nat)
  | haltAndDumpAtCount (r : Nat)
  | haltAndDumpAtMilestone (r : Nat)
  | noOperation (r : Nat)
  | wipeAll (r : Nat)
  | wipeRange (r : Nat)
  /-- The launch of descriptor `count` of ring r: its present step is done. -/
  | launchStepDone (r count : Nat) (ecc : Option Upset)
  | flightRelease (r count : Nat)
  | flightEnd (part : Nat) (turn : FlightTurn)
  | gateUnitApply (tile : Nat)
  | standingBargeFiring (tile entry : Nat)
  | bargeAdmission (id : Nat)
  | bargePieceRead (id : Nat) (ecc : Option Upset)
  | bargeCompletion (id : Nat)
  /-- The index-th transfer on the mesh reaches its endpoint; `ecc` is an event of a partial write there. -/
  | meshTransferDelivery (index : Nat) (ecc : Option Upset)
  | haltNoticeArrival (part fid : Nat) (turn : TileTurn)
  -- the link to the host die, BAR accesses, the function (02, 18)
  /-- `remoteMask` is the mask that the host die advertises at the attempt, one that begins or one under way (02 R28). -/
  | ucieTrainingAttempt (remoteMask : Nat)
  /-- The present step is done: FEAT_HOST_PROFILE as the host die gives it, repaired lanes of the four half modules. -/
  | ucieTrainingStepDone (profile : Nat) (repairs : List Nat)
  /-- `failed` is the mask of modules that did not reach mb_train_ok. -/
  | ucieAttemptTimeout (failed : Nat)
  /-- A lane of half 0 to 3 (module 0 lower, upper, module 1 lower, upper) fails. -/
  | ucieLaneFailure (half : Nat)
  /-- `unacked` lists the completion records (ring, count) not acknowledged at the data-link layer. -/
  | dlActiveLoss (unacked : List (Nat × Nat))
  | hostResetN (unacked : List (Nat × Nat))
  | cplTimeoutExpiry (tag : Nat)
  | hostReadCompletion (tag : Nat) (status : CplStatus) (data : List Byte)
  | barBadAccess (isWrite : Bool)
  | registerWrite (off size data : Nat)
  | msixTableWrite (off size data : Nat)
  -- command rings (03)
  | ringEnable (r : Nat)
  | ringDisable (r : Nat)
  | summaryPoll (p : Nat)
  | pollBackoff (p : Nat)
  | summaryBitmapReturn (p : Nat) (status : CplStatus) (words : List Nat)
  | summaryCasReturn (p word : Nat) (status : CplStatus)
  | doorbellReadReturn (r : Nat) (status : CplStatus) (word : Nat)
  /-- Each descriptor as eight quadwords. -/
  | descriptorReadReturn (r : Nat) (status : CplStatus) (descs : List (List Nat))
  | descriptorComplete (r count : Nat)
  | irqHoldoffExpiry (r : Nat)
  | descriptorWaitTimeout (r count : Nat)
  | stagedSettingTimeout (r count : Nat)
  -- the tollhouse and partitions (16)
  | attestationReportRequest (r : Nat)
  | certificateChainRequest (r : Nat)
  | bmcAttestationReport (nonce : List Byte)
  /-- An image transfer into a slot begins (none) or has ended with these bytes. -/
  | pldmFirmwareTransfer (slot : Nat) (image : Option (List Byte))
  /-- The activation names the next warm or cold reset, or the next cold one. -/
  | pldmActivate (cold : Bool)
  | provisionWrite (root chain sig : List Byte)
  /-- A write of TOLL_CTRL. -/
  | warmReset (data : Nat)
  /-- The present step is done; `failed` lists the tiles that fail the self-test of the third. -/
  | warmResetStepDone (failed : List Nat)
  /-- A write of PART_START with go = 1: the block's bus address. -/
  | partitionStart (block : Nat)
  | partitionStop (block : Nat)
  | startBlockReturn (status : CplStatus) (data : List Byte)
  -- Tarlar ports (11)
  | flitTransmit (p : Nat)
  /-- The line of the receive direction, or of the transmit direction. -/
  | lineSwitch (p : Nat) (rx : Bool)
  /-- A flit on a lane group, with symbols corrected and an uncorrectable codeword of that group. -/
  | flitReceive (p group fecCorr : Nat) (fecBad : Bool) (bytes : List Byte)
  | ackTimeout (p : Nat)
  | retireAnnouncement (p group line : Nat)
  | restoreAnnouncement (p group line : Nat)
  | testPatternReport (p group : Nat) (clean : Bool)
  | rekeyOffer (p : Nat) (key : List Byte) (frame : Nat)
  | rekeyAccept (p : Nat) (key : List Byte)
  | rekeyDecline (p : Nat)
  | rekeyPeriodExpiry (p : Nat)
  | rekeyOfferRepeat (p : Nat)
  | darkRequest (p : Nat) (ack : Bool)
  | lossOfLight (p : Nat)
  | lightDetected (p : Nat)
  | hailStepDone (p : Nat) (h : HailInfo)
  | hailAttemptTimeout (p : Nat)
  | hailBackoffExpiry (p : Nat)
  | wakeToneDetected (p : Nat)
  | wakeToneTimeout (p : Nat)
  | lnkEnable (p : Nat) (on : Bool)
  | lnkRehail (p : Nat)
  -- optics (12)
  | receivedPowerReport (p : Nat) (payload : List Byte)
  | reportsAbsent (p : Nat)
  /-- The change of bias in 0.1 mA that the monitor current of each laser position calls for. -/
  | biasAdjust (p : Nat) (need : List Int)
  | swapNow (p : Nat)
  /-- This end's swap, or the partner's of a wavelength: the readings of its two receive lanes (none: its
  ring found no light). -/
  | laserSwapStepDone (p : Nat) (partner : Option (Nat × List (Option LaneRead)))
  | spareLockTimeout (p : Nat)
  /-- The detuning error of each of the 64 rings in MHz. -/
  | ringLockUpdate (p : Nat) (errs : List Int)
  | ringRangeRetry (p ring : Nat)
  /-- A recalibration begins, or ends with what the 64 columns gave: the slope M_jj of each ring in units of 1/1,024 GHz per mW, and for
  each of the four groups, row by row, the correction of heater i in nW while heater j was toggled. -/
  | xtalkRecalibration (p : Nat) (columns : Option (List Nat × List Int))
  | xtalkNow (p : Nat)
  /-- The readings of each lane; ber_est and uncorrectable codewords of each group; the groups whose test pattern ran clean. -/
  | receiverAdapt (p : Nat) (lanes : List LaneRead) (bers bad clean : List Nat)
  -- routing and the milestone counter (13)
  | milestoneTimestamp (p t1 : Nat) (back : Option (Nat × Nat)) (refModule hops : Nat)
  /-- The oldest message of a virtual channel that arrived on a port, or (16) originated here. -/
  | messageRoute (src vc : Nat)
  /-- The index-th remote message at its ingress wharf die; `ecc` is an event of a partial write. -/
  | remoteWrite (index : Nat) (ecc : Option Upset)
  | remoteGateAdd (index : Nat)
  -- the gradient exchange (10): segments at an exchange wharf and buckets by their index
  | reductionBucketPost (r : Nat)
  | partialSegment (turn : SegTurn)
  | contributionSegment (turn : SegTurn)
  | missingNotice (turn : SegTurn)
  | resultSegment (index : Nat)
  | repeatNotice (index : Nat)
  | trailerSegment (turn : SegTurn)
  | slotLanding (turn : BucketTurn)
  | segmentForward (turn : BucketTurn)
  /-- The deadline of the post that ring r has fetched as descriptor `count` and not dispatched. -/
  | bucketDeadline (r count : Nat)
  | resultTimeout (r count : Nat)
  -- power, clocks and heat (15, 19)
  | powerUpStepDone (t : SelfTest)
  /-- The new input voltage in millivolts. -/
  | inputVoltageChange (mv : Nat)
  | fatalHardwareFailure (what : HwFail)
  | droopTrip (tile : Nat) (x : Droop)
  | droopClear (tile : Nat)
  /-- Conversion efficiency in per mille, power of all but the tiles in milliwatts, input power in watts. -/
  | poolExchange (eff other input : Nat)
  /-- Milliwatts. -/
  | tileDemand (tile mw : Nat)
  | tileGrant (tile : Nat)
  /-- Power measured over 100 µs, in milliwatts. -/
  | tileClockStep (tile mw : Nat)
  | thermalSample (what : Sample)
  | throttleRecheck (tile : Nat)
  | restoreStep (tile : Nat)
  | bmcCapSet (peak sustained : Nat)
  | domainTransitionDone (d : Nat)
  -- settings, error queues, background work (03, 14, 17, 18)
  | stApply (b : Blk)
  | stagedSetting (r : Nat)
  | telemetrySnapshot (r : Nat)
  | errqAck (w ack : Nat)
  /-- Codeword: stack × 402,653,184 + number in the stack. -/
  | hbmCorrectionWriteBack (word : Nat)
  /-- `ecc` names codewords of the burst, 0 to 31, each at most once. -/
  | hbmScrubBurst (st : Nat) (ecc : List Upset)
  | hbmPeriodicTraining (st channel : Nat)
  /-- The trim value found. -/
  | droopSensorTrim (tile sensor value : Nat)
  | thermalSensorTrim (tile sensor value : Nat)
  /-- Another hour has passed; is it the last of a day? -/
  | wearAccounting (day : Bool)
  -- commands without an operand: no operation in a slot (04), and events of the whole module; DESCRIPTOR_FETCH is the fetch of the ring whose
  -- turn it is (03 R46)
  | snop
  | vnop
  | mnop
  | lnop
  | tnop
  | ynop
  | ucieRetrain
  | ucieReleaseHold
  | functionLevelReset
  | d3hotEntry
  | d0Return
  | descriptorFetch
  | attestationSigned
  | bmcCertificateChain
  | pldmCommit
  | commitWindowExpiry
  | provisionRequest
  | bmcFactoryReset
  | bmcWarmResetRequest
  | partitionStartStepDone
  | partitionStopDrained
  | laneRelock
  | milestoneWrap
  | mileRefSet
  | powerUp
  | powerUpStepTimeout
  | overVoltageTimeout
  | inputUnderVoltage
  | sagLimitEntry
  | sagLimitExit
  | presentNHigh
  | wakeN
  | fatalShutdownStepDone
  | pwrWake
  | wakeVoteExpiry
  | flashLogWrite
  | telemetrySample
  | hbmScrubPassDeadline
  deriving DecidableEq, Repr

end Sys2Proof
end

