-- ==== Sys2Proof/Decode.lean ====
section
/-! DEFINITION. The command that a word spells: the rows of spec/opcode_table.json give no bits. -/

namespace Sys2Proof

/-- The command whose table bits are w: none, because no row of the table has bits. -/
def decodeTableWord (_nbits _w : Nat) : Option Instr := none

end Sys2Proof
end

