-- ==== Sys2Proof/Config.lean ====
section
/-! DEFINITION. What the specification leaves open: constants without a body, of which no proof can know a value. -/

namespace Sys2Proof.Config
open Sys2Proof

/-- The result of an operation that the spec states only within an error bound, or not at all, for its operands: what the operation is and
its operands. Equal operands give equal results (08 R167). Log entry 3. -/
opaque opValue : List Nat → BitVec 32
/-- A fresh byte string's byte: use number, position. Log entry 3. -/
opaque freeByte : Nat → Nat → BitVec 8
/-- Does the standby regulator hold at an input below 36 V, in millivolts (15 R281, 19 R343)? Log entry 3. -/
opaque stbyHolds : Nat → Bool
/-- The core that is first in tile cycle 0 of a tile: its number, and the milestone of its last flight launch (05 R96: the phase of the rotation
is not specified). Log entry 3. -/
opaque coreFirst : Nat → Nat → Nat
/-- A fresh natural number: use number. Log entry 3. -/
opaque freeNat : Nat → Nat

/-- The AES-256-GCM key stream applied to bytes: key, IV, bytes (11 R213). It turns plaintext into ciphertext and back. Log entry 6. -/
opaque aeadSeal : List Byte → List Byte → List Byte → List Byte
/-- The tag of the same sealing: key, IV, additional data, plaintext. Log entry 6. -/
opaque aeadTag : List Byte → List Byte → List Byte → List Byte → List Byte
/-- HKDF with SHA-384 (16 R309): secret, label, length. Log entry 6. -/
opaque hkdf : List Byte → List Byte → Nat → List Byte
/-- ECDSA brainpoolP384r1 signature (16 R308): private key, message. Log entry 6. -/
opaque ecdsaSign : List Byte → List Byte → List Byte
/-- ECDSA brainpoolP384r1 verification: public key, message, signature. Log entry 6. -/
opaque ecdsaVerify : List Byte → List Byte → List Byte → Bool
/-- ECDH brainpoolP384r1 shared secret: private key, public key. Log entry 6. -/
opaque ecdh : List Byte → List Byte → List Byte
/-- The public key of a private key. Log entry 6. -/
opaque publicKey : List Byte → List Byte
/-- The certificate chain of the module (16 R306): public keys of the device identity key and of the attestation key, the former's signature
over the latter. Log entry 6. -/
opaque encodeChain : List Byte → List Byte → List Byte → List Byte
/-- The PKCS#10 request of PROVISION_REQUEST (16 R306, R307): the public key of the link identity key, the device identity key's signature.
Log entry 6. -/
opaque encodeRequest : List Byte → List Byte → List Byte
/-- The fixed labels of the derivations of the device identity key and of the key that wraps the link identity key (16 R306). Log entry 6. -/
opaque dikLabel : List Byte
opaque wrapLabel : List Byte
/-- A key wrapped for the flash: wrapping key, key (16 R306). Log entry 6. -/
opaque wrapKey : List Byte → List Byte → List Byte

/-- The bytes of a measured event whose contents the specification does not list (16 R297): event kind, what it concerns.
Log entry 6. -/
opaque measured : Nat → List Nat → List Byte

/-- The module's unique secret (16 R306). Log entry 6. -/
opaque uniqueSecret : List Byte
/-- Does a firmware image's signer chain end in the Lertar firmware root (16 R300)? Log entry 6. -/
opaque signerOk : List Byte → Bool
/-- The key of the certificate that a chain begins with, and of a root certificate (16 R300, R307). Log entry 6. -/
opaque certKey : List Byte → List Byte

/-- The bytes after the kind of a management message whose layout the specification does not give (11 R217): kind, fields.
Log entry 12. -/
opaque ctlBody : Nat → List Nat → List Byte

/-- What an end tells of its capability in a hello, which the specification does not list (11 R223). Log entry 12. -/
opaque capability : List Byte

/-- The bytes of a hail message before its CRC-32, whose layout the specification does not give (11 R223): step, contents. Log entry 12. -/
opaque hailBody : Nat → List (List Byte) → List Byte

/-- The bytes of a telemetry snapshot (16 R316): selector, header values, readings with their value and whether they are withheld.
Log entry 12. -/
opaque snapshot : Nat → List Nat → List (Nat × Nat × Bool) → List Byte

/-- Starting bias of a laser in 0.1 mA and its monitor current, as recorded at the factory: 32 × port + position (12 R230). Log entry 4. -/
opaque startBias : Nat → Nat
opaque monitorRef : Nat → Nat

end Sys2Proof.Config
end

