-- ==== Sys2Proof/Machine/Tables.lean ====
section
/-! DEFINITION. Reading and writing the sparse tables, and small helpers on bits, bytes and lists. -/

namespace Sys2Proof.Machine
open Sys2Proof

/-- What a table holds at a key; `d` is what an unlisted key reads as. -/
def tget {α : Type} (d : Nat → α) : Tbl α → Nat → α
  | [], k => d k
  | (k', v) :: t, k => if k' = k then v else tget d t k

/-- Defaults: 0 and false everywhere. -/
def nat0 : Nat → Nat := fun _ => 0
def falseAt : Nat → Bool := fun _ => false

/-- A table with every entry of a key removed. -/
def terase {α : Type} (k : Nat) (t : Tbl α) : Tbl α := t.filter fun p => p.1 != k

/-- An entry put in front of the first larger key. -/
def tins {α : Type} (k : Nat) (v : α) : Tbl α → Tbl α
  | [] => [(k, v)]
  | (k', v') :: t => if k < k' then (k, v) :: (k', v') :: t else (k', v') :: tins k v t

/-- A table after a write: the canonical form is kept, and the default value leaves no entry. -/
def tset {α : Type} [DecidableEq α] (d : Nat → α) (t : Tbl α) (k : Nat) (v : α) : Tbl α :=
  if v = d k then terase k t else tins k v (terase k t)

/-- The canonical form of a table: keys strictly rising, no entry equal to the default. -/
def twf {α : Type} [DecidableEq α] (d : Nat → α) : Tbl α → Bool
  | [] => true
  | [(k, v)] => decide (v ≠ d k)
  | (k, v) :: (k', v') :: t => decide (k < k') && decide (v ≠ d k) && twf d ((k', v') :: t)

/-- A table after the entries of a list are written in order. -/
def tsetAll {α : Type} [DecidableEq α] (d : Nat → α) (t : Tbl α) : List (Nat × α) → Tbl α
  | [] => t
  | (k, v) :: r => tsetAll d (tset d t k v) r

/-- A table with every listed entry changed: what becomes the default leaves no entry. -/
def tmap {α : Type} [DecidableEq α] (d : Nat → α) (f : Nat → α → α) (t : Tbl α) : Tbl α :=
  t.filterMap fun p => let v := f p.1 p.2; if v = d p.1 then none else some (p.1, v)

/-- Bits hi..lo of a natural number. -/
def nbits (w hi lo : Nat) : Nat := (w >>> lo) % 2 ^ (hi + 1 - lo)
/-- Bit i of a natural number. -/
def nbit (w i : Nat) : Bool := w.testBit i
/-- A natural number with bits hi..lo replaced. -/
def nsetBits (w hi lo v : Nat) : Nat :=
  w - (nbits w hi lo) * 2 ^ lo + (v % 2 ^ (hi + 1 - lo)) * 2 ^ lo
/-- A two's-complement reading of the low w bits. -/
def sint (w v : Nat) : Int :=
  let x := v % 2 ^ w
  if x < 2 ^ (w - 1) then (x : Int) else (x : Int) - (2 ^ w : Nat)
/-- The low w bits of an integer. -/
def uint (w : Nat) (i : Int) : Nat := (i % ((2 ^ w : Nat) : Int)).toNat
/-- 1 for true. -/
def b2n (b : Bool) : Nat := if b then 1 else 0
/-- Addition that saturates at the largest w-bit value. -/
def satAdd (w a b : Nat) : Nat := min (a + b) (2 ^ w - 1)
/-- Ceiling of a quotient. -/
def cdiv (a b : Nat) : Nat := (a + b - 1) / b

/-- The numbers lo, lo + 1, …, n of them. -/
def upFrom (lo n : Nat) : List Nat := (List.range n).map (lo + ·)

/-- The little-endian bytes of a number (00 R6). -/
def leBytes : Nat → Nat → List Byte
  | 0, _ => []
  | n + 1, v => BitVec.ofNat 8 v :: leBytes n (v / 256)
/-- The number that little-endian bytes spell. -/
def leNat : List Byte → Nat
  | [] => 0
  | b :: r => b.toNat + 256 * leNat r
/-- The first n bytes of a list, padded with zeros. -/
def takePad (n : Nat) (l : List Byte) : List Byte := (l ++ List.replicate (n - l.length) 0#8).take n
/-- n bytes from position o of a list, padded with zeros. -/
def sliceB (l : List Byte) (o n : Nat) : List Byte := takePad n (l.drop o)
/-- The list with position i replaced. -/
def lset {α : Type} (l : List α) (i : Nat) (v : α) : List α := l.set i v
/-- The list entry at a position, or the given value. -/
def lget {α : Type} (d : α) (l : List α) (i : Nat) : α := l.getD i d
/-- Sum of a list. -/
def lsum (l : List Nat) : Nat := l.foldl (· + ·) 0
/-- Largest number of a list, 0 for the empty one. -/
def lmax (l : List Nat) : Nat := l.foldl max 0
/-- Do two intervals [a, a+n) and [b, b+m) meet? -/
def overlaps (a n b m : Nat) : Bool := decide (0 < n) && decide (0 < m) && decide (a < b + m) && decide (b < a + n)
/-- Number of set bits among the low n. -/
def popcount (n w : Nat) : Nat := ((List.range n).filter fun i => w.testBit i).length
/-- Lowest set bit among the low n. -/
def lowestSet (n w : Nat) : Option Nat := (List.range n).find? fun i => w.testBit i
/-- Replace the first list entry that satisfies p. -/
def replaceFirst {α : Type} (p : α → Bool) (f : α → α) : List α → List α
  | [] => []
  | a :: r => if p a then f a :: r else a :: replaceFirst p f r
/-- Drop the first list entry that satisfies p. -/
def dropFirst {α : Type} (p : α → Bool) : List α → List α
  | [] => []
  | a :: r => if p a then r else a :: dropFirst p r
/-- Integer square root by Newton's iteration from above, with fuel. -/
def isqrtLoop : Nat → Nat → Nat → Nat
  | 0, _, x => x
  | f + 1, n, x => let y := (x + n / x) / 2; if y < x then isqrtLoop f n y else x
/-- The floor of the square root. -/
def isqrt (n : Nat) : Nat := if n = 0 then 0 else isqrtLoop 1200 n (2 ^ (n.log2 / 2 + 1))

end Sys2Proof.Machine
end

