-- ==== Sys2Proof/Machine/Fp.lean ====
section
/-! DEFINITION. Number formats and rounding (08 R149 to R158): every operand is read as an exact value sign, significand
and power of two, every result is rounded once from the exact value. -/

namespace Sys2Proof.Machine
open Sys2Proof

/-- An exact value: a NaN, an infinity, or (−1)^neg × m × 2^e. -/
inductive FV where
  | nan
  | inf (neg : Bool)
  | fin (neg : Bool) (m : Nat) (e : Int)
  deriving DecidableEq, Repr

/-- What the top exponent of a format means. -/
inductive FStyle where
  /-- Infinity and NaN as IEEE 754. -/
  | ieee
  /-- E4M3: only all ones is NaN. -/
  | e4m3
  /-- MX elements: neither. -/
  | none
  deriving DecidableEq, Repr

/-- A binary format (08 R149). -/
structure FFmt where
  ebits : Nat
  mbits : Nat
  bias : Int
  style : FStyle
  deriving DecidableEq, Repr

def fFP32 : FFmt := ⟨8, 23, 127, .ieee⟩
def fBF16 : FFmt := ⟨8, 7, 127, .ieee⟩
def fFP16 : FFmt := ⟨5, 10, 15, .ieee⟩
def fE4M3 : FFmt := ⟨4, 3, 7, .e4m3⟩
def fE5M2 : FFmt := ⟨5, 2, 15, .ieee⟩
def fE3M2 : FFmt := ⟨3, 2, 3, .none⟩
def fE2M3 : FFmt := ⟨2, 3, 1, .none⟩
def fE2M1 : FFmt := ⟨2, 1, 1, .none⟩

/-- Rounding modes of R155. -/
inductive Rnd where
  | rne | rtz | stoch
  deriving DecidableEq, Repr

/-- Exponent of the last bit of the subnormal range. -/
def FFmt.emin (f : FFmt) : Int := 1 - f.bias - f.mbits
/-- The bits of the largest finite value of a format. -/
def FFmt.maxBits (f : FFmt) : Nat :=
  match f.style with
  | .ieee => (2 ^ f.ebits - 1) * 2 ^ f.mbits - 1
  | .e4m3 => 2 ^ (f.ebits + f.mbits) - 2
  | .none => 2 ^ (f.ebits + f.mbits) - 1
/-- The sign bit's weight. -/
def FFmt.sgn (f : FFmt) (neg : Bool) : Nat := b2n neg * 2 ^ (f.ebits + f.mbits)
def FFmt.infBits (f : FFmt) (neg : Bool) : Nat := f.sgn neg + (2 ^ f.ebits - 1) * 2 ^ f.mbits
/-- The default NaN (R149; E5M2 produces 0x7E, E4M3 0x7F). -/
def FFmt.nanBits (f : FFmt) : Nat :=
  match f.style with
  | .ieee => (2 ^ f.ebits - 1) * 2 ^ f.mbits + 2 ^ (f.mbits - 1)
  | .e4m3 => 2 ^ (f.ebits + f.mbits) - 1
  | .none => 0

/-- The exact value that bits spell in a format. -/
def FFmt.decode (f : FFmt) (w : Nat) : FV :=
  let neg := nbit w (f.ebits + f.mbits)
  let ex := nbits w (f.ebits + f.mbits - 1) f.mbits
  let fr := w % 2 ^ f.mbits
  let top := ex = 2 ^ f.ebits - 1
  if f.style = .ieee ∧ top then (if fr = 0 then .inf neg else .nan)
  else if f.style = .e4m3 ∧ top ∧ fr = 2 ^ f.mbits - 1 then .nan
  else if ex = 0 then .fin neg fr f.emin
  else .fin neg (2 ^ f.mbits + fr) (f.emin + ex - 1)

/-- Significand rounded at bit position q (R155, R156): an exact m × 2^e becomes n × 2^q. `D` is the 32-bit draw. -/
def roundAt (mode : Rnd) (D : Nat) (m : Nat) (e q : Int) : Nat :=
  if q ≤ e then m * 2 ^ (e - q).toNat
  else
    let s := (q - e).toNat
    let n := m / 2 ^ s
    let rem := m % 2 ^ s
    match mode with
    | .rtz => n
    | .rne => if 2 * rem > 2 ^ s ∨ (2 * rem = 2 ^ s ∧ n % 2 = 1) then n + 1 else n
    | .stoch => if rem * 2 ^ 32 / 2 ^ s + D ≥ 2 ^ 32 then n + 1 else n

/-- Bit length of a significand. -/
def bitlen (m : Nat) : Nat := if m = 0 then 0 else m.log2 + 1

/-- A magnitude rounded to a significand of f's precision with an unbounded exponent: (n, q). -/
def roundFree (f : FFmt) (mode : Rnd) (D m : Nat) (e : Int) : Nat × Int :=
  let q := e + bitlen m - (f.mbits + 1)
  (roundAt mode D m e q, q)

/-- A magnitude rounded within f's range of exponents, subnormals kept. -/
def roundSub (f : FFmt) (mode : Rnd) (D m : Nat) (e : Int) : Nat × Int :=
  let q := max f.emin (e + bitlen m - (f.mbits + 1))
  (roundAt mode D m e q, q)

/-- The magnitude bits of n × 2^q, where n has at most mbits + 2 bits; a value past the largest finite one gives none. -/
def FFmt.pack (f : FFmt) (n : Nat) (q : Int) : Option Nat :=
  if n = 0 then some 0
  else
    let n' := if n = 2 ^ (f.mbits + 1) then n / 2 else n
    let q' := if n = 2 ^ (f.mbits + 1) then q + 1 else q
    let w := if n' < 2 ^ f.mbits then n' else (q' - f.emin + 1).toNat * 2 ^ f.mbits + (n' - 2 ^ f.mbits)
    if w ≤ f.maxBits then some w else none

/-- Is the magnitude n × 2^q below the smallest normal value of FP32? -/
def belowNormal (n : Nat) (q : Int) : Bool :=
  decide (n ≠ 0) && decide (q + (bitlen n : Int) - 1 < -126)

/-- An exact value rounded to FP32 bits: `sub` keeps subnormals; without it a result below the normal range, judged
after rounding with an unbounded exponent, becomes zero of its sign (R118, R135). -/
def toF32 (mode : Rnd) (D : Nat) (sub : Bool) : FV → Nat
  | .nan => fFP32.nanBits
  | .inf neg => fFP32.infBits neg
  | .fin neg m e =>
    if m = 0 then fFP32.sgn neg
    else
      let r := if sub then roundSub fFP32 mode D m e else roundFree fFP32 mode D m e
      if !sub && belowNormal r.1 r.2 then fFP32.sgn neg
      else match fFP32.pack r.1 r.2 with
        | some w => fFP32.sgn neg + w
        | none => match mode with
          | .rtz => fFP32.sgn neg + fFP32.maxBits
          | _ => fFP32.infBits neg

/-- A value read from FP32 bits; `sub` = false reads a subnormal as zero of its sign (R135). -/
def ofF32 (sub : Bool) (w : Nat) : FV :=
  match fFP32.decode w with
  | .fin neg m e => if !sub && decide (m < 2 ^ 23) then .fin neg 0 0 else .fin neg m e
  | v => v

def FV.neg : FV → FV
  | .nan => .nan
  | .inf n => .inf !n
  | .fin n m e => .fin (!n) m e

/-- Signed significand. -/
def smant (neg : Bool) (m : Nat) : Int := if neg then -(m : Int) else m

/-- The exact sum; ∞ − ∞ is NaN, and x + (−x) is +0 except −0 + −0. -/
def FV.add : FV → FV → FV
  | .nan, _ => .nan
  | _, .nan => .nan
  | .inf a, .inf b => if a = b then .inf a else .nan
  | .inf a, _ => .inf a
  | _, .inf b => .inf b
  | .fin n1 m1 e1, .fin n2 m2 e2 =>
    if m1 = 0 ∧ m2 = 0 then .fin (n1 && n2) 0 0
    else if m1 = 0 then .fin n2 m2 e2
    else if m2 = 0 then .fin n1 m1 e1
    else
      let e := min e1 e2
      let v := smant n1 (m1 * 2 ^ (e1 - e).toNat) + smant n2 (m2 * 2 ^ (e2 - e).toNat)
      .fin (decide (v < 0)) v.natAbs e

def FV.sub (a b : FV) : FV := a.add b.neg

def FV.mul : FV → FV → FV
  | .nan, _ => .nan
  | _, .nan => .nan
  | .inf a, .inf b => .inf (a != b)
  | .inf a, .fin n m _ => if m = 0 then .nan else .inf (a != n)
  | .fin n m _, .inf b => if m = 0 then .nan else .inf (n != b)
  | .fin n1 m1 e1, .fin n2 m2 e2 => .fin (n1 != n2) (m1 * m2) (e1 + e2)

/-- Multiplication by 2^k. -/
def FV.scale2 (k : Int) : FV → FV
  | .fin n m e => .fin n m (e + k)
  | v => v

/-- Number of quotient bits kept beyond the operands, with a sticky bit for the rest. -/
def quotBits : Nat := 140

/-- A quotient as a value whose relative error is below 2^−120, exact where the division ends; IEEE special values. -/
def FV.div : FV → FV → FV
  | .nan, _ => .nan
  | _, .nan => .nan
  | .inf _, .inf _ => .nan
  | .inf a, .fin n _ _ => .inf (a != n)
  | .fin n _ _, .inf b => .fin (n != b) 0 0
  | .fin n1 m1 e1, .fin n2 m2 e2 =>
    if m2 = 0 then (if m1 = 0 then .nan else .inf (n1 != n2))
    else
      let k := quotBits + bitlen m2
      let num := m1 * 2 ^ k
      let q := num / m2
      .fin (n1 != n2) (2 * q + b2n (decide (num % m2 ≠ 0))) (e1 - e2 - k - 1)

/-- A square root with 300 fraction bits, exact where the root ends; negative operands give NaN. -/
def FV.sqrt : FV → FV
  | .nan => .nan
  | .inf n => if n then .nan else .inf false
  | .fin n m e =>
    if m = 0 then .fin n 0 0
    else if n then .nan
    else
      let e' := if e % 2 = 0 then e else e - 1
      let m' := (if e % 2 = 0 then m else 2 * m) * 2 ^ 600
      let r := isqrt m'
      .fin false (2 * r + b2n (decide (r * r ≠ m'))) (e' / 2 - 300 - 1)

/-- a < b on exact values; NaN compares false. -/
def FV.lt : FV → FV → Bool
  | .nan, _ => false
  | _, .nan => false
  | .inf a, .inf b => a && !b
  | .inf a, .fin _ _ _ => a
  | .fin _ _ _, .inf b => !b
  | .fin n1 m1 e1, .fin n2 m2 e2 =>
    let e := min e1 e2
    decide (smant n1 (m1 * 2 ^ (e1 - e).toNat) < smant n2 (m2 * 2 ^ (e2 - e).toNat))

/-- a = b on exact values; NaN compares false, −0 = +0. -/
def FV.eqv (a b : FV) : Bool := decide (a ≠ .nan) && decide (b ≠ .nan) && !a.lt b && !b.lt a
def FV.isNan (a : FV) : Bool := decide (a = .nan)
def FV.abs : FV → FV
  | .nan => .nan
  | .inf _ => .inf false
  | .fin _ m e => .fin false m e
def FV.ofInt (i : Int) : FV := .fin (decide (i < 0)) i.natAbs 0
def FV.isNeg : FV → Bool
  | .inf n => n
  | .fin n m _ => n && decide (m ≠ 0)
  | .nan => false
def FV.isZero : FV → Bool
  | .fin _ m _ => decide (m = 0)
  | _ => false
def FV.zero (neg : Bool) : FV := .fin neg 0 0
def FV.one : FV := .fin false 1 0

/-- An exact value rounded to an integer (R137, R155, R156): the rounding acts on the magnitude. -/
def toInt (mode : Rnd) (D : Nat) : FV → Int
  | .fin neg m e => smant neg (roundAt mode D m e 0)
  | _ => 0

/-- An arithmetic right shift of an integer that rounds to nearest even (R124, R125). -/
def shrRne (i : Int) (k : Nat) : Int :=
  if k = 0 then i else smant (decide (i < 0)) (roundAt .rne 0 i.natAbs 0 k)

/-- Clamp to the w-bit two's-complement range. -/
def clampInt (w : Nat) (i : Int) : Int := max (-(2 ^ (w - 1) : Nat)) (min ((2 ^ (w - 1) : Nat) - 1) i)
/-- Does an integer leave the 32-bit range? -/
def ovf32 (i : Int) : Bool := decide (clampInt 32 i ≠ i)

/-- A conversion from an FP32 value to a narrow floating format (R137): overflow by format and mode, subnormals kept. -/
def toNarrow (f : FFmt) (mode : Rnd) (D : Nat) : FV → Nat
  | .nan => f.nanBits
  | .inf neg => if f.style = .ieee then f.infBits neg else f.sgn neg + f.maxBits
  | .fin neg m e =>
    if m = 0 then f.sgn neg
    else
      let r := roundSub f mode D m e
      match f.pack r.1 r.2 with
      | some w => f.sgn neg + w
      | none =>
        if f.style = .ieee ∧ f.ebits ≠ 5 ∨ f.mbits = 10 then
          (if mode = .rtz then f.sgn neg + f.maxBits else f.infBits neg)
        else f.sgn neg + f.maxBits

/-- FP32 sum of the array, the drain and the wharf adders: to nearest even, flushed (R118). -/
def addF32 (a b : Nat) : Nat := toF32 .rne 0 false ((fFP32.decode a).add (fFP32.decode b))
/-- An exact value as FP32, to nearest even, flushed. -/
def flushF32 (v : FV) : Nat := toF32 .rne 0 false v

/-- The counter-based generator of R157. -/
def mix64 (x : BitVec 64) : BitVec 64 :=
  let x := (x ^^^ (x >>> 30)) * 0xBF58476D1CE4E5B9#64
  let x := (x ^^^ (x >>> 27)) * 0x94D049BB133111EB#64
  x ^^^ (x >>> 31)
/-- One 32-bit draw: seed, uid, bundle issue count, element, destination select (R157). -/
def draw (seed : Word64) (uid b e dsel : Nat) : Nat :=
  let key := seed ^^^ (BitVec.ofNat 64 uid <<< 56)
  let ctr := (BitVec.ofNat 64 b <<< 16) ||| (BitVec.ofNat 64 e <<< 4) ||| BitVec.ofNat 64 dsel
  (mix64 (key ^^^ mix64 ctr)).toNat >>> 32

/-! ### Results stated within a bound (R140, R142, R146) -/

/-- 2^200, the unit of the fixed-point evaluations. -/
def fx : Nat := 2 ^ 200

/-- Sum of r^i / i! for i from 0, in units of 2^−200; `t` is the current term. -/
def expSeries : Nat → Nat → Nat → Nat → Nat
  | 0, _, _, _ => 0
  | f + 1, i, r, t => t + expSeries f (i + 1) r (t * r / fx / (i + 1))

/-- Sum of y^(2i+1)/(2i+1), in units of 2^−200: artanh y; `t` is y^(2i+1). -/
def atanhSeries : Nat → Nat → Nat → Nat → Nat
  | 0, _, _, _ => 0
  | f + 1, i, y2, t => t / (2 * i + 1) + atanhSeries f (i + 1) y2 (t * y2 / fx)

/-- ln 2 in units of 2^−200: 2 artanh (1/3). -/
def ln2Fx : Nat := let y := fx / 3; 2 * atanhSeries 70 0 (y * y / fx) y

/-- A finite value in units of 2^−200, toward zero, as an integer. -/
def FV.toFx : FV → Int
  | .fin n m e => smant n (roundAt .rtz 0 m e (-200))
  | _ => 0

/-- e^x of a finite value, relative error below 2^−100 (the argument is limited to ±2^10, beyond which every format
over- or underflows). -/
def expFV (v : FV) : FV :=
  match v with
  | .nan => .nan
  | .inf n => if n then .zero false else .inf false
  | .fin n m e =>
    if m = 0 then .one
    else if !(FV.lt v.abs (.fin false 1024 0)) then (if n then .fin false 1 (-2000) else .fin false 1 2000)
    else
      let x : Int := v.toFx
      let k : Int := x / (ln2Fx : Int)
      let r := (x - k * ln2Fx).toNat
      -- a nearly zero argument keeps its sign through the sticky bit of 1 + x
      if !(FV.lt (.fin false 1 (-150)) v.abs) then (FV.add .one (.fin n m e))
      else .fin false (expSeries 60 0 r fx) (k - 200)

/-- ln x of a positive finite value. -/
def lnFV (v : FV) : FV :=
  match v with
  | .fin _ m e =>
    if m = 0 then .inf true
    else
      -- m = 2^(b−1) × f with 1 ≤ f < 2; use f/2 when f > 4/3 so that the logarithm near 1 keeps its precision
      let b := bitlen m
      let up := decide (3 * m > 4 * 2 ^ (b - 1))
      let k : Int := e + (if up then (b : Int) else (b : Int) - 1)
      let den : Nat := if up then 2 ^ b else 2 ^ (b - 1)
      let d : Int := (m : Int) - den
      let y := (d.natAbs * fx) / (m + den)
      let l : Int := smant (decide (d < 0)) (2 * atanhSeries 70 0 (y * y / fx) y)
      let t := l + k * ln2Fx
      .fin (decide (t < 0)) t.natAbs (-200)
  | v => v

/-- tanh x of a finite value. -/
def tanhFV (v : FV) : FV :=
  match v with
  | .nan => .nan
  | .inf n => .fin n 1 0
  | .fin n m e =>
    if m = 0 then v
    else if FV.lt v.abs (.fin false 1 (-30)) then
      -- x − x³/3, relative error below 2^−110
      v.sub ((v.mul (v.mul v)).div (.fin false 3 0))
    else
      let t := expFV (.fin false m (e + 1))
      let q := (t.sub .one).div (t.add .one)
      if n then q.neg else q

/-- One unit in the last place of FP32 at an exact value: 2^q of its 24-bit significand, no smaller than the last
subnormal bit. -/
def ulpAt (v : FV) : FV :=
  match v with
  | .fin _ m e => if m = 0 then .fin false 1 fFP32.emin
      else .fin false 1 (max fFP32.emin (e + bitlen m - 24))
  | v => v

/-- Is FP32 result r within B ulp of the exact value v? A margin of 2^−40 ulp covers the error of v itself. -/
def within (B : Nat) (v : FV) (r : Nat) : Bool :=
  match fFP32.decode r, v with
  | .fin n m e, .fin _ _ _ =>
    let dist := ((FV.fin n m e).sub v).abs
    match ulpAt v with
    | .fin _ um ue => !(FV.lt (.fin false (um * (B * 2 ^ 40 + 1)) (ue - 40)) dist)
    | _ => false
  | _, _ => false

/-- A result that the spec states only within B ulp: the free value where it lies within the bound, else the value
rounded to nearest. Infinities, NaN and zeros of the exact value are as they are; subnormal results follow `sub`. -/
def nearF32 (B : Nat) (sub : Bool) (free : Nat) (v : FV) : Nat :=
  match v with
  | .fin _ m _ =>
    if m = 0 ∨ nbits (toF32 .rne 0 true v) 30 23 = 255 then toF32 .rne 0 sub v
    else if within B v free then toF32 .rne 0 sub (fFP32.decode free)
    else toF32 .rne 0 sub v
  | v => toF32 .rne 0 sub v

end Sys2Proof.Machine
end

