-- ==== Sys2Proof/Machine/StCore.lean ====
section
/-! DEFINITION. The records of the State that belong to cores, scratchpads and flights (04 to 09). -/

namespace Sys2Proof.Machine
open Sys2Proof

/-- The slots of a bundle, in the priority order of R68, lowest first; their numbers are the slot codes of CSR_COLL (R75). -/
inductive Slot where
  | y | s | l | t | v | m
  deriving DecidableEq, Repr

/-- A write that lands on one write unit of a core (R68). -/
inductive Wr where
  /-- A scalar register. -/
  | sreg (d : Nat) (v : Word64)
  /-- Elements of one vector-register chunk: register, chunk, (element, value). -/
  | vch (r j : Nat) (els : List (Nat × Word32))
  /-- Bits of one predicate-register chunk. -/
  | pch (p j : Nat) (bits : List (Nat × Bool))
  /-- A scalar register that takes the milestone counter as sampled at the landing (04 R81, 15 R292). -/
  | smile (d : Nat)
  /-- A CSR. -/
  | csr (n : Nat) (v : Word64)
  /-- The state of an address generator: a bind. -/
  | gbind (g prog : Nat)
  /-- The state of an address generator: a new base. -/
  | gbase (g v : Nat)
  /-- An entry of the feeder FIFO. -/
  | fifo (e : List Byte)
  /-- Bytes of the tile scratchpad. -/
  | sp (off : Nat) (bytes : List Byte)
  deriving DecidableEq, Repr

/-- An uncorrectable lane-line met by a read: lane index × 8,192 + line, and the earlier entry that an escalation names (05 R98, 14 R274). -/
structure UeAt where
  ll : Nat
  esc : Option Nat := none
  deriving DecidableEq, Repr

/-- What the bytes of a scratchpad read become (R79, R94). -/
inductive LdKind where
  | feed
  | vec (v chunk : Nat)
  | scl (d : Nat)
  deriving DecidableEq, Repr

/-- An operation issued and not yet landed (R66). -/
structure Fly where
  due : Nat
  slot : Slot
  seq : Nat
  /-- Which output of the operation: a chunk number, or 0. -/
  tag : Nat := 0
  bundle : Nat
  rep : Nat
  writes : List Wr := []
  /-- The data have not reached the core boundary yet: their lanes were denied (R97). -/
  wait : Bool := false
  /-- Sticky flags set when the result lands (R141, R142). -/
  sticky : Nat := 0
  /-- A scratchpad read whose lanes are not granted yet: what it becomes, and its byte ranges (offset, length). -/
  load : Option (LdKind × List (Nat × Nat)) := none
  /-- The lane-lines the operation has read (for ECC events). -/
  segs : List (Nat × Nat) := []
  /-- Tile cycles of denial not yet spent as a freeze (R97); while the data wait for their lanes, the cycles the core has spent standing
  still since. -/
  late : Nat := 0
  /-- The lowest element or column of a NaN result, and nan_halt as captured (R147, R163, R165). -/
  nan : Option (Nat × Bool) := none
  /-- An uncorrectable lane-line it read. -/
  ue : Option UeAt := none
  deriving DecidableEq, Repr

/-- A generator's read of an index group: offset, buffer B?, granted?, the core cycle of the grant, bytes (R103); the bundle and repeat
index of the operation that asked for it, and an uncorrectable lane-line it met (R98). -/
structure GrpRead where
  off : Nat
  bufB : Bool
  granted : Bool
  at_ : Nat
  data : List Byte
  bundle : Nat
  rep : Nat
  ue : Option UeAt
  deriving DecidableEq, Repr

/-- An address generator (05 R99). -/
structure Gen where
  prog : Nat := 0
  bound : Bool := false
  ended : Bool := false
  wraps : Nat := 0
  base : Nat := 0
  i : List Nat := [0, 0, 0, 0, 0, 0]
  count : Nat := 0
  grpA : Option (Nat × List Byte) := none
  grpB : Option (Nat × List Byte) := none
  /-- Was buffer B the one the last access used? A miss before any access goes into B (05 R103; DESIGN CHOICE, log entry 16). -/
  lastB : Bool := false
  /-- Group reads asked for and not arrived, oldest first. -/
  reads : List GrpRead := []
  deriving DecidableEq, Repr

/-- The vector opcodes (04 R77). -/
inductive VOpc where
  | vadd | vsub | vmul | vfma | vmax | vmin | vabs | vneg | vsel | vmov | vscale | vcvt | vcmplt | vcmpeq
  | viadd | visub | vimul | vand | vor | vxor | vshl | vshr | vbcast
  | vexp | vlog | vrcp | vrsqrt | vtanh | vexpsub | vnorm
  | vrsum | vrmax | vrmin | vrsegsum | vrsegmax | vrsegmin | vcompress | vexpand
  | vopt0 | vopt1 | vopt2 | vopt3
  deriving DecidableEq, Repr

/-- The operand elements of one chunk of a vector operation, and whether its predicate bits are among them yet; of a window chunk also its
lanes, an uncorrectable lane-line among them, and its lateness (as `Fly.late`). -/
structure VChunk where
  j : Nat
  xa : List Word32
  xb : List Word32
  xc : List Word32
  xp : List Bool
  pred : Bool := true
  segs : List (Nat × Nat) := []
  ue : Option UeAt := none
  late : Nat := 0
  deriving DecidableEq, Repr

/-- A vector operation whose chunks are still being read (07 R131): fields of R76, captured CSRs, operands read so far. -/
structure VJob where
  op : VOpc
  vd : Nat
  va : Nat
  vb : Nat
  vc : Nat
  pm : Nat
  n : Nat
  rnd : Nat
  fmt : Nat
  sr : Nat
  src : Nat
  t : Nat
  seq : Nat
  bundle : Nat
  rep : Nat
  bcnt : Nat
  sval : Word64
  round : Word64
  seed : Word64
  win : Word64
  prec : Word64
  nanHalt : Bool
  /-- Has the operation reported a NaN already? It counts once (08 R163). -/
  nanDone : Bool
  /-- Chunks read, chunks whose window lanes were denied, and the output chunks already sent to land. -/
  chunks : List VChunk
  waiting : List VChunk
  emitted : List Nat
  /-- The element that VBCAST broadcasts, and the chunk of scales that a widening MX conversion reads at t. -/
  bval : Word32
  scales : List Word32
  deriving DecidableEq, Repr

/-- One MMUL in the feeder, the array or the drain (06 R109, R119, R122, R125). -/
structure MMul where
  t : Nat
  seq : Nat
  bundle : Nat
  rep : Nat
  entry : List Byte
  fmt : Nat
  passes : Nat
  ovfWrap : Bool
  kstep : Nat
  /-- The feed bank of each term vector fed so far: is it Y (06 R113)? -/
  banks : List Bool
  acc : Nat
  win : Nat
  row : Nat
  off : Nat
  paired : Bool
  c : Nat
  nanHalt : Bool
  /-- Column sums of the term vector in the array, per term: FP32 bits or two's complement integers. -/
  sums : List (List Int)
  /-- MXINT8: sums of the block in progress. -/
  blk : List Int
  /-- Per column: the sign of the first sum that left the INT32 range, 0 where none did (06 R124). -/
  ovf : List Int
  /-- D2's combination of the terms so far. -/
  d2 : List Int
  /-- The window row read at the drain, and the MMUL whose pending row it forwards. -/
  base : List Byte
  fwd : Option Nat
  /-- Has its drain read been presented, have its lanes been read, and the uncorrectable lane-line met there (05 R98; 06 R119)? -/
  reading : Bool
  lanes : Bool := false
  met : Option UeAt := none
  ue : Bool
  /-- The row to be written. -/
  out : Option (List Byte)
  deriving DecidableEq, Repr

/-- An MSHADOW in progress (06 R112): target bank, part, rows presented, captured format; `due` is t + 128. -/
structure Shadow where
  t : Nat
  bankY : Bool
  part : Bool
  none_ : Bool
  fmt : Nat
  row : Nat
  /-- The grant cycle of the last row; no row is presented before it is granted. -/
  lastGrant : Option Nat
  /-- The row presented and denied: its byte ranges. -/
  pend : Option (List (Nat × Nat))
  /-- Granted rows, written in the core cycle after their grant: row, bytes, cycle of the write. -/
  wr : List (Nat × List Byte × Nat)
  early : Bool
  /-- ag3 was at fault at its next row: it presents no more (04 R86). -/
  shut : Bool := false
  /-- The MSHADOW's bundle and repeat index, and the granted rows that have not landed: landing cycle, byte ranges, uncorrectable
  lane-line. -/
  bundle : Nat
  rep : Nat
  reads : List (Nat × List (Nat × Nat) × Option UeAt)
  deriving DecidableEq, Repr

/-- Freeze causes (04 R84). -/
inductive FrzCause where
  | dataLate | writeBack | ecc | rescale
  /-- A swap waits for a shadow load; the tile cycle in which it began to. -/
  | shadowLate (t0 : Nat)
  /-- An access waits for the index group at an offset; the tile cycle in which it began to. -/
  | index (g off t0 : Nat)
  deriving DecidableEq, Repr

/-- A freeze cause in force, in order of detection; the duration is known once the cause has cleared or is of fixed length. -/
structure Freeze where
  cause : FrzCause
  seq : Nat
  dur : Option Nat
  deriving DecidableEq, Repr

/-- A gate increment held until every earlier write has landed (04 R82). -/
structure HeldInc where
  rel : Nat
  seq : Nat
  tile : Nat
  gate : Nat
  amount : Nat
  bundle : Nat
  rep : Nat
  deriving DecidableEq, Repr

/-- What a held bundle awaits (04 R83). -/
inductive Await where
  | gate (ref target : Nat)
  | mile (m : Nat)
  deriving DecidableEq, Repr

/-- Life of a core. -/
inductive CorePhase where
  /-- No flight. -/
  | idle
  /-- Loaded, not yet released. -/
  | armed
  /-- Issuing. -/
  | run
  /-- Stopped at a halt point, a notice, a stop or a dump point: issued operations still land. -/
  | stopped
  /-- eop issued: operations still land. -/
  | ended
  /-- Everything has landed. -/
  | done
  deriving DecidableEq, Repr

/-- One core (04 R62). -/
structure CoreSt where
  phase : CorePhase := .idle
  part : Nat := 0
  flight : Nat := 0
  stage : Nat := 0
  arg : Nat := 0
  sregs : Tbl Word64 := []
  vregs : Tbl Word32 := []
  pregs : Tbl Bool := []
  gens : Tbl Gen := []
  progs : Tbl Word64 := []
  imem : Tbl (BitVec 256) := []
  csrs : Tbl Word64 := []
  fifo : List (List Byte) := []
  lastVec : List Byte := []
  bankX : Tbl (BitVec 16) := []
  bankY : Tbl (BitVec 16) := []
  scaleX : Tbl Byte := []
  scaleY : Tbl Byte := []
  feedY : Bool := false
  rowShift : Tbl Nat := []
  redirects : List (Nat × Nat) := []
  pos : Nat := 0
  pc : Nat := 0
  rep : Nat := 0
  bcount : Nat := 0
  cyc : Nat := 0
  seq : Nat := 0
  flies : List Fly := []
  vjobs : List VJob := []
  vbusy : Nat := 0
  mbusy : Nat := 0
  /-- The shadow loads under way, oldest first. -/
  shadows : List Shadow := []
  shadowBusy : Nat := 0
  mms : List MMul := []
  held : List HeldInc := []
  freezes : List Freeze := []
  /-- A held bundle: what it awaits and the milestone at which the hold began. -/
  wait : Option (Await × Nat) := none
  cntData : Nat := 0
  cntWrite : Nat := 0
  cntEcc : Nat := 0
  cntShadow : Nat := 0
  cntWait : Nat := 0
  /-- How the stop was reached, for the dump record (R88): 0 count, 1 milestone, 2 ended before, 3 held, 4 frozen; 5 halted by itself, which
  the record shows as 2 (DESIGN CHOICE, log entry 16). -/
  stopState : Nat := 0
  stopMile : Nat := 0
  landedAfter : Nat := 0
  deriving DecidableEq, Repr

/-- Who holds a lane in the current tile cycle (05 R94, R95). -/
inductive Requester where
  | scrub
  | core (uid : Nat)
  | barge (id : Nat)
  /-- A remote message at the mesh endpoint (13 R257). -/
  | remote
  deriving DecidableEq, Repr

/-- A granted claim of the current tile cycle: lane index, line, requester, write. -/
structure Claim where
  lane : Nat
  line : Nat
  who : Requester
  write : Bool
  deriving DecidableEq, Repr

/-- What a denied request is (05 R97). -/
inductive ReqKind where
  /-- L0, L1 or SLD: 0, 1, 2. -/
  | load (seq unit : Nat)
  /-- T slot or SST: 0, 1. -/
  | store (seq unit : Nat)
  | drainRead (seq : Nat)
  | drainWrite (seq : Nat)
  | shadowRow
  | winop (seq chunk : Nat)
  | index (g off : Nat)
  | bargePiece
  deriving DecidableEq, Repr

/-- Where a request that waits stands in the present tile cycle: it is being presented, has been denied in it, or is put up for the next one. -/
inductive Turn where
  | asks | denied | next
  deriving DecidableEq, Repr
/-- A waiting request with the number of earlier tile cycles in which it has been denied. -/
structure Denied where
  who : Requester
  kind : ReqKind
  segs : List (Nat × Nat)
  write : Bool
  count : Nat
  turn : Turn
  deriving DecidableEq, Repr

/-- Who issued a transfer: it halts when the transfer is dropped. -/
inductive Issuer where
  | core (uid bundle rep : Nat)
  | ring (r count : Nat)
  | barge (id : Nat)
  | none
  deriving DecidableEq, Repr

/-- A gate operation that arrived in the current tile cycle (09 R175): gate, set?, value, mesh port N E S W local, and whose it is. -/
structure GateOp where
  gate : Nat
  set : Bool
  value : Nat
  port : Nat
  who : Issuer
  deriving DecidableEq, Repr

/-- A standing barge armed on a tile engine (09 R179): its entry, the gate bases, and its firings. -/
structure Standing where
  part : Nat
  flight : Nat
  entry : List Word64
  bT : Nat
  bC : Nat
  admitted : Nat
  completed : Nat
  armed : Bool
  deriving DecidableEq, Repr

/-- The lane-lines and engine of one logical tile. -/
structure TileSt where
  gates : Tbl (BitVec 32) := []
  gateOps : List GateOp := []
  tcyc : Nat := 0
  claims : List Claim := []
  /-- The cores that have acted in this tile cycle, each with the core cycle of its action (05 R96, R97). -/
  acted : List (Nat × Nat) := []
  /-- Barge or mesh pieces that rank below every core have their lanes in this tile cycle: cores come in the next one (05 R96). -/
  closed : Bool := false
  /-- The milestone at which a flight was last launched on the tile; the phase of the cores' rotation may differ from launch to launch (05 R96). -/
  rot : Nat := 0
  /-- barge_guard as it stood when this tile cycle began (05 R108). -/
  guard : Nat := 8
  denied : List Denied := []
  /-- Requests of barge and mesh pieces that have been granted after a denial, and whose access the next command of the piece makes. -/
  won : List Denied := []
  /-- Patrol scrub: per bank the next line, and the line whose correction it writes at its next claim; the banks whose pass is complete
  (17 R321), one bit each. -/
  scrubLine : Tbl Nat := []
  scrubDone : Nat := 0
  scrubFix : Tbl (Option Nat) := []
  /-- Lane-lines with an uncorrectable error, and with a correction queued (syndrome + 1). -/
  ue : Tbl Bool := []
  ce : Tbl Nat := []
  /-- Queue index of the correction entry being handled, per lane-line. -/
  ceEntry : Tbl Nat := []
  standing : Tbl (Option Standing) := []
  deriving DecidableEq, Repr

/-- Endpoints of the mesh (01 R14, R15). -/
inductive MeshDst where
  | tile (n : Nat)
  | wharf (w : Nat)
  /-- The host port on N0, which every started partition owns (01 R17). -/
  | host
  /-- The routing of remote messages: the sender's own partition (13 R257). -/
  | remote
  deriving DecidableEq, Repr

/-- What a mesh transfer carries. -/
inductive MeshLoad where
  /-- An increment of a gate of the destination tile, and the port it arrives at (09 R175). -/
  | gateAdd (gate amount port : Nat)
  /-- A new value of a gate. -/
  | gateSet (gate value port : Nat)
  /-- A piece of a barge: its number, address and bytes. -/
  | piece (barge index dpa : Nat) (bytes : List Byte)
  deriving DecidableEq, Repr

/-- A transfer on the mesh, with its partition tag (01 R15). -/
structure MeshX where
  tag : Nat
  dst : MeshDst
  load : MeshLoad
  who : Issuer
  deriving DecidableEq, Repr

/-- Steps of a launch (09 R172). -/
inductive LaunchStep where
  | check | idleCores | copy | gates | arm | release | running
  deriving DecidableEq, Repr

/-- How a flight was told to stop. A dump's stopping point stands in the dump. -/
inductive StopKind where
  | none | atEop | atBundle | halt
  deriving DecidableEq, Repr

/-- A running flight (09 R172, R173, R184). -/
structure Flight where
  part : Nat
  fid : Nat
  image : Nat
  dpa : Nat
  len : Nat
  ring : Nat
  count : Nat
  atStart : Bool
  arg : Nat
  startMile : Nat
  step : LaunchStep
  cores : List Nat
  tiles : List Nat
  ts : Nat
  stop : StopKind
  /-- Queue index of the first halting entry. -/
  haltIx : Option Nat
  /-- Status of a mesh drop: 0x4D instead of 0x4A. -/
  dropped : Bool
  /-- Tiles a halt notice has not reached yet. -/
  notices : List Nat
  clockMhz : Nat
  /-- The clock of each of its tiles under clock_mhz, and whether all of them follow a common value (09 R183). -/
  clocks : List Nat := []
  common : Bool := false
  /-- Tiles whose standing barges a notice has disarmed, with the number armed at that moment (09 R187). -/
  disarmed : List (Nat × Nat) := []
  /-- Its ring has dropped its launch descriptor, which no outcome of it reaches (03 R60). -/
  orphan : Bool := false
  deriving DecidableEq, Repr

end Sys2Proof.Machine
end

