-- ==== Sys2Proof/Machine/StRing.lean ====
section
/-! DEFINITION. The records of the State that belong to the UCIe link, the command rings, the barges and the images
(02, 03, 09). -/

namespace Sys2Proof.Machine
open Sys2Proof

/-- A posted memory write on the UCIe link: bus address and bytes (02 R357). -/
structure Posted where
  addr : Nat
  data : List Byte
  deriving DecidableEq, Repr

/-- The UCIe link's training (02 R24 to R33). -/
structure LinkSt where
  /-- Steps completed of the attempt under way; none when no attempt runs. -/
  step : Option Nat := none
  localMask : Nat := 0
  /-- The host die's mask as last advertised; before any exchange both modules (DESIGN CHOICE, log entry 4). -/
  remoteMask : Nat := 3
  /-- The host die has not advertised its mask yet at the attempt under way (R28). -/
  asked : Bool := false
  /-- Modules whose repairs in this attempt exceed R23, or that failed without lane repair. -/
  failed : Nat := 0
  /-- Attempts with an empty intersection of masks since the link was last up (02 R30). -/
  empty : Nat := 0
  /-- Repaired lanes of each half: module 0 lower, upper, module 1 lower, upper. -/
  repaired : List Nat := [0, 0, 0, 0]
  /-- A retrain that keeps DL_Active stalls the link's traffic (R32). -/
  stalled : Bool := false
  /-- Posted writes held by such a stall, in link order (R32). -/
  held : List Posted := []
  /-- The function is in D3hot (R37). -/
  d3hot : Bool := false
  deriving DecidableEq, Repr

/-- What a non-posted request of the Kendidor is for (02 R357). -/
inductive ReqFor where
  | bitmap (p : Nat)
  | cas (p word : Nat) (seen : Nat)
  | doorbell (r : Nat)
  | desc (r first n : Nat)
  | startBlock
  /-- One contiguous run of the source of a barge's piece (01 R18). -/
  | piece (barge index run : Nat)
  | source (r count : Nat)
  /-- Bytes of the buffer, in the host window, of a bucket post: its ring and count (01 R18). -/
  | buffer (r count : Nat)
  deriving DecidableEq, Repr

/-- An outstanding non-posted request: tag, bus address, bytes, timeout in milliseconds captured at issue (02 R32). -/
structure HostReq where
  tag : Nat
  addr : Nat
  len : Nat
  timeout : Nat
  kind : ReqFor
  deriving DecidableEq, Repr

/-- What a bucket post captures at its dispatch (10 R190): its group entry and that entry's LV fields. -/
structure PostCap where
  grp : Nat
  ovfWrap : Bool
  scaleStep : Nat
  resultTo : Nat
  /-- Its dispatch did not come before its deadline (R206). -/
  late : Bool
  deriving DecidableEq, Repr

/-- What a dispatched descriptor still waits for (03 R50). -/
inductive Work where
  /-- Nothing: status, result, and the queue index of an entry the halting unit has made. -/
  | judged (status result : Nat) (entry : Option Nat)
  | barge (id : Nat)
  | gateWait (ref target timeout : Nat)
  | fence (other : Option (Nat × Nat)) (timeout : Nat)
  | launch
  | stop (fid : Nat)
  | dump (fid : Nat)
  | bucket (grp bucket step : Nat)
  /-- A post that waits for a place in the bucket table; one whose entry has been discarded (10 R191). -/
  | bucketWait (cap : PostCap)
  | bucketGone (cap : PostCap)
  | wipe (start len : Nat)
  | attest
  /-- A staged setting that waits for its block: timeout, and its number in the order of dispatch (18 R335). -/
  | staged (timeout no : Nat)
  | source
  /-- A gate operation on its way to its gate unit, or there (09 R175). -/
  | gate
  /-- A failed barge, whose pieces sent before still move: its number, the status, the halting entry (09 R181, 14 R356). -/
  | bargeHalted (id status entry : Nat)
  deriving DecidableEq, Repr

/-- A descriptor fetched and not dispatched: count, its eight quadwords, and the status that halts it (03 R47, R355). -/
structure Fetched where
  count : Nat
  q : List Nat
  bad : Option Nat
  deriving DecidableEq, Repr

/-- A descriptor dispatched and not completed (03 R55): milestone of its dispatch. -/
structure Dispatched where
  count : Nat
  q : List Nat
  t0 : Nat
  work : Work
  deriving DecidableEq, Repr

/-- How a halted ring resumes (03 R59, R355; 02 R33, R36, R37). -/
inductive HaltKind where
  /-- At head, when resume_gen differs from the recorded one. -/
  | resume
  /-- At head, at the first doorbell read that succeeds. -/
  | firstRead
  /-- Only by re-enabling, at start_count. -/
  | reenable
  deriving DecidableEq, Repr

/-- One command ring: what RING_STATE does not show (03 R42 to R59). -/
structure RingSt where
  /-- 0 disabled, 1 running, 2 halted. -/
  st : Nat := 0
  halt : HaltKind := .resume
  tail : Nat := 0
  /-- The resume_gen of the last doorbell read, and the one recorded. -/
  genSeen : Nat := 0
  gen : Option Nat := none
  /-- Count of the next descriptor to fetch. -/
  next : Nat := 0
  waiting : List Fetched := []
  out : List Dispatched := []
  /-- Counts above head that are complete. -/
  after : List Nat := []
  /-- Halting descriptors whose predecessors are not all complete: count, opcode, tag, status, result, irq. -/
  halting : List (Nat × Nat × Nat × Nat × Nat) := []
  /-- The entry of the halt being handled (14 R274). -/
  haltIx : Option Nat := none
  /-- The holdoff window is open, and an interrupt is held in it. -/
  irqOpen : Bool := false
  irqHeld : Bool := false
  /-- The milestone at which its bit was last seen (R45). -/
  seenAt : Option Nat := none
  deriving DecidableEq, Repr

/-- The polling of one partition's bitmap (03 R45): backed off; the milestone at which its valid bit was set or a ring of it enabled. -/
structure PollSt where
  backedOff : Bool := false
  freshAt : Option Nat := none
  deriving DecidableEq, Repr

/-- A loaded image (09 R171). -/
structure Image where
  part : Nat
  id : Nat
  dpa : Nat
  len : Nat
  digest : List Byte
  deriving DecidableEq, Repr

/-- Where a barge came from. -/
inductive BargeFrom where
  | ring (r count : Nat)
  | standing (tile ix fid : Nat)
  | dump
  deriving DecidableEq, Repr

/-- A barge, from the moment it is ready until its completion is visible (09 R176 to R181). -/
structure Barge where
  id : Nat
  part : Nat
  engine : Nat
  chan : Nat
  src : Nat
  dst : Nat
  rowBytes : Nat
  rows : Nat
  srcPitch : Nat
  dstPitch : Nat
  transpose : Nat
  done : Option Nat
  release : Option Nat
  origin : BargeFrom
  admitted : Bool := false
  /-- The tile cycle of its engine in which it became ready (09 R176); the lane-disjoint parts read of the piece being read (05 R94). -/
  ready : Nat := 0
  round : Nat := 0
  /-- Pieces read; parts of pieces handed to the mesh, and those of them that have ended there; pieces waiting for the host; bytes visible. -/
  sent : Nat := 0
  handed : Nat := 0
  written : Nat := 0
  awaiting : List Nat := []
  moved : Nat := 0
  /-- Runs of such pieces whose data have arrived: piece, run, bytes. -/
  got : List (Nat × Nat × List Byte) := []
  /-- Sending has stopped: an error was found. -/
  failed : Bool := false
  /-- Its done gate has risen, and its completion record has not been written (09 R176). -/
  complete : Bool := false
  deriving DecidableEq, Repr

/-- A message of this module on its way to routing (11 R214, 13 R257): the barge piece it carries, with the bytes that count for it,
the originating partition, destination, virtual channel, class, and the bytes after the route word. -/
structure RemoteMsg where
  barge : Option (Nat × Nat)
  part : Nat
  dstModule : Nat
  dstPart : Nat
  vc : Nat
  cls : Nat
  body : List Byte
  /-- The exchange wharf whose barge place a forwarded segment holds until it has left its port (10 R192). -/
  wharf : Option Nat := none
  /-- The wharf die at which it originates, and its number in the order of arrival there (13 R254). -/
  home : Nat := 0
  no : Nat := 0
  deriving DecidableEq, Repr

/-- A halt-and-dump descriptor (09 R186). -/
structure Dump where
  part : Nat
  fid : Nat
  ring : Nat
  count : Nat
  atMile : Bool
  n : Nat
  dpa : Nat
  limit : Nat
  applied : Bool
  /-- Its ring has dropped its descriptor, which no outcome of it reaches (03 R60). -/
  orphan : Bool := false
  /-- A write of it met an uncorrectable codeword, and nothing more is written: the entry (14 R267). -/
  failed : Option Nat := none
  deriving DecidableEq, Repr

end Sys2Proof.Machine
end

