-- ==== Sys2Proof/Machine/StSys.lean ====
section
/-! DEFINITION. The records of the State that belong to power, the tollhouse, partitions and background work (15, 16, 17, 19). -/

namespace Sys2Proof.Machine
open Sys2Proof

/-- The form of a power domain (15 R288, R290). -/
inductive DomForm where
  | up
  /-- Entering its low form since a milestone. -/
  | entering (m0 : Nat)
  /-- A vote came in the last 2 µs of the entry: it completes, then the domain leaves at once. -/
  | late
  | low
  | leaving
  deriving DecidableEq, Repr

/-- The point-of-load rails (15 R280), in the order of 15 R281. -/
inductive Rail where
  | stby | whf | mesh | hbmVpp | hbmVdd | hbmVddq | opt | tsram | tile | host
  deriving DecidableEq, Repr

/-- Power and clocks beyond what the PWR_ registers show (15). -/
structure PowerSt where
  /-- Steps of the power-up order that have completed; none when the module has no power. -/
  step : Option Nat := none
  /-- The input voltage as the power stage last reported it, in millivolts (15 R278). -/
  mv : Nat := 44000
  dom : Tbl DomForm := []
  /-- The host-ring vote of PWR_CTRL.wake; below, the vote of a board management controller wake request, and the quadrants whose HBM has
  the background vote (15 R288, R291; 17 R323). -/
  wakeVote : Bool := false
  /-- Tiles with the host-ring vote of a start_mile or MWAIT target that has come (15 R291). -/
  wakeTiles : List Nat := []
  boardVote : Bool := false
  bgVote : List Nat := []
  /-- Clock of each tile as its own budget and limits allow, in MHz. -/
  own : Tbl Nat := []
  /-- Budget of each tile and its last demand, in milliwatts. -/
  grant : Tbl Nat := []
  demand : Tbl Nat := []
  /-- Milliwatts by which the grants of the tiles that link to a wharf die with a hot chiplet are lowered, by wharf die (15 R287). -/
  chipCut : Tbl Nat := []
  /-- Shares of the tile pool of the quadrants, in milliwatts. -/
  pool : List Nat := []
  /-- The cap has lowered a tile's clock since the last exchange. -/
  capCut : Bool := false
  /-- Milestone at which a tile began to stretch its cycles, and the stretches of the last millisecond (15 R283). -/
  stretch : Tbl (Option Nat) := []
  stretches : Tbl (List (Nat × Nat)) := []
  /-- The last readings of the eight thermal sensors of a tile, sensor 8 × tile + i (15 R286). -/
  temps : Tbl Nat := []
  /-- By tile, or 60 + wharf die: milestone since which it is cool; milestone of its last cut, until its recheck; milestone since which it
  (stack: 100 + s) is at its shutdown temperature, and whether that has been entered. Tiles whose ceilings rise again after a sag (15 R279,
  R286). -/
  cool : Tbl (Option Nat) := []
  cut : Tbl (Option Nat) := []
  hot : Tbl (Option (Nat × Bool)) := []
  rising : List Nat := []
  /-- The clock in MHz to which a wharf die's barge engine and adders are throttled, its last reading; stacks at 95 °C (15 R286). -/
  wharfCeil : Tbl Nat := []
  wharfTemp : Tbl Nat := []
  stackHot : List Nat := []
  /-- Ports whose photonic chiplet is hot (15 R287), and those whose laser bank follows the panel (12 R229). -/
  chipHot : List Nat := []
  bankHot : List Nat := []
  /-- The rails that are up, in the order in which they rose, and those that have fallen since the last power-up, in the order in which they
  fell (15 R281, 19 R342). -/
  rails : List Rail := []
  fell : List Rail := []
  /-- Since the last power-up: UCIe training has begun, and dl_active has risen; the ports that have been Up (15 R281, steps 7a and 9). -/
  dlBegun : Bool := false
  dlRose : Bool := false
  wasUp : List Nat := []
  deriving DecidableEq, Repr

/-- The management pins of J2 (19 R342 to R344). -/
structure PinSt where
  /-- PRESENT_N is low. -/
  present : Bool := true
  /-- ALERT_N is low. -/
  alert : Bool := false
  stbyPg : Bool := false
  hostPwrok : Bool := false
  /-- ADDR_SEL1 and ADDR_SEL0, as strapped. -/
  addrSel : Nat := 0
  /-- The dynamic I3C address, once one is assigned, which no command of the table does (log entry 16); an in-band interrupt has been raised (19
  R344). -/
  i3cAddr : Option Nat := none
  inBand : Bool := false
  deriving DecidableEq, Repr

/-- A firmware slot of the module flash (16 R299, R300): what its image holds; `ok` is the outcome of its verification. -/
structure FwSlot where
  present : Bool := false
  ok : Bool := false
  svn : Nat := 0
  raise : Bool := false
  version : Nat := 0
  digest : List Byte := []
  signer : List Byte := []
  /-- Ledger and digest of each component. -/
  comps : List (Nat × List Byte) := []
  deriving DecidableEq, Repr

/-- An entry of the measurement log (16 R298). -/
structure LogEv where
  ledger : Nat
  kind : Nat
  mile : Nat
  d : List Byte
  deriving DecidableEq, Repr

/-- Who requests a report (16 R308), in the order of service. -/
inductive AttBy where
  | hail (port : Nat)
  | bmc
  | ring (r count : Nat)
  deriving DecidableEq, Repr

/-- A queued request: nonce, report or chain, and where a ring wants it: DPA and buffer bytes. -/
structure AttReq where
  who : AttBy
  nonce : List Byte
  chain : Bool
  dpa : Nat
  room : Nat
  deriving DecidableEq, Repr

/-- A copy of the boot record (16 R299): sequence number, active slot, trial slot or none, commit window in minutes. -/
structure BootRec where
  seq : Nat := 0
  active : Nat := 0
  trial : Option Nat := none
  window : Nat := 30
  deriving DecidableEq, Repr

/-- The flash, the fuses and the tollhouse (16 R297 to R310), beyond what the TOLL_ registers show. -/
structure TrustSt where
  /-- Slot A and slot B. -/
  slots : List FwSlot := [{ present := true, ok := true }, {}]
  /-- The two copies of the boot record. -/
  bootA : BootRec := { seq := 1 }
  bootB : BootRec := {}
  /-- The trial slot boots at the next cold reset only. -/
  trialCold : Bool := false
  /-- The trial slot has booted and is not committed. -/
  trialBoot : Bool := false
  /-- Its commit window has closed (16 R305). -/
  trialShut : Bool := false
  running : Nat := 0
  /-- The slot that an image is being written into; the slot whose image is staged. -/
  receiving : Option Nat := none
  staged : Option Nat := none
  fusedSvn : Nat := 0
  serial : Nat := 0
  debug : Nat := 0
  /-- The link identity key, and its wrapped copy in the flash (16 R299, R306). -/
  lik : List Byte := []
  likFlash : List Byte := []
  root : List Byte := []
  chain : List Byte := []
  log : List LogEv := []
  dropped : Bool := false
  bases : List (List Byte) := []
  queue : List AttReq := []
  /-- The request whose report is being signed (16 R308); it holds its place in the queue until then. -/
  serving : Option AttReq := none
  /-- Steps completed of a measured start, the slot chosen in it, and whether that is the second one tried (16 R301, R302). -/
  meas : Nat := 0
  cand : Nat := 0
  second : Bool := false
  /-- No slot was valid. -/
  recovery : Bool := false
  released : Bool := false
  /-- Steps completed of a warm reset, and the partitions to restart. -/
  warm : Option Nat := none
  warmParts : List Nat := []
  deriving DecidableEq, Repr

/-- A record on its way to the log region of the flash (17 R327): an error entry, a condemnation, a wear record (daily, or of a
swap or a warm reset), the trim values, or the
tollhouse's entry that no image is valid (16 R302). -/
inductive FlashRec where
  | entry (q : List Word64)
  | condemn (site : Nat)
  | wear (w : List Word64) (daily : Bool)
  | trim (l : List (Nat × Nat))
  | noImage
  deriving DecidableEq, Repr

/-- The log region of the flash, which outlives a cold reset (01 R11; 17 R327). -/
structure FlashSt where
  condemned : List Nat := []
  /-- Reserved records, oldest first; records of the circular log with the number of their block; blocks begun so far and 64-byte records
  written into the present one; erase counts; wear records, newest last. -/
  reserved : List FlashRec := []
  log : List (Nat × FlashRec) := []
  block : Nat := 0
  fill : Nat := 0
  erases : Tbl Nat := []
  wear : List (List Word64) := []
  /-- The last seven daily ones, newest first: what eta_weeks is fitted to after a loss of power (17 R327). -/
  daily : List (List Word64) := []
  /-- The physical row fused as mapped out in each core, 128 where none is (06 R111). -/
  rowFuse : Tbl Nat := []
  deriving DecidableEq, Repr

/-- Background work beyond what its registers show (17). -/
structure BackSt where
  /-- Milestone at which each stack's scrub pass began (17 R322), and of the last training of channel 16 × stack + channel (17 R324). -/
  passStart : Tbl Nat := []
  trained : Tbl Nat := []
  /-- Trim values and the milestone until which a sensor is being trimmed: droop sensor 16 × tile + i, thermal sensor 1,024 + 8 × tile + i. -/
  trims : Tbl Nat := []
  trimming : Tbl Nat := []
  /-- The last seven daily wear records, newest first (12 R230; 17 R327). -/
  daily : List (List Word64) := []
  /-- Contained entries that arrived in the second that began at a milestone (17 R327). -/
  winStart : Nat := 0
  winCount : Nat := 0
  /-- Frames by (reading, value): the latest, the one at the end of the last complete second, with their milestones; power sums and
  samples of the second in progress; milestone of the last frame before a gap (17 R328, 16 R316). -/
  latest : List (Nat × Nat) := []
  latestAt : Nat := 0
  window : List (Nat × Nat) := []
  windowAt : Nat := 0
  sums : Tbl Nat := []
  samples : Nat := 0
  /-- The second, counted by its end in units of 10⁹, that the sums belong to. -/
  second : Nat := 0
  gap : Option Nat := none
  deriving DecidableEq, Repr

/-- The last start of a quadrant: assignment, quadrant set, interleave mode (16 R313). -/
structure QuadLast where
  assign : Nat
  quads : Nat
  wide : Bool
  deriving DecidableEq, Repr

/-- A start block in progress (16 R311 to R314). -/
structure PartOp where
  part : Nat := 0
  start : Bool := true
  quads : Nat := 0
  assign : Nat := 0
  priv : Bool := false
  force : Bool := false
  cpl : Nat := 0
  tag : Nat := 0
  digest : List Byte := []
  /-- The block as measured: bytes 0x00 to 0x07 and 0x20 to 0x4F. -/
  measured : List Byte := []
  scrub : Nat := 0
  /-- 0 reading the block, 1 scrubbing or stopping, 2 the last step of a start. -/
  step : Nat := 0
  deriving DecidableEq, Repr

/-- Partitions beyond what the PART_ registers show (16 R311 to R315). -/
structure PartSt where
  op : Option PartOp := none
  last : Tbl (Option QuadLast) := []
  clearDigest : Tbl (List Byte) := []
  clearMile : Tbl Nat := []
  /-- The bytes of the last start block of each partition as measured. -/
  measured : Tbl (List Byte) := []
  /-- Flights have launched on a quadrant's tiles since the scratchpads were zeroed. -/
  touched : List Nat := []
  deriving DecidableEq, Repr

end Sys2Proof.Machine
end

