-- ==== Sys2Proof/Machine/StNet.lean ====
section
/-! DEFINITION. The records of the State that belong to the Tarlar ports, their optics, routing, the milestone counter and the
gradient exchange (10, 11, 12, 13). -/

namespace Sys2Proof.Machine
open Sys2Proof

/-! ### Ports (11) -/

/-- A management message of a control flit (11 R217). -/
inductive CtlMsg where
  /-- Group, line. -/
  | retire (group line : Nat)
  | restore (group line : Nat)
  /-- The test pattern of a retired group ran 1 ms without a bit error, or did not. -/
  | testReport (group : Nat) (clean : Bool)
  /-- Ephemeral public key, frame. -/
  | offer (key : List Byte) (frame : Nat)
  | accept (key : List Byte)
  | decline
  /-- Transmit time; echo of the last timestamp received and its receive time; reference module, hops. -/
  | stamp (t1 echo got refModule hops : Nat)
  /-- The payload of 12 R231. -/
  | power (payload : List Byte)
  | dark (ack : Bool)
  deriving DecidableEq, Repr

/-- Keys of one direction (11 R213, R218). -/
structure LinkKey where
  key : List Byte := []
  salt : List Byte := []
  deriving DecidableEq, Repr

/-- A sequenced flit kept for replay: seq, wire bytes, milestone of its last sending, consecutive replays (11 R215). -/
structure SentFlit where
  seq : Nat
  bytes : List Byte
  t0 : Nat
  times : Nat
  deriving DecidableEq, Repr

/-- A message queued at a port for sending: bytes and how many have been sent (11 R214). -/
structure OutMsg where
  vc : Nat
  bytes : List Byte
  sent : Nat
  /-- The exchange wharf whose barge place it holds (10 R192). -/
  wharf : Option Nat := none
  deriving DecidableEq, Repr

/-- A message received, or being received, on a virtual channel: bytes and the data flits that hold them; its admission, judged when its route
word arrived (13 R255); once it is complete, its number in the order of arrival (13 R254). -/
structure InMsg where
  vc : Nat
  bytes : List Byte
  flits : Nat
  ok : Option Bool := none
  no : Nat := 0
  deriving DecidableEq, Repr

/-- An announced line: group, line, retirement? (11 R220). -/
structure LaneLine where
  group : Nat
  line : Nat
  retire : Bool
  deriving DecidableEq, Repr

/-- Where a rekey stands (11 R219): none; offered with a private key and frame; the same with the partner's crossing offer accepted, its
private key, offered key and frame, which holds if the partner declines; agreed: the keys to which each direction switches, in order, and the
frames at which it does. -/
inductive RekeySt where
  | none
  | offered (priv : List Byte) (frame : Nat)
  | crossed (priv : List Byte) (frame : Nat) (priv2 his : List Byte) (frame2 : Nat)
  | agreed (tx rx : List (LinkKey × Nat))
  deriving DecidableEq, Repr

/-- A laser swap or relock in progress (12 R234, R238): wavelength, position that goes dark, position lit; `back` when the old laser
runs the steps again (R235); `lamp` false when only the rings are relocked. -/
structure SwapSt where
  k : Nat
  old : Nat
  new : Nat
  back : Bool
  lamp : Bool
  deriving DecidableEq, Repr

/-- A port beyond what its registers show. -/
structure PortSt where
  lineTx : Nat := 0
  lineRx : Nat := 0
  /-- The group that carried the last flit. -/
  turn : Nat := 15
  txSeq : Nat := 0
  /-- Data, idle and control flits sent so far in this session, and the numbers of the control flits among the last 1,024. -/
  sent : Nat := 0
  ctlSent : List Nat := []
  replayBuf : List SentFlit := []
  /-- Position in the replay buffer of the next flit of a replay. -/
  replay : Option Nat := none
  /-- Headers and bodies, before encryption, of the frame being sent. -/
  txHeads : List (List Byte) := []
  txBody : List Byte := []
  /-- The group whose flit was merged last, and flits that wait for their turn: group, bytes (11 R211). -/
  rxTurn : Nat := 15
  rxWait : List (Nat × List Byte) := []
  rxNext : Nat := 0
  nak : Bool := false
  rxFlits : List (List Byte) := []
  rxFrame : Nat := 0
  /-- First seq of a frame whose tag has failed once. -/
  badFrame : Option Nat := none
  txKey : LinkKey := {}
  rxKey : LinkKey := {}
  secret : List Byte := []
  rekey : RekeySt := .none
  /-- The partner has declined the last offer. -/
  declined : Bool := false
  credits : List Nat := []
  /-- Flits of each virtual channel that the partner may still send: this end's grant and its returns, less what arrived (11 R216). -/
  room : List Nat := []
  giveBack : List Nat := [0, 0, 0, 0, 0, 0, 0, 0]
  vcLast : Nat := 7
  outq : List OutMsg := []
  ctlq : List CtlMsg := []
  partialMsgs : List InMsg := []
  inbox : List InMsg := []
  /-- Control messages delivered and not yet acted on, by kind. -/
  ctlIn : List Nat := []
  txLine : Option LaneLine := none
  rxLine : Option LaneLine := none
  /-- Retirements and restorations that wait for the pending line. -/
  lineQ : List (Nat × Bool) := []
  /-- Receive groups that carry PRBS31. -/
  rxTest : Nat := 0
  priv : List Byte := []
  nonce : List Byte := []
  hisNonce : List Byte := []
  hisCap : List Byte := []
  hisKey : List Byte := []
  hisCert : List Byte := []
  /-- The link identity key with which this end authenticated in the hail: it orders the ends as long as the session lasts (11 R218; 16 R307). -/
  myKey : List Byte := []
  /-- The hail messages sent on both lanes until they are acknowledged, each with its CRC-32 (11 R223). -/
  hailMsg : List (List Byte) := []
  /-- The nonce of a report that this end owes its partner and that has no place in the tollhouse's queue yet (11 R223, 16 R308). -/
  owed : Option (List Byte) := none
  /-- The partner's LNK_SLICE bitmap, exchanged at hail step 8 (13 R253). -/
  hisSlices : List Byte := []
  backoff : Bool := false
  /-- The port is sending the wake tone; has asked to go dark. -/
  tone : Bool := false
  darkAsked : Bool := false
  /-- A dark acknowledgement has gone out in the frame that is being sent (11 R226). -/
  darkSent : Bool := false
  /-- A vote to leave the dark state has been answered by a tone (15 R288). -/
  voted : Bool := false
  /-- Receive fibres 0 and 1 are exchanged (19 R347). -/
  crossed : Bool := false
  swap : Option SwapSt := none
  /-- Swaps that wait for the one that runs; those whose retirement min_groups refused, retried at each bias period (12 R235). -/
  swapQ : List Nat := []
  swapKept : List Nat := []
  /-- Consecutive reports with a margin below the threshold, by wavelength (12 R233). -/
  low : Tbl Nat := []
  lastReport : Nat := 0
  /-- Monitor current and bias recorded when a laser was brought into service, by position. -/
  ref : Tbl Nat := []
  startBias : Tbl Nat := []
  /-- Element t of the target vectors in MHz and consecutive updates outside the window, by ring: 16 × fibre group + ring. -/
  target : Tbl Int := []
  off : Tbl Nat := []
  range : List Nat := []
  /-- Lanes whose demultiplexer ring the partner reported out of lock, one bit each (12 R231, R238). -/
  farLost : Nat := 0
  /-- Fibre groups whose matrix has been measured and accepted, one bit each (12 R239). -/
  calib : Nat := 0
  /-- By receive lane: OMA and average power in 0.1 dBm, offset, slicer thresholds and opening at calibration (12 R231, R242). -/
  oma : Tbl Int := []
  avg : Tbl Int := []
  rxOffset : Tbl Int := []
  slicers : Tbl (List Int) := []
  eye : Tbl Nat := []
  /-- By transmit lane: OMA that the partner reported last, in 0.1 dBm (12 R231). -/
  farOma : Tbl Int := []
  /-- Uncorrectable codewords of each receive group since the last report (12 R231). -/
  uncorr : Tbl Nat := []
  xtWait : Bool := false
  xtBefore : Nat := 3
  /-- Offsets of the last exchanges, newest first, and what the partner last reported: reference, hops. -/
  offsets : List Int := []
  stampT1 : Nat := 0
  stampAt : Nat := 0
  refModule : Nat := 0xFFFFFF
  refHops : Nat := 0xFFF
  deriving DecidableEq, Repr

/-- The discipline of the milestone counter beyond MILE_STATUS (13 R258, R259). -/
structure MileSt where
  /-- There is an upstream port. -/
  up : Bool := false
  half : Bool := false
  /-- Half of a tick has been counted; ticks that slewing still swallows. -/
  odd : Bool := false
  skip : Nat := 0
  /-- Ticks that half rate still has to swallow before the counter is within 1 µs. -/
  excess : Nat := 0
  deriving DecidableEq, Repr

/-- A segment delivered to its exchange wharf and not yet taken: ingress port, partition, bytes, flits held (10 R195). -/
structure SegIn where
  port : Option Nat
  vc : Nat
  part : Nat
  srcModule : Nat
  srcPart : Nat
  bytes : List Byte
  flits : Nat
  deriving DecidableEq, Repr

/-- A remote write or gate add at its ingress wharf die (13 R257), with the parts of its bytes that have landed. -/
structure RemoteIn where
  port : Option Nat
  vc : Nat
  part : Nat
  cls : Nat
  bytes : List Byte
  flits : Nat
  wharf : Nat := 0
  got : Nat := 0
  deriving DecidableEq, Repr

/-! ### Buckets (10) -/

inductive BucketPhase where
  | early | posted | missed | passed | resultHeld
  deriving DecidableEq, Repr

/-- What a post gives its bucket (10 R193, R190). -/
structure PostSt where
  ring : Nat
  count : Nat
  t0 : Nat
  deadline : Nat
  dpa : Nat
  elems : Nat
  format : Nat
  wharfAdd : Bool
  gate : Nat
  late : Bool
  ovfWrap : Bool
  scaleStep : Nat
  resultTo : Nat
  /-- Bytes of a buffer in the host window that the exchange wharf has read or written, by bus address (01 R18). -/
  host : Tbl (Option Byte) := []
  /-- The contribution to a segment, by its index, kept by the wharf adders before an out area on the same bytes is first written (10 R203). -/
  kept : List (Nat × List Byte) := []
  deriving DecidableEq, Repr

/-- The header of a segment (10 R195) as the wharf works with it, and its payload. -/
structure Seg where
  kind : Nat
  last : Bool
  empty : Bool
  fused : Bool
  fault : Bool
  fmt : Nat
  rep : Nat
  prefixRank : Nat
  srcRank : Nat
  count : Nat
  index : Nat
  elem : Nat
  exponent : Nat
  maxExp : Nat
  missing : Nat
  payload : List Byte
  deriving DecidableEq, Repr

/-- A segment landed in a slot, or given to the wharf adders: slot number and tile, its operation and whether the out area holds no
value yet, its header, whether the adders process it and have done so, what the stage or they found once that has been read (saturation,
fused, largest exponent), and the milestone of its addition. -/
structure Landed where
  slot : Nat
  tile : Option Nat
  op : Nat
  first : Bool
  seg : Seg
  wharf : Bool
  done : Bool := false
  out : Option (Bool × Bool × Nat) := none
  addedAt : Option Nat := none
  deriving DecidableEq, Repr

/-- A trailer's contents (10 R196): missing count, top mask, leaves by ascending block, overflow; lag rank and hold time; milestone of
the last addition. -/
structure Trailer where
  count : Nat := 0
  top : Nat := 0
  leaves : List (Nat × Nat) := []
  overflow : Bool := false
  lagRank : Nat := 0
  lagNs : Nat := 0
  lastAdd : Nat := 0
  deriving DecidableEq, Repr

/-- A bucket-table entry (10 R191, R205). -/
structure Bucket where
  /-- Group entry, partition and key. -/
  grp : Nat
  part : Nat
  gid : Nat
  step : Nat
  bucket : Nat
  phase : BucketPhase := .early
  /-- This rank missed its deadline. -/
  missedSelf : Bool := false
  post : Option PostSt := none
  /-- Elements and deadline, once the post's descriptor gives them. -/
  elems : Nat := 0
  deadline : Nat := 2 ^ 64 - 1
  /-- Format, exponent and number of the pass. -/
  fmt : Nat
  exponent : Nat
  rep : Nat
  /-- Segments held in arrival order. -/
  held : List Seg := []
  landed : List Landed := []
  /-- Segments landed in this pass (at an owner: rank turns passed), and segments forwarded or finished. -/
  nextLand : Nat := 0
  nextFwd : Nat := 0
  /-- Ranks whose turn is over without a contribution, at an owner. -/
  notices : List Nat := []
  fault : Bool := false
  maxExp : Nat := 0x80
  /-- The segments whose last operation was a fused optimizer's (10 R204). -/
  fusedAt : List Nat := []
  /-- The trailer that ends the incoming pass. -/
  trailer : Option Trailer := none
  /-- Milestone of the landing of the first prefix segment. -/
  firstLand : Option Nat := none
  /-- Result segments received, those held for want of a buffer, and the final trailer with its header. -/
  results : Nat := 0
  resultSegs : List Seg := []
  final : Option Seg := none
  /-- A write of a result met an uncorrectable datum: the post ends at its result timeout (14 R267). -/
  stuck : Bool := false
  /-- Milestone of this rank's last addition in the pass (10 R196). -/
  lastAdd : Nat := 0
  /-- The largest missing count that a prefix of the chain has brought, and that a result has; a repeat keeps them (10 R206, R210). -/
  before : Nat := 0
  told : Nat := 0
  deriving DecidableEq, Repr

end Sys2Proof.Machine
end

