-- ==== Sys2Proof/Machine/State.lean ====
section
/-! DEFINITION. The State of the module, the reasons a command can stop, and the state after reset. -/

namespace Sys2Proof.Machine
open Sys2Proof

/-- Reasons a command faults. -/
inductive Fault where
  /-- The command names a unit or place that the module does not have, or a slot operation a field that no slot word carries (00 R1; 03 R38;
  04 R76 to R81; 18 R331). Raised by every meaning through `run`; safe: no such event exists on the module. -/
  | noSuchUnit
  deriving DecidableEq, Repr

/-- Reasons a command is refused. -/
inductive Refusal where
  /-- The command has no meaning yet. Raised by exec alone; safe. -/
  | notModelled (mnemonic : String)
  deriving DecidableEq, Repr

/-- What the module sends on the I3C path to the board management controller. -/
inductive BmcMsg where
  /-- The fatal alert: WHF_ERR_FATAL and a re-mapping request (14 R273). -/
  | alert (fatal : Word64)
  /-- A signed report, the certificate chain, or that the queue is full (16 R308). -/
  | report (bytes : List Byte)
  | chain (bytes : List Byte)
  | busy
  /-- The request for a link certificate (16 R307). -/
  | linkRequest (bytes : List Byte)
  /-- The end of a PLDM transfer: verified or not (16 R304). -/
  | pldm (ok : Bool)
  /-- No valid image (16 R302). -/
  | noImage
  deriving DecidableEq, Repr

/-- The module. -/
structure State where
  /-- Commands waiting, first in first out: the model's own field. -/
  pending : List Instr := []
  /-- Number of free values used: the model's own field (log entry 3). -/
  free : Nat := 0
  /-- The milestone counter (13 R258). -/
  mile : Nat := 0
  /-- The BAR0 registers, by offset (18 R331). -/
  regs : Tbl Word64 := []
  /-- Scratchpad bytes: site × 64 MiB + offset (05 R89). -/
  spad : Tbl Byte := []
  cores : Tbl CoreSt := []
  tiles : Tbl TileSt := []
  flights : List Flight := []
  /-- Transfers on the mesh (01 R14, R15). -/
  mesh : List MeshX := []
  /-- Tag mismatches counted by each router (01 R15). -/
  routerDrops : Tbl Nat := []
  /-- MSI-X table, quadword 2 × vector + half, and pending bits (02 R34). -/
  msix : Tbl Word64 := []
  msixPend : Tbl Bool := []
  /-- Posted writes in link order (03 R54, 02 R357). -/
  posted : List Posted := []
  /-- DL_Active of the UCIe link (02 R33). -/
  dlActive : Bool := false
  /-- Entries copied toward the failure log and not yet written to flash (14 R269, 17 R327). -/
  failBuf : List FlashRec := []
  /-- Steps of the fatal sequence that have completed; none before a fatal error (14 R273). -/
  fatalStep : Option Nat := none
  bmcOut : List BmcMsg := []
  /-- HBM bytes: stack × 24 GiB + stack address (01 R19, R20), and the interleave mode in effect. -/
  hbm : Tbl Byte := []
  hbmWide : Bool := false
  /-- HBM codewords with an uncorrectable error (symbols in error), those with a correction queued (symbol + 1), and its entry (14 R267, R274). -/
  hbmUe : Tbl Nat := []
  hbmCe : Tbl Nat := []
  hbmCeEntry : Tbl Nat := []
  link : LinkSt := {}
  /-- Outstanding non-posted requests, oldest first, and the next tag (02 R32, R357). -/
  reqs : List HostReq := []
  nextTag : Nat := 0
  /-- Requests that wait for a tag, or for a stall to end: what for, bus address, bytes (02 R25, R32). -/
  reqWait : List (ReqFor × Nat × Nat) := []
  /-- Unsupported Request completions sent for refused BAR reads (02 R35). -/
  urSent : Nat := 0
  /-- Pending direct writes of ST fields, oldest first: register and its whole pending value (18 R334). -/
  pendingSt : List (Nat × Word64) := []
  /-- Group entries whose pending write writes 1 to valid (10 R189), and the staged settings dispatched so far (18 R335). -/
  groupSet : List Nat := []
  stagedNext : Nat := 0
  rings : Tbl RingSt := []
  /-- The ring that fetched last (03 R46). -/
  rrLast : Nat := 1023
  polls : Tbl PollSt := []
  images : List Image := []
  /-- Barges from ready to visible, in the order they became ready, and the next number. -/
  barges : List Barge := []
  bargeNext : Nat := 0
  dumps : List Dump := []
  /-- Messages of this module not yet routed, oldest first (13 R252). -/
  remotes : List RemoteMsg := []
  /-- Messages that have arrived at, or were originated in, the wharf dies so far (13 R254). -/
  arrivals : Nat := 0
  power : PowerSt := {}
  trust : TrustSt := {}
  flash : FlashSt := {}
  back : BackSt := {}
  parts : PartSt := {}
  pins : PinSt := {}
  /-- What the hail channel has been given to send: port and bytes (11 R223, 16 R308). -/
  hailOut : List (Nat × List Byte) := []
  ports : Tbl PortSt := []
  /-- Flits put on the lines: port, lane group, bytes (11 R211). -/
  flitOut : List (Nat × Nat × List Byte) := []
  mileSt : MileSt := {}
  segIn : List SegIn := []
  remoteIn : List RemoteIn := []
  /-- The bucket table; slots landed so far, by 64 × group entry + tile; hold-area bytes in use, by group entry; fenced tiles (10). -/
  buckets : List Bucket := []
  slots : Tbl Nat := []
  holdUse : Tbl Nat := []
  fenced : List Nat := []
  deriving DecidableEq, Repr

/-- The module right after reset, before the power-up sequence. -/
def State.reset : State := {}

end Sys2Proof.Machine
end

