-- ==== Sys2Proof/Machine/Regs.lean ====
section
/-! DEFINITION. The register space: where each register lies (18 R331), its reset value and the change class of every field
(18 R332, R333), and the operations that read and write fields. -/

namespace Sys2Proof.Machine
open Sys2Proof

/-- A field of a register: offset of the register, highest and lowest bit. -/
structure Fld where
  off : Nat
  hi : Nat
  lo : Nat
  deriving DecidableEq, Repr

/-- The classes of a register's writable fields, as masks, and its write-1-to-clear fields (18 R333). -/
structure RegInfo where
  reset : Nat := 0
  fx : Nat := 0
  st : Nat := 0
  lv : Nat := 0
  w1c : List (Nat × Nat) := []
  deriving DecidableEq, Repr

/-- The mask of bits hi..lo. -/
def bmask (hi lo : Nat) : Nat := (2 ^ (hi + 1 - lo) - 1) * 2 ^ lo

/-! Addresses of the registers (18 R331). -/
def aTile (n o : Nat) : Nat := 0x200000 + 0x1000 * n + o
def aRing (r o : Nat) : Nat := 0x110000 + 0x40 * r + o
def aGrp (n o : Nat) : Nat := 0x300000 + 0x40 * n + o
def aLnk (p o : Nat) : Nat := 0x400000 + 0x1000 * p + o
def aOpt (p o : Nat) : Nat := 0x410000 + 0x1000 * p + o
def aErrq (w o : Nat) : Nat := 0x700000 + 0x2000 * w + o
def aPwr (o : Nat) : Nat := 0x800000 + o
def aToll (o : Nat) : Nat := 0x900000 + o

/-- The factory map when every tile is good: sites 27, 28, 36 and 35 excluded (01 R10). DESIGN CHOICE: fuse contents, log entry 4. -/
def factoryExcluded : List Nat := [27, 28, 36, 35]
/-- The sites of quadrant q, ascending (01 R8). -/
def quadSites (q : Nat) : List Nat :=
  let x0 := if q = 1 ∨ q = 2 then 4 else 0
  let y0 := if q = 2 ∨ q = 3 then 4 else 0
  (List.range 16).map fun i => 8 * (y0 + i / 4) + x0 + i % 4
/-- The quadrant of a site. -/
def siteQuad (site : Nat) : Nat :=
  let e := decide (site % 8 ≥ 4)
  if site / 8 < 4 then (if e then 1 else 0) else (if e then 2 else 3)
/-- The local index of a site in its quadrant. -/
def siteLocal (site : Nat) : Nat := (site / 8 % 4) * 4 + site % 4
/-- The site that carries logical tile id after factory test (01 R10). -/
def factorySite (id : Nat) : Nat :=
  let q := id / 15
  lget 0 ((quadSites q).filter fun s => !factoryExcluded.contains s) (id % 15)
/-- FEAT_LTILE_MAP register n as fused at the factory: valid 0b01 and the site; IDs 60 to 63 read 0xFF. -/
def factoryLtile (n : Nat) : Nat :=
  leNat ((List.range 8).map fun i =>
    let id := 8 * n + i
    if id < 60 then BitVec.ofNat 8 (0x40 + factorySite id) else 0xFF#8)
/-- FEAT_SPARE_MAP as fused at the factory: excl_site of each quadrant, spare_state 0. -/
def factorySpare : Nat := lsum ((List.range 4).map fun q => siteLocal (lget 0 factoryExcluded q) * 2 ^ (16 * q + 12))

/-- Is `off` in a block of `n` instances of `stride` bytes at `base`, at offset `o` of its instance? -/
def inBlk (base stride n : Nat) (off : Nat) (o : Nat) : Bool :=
  decide (base ≤ off) && decide ((off - base) / stride < n) && decide ((off - base) % stride = o)
/-- Same, with a run of k registers from o. -/
def inBlkRun (base stride n : Nat) (off : Nat) (o k : Nat) : Bool :=
  decide (base ≤ off) && decide ((off - base) / stride < n) && decide (o ≤ (off - base) % stride)
    && decide ((off - base) % stride < o + 8 * k)

def allBits : Nat := 2 ^ 64 - 1

/-- FEAT_, PART_, WHF_UCIE_, WHF_SETUP_, PART_REMOTE. -/
def regInfoLow (off : Nat) : Option RegInfo :=
  if off = 0x1000 then some { reset := 0x0008181040_3C0404 }
  else if off = 0x1008 then some { reset := 0x0018_2580_0040_4080 }
  else if off = 0x1010 then some { reset := 0x04_03E8_07D0 }
  else if off = 0x1018 then some { reset := factorySpare }
  else if 0x1020 ≤ off ∧ off < 0x1060 then some { reset := factoryLtile ((off - 0x1020) / 8) }
  else if off = 0x1060 then some {}
  else if off = 0x1068 then some {}
  else if off = 0x1070 then some { reset := 0x3FF_0000_0000 }
  else if off = 0x1080 then some { reset := 0x1000_2000_4010_0820 }
  else if off = 0x1088 then some { reset := 0x8080_0181_0100_1003 }
  else if off = 0x1090 then some { reset := 0x0103_0E06_0E09_0E03 }
  else if off = 0x1098 then some { reset := 0x0087_080E_0080_0804 }
  else if off = 0x10A0 then some { reset := 0x2000_4010_0400_4001 }
  else if off = 0x10A8 then some { reset := 0x0801_0102_0202_0203 }
  else if off = 0x10B0 then some { reset := 0x1000_0100_8040_1008 }
  else if off = 0x1400 then some { fx := 1, w1c := [(1, 1)] }
  else if off = 0x1410 then some { reset := 0xFFFFFF, fx := 0xFFFFFF }
  else if 0x1420 ≤ off ∧ off < 0x1440 then some { fx := bmask 63 63 + 0xFFF }
  else if off = 0x1440 then some { lv := bmask 63 7 + 1, w1c := [(2, 2), (1, 1)] }
  else if off = 0x1448 then some {}
  else if off = 0x1450 ∨ off = 0x1458 then some {}
  else if off = 0x1800 then some { w1c := [(63, 56)] }
  else if off = 0x1808 then some { reset := 0x50, lv := 0xF6 }
  else if off = 0x1810 then some {}
  else if off = 0x1C00 then some { w1c := [(63, 56), (55, 48), (47, 40)] }
  else if 0x2000 ≤ off ∧ off < 0x3000 then
    (if off % 16 = 0 then some { st := bmask 63 63 + bmask 28 0 } else some { st := bmask 47 0 })
  else none

/-- RING_ and TILE_/CORE_. -/
def regInfoRing (off : Nat) : Option RegInfo :=
  if 0x100000 ≤ off ∧ off < 0x100020 then some { st := bmask 63 7 + 1 }
  else if inBlkRun 0x110000 0x40 1024 off 0 2 then some { st := bmask 63 12 }
  else if inBlk 0x110000 0x40 1024 off 0x10 then some { st := bmask 63 3 }
  else if inBlk 0x110000 0x40 1024 off 0x18 then
    some { reset := 0x6002, st := bmask 63 32 + bmask 16 10 + 1, lv := bmask 31 21 + bmask 7 4 + 2, w1c := [(2, 2)] }
  else if inBlk 0x110000 0x40 1024 off 0x20 then some { w1c := [(15, 8)] }
  else none

def regInfoTile (off : Nat) : Option RegInfo :=
  if inBlk 0x200000 0x1000 60 off 0 then some { reset := 8, lv := 0xF }
  else if inBlk 0x200000 0x1000 60 off 8 then some { w1c := [(0, 0)] }
  else if inBlk 0x200000 0x1000 60 off 0x10 then some {}
  else if inBlkRun 0x200000 0x1000 60 off 0x100 4 then some { reset := 0x80 }
  else if inBlkRun 0x200000 0x1000 60 off 0x120 4 then some {}
  else if inBlkRun 0x200000 0x1000 60 off 0x140 16 then
    let o := (off - 0x200000) % 0x1000 % 0x20
    if o = 0x10 then some { w1c := [(63, 63)] } else if o < 0x10 then some {} else none
  else none

/-- WHF_RGRP_. -/
def regInfoGrp (off : Nat) : Option RegInfo :=
  if inBlk 0x300000 0x40 256 off 0 then
    some { reset := 0x000B_0000_4000_0000, st := bmask 63 55 + bmask 50 28 + bmask 19 0, lv := bmask 54 51 }
  else if inBlk 0x300000 0x40 256 off 8 then some { st := bmask 63 24 }
  else if inBlk 0x300000 0x40 256 off 0x10 then some { st := bmask 63 12 }
  else if inBlk 0x300000 0x40 256 off 0x18 then some { st := bmask 47 0 }
  else if inBlk 0x300000 0x40 256 off 0x20 then some { st := allBits }
  else if inBlk 0x300000 0x40 256 off 0x28 then some { st := bmask 57 0 }
  else if inBlk 0x300000 0x40 256 off 0x30 then some { lv := bmask 39 0 }
  else if inBlk 0x300000 0x40 256 off 0x38 then some {}
  else none

/-- LNK_ and OPT_. -/
def regInfoPort (off : Nat) : Option RegInfo :=
  if inBlk 0x400000 0x1000 16 off 0 then
    some { reset := 0x0E10_2000_088C_0061, st := bmask 19 16 + bmask 7 7, lv := bmask 63 20 + bmask 6 5 + 3 }
  else if inBlk 0x400000 0x1000 16 off 8 then some { reset := 0x8080_8080_8080_8080, st := allBits }
  else if inBlk 0x400000 0x1000 16 off 0x10 then some { w1c := [(2, 2)] }
  else if inBlkRun 0x400000 0x1000 16 off 0x18 6 then some {}
  else if inBlkRun 0x400000 0x1000 16 off 0x100 16 then some {}
  else if inBlkRun 0x400000 0x1000 16 off 0x400 64 then some { lv := allBits }
  else if inBlk 0x410000 0x1000 16 off 0 then
    some { reset := 0x5A0F_4618_0A06_0004, st := bmask 47 40, lv := bmask 63 48 + bmask 39 16 + bmask 7 4 + 7 }
  else if inBlk 0x410000 0x1000 16 off 8 then some { reset := 0xFFFF }
  else if inBlk 0x410000 0x1000 16 off 0x10 then some {}
  else if inBlkRun 0x410000 0x1000 16 off 0x100 32 then
    -- state: positions 0 to 15 active (1), 16 to 31 spare (0); bias_max 0x4B0: fuse contents, DESIGN CHOICE, log entry 4
    (if (off - 0x410000) % 0x1000 < 0x180 then some { reset := 0x4000_0004_B000_00FF } else some { reset := 0x0000_0004_B000_00FF })
  else if inBlkRun 0x410000 0x1000 16 off 0x200 64 then some { reset := 3 }
  else if inBlkRun 0x410000 0x1000 16 off 0x800 256 then some {}
  else none

/-- WHF_ROUTE_, MILE_, WHF_ERRQ_, PWR_, TOLL_, WHF_BG_. -/
def regInfoHigh (off : Nat) : Option RegInfo :=
  if 0x500000 ≤ off ∧ off < 0x508000 then some { lv := bmask 63 63 + bmask 61 53 + bmask 23 0 }
  else if 0x508000 ≤ off ∧ off < 0x508800 then some { lv := bmask 63 63 + bmask 61 48 + bmask 23 0 }
  else if off = 0x509000 then some {}
  else if off = 0x600000 then some { st := 1 }
  else if off = 0x600008 then some { st := allBits }
  else if off = 0x600010 then some { reset := 0xFFFF_FF00_0000_0000 }
  else if off = 0x600018 then some {}
  else if inBlk 0x700000 0x2000 8 off 0 then some { reset := 0x8000, lv := bmask 31 21 + bmask 16 15 }
  else if inBlk 0x700000 0x2000 8 off 8 then some { w1c := [(0, 0)] }
  else if inBlk 0x700000 0x2000 8 off 0x10 then some { lv := bmask 31 0 }
  else if inBlkRun 0x700000 0x2000 8 off 0x1000 512 then some {}
  else if off = 0x710000 then some {}
  else if off = 0x800000 then some { reset := 0x1D4C_1C20_1D4C_1C20, lv := bmask 31 0 }
  else if off = 0x800008 then some { w1c := [(15, 15)] }
  else if off = 0x800010 then some { reset := 1, lv := 7 }
  else if off = 0x800018 then some {}
  else if off = 0x800020 then some { reset := 0x32_5F69, lv := bmask 23 8 }
  else if off = 0x800028 then some { reset := 1, fx := 1 }
  else if 0x800100 ≤ off ∧ off < 0x8002E0 then some {}
  else if off = 0x900000 then some { reset := 0x0000_0200_0000_0000 }
  else if off = 0x900008 then some { lv := bmask 15 8 + 1 }
  else if off = 0x900010 then some {}
  else if inBlkRun 0x900100 0x40 8 off 0 6 then some {}
  else if off = 0xA00000 then some { reset := 0x118, lv := bmask 8 0 }
  else if 0xA00100 ≤ off ∧ off < 0xA001C0 then some {}
  else if off = 0xA00200 then some {}
  else none

/-- The register at an offset, none where BAR0 holds no register (18 R331, R332). -/
def regInfo (off : Nat) : Option RegInfo :=
  if off % 8 ≠ 0 then none
  else if off < 0x100000 then regInfoLow off
  else if off < 0x200000 then regInfoRing off
  else if off < 0x300000 then regInfoTile off
  else if off < 0x400000 then regInfoGrp off
  else if off < 0x500000 then regInfoPort off
  else regInfoHigh off

/-- What a register reads as at reset. -/
def regReset (off : Nat) : Word64 :=
  match regInfo off with
  | some i => BitVec.ofNat 64 i.reset
  | none => 0#64

/-- A whole register as last written by hardware or software. -/
def State.reg (s : State) (off : Nat) : Word64 := tget regReset s.regs off
/-- A whole register written. -/
def State.setReg (s : State) (off : Nat) (v : Word64) : State := { s with regs := tset regReset s.regs off v }
/-- A field read. -/
def State.rd (s : State) (f : Fld) : Nat := ((s.reg f.off) >>> f.lo).toNat % 2 ^ (f.hi + 1 - f.lo)
/-- A field of a word replaced. -/
def putField (w : Word64) (hi lo v : Nat) : Word64 :=
  (w &&& ~~~ BitVec.ofNat 64 (bmask hi lo)) ||| BitVec.ofNat 64 ((v % 2 ^ (hi + 1 - lo)) * 2 ^ lo)
/-- A field written. -/
def State.wr (s : State) (f : Fld) (v : Nat) : State := s.setReg f.off (putField (s.reg f.off) f.hi f.lo v)
/-- A counter field raised, saturating. -/
def State.inc (s : State) (f : Fld) : State := s.wr f (satAdd (f.hi + 1 - f.lo) (s.rd f) 1)
/-- A counter field raised by n, saturating. -/
def State.incBy (s : State) (f : Fld) (n : Nat) : State := s.wr f (satAdd (f.hi + 1 - f.lo) (s.rd f) n)
/-- Several fields written in order. -/
def State.wrAll (s : State) : List (Fld × Nat) → State
  | [] => s
  | (f, v) :: r => (s.wr f v).wrAll r
/-- A one-bit field as a Bool. -/
def State.flag (s : State) (f : Fld) : Bool := decide (s.rd f = 1)

/-! ### Fields that the machine itself reads or writes -/
def fModuleWide : Fld := ⟨0x1400, 0, 0⟩
def fModeRejected : Fld := ⟨0x1400, 1, 1⟩
def fModuleId : Fld := ⟨0x1410, 23, 0⟩
def fSliceValid (p : Nat) : Fld := ⟨0x1420 + 8 * p, 63, 63⟩
def fSlice (p : Nat) : Fld := ⟨0x1420 + 8 * p, 11, 0⟩
def fLtile (id : Nat) : Fld := ⟨0x1020 + id / 8 * 8, 8 * (id % 8) + 7, 8 * (id % 8)⟩
def fExcl (q : Nat) : Fld := ⟨0x1018, 16 * q + 15, 16 * q + 12⟩
def fSpareState (q : Nat) : Fld := ⟨0x1018, 16 * q + 11, 16 * q + 10⟩
def fSubst (q : Nat) : Fld := ⟨0x1018, 16 * q + 9, 16 * q + 6⟩
def fPartState (p : Nat) : Fld := ⟨0x1448, 16 * p + 15, 16 * p + 13⟩
def fPartQuads (p : Nat) : Fld := ⟨0x1448, 16 * p + 12, 16 * p + 9⟩
def fPartScrubbed (p : Nat) : Fld := ⟨0x1448, 16 * p + 8, 16 * p + 8⟩
def fPartClear (p : Nat) : Fld := ⟨0x1448, 16 * p + 7, 16 * p + 7⟩
def fPartPristine (p : Nat) : Fld := ⟨0x1448, 16 * p + 6, 16 * p + 6⟩
def fPartPriv (p : Nat) : Fld := ⟨0x1448, 16 * p + 5, 16 * p + 5⟩
def fPartAssign (p : Nat) : Fld := ⟨0x1450 + 8 * (p / 2), 32 * (p % 2) + 31, 32 * (p % 2)⟩
def fGuard (n : Nat) : Fld := ⟨aTile n 0, 3, 0⟩
def fCeCount (n : Nat) : Fld := ⟨aTile n 8, 63, 48⟩
def fUeCount (n : Nat) : Fld := ⟨aTile n 8, 47, 40⟩
def fUeLine (n : Nat) : Fld := ⟨aTile n 8, 31, 19⟩
def fUeBank (n : Nat) : Fld := ⟨aTile n 8, 18, 13⟩
def fUeLane (n : Nat) : Fld := ⟨aTile n 8, 12, 7⟩
def fUeValid (n : Nat) : Fld := ⟨aTile n 8, 0, 0⟩
def fArrayMap (uid : Nat) : Fld := ⟨aTile (uid / 4) (0x100 + 8 * (uid % 4)), 7, 0⟩
def fRowState (uid : Nat) : Fld := ⟨aTile (uid / 4) (0x100 + 8 * (uid % 4)), 15, 14⟩
def aArrayEvents (uid : Nat) : Nat := aTile (uid / 4) (0x120 + 8 * (uid % 4))
def fRepeats (uid : Nat) : Fld := ⟨aArrayEvents uid, 63, 48⟩
def fSaturated (uid : Nat) : Fld := ⟨aArrayEvents uid, 47, 32⟩
def fEarlySwaps (uid : Nat) : Fld := ⟨aArrayEvents uid, 31, 16⟩
def aTrap (uid i : Nat) : Nat := aTile (uid / 4) (0x140 + 0x20 * (uid % 4) + 8 * i)
def fTrapValid (uid : Nat) : Fld := ⟨aTrap uid 2, 63, 63⟩
def fTrapCount (uid : Nat) : Fld := ⟨aTrap uid 1, 31, 16⟩
def fErrNext (w : Nat) : Fld := ⟨aErrq w 8, 63, 32⟩
def fLostCorr (w : Nat) : Fld := ⟨aErrq w 8, 31, 16⟩
def fLostCont (w : Nat) : Fld := ⟨aErrq w 8, 15, 8⟩
def fErrOvf (w : Nat) : Fld := ⟨aErrq w 8, 0, 0⟩
def fErrVec (w : Nat) : Fld := ⟨aErrq w 0, 31, 21⟩
def fErrIrqCorr (w : Nat) : Fld := ⟨aErrq w 0, 16, 16⟩
def fErrIrqEn (w : Nat) : Fld := ⟨aErrq w 0, 15, 15⟩
def fErrAck (w : Nat) : Fld := ⟨aErrq w 0x10, 31, 0⟩
def aErrEntry (w slot q : Nat) : Nat := aErrq w (0x1000 + 0x40 * slot + 8 * q)
def fFatal : Fld := ⟨0x710000, 63, 63⟩

/-- The logical tile's site by the LTILE_MAP registers (01 R10, R21). -/
def State.tileSite (s : State) (id : Nat) : Nat := s.rd (fLtile id) % 64
/-- The quadrant of a logical tile. -/
def tileQuad (id : Nat) : Nat := id / 15
/-- The lower-numbered wharf die of a quadrant (14 R268). -/
def quadWharf (q : Nat) : Nat := if q = 0 then 0 else if q = 1 then 1 else if q = 2 then 3 else 4
/-- The quadrant of a wharf die (01 R13). -/
def wharfQuad (w : Nat) : Nat := lget 0 [0, 1, 1, 2, 3, 2, 0, 3] w
/-- The six stacks of a quadrant, ascending (01 R13). -/
def quadStacks (q : Nat) : List Nat :=
  if q = 0 then [0, 1, 2, 18, 19, 20] else if q = 1 then [3, 4, 5, 6, 7, 8]
  else if q = 2 then [9, 10, 11, 15, 16, 17] else [12, 13, 14, 21, 22, 23]
/-- The partition whose started layout holds a quadrant (16 R311). -/
def State.quadPart (s : State) (q : Nat) : Option Nat :=
  (List.range 4).find? fun p => decide (s.rd (fPartState p) ≠ 0) && nbit (s.rd (fPartQuads p)) q
def State.tilePart (s : State) (id : Nat) : Option Nat := s.quadPart (tileQuad id)
/-- The partition that an entry names for a unit of a wharf die's quadrant (14 R271; 16 R311); 0 where none owns it. -/
def State.wharfPart (s : State) (w : Nat) : Nat := (s.quadPart (wharfQuad w)).getD 0

end Sys2Proof.Machine
end

