-- ==== Sys2Proof/Machine/Errors.lean ====
section
/-! DEFINITION. Error entries, their queues and the fatal state (14 R263 to R277), and MSI-X messages (02 R34, 03 R54). -/

namespace Sys2Proof.Machine
open Sys2Proof

/-- An error to be recorded (14 R271). -/
structure ErrIn where
  wharf : Nat
  /-- 0 corrected, 1 contained, 2 fatal. -/
  cls : Nat
  cause : Nat
  kind : Nat
  part : Nat := 0
  halted : Bool := false
  q2 : Nat := 0
  detail : Nat := 0
  addr : Nat := 0
  q4 : List Nat := []
  escalated : Bool := false
  further : Bool := false

/-- An entry of a containment unit whose halt may be under way (14 R274): `under` is then the entry being handled, where there is one. A
program fault is recorded with further = 1; a hardware error escalates to fatal. -/
def ErrIn.during (e : ErrIn) (hw : Bool) (under : Option (List Nat)) : ErrIn :=
  match under with
  | none => e
  | some first =>
    if hw then { e with cls := 2, cause := 0x86, detail := e.cause, q4 := first, halted := true, escalated := true, further := false }
    else { e with q4 := first, halted := false, further := true }

/-- Has the module gone fatal? -/
def State.isFatal (s : State) : Bool := s.flag fFatal

/-- What an unwritten quadword of the MSI-X table holds: address and data 0, the mask bit of vector control set
(02 R34 names the table; its layout and reset value are PCIe's, PRESUMED, log 14). -/
def msixInit (k : Nat) : Word64 := if k % 2 = 1 then 0x100000000#64 else 0#64
/-- A quadword of the MSI-X table. -/
def State.msixAt (s : State) (k : Nat) : Word64 := tget msixInit s.msix k

/-- Posted writes on the link, in order; a stall holds them (02 R32). -/
def linkPost (s : State) (l : List Posted) : State :=
  if s.link.stalled then { s with link := { s.link with held := s.link.held ++ l } } else { s with posted := s.posted ++ l }

/-- An MSI-X vector raised: a masked vector sets its pending bit, otherwise the message follows the earlier posted writes (03 R54). -/
def msixRaise (s : State) (vec : Nat) : State :=
  let q0 := s.msixAt (2 * vec)
  let q1 := s.msixAt (2 * vec + 1)
  if q1.getLsbD 32 then { s with msixPend := tset falseAt s.msixPend vec true }
  else if s.dlActive then linkPost s [⟨q0.toNat, leBytes 4 (q1.toNat % 2 ^ 32)⟩]
  else s

/-- The acknowledged sequence number of a queue: a value beyond next_seq acts as next_seq (14 R277). -/
def errAckEff (next ack : Nat) : Nat := if sint 32 (ack + 2 ^ 32 - next) > 0 then next else ack
/-- Entries not acknowledged in queue w. -/
def errPending (s : State) (w : Nat) : Nat :=
  (s.rd (fErrNext w) + 2 ^ 32 - errAckEff (s.rd (fErrNext w)) (s.rd (fErrAck w))) % 2 ^ 32

/-- q0 of an entry without its seq (14 R271). -/
def errQ0 (e : ErrIn) (count : Nat) : Nat :=
  e.cls * 2 ^ 30 + b2n e.escalated * 2 ^ 29 + b2n e.further * 2 ^ 28 + (e.cause % 256) * 2 ^ 20 + (e.kind % 16) * 2 ^ 16
    + (e.part % 4) * 2 ^ 14 + b2n e.halted * 2 ^ 13 + count % 2 ^ 13

/-- The slot of an unacknowledged corrected entry with the same cause, kind and q2 made less than 1 ms earlier (14 R269). -/
def errCoalesce (s : State) (e : ErrIn) : Option Nat :=
  let next := s.rd (fErrNext e.wharf)
  ((List.range (min 64 (errPending s e.wharf))).map fun i => (next + 2 ^ 32 - 1 - i) % 64).find? fun slot =>
    let q0 := (s.reg (aErrEntry e.wharf slot 0)).toNat
    decide (nbits q0 31 30 = 0) && decide (nbits q0 27 20 = e.cause) && decide (nbits q0 19 16 = e.kind)
      && decide ((s.reg (aErrEntry e.wharf slot 2)).toNat = e.q2)
      && decide ((s.mile + 2 ^ 64 - (s.reg (aErrEntry e.wharf slot 1)).toNat) % 2 ^ 64 < 1000000)

/-- The quadwords q1 to q7 of an entry. -/
def errQuads (s : State) (e : ErrIn) : List (Nat × Nat) :=
  [(1, s.mile), (2, e.q2), (3, e.detail % 2 ^ 16 * 2 ^ 48 + e.addr % 2 ^ 48)]
    ++ (List.range 4).map fun i => (4 + i, lget 0 e.q4 i)

/-- An entry written into the next slot: q1 to q7, then q0, then next_seq (14 R269); an unacknowledged entry in the slot is
counted as lost (14 R270). -/
def errWrite (s : State) (e : ErrIn) : State :=
  let next := s.rd (fErrNext e.wharf)
  let slot := next % 64
  let full := decide (errPending s e.wharf ≥ 64)
  let oldCls := nbits (s.reg (aErrEntry e.wharf slot 0)).toNat 31 30
  let s1 := if full then ((if oldCls = 0 then s.inc (fLostCorr e.wharf) else s.inc (fLostCont e.wharf)).wr (fErrOvf e.wharf) 1) else s
  let s2 := (errQuads s e).foldl (fun t p => t.setReg (aErrEntry e.wharf slot p.1) (BitVec.ofNat 64 p.2)) s1
  let s3 := s2.setReg (aErrEntry e.wharf slot 0) (BitVec.ofNat 64 (next * 2 ^ 32 + errQ0 e 1))
  s3.wr (fErrNext e.wharf) (next + 1)

/-- The queue index of the next entry of a wharf die (14 R268). -/
def errIndex (s : State) (w : Nat) : Nat := w * 2 ^ 32 + s.rd (fErrNext w)

/-- A corrected entry: coalesced, dropped when the queue is full, or written (14 R269, R270). -/
def errCorrected (s : State) (e : ErrIn) : State :=
  match errCoalesce s e with
  | some slot =>
    let a := aErrEntry e.wharf slot 0
    s.wr ⟨a, 12, 0⟩ (satAdd 13 (s.rd ⟨a, 12, 0⟩) 1)
  | none =>
    if errPending s e.wharf ≥ 64 then s.inc (fLostCorr e.wharf)
    else
      let s1 := errWrite s e
      if s.flag (fErrIrqEn e.wharf) && s.flag (fErrIrqCorr e.wharf) then msixRaise s1 (s.rd (fErrVec e.wharf)) else s1

/-- The queue index of the entry that an event is recorded in: that with which a corrected one coalesces; 0 for one that a full queue drops,
which no entry names (14 R269, R270, R274; the 0: DESIGN CHOICE, log entry 16). -/
def errEntry (s : State) (e : ErrIn) : Nat :=
  if e.cls ≠ 0 ∨ s.isFatal then errIndex s e.wharf
  else match errCoalesce s e with
    | some slot => e.wharf * 2 ^ 32 + nbits (s.reg (aErrEntry e.wharf slot 0)).toNat 63 32
    | none => if errPending s e.wharf ≥ 64 then 0 else errIndex s e.wharf

def fLogDropped : Fld := ⟨0xA00200, 47, 32⟩
/-- A record put into the buffer toward the flash; contained entries beyond 100 in one second, or beyond the buffer's 256 places, are
dropped and counted (17 R327). -/
def flashPut (s : State) (contained : Bool) (r : FlashRec) : State :=
  if !contained then { s with failBuf := s.failBuf ++ [r] }
  else
    let fresh := decide (s.mile ≥ s.back.winStart + 1000000000)
    let n := if fresh then 0 else s.back.winCount
    let s1 := { s with back := { s.back with winStart := if fresh then s.mile else s.back.winStart, winCount := n + 1 } }
    if n ≥ 100 ∨ s.failBuf.length ≥ 256 then s1.inc fLogDropped else { s1 with failBuf := s1.failBuf ++ [r] }

/-- The boot record in force: the copy with the higher sequence number (16 R299). -/
def TrustSt.boot (t : TrustSt) : BootRec := if t.bootA.seq < t.bootB.seq then t.bootB else t.bootA
def TrustSt.active (t : TrustSt) : Nat := t.boot.active
def TrustSt.trial (t : TrustSt) : Option Nat := t.boot.trial
/-- The boot record changed: the other copy takes the new contents, under the next sequence number. -/
def TrustSt.putBoot (t : TrustSt) (f : BootRec → BootRec) : TrustSt :=
  let b : BootRec := { f t.boot with seq := t.boot.seq + 1 }
  if t.bootA.seq < t.bootB.seq then { t with bootA := b } else { t with bootB := b }
/-- The trial slot is given up: the boot record has none, the slot that runs is staged again, and its commit window is closed (16 R305). -/
def TrustSt.trialOver (t : TrustSt) : TrustSt := { t.putBoot (fun b => { b with trial := none }) with staged := some t.running, trialShut := true }
/-- A trial boot that meets a fatal error is given up (16 R305). -/
def trialLost (t : TrustSt) : TrustSt := if t.trialBoot && !t.trialShut then t.trialOver else t

/-- A contained or fatal entry, its copy toward the failure log, and its MSI-X vector (14 R269, R277); the first fatal entry sets
WHF_ERR_FATAL and starts the fatal sequence, and every entry after it is fatal with further = 1 (14 R273). -/
def errSevere (s : State) (e : ErrIn) : State :=
  let fatalBefore := s.isFatal
  let e' : ErrIn := if fatalBefore then
      { e with cls := 2, further := true, halted := false,
               q4 := [s.rd ⟨0x710000, 62, 60⟩ * 2 ^ 32 + s.rd ⟨0x710000, 31, 0⟩] }
    else e
  let slot := s.rd (fErrNext e.wharf) % 64
  let ix := s.rd (fErrNext e.wharf)
  let s1 := errWrite s e'
  let copy := (List.range 8).map fun q => s1.reg (aErrEntry e.wharf slot q)
  let s2 := flashPut s1 (decide (e'.cls = 1)) (.entry copy)
  if fatalBefore then s2
  else if e'.cls = 2 then
    { s2.setReg 0x710000 (BitVec.ofNat 64 (2 ^ 63 + e.wharf % 8 * 2 ^ 60 + e.cause % 256 * 2 ^ 52 + ix)) with fatalStep := some 0, trust := trialLost s2.trust }
  else if s.flag (fErrIrqEn e.wharf) then msixRaise s2 (s.rd (fErrVec e.wharf))
  else s2

/-- An error recorded (14 R268 to R273). -/
def errRaise (s : State) (e : ErrIn) : State :=
  if e.cls = 0 && !s.isFatal then errCorrected s e else errSevere s e

/-- The first fatal entry of an event: unit_halted = 1 (14 R271). -/
def errFatal (s : State) (w cause kind q2 detail : Nat) (part : Nat := 0) : State :=
  errRaise s { wharf := w, cls := 2, cause := cause, kind := kind, part := part, halted := true, q2 := q2, detail := detail }

end Sys2Proof.Machine
end

