-- ==== Sys2Proof/Machine/Lanes.lean ====
section
/-! DEFINITION. The scratchpad: where a byte lies (05 R90), reading and writing bytes, and the granting of lanes (05 R94 to R97). -/

namespace Sys2Proof.Machine
open Sys2Proof

def spadBytes : Nat := 0x4000000
def byte0 : Nat → Byte := fun _ => 0#8

/-- The bank, lane in the bank, line of the byte at an offset (05 R90). -/
def laneMap (off : Nat) : Nat × Nat × Nat :=
  let g := off / 2 ^ 15
  let r := off / 2 ^ 8 % 128
  let e := off / 2 % 128
  let u := (e + r) % 128
  let pair := (g + r) % 32
  (2 * pair + u / 64, u % 64, g / 32 * 128 + r)

/-- Lane index 0 to 4,095 and line of an offset. -/
def laneOf (off : Nat) : Nat × Nat := let m := laneMap off; (m.1 * 64 + m.2.1, m.2.2)

/-- A lane-line as one number. -/
def laneLine (off : Nat) : Nat := let m := laneOf off; m.1 * 8192 + m.2

/-- The 16-bit positions that byte ranges touch. -/
def segHalves (segs : List (Nat × Nat)) : List Nat :=
  segs.flatMap fun p => if p.2 = 0 then [] else (upFrom (p.1 / 2) ((p.1 + p.2 - 1) / 2 + 1 - p.1 / 2)).map (2 * ·)

/-- The lanes and lines that byte ranges use. -/
def footprint (segs : List (Nat × Nat)) : List (Nat × Nat) := (segHalves segs).map laneOf

/-- May a claim share its lane with a new request (05 R95)? -/
def claimShares (c : Claim) (line : Nat) (who : Requester) (write : Bool) : Bool :=
  decide (c.line = line) && ((!c.write && !write) || (match c.who, who with | .core a, .core b => decide (a = b) | _, _ => false))

def tile0 : Nat → TileSt := fun _ => {}
def core0 : Nat → CoreSt := fun _ => {}
def State.tile (s : State) (n : Nat) : TileSt := tget tile0 s.tiles n
def State.setTile (s : State) (n : Nat) (t : TileSt) : State := { s with tiles := tset tile0 s.tiles n t }
def State.core (s : State) (uid : Nat) : CoreSt := tget core0 s.cores uid
def State.setCore (s : State) (uid : Nat) (c : CoreSt) : State := { s with cores := tset core0 s.cores uid c }
def State.modTile (s : State) (n : Nat) (f : TileSt → TileSt) : State := s.setTile n (f (s.tile n))
def State.modCore (s : State) (uid : Nat) (f : CoreSt → CoreSt) : State := s.setCore uid (f (s.core uid))

/-- Power domains of a tile: its compute island and its clock (15 R288). -/
def dom0 : Nat → DomForm := fun _ => .up
def domUp (s : State) (d : Nat) : Bool := decide (tget dom0 s.power.dom d = .up)
def tileReady (s : State) (t : Nat) : Bool := domUp s t && domUp s (60 + t)
/-- A milestone that work on tiles awaits has come: it wakes those tiles with the host rings' vote, which ends as that of PWR_CTRL.wake does
(15 R291; the end: DESIGN CHOICE, log entry 13). -/
def wakeTiles (s : State) (ts : List Nat) : State :=
  { s with power := { s.power with wakeTiles := s.power.wakeTiles ++ ts.filter fun t => !s.power.wakeTiles.contains t } }

/-- Are all lanes of a request free of claims it cannot share (05 R95, R96)? -/
def lanesFree (cl : List Claim) (who : Requester) (write : Bool) (fp : List (Nat × Nat)) : Bool :=
  cl.isEmpty || fp.all fun p => cl.all fun c => decide (c.lane ≠ p.1) || claimShares c p.2 who write

/-- The class in which a request is granted (05 R96): lower is first. -/
def reqClass (guard : Nat) (d : Denied) : Nat :=
  match d.who with
  | .scrub => 1
  | .barge _ | .remote => if guard ≥ 1 ∧ d.count + 1 ≥ guard then 2 else 4
  | .core _ => 3
/-- The order of a core's own requests (05 R96). -/
def reqOrder (k : ReqKind) : Nat :=
  match k with
  | .drainWrite _ => 0 | .store _ u => 1 + u | .drainRead _ => 3 | .shadowRow => 4 | .winop _ _ => 5 | .load _ u => 6 + u | .index _ _ => 9
  | .bargePiece => 10
/-- The core of a tile that is first in its present tile cycle: the first place moves on by one core each tile cycle (05 R96). -/
def firstCore (tile : Nat) (t : TileSt) : Nat := (Config.coreFirst tile t.rot + t.tcyc) % 4
/-- Is a request granted before another one of the same tile cycle (05 R96)? -/
def ranksBefore (first guard : Nat) (a b : Denied) : Bool :=
  if reqClass guard a ≠ reqClass guard b then decide (reqClass guard a < reqClass guard b)
  else match a.who, b.who with
  | .core x, .core y =>
    if x = y then decide (reqOrder a.kind < reqOrder b.kind) else decide ((x + 4 - first) % 4 < (y + 4 - first) % 4)
  | _, _ => false
/-- Do two requests want a lane that they cannot share? -/
def clash (a b : Denied) : Bool :=
  !(lanesFree ((footprint a.segs).map fun p => ⟨p.1, p.2, a.who, a.write⟩) b.who b.write (footprint b.segs))

/-- Is it the barge engine or the mesh endpoint, which together move at most 4 KiB in a tile cycle (05 R94)? -/
def Requester.moves : Requester → Bool
  | .barge _ | .remote => true
  | _ => false
def engineRoom (cl : List Claim) (who : Requester) (n : Nat) : Bool :=
  !who.moves || decide (2 * ((cl.filter fun c => c.who.moves).length + n) ≤ 4096)

/-- The queued corrections that the ending tile cycle leaves: a write-back has rank 5, so it is done in the first cycle in which
nobody holds its lane (05 R96, R98); what the patrol scrub found waits for the bank's next claim. -/
def leftCorrections (t : TileSt) : Tbl Nat :=
  t.ce.filter fun p => (t.scrubFix.any fun q => decide (q.2 = some p.1)) || t.claims.any fun c => decide (c.lane = p.1 / 8192)

/-- A waiting request n tile cycles later: it has been denied in each but one for which it was only put up (05 R97). -/
def Denied.later (n : Nat) (d : Denied) : Denied := { d with count := d.count + n - b2n (d.turn = .next), turn := .asks }
/-- n new tile cycles: nobody holds a lane; what is being presented has been denied so often more (05 R96, R97); barge_guard acts as it
stands now (05 R108). -/
def newTileCycle (guard n : Nat) (t : TileSt) : TileSt :=
  { t with claims := [], acted := [], closed := false, guard := guard, tcyc := t.tcyc + n, ce := leftCorrections t
           denied := t.denied.map (Denied.later n) }
/-- n new tile cycles of a tile. -/
def State.nextCycle (s : State) (tile n : Nat) : State := s.modTile tile (newTileCycle (s.rd (fGuard tile)) n)

/-- Does a request rank below every core (05 R96)? -/
def lastRank (guard : Nat) (d : Denied) : Bool := decide (reqClass guard d = 4)
/-- The tile with a request granted its lanes: one that ranks below every core closes the tile cycle to them (05 R96). -/
def TileSt.grant (t : TileSt) (d : Denied) : TileSt :=
  { t with claims := t.claims ++ (footprint d.segs).map (fun p => ⟨p.1, p.2, d.who, d.write⟩), closed := t.closed || lastRank t.guard d }
/-- May a request have its lanes in the present tile cycle: none of them is held, the engine has room, a core comes before the last
rank (05 R94 to R96)? -/
def TileSt.fits (t : TileSt) (d : Denied) : Bool :=
  lanesFree t.claims d.who d.write (footprint d.segs) && engineRoom t.claims d.who (footprint d.segs).length && !(t.closed && !d.who.moves)

/-- Is a new request behind one that is still being presented, ranks no lower, wants a lane of it and could have it (05 R96)? -/
def behind (first : Nat) (t : TileSt) (d : Denied) : Bool :=
  t.denied.any fun o => decide (o.turn = .asks) && clash o d && !ranksBefore first t.guard d o && t.fits o

/-- A request presented in the current tile cycle, of a core in the next one where this is closed to cores: granted whole, or not (05 R96). -/
def present (s : State) (tile : Nat) (who : Requester) (k : ReqKind) (write : Bool) (segs : List (Nat × Nat)) : Bool × State :=
  let d : Denied := ⟨who, k, segs, write, 0, .asks⟩
  let s := if (s.tile tile).closed && !who.moves then s.nextCycle tile 1 else s
  let t := s.tile tile
  if t.fits d && !behind (firstCore tile t) t d then (true, s.setTile tile (t.grant d)) else (false, s)

/-- TILE_SCRUB's counters (17 R321). -/
def fScrubDenials (n : Nat) : Fld := ⟨aTile n 0x10, 63, 32⟩
def fScrubPasses (n : Nat) : Fld := ⟨aTile n 0x10, 31, 16⟩
/-- Is a core's request denied by the patrol scrub's claim? -/
def scrubBlocks (t : TileSt) (d : Denied) : Bool :=
  (match d.who with | .core _ => true | _ => false)
    && !lanesFree (t.claims.filter fun c => decide (c.who = .scrub)) d.who d.write (footprint d.segs)
/-- A denied request is remembered and presented again in every following tile cycle (05 R97); a core's denial by the scrub is
counted (17 R321), here and at the scrub's claims in later cycles. -/
def deny (s : State) (tile : Nat) (d : Denied) : State :=
  let s1 := s.modTile tile fun t => { t with denied := t.denied ++ [d] }
  if scrubBlocks (s.tile tile) d then s1.inc (fScrubDenials tile) else s1

/-- Does a core that comes after this one in the tile cycle's rotation hold lanes, or, by a grant of what it still presented, this one itself?
Its new writes come before those grants, in the order within a core and in what a read returns (05 R95, R96). -/
def TileSt.passed (t : TileSt) (first uid : Nat) : Bool :=
  t.claims.any fun c => match c.who with | .core x => decide ((uid + 4 - first) % 4 ≤ (x + 4 - first) % 4) | _ => false
/-- A core acts once in a tile cycle, before what it still presents is granted there, and the cores that act in it present their requests in the
order of its rotation (05 R96): an action that does not fit in begins the next tile cycle (DESIGN CHOICE, log entry 16). -/
def tileTouch (s : State) (uid : Nat) : State :=
  let t := s.tile (uid / 4)
  (if t.closed || (t.acted.any fun p => decide (p.1 = uid)) || t.passed (firstCore (uid / 4) t) uid then s.nextCycle (uid / 4) 1 else s).modTile
    (uid / 4) fun t => { t with acted := (uid, (s.core uid).cyc) :: t.acted }
/-- The core cycle in which a grant of the present tile cycle counts: that of the core's action in it; without one, the cycle at which the core
is frozen or held, or its last (05 R97; 06 R112). -/
def State.grantCyc (s : State) (uid : Nat) : Nat :=
  let c := s.core uid
  match (s.tile (uid / 4)).acted.find? fun p => decide (p.1 = uid) with
  | some p => p.2
  | none => if c.freezes.isEmpty && c.wait.isNone then c.cyc - 1 else c.cyc

/-- The first and last lane of a range that the range covers in part. -/
def partLanes (o n : Nat) : List Nat := (segHalves [(o, 1), (o + n - 1, 1)]).filter fun h => decide (h < o) || decide (o + n < h + 2)
/-- The key of a scratchpad byte of a logical tile. -/
def spadKey (s : State) (tile off : Nat) : Nat := s.tileSite tile * spadBytes + off
/-- n bytes of a logical tile's scratchpad. -/
def spadRead (s : State) (tile off n : Nat) : List Byte := (List.range n).map fun i => tget byte0 s.spad (spadKey s tile off + i)
/-- The bytes of several ranges, in order. -/
def spadReadSegs (s : State) (tile : Nat) (segs : List (Nat × Nat)) : List Byte := segs.flatMap fun p => spadRead s tile p.1 p.2
/-- The lane-lines that a range covers whole. -/
def fullLines (off n : Nat) : List Nat :=
  let a := (off + 1) / 2
  (upFrom a ((off + n) / 2 - a)).map fun h => laneLine (2 * h)
/-- The lane-lines that a range touches. -/
def touchedLines (off n : Nat) : List Nat := (segHalves [(off, n)]).map laneLine
/-- Bytes written; a full-lane write clears an uncorrectable lane-line; any write cancels a queued correction of its lane-lines (05 R98). -/
def spadWrite (s : State) (tile off : Nat) (bs : List Byte) : State :=
  let keys := (List.range bs.length).map fun i => (spadKey s tile off + i, lget 0#8 bs i)
  let s1 := { s with spad := tsetAll byte0 s.spad keys }
  s1.modTile tile fun t =>
    if t.ue.isEmpty && t.ce.isEmpty then t
    else { t with ue := (fullLines off bs.length).foldl (fun u l => tset falseAt u l false) t.ue,
                  ce := (touchedLines off bs.length).foldl (fun u l => tset nat0 u l 0) t.ce,
                  ceEntry := (touchedLines off bs.length).foldl (fun u l => tset nat0 u l 0) t.ceEntry }
/-- Bytes scattered over ranges, in order. -/
def spadWriteSegs (s : State) (tile : Nat) : List (Nat × Nat) → List Byte → State
  | [], _ => s
  | (o, n) :: r, bs => spadWriteSegs (spadWrite s tile o (takePad n bs)) tile r (bs.drop n)

/-- The first uncorrectable lane-line that byte ranges meet. -/
def firstUe (s : State) (tile : Nat) (segs : List (Nat × Nat)) : Option UeAt :=
  let t := s.tile tile
  if t.ue.isEmpty then none
  else (((segHalves segs).map laneLine).find? fun l => tget falseAt t.ue l).map fun l => ⟨l, none⟩

/-- q2 of a scratchpad entry (14 R271). -/
def spadQ2 (tile ll : Nat) : Nat := tile + (ll / 8192 / 64) * 2 ^ 6 + (ll / 8192 % 64) * 2 ^ 12 + (ll % 8192) * 2 ^ 18

/-- The record of an uncorrectable lane-line in TILE_SPAD_STATUS (05 R98, R108); the tile that reports it is fenced (10 R203). -/
def noteUe (s : State) (tile ll : Nat) : State :=
  let s0 := if s.fenced.contains tile then s else { s with fenced := s.fenced ++ [tile] }
  let s1 := s0.inc (fUeCount tile)
  if s1.flag (fUeValid tile) then s1
  else s1.wrAll [(fUeLine tile, ll % 8192), (fUeBank tile, ll / 8192 / 64), (fUeLane tile, ll / 8192 % 64), (fUeValid tile, 1)]

/-- The partition number of a tile for an entry, 0 where none holds it. -/
def partOr0 (s : State) (tile : Nat) : Nat := (s.tilePart tile).getD 0
def tileWharf (tile : Nat) : Nat := quadWharf (tileQuad tile)

/-- The offset of the first byte of a lane-line: the inverse of R90's map. -/
def laneOff (ll : Nat) : Nat :=
  let line := ll % 8192
  let bank := ll / 8192 / 64
  let r := line % 128
  let u := bank % 2 * 64 + ll / 8192 % 64
  let g := line / 128 * 32 + (bank / 2 + 128 - r) % 32
  g * 2 ^ 15 + r * 2 ^ 8 + (u + 128 - r) % 128 * 2

/-- What an ECC event on a lane-line makes of it: none for a correction, the escalation's earlier entry for an uncorrectable one
(05 R98, 14 R274). -/
inductive EccOut where
  | corrected
  | bad (escalated : Option Nat)
  deriving DecidableEq, Repr

/-- A check-bit result on a lane-line (05 R98, 14 R267, R274): a correction is counted, entered and queued for write-back; a second
event on a line whose correction is queued and differs, or an uncorrectable one, makes the line uncorrectable. -/
def spadEcc (s : State) (tile ll syn : Nat) (bad : Bool) : State × EccOut :=
  let t := s.tile tile
  let pend := tget nat0 t.ce ll
  let escalates := decide (pend ≠ 0) && (bad || decide (pend ≠ syn + 1))
  if bad || escalates then
    let t' := { t with ue := tset falseAt t.ue ll true, ce := tset nat0 t.ce ll 0,
                       ceEntry := tset nat0 t.ceEntry ll 0 }
    (s.setTile tile t', .bad (if escalates then some (tget nat0 t.ceEntry ll) else none))
  else
    let w := tileWharf tile
    let e : ErrIn := { wharf := w, cls := 0, cause := 0x01, kind := 4, part := partOr0 s tile, q2 := spadQ2 tile ll, detail := syn, addr := laneOff ll }
    let s1 := (s.inc (fCeCount tile)).modTile tile fun t =>
      { t with ce := tset nat0 t.ce ll (syn + 1), ceEntry := tset nat0 t.ceEntry ll (errEntry s e) }
    (errRaise s1 e, .corrected)
/-- An uncorrectable lane-line met where nothing halts, by the patrol or the exchange: its entry (05 R98; 14 R267, R272). -/
def spadUeAlone (s : State) (tile ll : Nat) (esc : Option Nat) : State :=
  errRaise (noteUe s tile ll)
    { wharf := tileWharf tile, cls := 1, cause := 0x42, kind := 4, part := partOr0 s tile, q2 := spadQ2 tile ll, addr := laneOff ll,
      q4 := esc.toList, escalated := esc.isSome }

end Sys2Proof.Machine
end

