-- ==== Sys2Proof/Machine/Gens.lean ====
section
/-! DEFINITION. Address generators, stride programs and index groups (05 R99 to R104). -/

namespace Sys2Proof.Machine
open Sys2Proof

/-- One loop level of a stride program. -/
structure Level where
  countM1 : Nat
  istride : Int
  stride : Int
  deriving DecidableEq, Repr

/-- A stride program (05 R100). -/
structure StrideP where
  nlev : Nat
  mode : Nat
  indEn : Bool
  wide : Bool
  halt : Bool
  indBase : Nat
  indStride : Nat
  indLimit : Nat
  levels : List Level
  deriving DecidableEq, Repr

/-- A stride program read from its sixteen quadwords. -/
def strideOf (q : Nat → Nat) : StrideP :=
  { nlev := nbits (q 0) 2 0, mode := nbits (q 0) 5 4, indEn := nbit (q 0) 6, wide := nbit (q 0) 7, halt := nbit (q 0) 8,
    indBase := nbits (q 1) 25 0, indStride := nbits (q 2) 31 0, indLimit := nbits (q 2) 63 32,
    levels := (List.range 6).map fun k =>
      ⟨nbits (q (4 + k)) 15 0, sint 16 (nbits (q (4 + k)) 31 16), sint 32 (nbits (q (4 + k)) 63 32)⟩ }

/-- Is a stride program legal (05 R100)? An empty slot is. -/
def strideOk (q : Nat → Nat) : Bool :=
  decide (nbits (q 0) 2 0 ≠ 7) && !nbit (q 0) 3 && decide (nbits (q 0) 5 4 ≠ 3) && decide (nbits (q 0) 63 9 = 0)
    && decide (nbits (q 1) 63 26 = 0) && decide (nbits (q 1) 25 0 % (if nbit (q 0) 7 then 4 else 2) = 0)
    && decide (q 3 = 0) && (List.range 6).all fun k => decide (q (10 + k) = 0)

def gen0 : Nat → Gen := fun _ => {}
def word0 : Nat → Word64 := fun _ => 0#64
def CoreSt.gen (c : CoreSt) (g : Nat) : Gen := tget gen0 c.gens g
def CoreSt.setGen (c : CoreSt) (g : Nat) (v : Gen) : CoreSt := { c with gens := tset gen0 c.gens g v }
/-- A resident stride program of a core. -/
def CoreSt.stride (c : CoreSt) (p : Nat) : StrideP := strideOf fun q => (tget word0 c.progs (p * 16 + q)).toNat

/-- Linear address and index position of the next access (05 R101). -/
def genLin (g : Gen) (p : StrideP) : Int × Int :=
  ((List.range p.nlev).foldl (fun a k => a + ((lget 0 g.i k : Nat) : Int) * (lget ⟨0, 0, 0⟩ p.levels k).stride) (g.base : Int),
   (List.range p.nlev).foldl (fun a k => a + ((lget 0 g.i k : Nat) : Int) * (lget ⟨0, 0, 0⟩ p.levels k).istride) 0)

/-- The loop counters after one access or skip, and whether the program has ended (05 R101). -/
def genStep : List Level → List Nat → List Nat × Bool
  | [], i => (i, true)
  | l :: ls, k :: i => if k < l.countM1 then ((k + 1) :: i, false) else let r := genStep ls i; (0 :: r.1, r.2)
  | _ :: _, [] => ([], true)

/-- The generator after an access or skip. -/
def genAdvance (g : Gen) (p : StrideP) : Gen :=
  let r := genStep (p.levels.take p.nlev) (g.i.take p.nlev)
  { g with i := r.1 ++ g.i.drop p.nlev, ended := r.2, count := (g.count + 1) % 2 ^ 48 }

/-- Why a generator cannot make an access, with the cause code of a flight halt (14 R272). -/
inductive GenErr where
  /-- 1 illegal field, 4 address fault, 8 stride overrun; the address for the entry. -/
  | fault (cause addr : Nat)
  /-- The index group at an offset is in neither buffer: read it into B? -/
  | miss (off : Nat) (bufB : Bool)
  deriving DecidableEq, Repr

/-- The generator ready for an access or skip: unbound, empty and ended programs stop it or start again (05 R99 to R101). -/
def genReady (c : CoreSt) (g : Nat) : Except GenErr (Gen × StrideP) :=
  let st := c.gen g
  let p := c.stride st.prog
  if !st.bound || decide (p.nlev = 0) then .error (.fault 1 0)
  else if st.ended then
    (if p.halt then .error (.fault 8 0)
     else .ok ({ st with ended := false, wraps := satAdd 16 st.wraps 1 }, p))
  else .ok (st, p)

/-- The offset of the index the next access takes. -/
def indexOff (p : StrideP) (q : Int) : Int := (p.indBase : Int) + q * (if p.wide then 4 else 2)

/-- The buffer that holds the group at an offset (B?), and its bytes. -/
def heldGroup (g : Gen) (off : Nat) : Option (Bool × List Byte) :=
  let in_ (b : Bool) (x : Option (Nat × List Byte)) : Option (Bool × List Byte) := x.bind fun q => if q.1 = off then some (b, q.2) else none
  (in_ false g.grpA).or (in_ true g.grpB)

/-- The bytes of one index. -/
def StrideP.width (p : StrideP) : Nat := if p.wide then 4 else 2
/-- The offset of the index that the next access takes, where it lies in the scratchpad. -/
def nextIndex (g : Gen) (p : StrideP) : Option Nat :=
  let o : Int := indexOff p (genLin g p).2
  if o < 0 ∨ o + (p.width : Int) > (spadBytes : Int) then none else some o.toNat
/-- An index in a group's bytes. -/
def indexIn (p : StrideP) (d : List Byte) (on : Nat) : Nat := leNat (sliceB d (on % 64) p.width)
/-- The address that an index gives (05 R101): none for a null index (05 R104). -/
def indexAddr (g : Gen) (p : StrideP) (x : Nat) : Option Int :=
  if x = 2 ^ (8 * p.width) - 1 then none else some ((genLin g p).1 + (x : Int) * p.indStride)

/-- The next address before its check (05 R99): none where its index is not held. -/
def genNext (g : Gen) (p : StrideP) : Option (Option Int) :=
  if !g.bound || decide (p.nlev = 0) then none
  else if !p.indEn then some (some (genLin g p).1)
  else (nextIndex g p).bind fun on => (heldGroup g (on / 64 * 64)).map fun h => indexAddr g p (indexIn p h.2 on)

/-- The address of the next access: a value, or none for a null access; the generator with the buffer it used, and the next group
to prefetch (05 R101 to R104): none past the scratchpad's end (DESIGN CHOICE, log entry 16). -/
def genAddr (g : Gen) (p : StrideP) : Except GenErr (Option Int × Gen × Option Nat) :=
  let l := genLin g p
  if !p.indEn then .ok (some l.1, g, none)
  else match nextIndex g p with
  | none => .error (.fault 4 (uint 48 (indexOff p l.2)))
  | some on =>
    let grp := on / 64 * 64
    match heldGroup g grp with
    | none => .error (.miss grp (!g.lastB))
    | some (inB, d) =>
      let x := indexIn p d on
      let next := grp + 64
      let pf := if (heldGroup g next).isSome || decide (next ≥ spadBytes) then none else some next
      match indexAddr g p x with
      | none => .ok (none, { g with lastB := inB }, pf)
      | some a =>
        if p.indLimit ≠ 0 ∧ x ≥ p.indLimit then .error (.fault 4 (uint 48 l.1)) else .ok (some a, { g with lastB := inB }, pf)

/-- A group read asked for, unless the same group is being read (DEDUCED, log entry 16). -/
def Gen.ask (g : Gen) (r : GrpRead) : Gen := if g.reads.any fun x => decide (x.off = r.off) then g else { g with reads := g.reads ++ [r] }

/-- The byte ranges of an access, by mode (05 R92, R102): none is an address fault. `two` adds the second block. -/
def accessSegs (mode len : Nat) (two : Bool) (a : Int) : Option (List (Nat × Nat)) :=
  if a < 0 then none
  else
    let n := a.toNat
    if mode = 0 then
      (if n + len > spadBytes ∨ (len ≥ 256 ∧ n % 64 ≠ 0) ∨ (len = 8 ∧ n % 8 ≠ 0) then none else some [(n, len)])
    else if mode = 1 then
      (if nbits n 14 8 ≠ 0 ∨ n % 2 ≠ 0 ∨ n / 2 ^ 15 * 2 ^ 15 + (if two then 2 ^ 16 else 2 ^ 15) > spadBytes then none
       else some ((List.range (if two then 256 else 128)).map fun r => (n + 256 * r, 2)))
    else
      (if nbits n 15 9 ≠ 0 ∨ n % 4 ≠ 0 ∨ n / 2 ^ 16 * 2 ^ 16 + (if two then 2 ^ 17 else 2 ^ 16) > spadBytes then none
       else some ((List.range (if two then 256 else 128)).map fun r => (n + 512 * r, 4)))

/-- One access of generator g: the byte ranges (none for a null access) and the core with the generator advanced and its prefetch
asked for. `modes` says for each mode whether it is allowed and whether it covers two blocks (05 R102). -/
def genAccess (c : CoreSt) (g len : Nat) (modes : Nat → Option Bool) : Except GenErr (Option (List (Nat × Nat)) × CoreSt) :=
  match genReady c g with
  | .error e => .error e
  | .ok (st, p) =>
    match modes p.mode with
    | none => .error (.fault 1 0)
    | some two =>
      match genAddr st p with
      | .error e => .error e
      | .ok (a, st', pf) =>
        let adv := match pf with
          | some o => (genAdvance st' p).ask ⟨o, !st'.lastB, false, c.cyc + 1, [], c.pc, c.rep, none⟩
          | none => genAdvance st' p
        match a with
        | none => .ok (none, c.setGen g adv)
        | some lin =>
          match accessSegs p.mode len two lin with
          | none => .error (.fault 4 (uint 48 lin))
          | some segs => .ok (some segs, c.setGen g adv)

/-- A skip: the advance alone (05 R101). -/
def genSkip (c : CoreSt) (g : Nat) : Except GenErr CoreSt :=
  match genReady c g with
  | .error e => .error e
  | .ok (st, p) => .ok (c.setGen g (genAdvance st p))

/-- Mode tables of R102. -/
def modesFeed (wide : Bool) : Nat → Option Bool
  | 0 => some false
  | 1 => if wide then none else some false
  | _ => if wide then some false else none
def modesVec : Nat → Option Bool
  | 0 => some false | 1 => none | _ => some true
def modesT16 : Nat → Option Bool
  | 0 => some false | 1 => some true | _ => none
def modesLin : Nat → Option Bool
  | 0 => some false | _ => none

/-- A generator bound to a program: counters, wraps, count and groups cleared, base kept; the group of the first access is asked
for in the next cycle (05 R99, R103). `bundle` and `rep` are those of the bind. -/
def genBind (c : CoreSt) (g prog bundle rep : Nat) : CoreSt :=
  let st := c.gen g
  let st' : Gen := { prog := prog, bound := true, base := st.base }
  let p := c.stride prog
  let rd : List GrpRead := match nextIndex st' p with
    | some o => if p.indEn && decide (p.nlev ≠ 0) then [⟨o / 64 * 64, false, false, c.cyc, [], bundle, rep, none⟩] else []
    | none => []
  c.setGen g { st' with reads := rd }

/-- A group put into its buffer. -/
def genArrive (g : Gen) (r : GrpRead) : Gen :=
  let rest := g.reads.filter (· ≠ r)
  if r.bufB then { g with grpB := some (r.off, r.data), reads := rest } else { g with grpA := some (r.off, r.data), reads := rest }
/-- The group reads that have had their four cycles (05 R103). -/
def Gen.dueReads (g : Gen) (cyc : Nat) : List GrpRead := g.reads.filter fun r => r.granted && decide (r.at_ + 4 ≤ cyc)

end Sys2Proof.Machine
end

