-- ==== Sys2Proof/Machine/Operands.lean ====
section
/-! DEFINITION. The slots of a bundle: their operations, the decoding of a slot word with every reserved bit checked (04 R64, R72,
R76 to R81, R352), and the encoding of the same operations. -/

namespace Sys2Proof.Machine
open Sys2Proof

/-- The operations of the R and I formats, in opcode order (04 R72). -/
inductive AluOp where
  | add | sub | and | or | xor | shl | shr | sra | min | max | cmpeq | cmplt | cmpltu
  deriving DecidableEq, Repr

def aluOps : List AluOp := [.add, .sub, .and, .or, .xor, .shl, .shr, .sra, .min, .max, .cmpeq, .cmplt, .cmpltu]

/-- S-slot operations (04 R72). -/
inductive SOp where
  | nop
  | alu (o : AluOp) (d a b : Nat)
  | alui (o : AluOp) (d a imm : Nat)
  | mul (d a b : Nat)
  | mulhu (d a b : Nat)
  | mulhs (d a b : Nat)
  | ld (d a imm : Nat)
  | st (d a imm : Nat)
  | csrr (d n : Nat)
  | csrw (a n : Nat)
  | br (t : Nat)
  | brz (a t : Nat)
  | brnz (a t : Nat)
  | bri (a : Nat)
  | brl (d t : Nat)
  deriving DecidableEq, Repr

/-- Operations of one load half (04 R79). -/
inductive LOp where
  | nop | feed | vec (v chunk : Nat) | scl (s : Nat) | bind (p : Nat) | base (s : Nat) | skip | bind3 (p : Nat) | base3 (s : Nat)
  deriving DecidableEq, Repr

/-- T-slot operations (04 R80). -/
inductive TOp where
  | nop | vec (v chunk : Nat) | vec16 (v chunk : Nat) | vec8 (v chunk : Nat) | scl (s : Nat) | bind (p : Nat) | base (s : Nat) | skip
  deriving DecidableEq, Repr

/-- M-slot operations (04 R78). -/
inductive MOp where
  | nop | mul (swap win : Bool) (acc row : Nat) | swap | shadow (part : Bool)
  deriving DecidableEq, Repr

/-- Y-slot operations (04 R81); tile 0x3F is the core's own. -/
inductive YOp where
  | nop | inc (tile gate imm : Nat) | add (tile gate s : Nat) | wait (tile gate s : Nat) | read (tile gate s : Nat)
  | mwait (s : Nat) | mread (s : Nat)
  deriving DecidableEq, Repr

/-- V-slot operations: none is VNOP. -/
abbrev VOp := Option (VOpc × VArg)

/-- A decoded bundle (04 R64). -/
structure Bundle where
  s : SOp
  v : VOp
  m : MOp
  l0 : LOp
  l1 : LOp
  t : TOp
  y : YOp
  eop : Bool
  repM1 : Nat
  deriving DecidableEq, Repr

/-- An S-slot word (04 R72, R352); none is an illegal opcode or a non-zero reserved bit. -/
def decS (w : Nat) : Option SOp :=
  let op := nbits w 47 40
  let d := nbits w 39 34
  let a := nbits w 33 28
  let b := nbits w 27 22
  let imm := nbits w 27 0
  let rz := decide (nbits w 21 0 = 0)
  let tz := decide (nbits w 27 13 = 0)
  let t := nbits w 12 0
  let cz := decide (nbits w 27 12 = 0)
  let n := nbits w 11 0
  if op = 0 then (if w = 0 then some .nop else none)
  else if 0x01 ≤ op ∧ op ≤ 0x0D then (if rz then some (.alu (lget .add aluOps (op - 1)) d a b) else none)
  else if 0x11 ≤ op ∧ op ≤ 0x1D then some (.alui (lget .add aluOps (op - 0x11)) d a imm)
  else if op = 0x20 then (if rz then some (.mul d a b) else none)
  else if op = 0x21 then (if rz then some (.mulhu d a b) else none)
  else if op = 0x22 then (if rz then some (.mulhs d a b) else none)
  else if op = 0x28 then some (.ld d a imm)
  else if op = 0x29 then some (.st d a imm)
  else if op = 0x30 then (if cz then some (.csrr d n) else none)
  else if op = 0x31 then (if cz then some (.csrw a n) else none)
  else if op = 0x40 then (if tz && decide (d = 0) then some (.br t) else none)
  else if op = 0x41 then (if tz && decide (d = 0) then some (.brz a t) else none)
  else if op = 0x42 then (if tz && decide (d = 0) then some (.brnz a t) else none)
  else if op = 0x43 then (if tz && decide (d = 0) then some (.bri a) else none)
  else if op = 0x44 then (if tz then some (.brl d t) else none)
  else none

/-- The position of an operation in its opcode range. -/
def AluOp.code : AluOp → Nat
  | .add => 0 | .sub => 1 | .and => 2 | .or => 3 | .xor => 4 | .shl => 5 | .shr => 6 | .sra => 7 | .min => 8 | .max => 9
  | .cmpeq => 10 | .cmplt => 11 | .cmpltu => 12

def packS (op d a low : Nat) : Nat := op * 2 ^ 40 + d * 2 ^ 34 + a * 2 ^ 28 + low

/-- The S-slot word of an operation (04 R72). -/
def encS : SOp → Nat
  | .nop => 0
  | .alu o d a b => packS (1 + o.code) d a (b * 2 ^ 22)
  | .alui o d a imm => packS (0x11 + o.code) d a imm
  | .mul d a b => packS 0x20 d a (b * 2 ^ 22)
  | .mulhu d a b => packS 0x21 d a (b * 2 ^ 22)
  | .mulhs d a b => packS 0x22 d a (b * 2 ^ 22)
  | .ld d a imm => packS 0x28 d a imm
  | .st d a imm => packS 0x29 d a imm
  | .csrr d n => packS 0x30 d 0 n
  | .csrw a n => packS 0x31 0 a n
  | .br t => packS 0x40 0 0 t
  | .brz a t => packS 0x41 0 a t
  | .brnz a t => packS 0x42 0 a t
  | .bri a => packS 0x43 0 a 0
  | .brl d t => packS 0x44 d 0 t

/-- Are the fields of an S-slot operation within their widths? -/
def SOp.ok : SOp → Bool
  | .nop => true
  | .alu _ d a b | .mul d a b | .mulhu d a b | .mulhs d a b => decide (d < 64) && decide (a < 64) && decide (b < 64)
  | .alui _ d a i | .ld d a i | .st d a i => decide (d < 64) && decide (a < 64) && decide (i < 2 ^ 28)
  | .csrr x n | .csrw x n => decide (x < 64) && decide (n < 2 ^ 12)
  | .br t => decide (t < 2 ^ 13)
  | .brz x t | .brnz x t | .brl x t => decide (x < 64) && decide (t < 2 ^ 13)
  | .bri a => decide (a < 64)

/-- A load half (04 R79). -/
def decL (w : Nat) : Option LOp :=
  let op := nbits w 19 16
  let v := nbits w 15 12
  let ch := nbits w 11 8
  let prog := v * 2 + nbits w 11 11
  let s := nbits w 7 2
  let z := decide (nbits w 1 0 = 0)
  let pz := decide (nbits w 10 8 = 0)
  if op = 0 then (if w % 2 ^ 20 = 0 then some .nop else none)
  else if !z then none
  else if op = 1 then some .feed
  else if op = 2 then some (.vec v ch)
  else if op = 3 then some (.scl s)
  else if op = 4 then (if pz then some (.bind prog) else none)
  else if op = 5 then some (.base s)
  else if op = 6 then some .skip
  else if op = 8 then (if pz then some (.bind3 prog) else none)
  else if op = 9 then some (.base3 s)
  else none

def encL : LOp → Nat
  | .nop => 0
  | .feed => 0x1_0000
  | .vec v ch => 0x2_0000 + v * 2 ^ 12 + ch * 2 ^ 8
  | .scl s => 0x3_0000 + s * 4
  | .bind p => 0x4_0000 + p * 2 ^ 11
  | .base s => 0x5_0000 + s * 4
  | .skip => 0x6_0000
  | .bind3 p => 0x8_0000 + p * 2 ^ 11
  | .base3 s => 0x9_0000 + s * 4

def LOp.ok : LOp → Bool
  | .nop | .feed | .skip => true
  | .vec v ch => decide (v < 16) && decide (ch < 16)
  | .scl s | .base s | .base3 s => decide (s < 64)
  | .bind p | .bind3 p => decide (p < 32)

/-- A T-slot word (04 R80). -/
def decT (w : Nat) : Option TOp :=
  let op := nbits w 39 36
  let v := nbits w 35 32
  let ch := nbits w 31 28
  let s := nbits w 27 22
  let prog := nbits w 21 17
  if op = 0 then (if w % 2 ^ 40 = 0 then some .nop else none)
  else if nbits w 16 0 ≠ 0 then none
  else if op = 1 then some (.vec v ch)
  else if op = 2 then some (.vec16 v ch)
  else if op = 3 then some (.vec8 v ch)
  else if op = 4 then some (.scl s)
  else if op = 5 then some (.bind prog)
  else if op = 6 then some (.base s)
  else if op = 7 then some .skip
  else none

def encT : TOp → Nat
  | .nop => 0
  | .vec v ch => 1 * 2 ^ 36 + v * 2 ^ 32 + ch * 2 ^ 28
  | .vec16 v ch => 2 * 2 ^ 36 + v * 2 ^ 32 + ch * 2 ^ 28
  | .vec8 v ch => 3 * 2 ^ 36 + v * 2 ^ 32 + ch * 2 ^ 28
  | .scl s => 4 * 2 ^ 36 + s * 2 ^ 22
  | .bind p => 5 * 2 ^ 36 + p * 2 ^ 17
  | .base s => 6 * 2 ^ 36 + s * 2 ^ 22
  | .skip => 7 * 2 ^ 36

def TOp.ok : TOp → Bool
  | .nop | .skip => true
  | .vec v ch | .vec16 v ch | .vec8 v ch => decide (v < 16) && decide (ch < 16)
  | .scl s | .base s => decide (s < 64)
  | .bind p => decide (p < 32)

/-- An M-slot word (04 R78): acc 2 and 3 are illegal. -/
def decM (w : Nat) : Option MOp :=
  let op := nbits w 31 26
  if op = 0 then (if w % 2 ^ 32 = 0 then some .nop else none)
  else if nbits w 8 0 ≠ 0 then none
  else if op = 1 then
    (if nbit w 9 ∨ nbits w 23 22 ≥ 2 then none else some (.mul (nbit w 25) (nbit w 24) (nbits w 23 22) (nbits w 21 10)))
  else if op = 2 then (if nbits w 25 9 = 0 then some .swap else none)
  else if op = 3 then (if nbits w 25 10 = 0 then some (.shadow (nbit w 9)) else none)
  else none

def encM : MOp → Nat
  | .nop => 0
  | .mul sw wn acc row => 1 * 2 ^ 26 + b2n sw * 2 ^ 25 + b2n wn * 2 ^ 24 + acc * 2 ^ 22 + row * 2 ^ 10
  | .swap => 2 * 2 ^ 26
  | .shadow p => 3 * 2 ^ 26 + b2n p * 2 ^ 9

def MOp.ok : MOp → Bool
  | .mul _ _ acc row => decide (acc < 2) && decide (row < 4096)
  | _ => true

/-- A Y-slot word (04 R81): imm is reserved off GINC (R352), the other fields that an operation does not use are ignored; tiles 60 to 62 are
illegal where a tile is used. -/
def decY (w : Nat) : Option YOp :=
  let op := nbits w 31 28
  let tile := nbits w 27 22
  let gate := nbits w 21 10
  let s := nbits w 9 4
  let imm := nbits w 3 0
  let tok := decide (tile < 60) || decide (tile = 63)
  let iz := decide (imm = 0)
  if op = 0 then (if w % 2 ^ 32 = 0 then some .nop else none)
  else if op = 1 then (if tok then some (.inc tile gate imm) else none)
  else if !iz then none
  else if op = 2 then (if tok then some (.add tile gate s) else none)
  else if op = 3 then (if tok then some (.wait tile gate s) else none)
  else if op = 4 then (if tok then some (.read tile gate s) else none)
  else if op = 5 then some (.mwait s)
  else if op = 6 then some (.mread s)
  else none

def encY : YOp → Nat
  | .nop => 0
  | .inc t g i => 1 * 2 ^ 28 + t * 2 ^ 22 + g * 2 ^ 10 + i
  | .add t g s => 2 * 2 ^ 28 + t * 2 ^ 22 + g * 2 ^ 10 + s * 2 ^ 4
  | .wait t g s => 3 * 2 ^ 28 + t * 2 ^ 22 + g * 2 ^ 10 + s * 2 ^ 4
  | .read t g s => 4 * 2 ^ 28 + t * 2 ^ 22 + g * 2 ^ 10 + s * 2 ^ 4
  | .mwait s => 5 * 2 ^ 28 + s * 2 ^ 4
  | .mread s => 6 * 2 ^ 28 + s * 2 ^ 4

def tileFieldOk (t : Nat) : Bool := decide (t < 60) || decide (t = 63)
def YOp.ok : YOp → Bool
  | .nop => true
  | .inc t g i => tileFieldOk t && decide (g < 4096) && decide (i < 16)
  | .add t g s | .wait t g s | .read t g s => tileFieldOk t && decide (g < 4096) && decide (s < 64)
  | .mwait s | .mread s => decide (s < 64)

/-- The V opcodes with their numbers (04 R77). -/
def vOpcodes : List (Nat × VOpc) :=
  [(0x01, .vadd), (0x02, .vsub), (0x03, .vmul), (0x04, .vfma), (0x05, .vmax), (0x06, .vmin), (0x07, .vabs), (0x08, .vneg),
   (0x09, .vsel), (0x0A, .vmov), (0x0B, .vscale), (0x0C, .vcvt), (0x0D, .vcmplt), (0x0E, .vcmpeq)]
  ++ [(0x10, .viadd), (0x11, .visub), (0x12, .vimul), (0x13, .vand), (0x14, .vor), (0x15, .vxor), (0x16, .vshl), (0x17, .vshr),
   (0x1A, .vbcast), (0x20, .vexp), (0x21, .vlog), (0x22, .vrcp), (0x23, .vrsqrt), (0x24, .vtanh), (0x25, .vexpsub), (0x26, .vnorm)]
  ++ [(0x30, .vrsum), (0x31, .vrmax), (0x32, .vrmin), (0x33, .vrsegsum), (0x34, .vrsegmax), (0x35, .vrsegmin),
   (0x38, .vcompress), (0x39, .vexpand), (0x40, .vopt0), (0x41, .vopt1), (0x42, .vopt2), (0x43, .vopt3)]

/-- Which fmt codes an operation accepts (08 R151); operations that ignore fmt accept all. -/
def fmtOk (op : VOpc) (fmt : Nat) : Bool :=
  match op with
  | .vmax | .vmin | .vcmplt | .vcmpeq | .vrsum | .vrmax | .vrmin | .vrsegsum | .vrsegmax | .vrsegmin => decide (fmt ≤ 1)
  | .vcvt => decide (1 ≤ fmt) && decide (fmt ≤ 0xC)
  | .vopt3 => decide (2 ≤ fmt) && decide (fmt ≤ 5)
  | _ => true

/-- Is a V operation free of illegal fields (04 R76, R77, 07 R136, R137, R145)? vc is the third source of VFMA, the direction of VCVT and the
working copy's register of VOPT3; elsewhere it is reserved (04 R352). -/
def vLegal (op : VOpc) (f : VArg) : Bool :=
  (decide (f.pm = 0) || decide (8 ≤ f.pm)) && fmtOk op f.fmt
    && (match op with
      | .vcmplt | .vcmpeq => decide (f.vd < 8)
      | .vsel => decide (f.pm ≠ 0)
      | .vcompress | .vexpand => decide (f.pm ≠ 0) && !(decide (f.src = 0) && decide (f.va = f.vd))
      | .vcvt => decide (f.vc < 2)
      | _ => true)
    && (match op with
      | .vfma | .vcvt | .vopt3 => true
      | _ => decide (f.vc = 0))

/-- A V-slot word (04 R76). -/
def decV (w : Nat) : Option VOp :=
  let op := nbits w 55 48
  if op = 0 then (if w % 2 ^ 56 = 0 then some none else none)
  else match vOpcodes.find? fun p => decide (p.1 = op) with
    | none => none
    | some p =>
      let f : VArg := { vd := nbits w 47 44, va := nbits w 43 40, vb := nbits w 39 36, vc := nbits w 35 32, pm := nbits w 31 28,
                        n := nbits w 27 16 + 1, rnd := nbits w 15 14, fmt := nbits w 13 10, s := nbits w 9 4, src := nbits w 3 2 }
      if nbits w 1 0 ≠ 0 ∨ vLegal p.2 f = false then none else some (some (p.2, f))

/-- A bundle (04 R64), or the slot in which an illegal field is found (R86, R352), of several the first in the order V, M, L, T, Y, S; an illegal
header bit, which lies in no slot, is named as the Y slot's (both: DESIGN CHOICE, log entry 16). -/
def decBundle (w : Nat) : Except Slot Bundle :=
  match decV (nbits w 111 56), decM (nbits w 143 112), decL (nbits w 163 144), decL (nbits w 183 164),
        decT (nbits w 223 184), decY (nbits w 255 224) with
  | some v, some m, some l0, some l1, some t, some y =>
    match decS (nbits w 55 8) with
    | some so => if nbits w 7 5 = 0 then .ok ⟨so, v, m, l0, l1, t, y, nbit w 4, nbits w 3 0⟩ else .error .y
    | none => .error .s
  | none, _, _, _, _, _ => .error .v
  | _, none, _, _, _, _ => .error .m
  | _, _, none, _, _, _ => .error .l
  | _, _, _, none, _, _ => .error .l
  | _, _, _, _, none, _ => .error .t
  | _, _, _, _, _, none => .error .y

end Sys2Proof.Machine
end

