-- ==== Sys2Proof/Machine/CoreOps.lean ====
section
/-! DEFINITION. What every operation of a core shares: registers and CSRs, issue and landing, write collisions, contained halts,
gate increments (04 R62 to R75, R82 to R86; 08 R163 to R166). -/

namespace Sys2Proof.Machine
open Sys2Proof

/-! ### Registers -/
def word32z : Nat → Word32 := fun _ => 0#32
def CoreSt.sreg (c : CoreSt) (d : Nat) : Word64 := tget word0 c.sregs (d % 64)
def CoreSt.setS (c : CoreSt) (d : Nat) (v : Word64) : CoreSt := { c with sregs := tset word0 c.sregs (d % 64) v }
def CoreSt.velem (c : CoreSt) (r e : Nat) : Word32 := tget word32z c.vregs (r * 4096 + e)
def CoreSt.pbit (c : CoreSt) (p e : Nat) : Bool := tget falseAt c.pregs (p * 4096 + e)
def CoreSt.csr (c : CoreSt) (n : Nat) : Word64 := tget word0 c.csrs n

/-! CSR numbers (04 R75). -/
def csrRound : Nat := 0x010
def csrSeed : Nat := 0x011
def csrPrec : Nat := 0x012
def csrWinA : Nat := 0x013
def csrWinB : Nat := 0x014
def csrWaitTo : Nat := 0x018
def csrTrap : Nat := 0x019
def csrSticky : Nat := 0x020
def csrColl : Nat := 0x021

/-- Sticky flags by bit (04 R75). -/
def stCollision : Nat := 0
def stFeederEarly : Nat := 1
def stShadowEarly : Nat := 2
def stEmptyRow : Nat := 3
def stInfInput : Nat := 4
def stRescale : Nat := 5
def stNanSeen : Nat := 6
def stBadCsr : Nat := 7

def CoreSt.setSticky (c : CoreSt) (b : Nat) : CoreSt :=
  { c with csrs := tset word0 c.csrs csrSticky (c.csr csrSticky ||| (1#64 <<< b)) }
def CoreSt.orSticky (c : CoreSt) (m : Nat) : CoreSt :=
  { c with csrs := tset word0 c.csrs csrSticky (c.csr csrSticky ||| BitVec.ofNat 64 m) }

/-- What a CSR reads as; none where the table lists no such number (04 R75). -/
def csrRead (c : CoreSt) (uid n : Nat) : Option Word64 :=
  if n = 0x000 then some (BitVec.ofNat 64 (uid / 4 * 2 ^ 8 + uid % 4))
  else if n = 0x001 then some (BitVec.ofNat 64 (c.flight * 2 ^ 16 + c.stage))
  else if n = 0x002 then some (BitVec.ofNat 64 (c.arg % 2 ^ 48))
  else if n = 0x003 then some (BitVec.ofNat 64 (c.bcount % 2 ^ 48))
  else if n = csrRound ∨ n = csrSeed ∨ n = csrPrec ∨ n = csrWinA ∨ n = csrWinB ∨ n = csrWaitTo ∨ n = csrTrap
      ∨ n = csrSticky ∨ n = csrColl then some (c.csr n)
  else none

/-- The writable bits of a CSR; none where a write is ignored and sets bad_csr (04 R75). -/
def csrMask (n : Nat) : Option Nat :=
  if n = csrRound then some (bmask 4 4 + bmask 1 0)
  else if n = csrSeed then some allBits
  else if n = csrPrec then some (bmask 15 12 + bmask 8 4 + bmask 1 0)
  else if n = csrWinA ∨ n = csrWinB then some (bmask 48 48 + bmask 43 32 + bmask 25 9)
  else if n = csrWaitTo then some (bmask 39 0)
  else if n = csrTrap then some 1
  else if n = csrSticky then some 0xFF
  else none

/-- Does a CSR write break R75? -/
def csrBad (n v : Nat) : Bool :=
  match csrMask n with
  | none => true
  | some _ => (decide (n = csrRound) && decide (v % 4 = 3))
      || (decide (n = csrPrec) && (decide (v % 4 = 0) || decide (nbits v 7 4 = 0) || decide (nbits v 7 4 = 15)))

/-- A CSR written (04 R75): CSR_STICKY clears where ones are written. -/
def csrWrite (c : CoreSt) (n : Nat) (v : Word64) : CoreSt :=
  if csrBad n v.toNat then c.setSticky stBadCsr
  else
    let m := BitVec.ofNat 64 ((csrMask n).getD 0)
    if n = csrSticky then { c with csrs := tset word0 c.csrs n (c.csr n &&& ~~~ (v &&& m)) }
    else { c with csrs := tset word0 c.csrs n (v &&& m) }

/-! ### Windows (05 R105) -/
def winBase (w : Word64) : Nat := 512 * nbits w.toNat 25 9
def winRows (w : Word64) : Nat := nbits w.toNat 43 32 + 1
def winPaired (w : Word64) : Bool := nbit w.toNat 48
def winRowBytes (w : Word64) : Nat := if winPaired w then 1024 else 512
def winRowOff (w : Word64) (k : Nat) : Nat := winBase w + winRowBytes w * k

/-! ### Contained halts -/

/-- Slot codes of CSR_COLL (04 R75). -/
def Slot.code : Slot → Nat
  | .y => 0 | .s => 1 | .l => 2 | .t => 3 | .v => 4 | .m => 5

/-- q2 of a core's entry (14 R271). Its 13 bits of bundle address hold that of a fetch past the last bundle modulo 2^13 (04 R73; DESIGN CHOICE,
log entry 16). -/
def coreQ2 (c : CoreSt) (uid bundle rep : Nat) (sl : Slot) : Nat :=
  uid / 4 + uid % 4 * 2 ^ 6 + bundle % 2 ^ 13 * 2 ^ 8 + sl.code * 2 ^ 21 + rep * 2 ^ 24 + c.stage * 2 ^ 32 + c.flight * 2 ^ 48

/-- Is it the running flight of a flight_id in a partition (03 R50: running from launch_ok until it ends)? -/
def Flight.is (part fid : Nat) (f : Flight) : Bool := decide (f.part = part) && decide (f.fid = fid) && decide (f.step ≠ .check)
def flightOf (s : State) (part fid : Nat) : Option Flight := s.flights.find? (Flight.is part fid)
/-- The flight of a core changed. -/
def modFlight (s : State) (part fid : Nat) (g : Flight → Flight) : State :=
  { s with flights := replaceFirst (Flight.is part fid) g s.flights }

/-- The flight halts as contained: the first halt keeps its entry's queue index and sends a notice to every tile (09 R184), and its tiles
are fenced for reductions (10 R203). -/
def haltFlight (s : State) (part fid ix : Nat) (dropped : Bool) : State :=
  let s1 := modFlight s part fid fun f =>
    if f.haltIx.isSome then f else { f with haltIx := some ix, dropped := dropped, stop := .halt, notices := f.tiles }
  match flightOf s part fid with
  | some f => { s1 with fenced := s1.fenced ++ f.tiles.filter fun t => !s1.fenced.contains t }
  | none => s1

/-- The dumps that apply to a flight (09 R186). -/
def dumpsOf (s : State) (part fid : Nat) : List Dump := s.dumps.filter fun d => decide (d.part = part) && decide (d.fid = fid) && d.applied
/-- The halt of a flight under way: the entry that it began with (14 R274). -/
def flightHandled (s : State) (part fid : Nat) : Option (List Nat) :=
  (flightOf s part fid).bind fun f => f.haltIx.map fun ix => [ix]
/-- Is the flight's halt already under way? -/
def flightHalting (s : State) (part fid : Nat) : Bool := (flightHandled s part fid).isSome

/-- A core halts as contained (04 R86): it stops issuing, its entry is made, its flight halts. A hardware error (cause 7) during
the flight's halt is fatal (14 R274). `link` is an entry that this one names: a router's, or with `up` the one that it escalates. -/
def coreHalt (s : State) (uid cause addr bundle rep : Nat) (sl : Slot) (q4 : List Nat := []) (link : Option Nat := none) (up : Bool := false) : State :=
  let c := s.core uid
  let w := tileWharf (uid / 4)
  let ix := errIndex s w
  let c' := if c.phase = .run then { c with phase := .stopped, stopMile := s.mile, stopState := 5 } else c
  let stopped := s.setCore uid { c' with wait := none }
  let e : ErrIn := { wharf := w, cls := 1, cause := 0x41, kind := 1, part := c.part, halted := true, q2 := coreQ2 c uid bundle rep sl,
                     detail := cause, addr := addr, q4 := (match link with | some l => [l] | none => q4), escalated := up }
  haltFlight (errRaise stopped (e.during (decide (cause = 7)) (flightHandled s c.part c.flight))) c.part c.flight ix (decide (cause = 9))

/-! ### Issue -/

/-- Why a repetition does not issue. -/
inductive IssueErr where
  /-- A contained halt at this bundle: cause, address, slot. -/
  | halt (cause addr : Nat) (sl : Slot)
  /-- A freeze found before the bundle issues. -/
  | freeze (f : Freeze) (reads : Option (Nat × GrpRead))
  /-- A contained halt at a row of a shadow load under way, named by its issue cycle: cause, address (04 R86, 06 R112). -/
  | row (t cause addr : Nat)
  /-- A wait that does not hold yet. -/
  | hold (a : Await)

def ofGen (r : Except GenErr α) (g : Nat) (sl : Slot) (cyc tcyc : Nat) : Except IssueErr α :=
  match r with
  | .ok a => .ok a
  | .error (.fault c a) => .error (.halt c a sl)
  | .error (.miss off b) => .error (.freeze ⟨.index g off tcyc, 0, none⟩ (some (g, ⟨off, b, false, cyc, [], 0, 0, none⟩)))

/-- An operation issued: its number is the core's running operation count. -/
def CoreSt.issue (c : CoreSt) (f : Fly) : CoreSt :=
  { c with flies := c.flies ++ [{ f with seq := c.seq, bundle := c.pc, rep := c.rep }], seq := c.seq + 1 }

/-- An operation that will land one set of writes after `lat` cycles (04 R66). -/
def CoreSt.issueW (c : CoreSt) (sl : Slot) (lat : Nat) (ws : List Wr) : CoreSt := c.issue { due := c.cyc + lat, slot := sl, seq := 0, bundle := 0, rep := 0, writes := ws }

/-- 8 bytes or an entry: the writes of a load from its bytes. -/
def loadWrites (k : LdKind) (bs : List Byte) : List Wr :=
  match k with
  | .feed => [.fifo bs]
  | .scl d => [.sreg d (BitVec.ofNat 64 (leNat (takePad 8 bs)))]
  | .vec v ch => [.vch v ch ((List.range 256).map fun e => (256 * ch + e, BitVec.ofNat 32 (leNat (sliceB bs (4 * e) 4))))]

/-- A load of a core, from unit L0, L1 or SLD: its lanes are presented; granted, its bytes are read now and land after 14 cycles; denied, it
waits (05 R94, R97). No ranges: a null access, which delivers zeros and presents nothing (05 R104). -/
def issueLoad (s : State) (uid : Nat) (sl : Slot) (unit : Nat) (k : LdKind) (len : Nat) (segs : Option (List (Nat × Nat))) : State :=
  let c := s.core uid
  match segs with
  | none => s.setCore uid (c.issueW sl 14 (loadWrites k (List.replicate len 0#8)))
  | some sg =>
    let r := present s (uid / 4) (.core uid) (.load c.seq unit) false sg
    if r.1 then
      r.2.setCore uid (c.issue { due := c.cyc + 14, slot := sl, seq := 0, bundle := 0, rep := 0, segs := sg,
                                 writes := loadWrites k (spadReadSegs s (uid / 4) sg), ue := firstUe s (uid / 4) sg })
    else
      (deny s (uid / 4) ⟨.core uid, .load c.seq unit, sg, false, 0, .denied⟩).setCore uid
        (c.issue { due := c.cyc + 14, slot := sl, seq := 0, bundle := 0, rep := 0, segs := sg, wait := true, load := some (k, sg) })

/-- Writes of bytes scattered over ranges, as an operation that lands after 3 cycles (05 R94). -/
def scatter : List (Nat × Nat) → List Byte → List Wr
  | [], _ => []
  | (o, n) :: r, bs => .sp o (takePad n bs) :: scatter r (bs.drop n)

/-- A store of a core: its data are read at issue (04 R80). -/
def issueStore (s : State) (uid : Nat) (sl : Slot) (segs : Option (List (Nat × Nat))) (bs : List Byte) : State :=
  let c := s.core uid
  match segs with
  | none => s.setCore uid (c.issueW sl 3 [])
  | some sg => s.setCore uid (c.issueW sl 3 (scatter sg bs))

/-! ### Landing -/

/-- The write units of a write (04 R68): kind and number. -/
def Wr.unit : Wr → Nat × Nat
  | .sreg d _ | .smile d => (0, d % 64)
  | .vch r j _ => (1, r * 16 + j)
  | .pch p j _ => (2, p * 16 + j)
  | .csr n _ => (3, n)
  | .gbind g _ => (4, g)
  | .gbase g _ => (4, g)
  | .sp _ _ => (5, 0)
  | .fifo _ => (6, 0)

/-- Do two writes name one write unit? -/
def Wr.meets (a b : Wr) : Bool :=
  match a, b with
  | .sp o bs, .sp o' bs' => overlaps o bs.length o' bs'.length
  | .fifo _, _ => false
  | _, _ => decide (a.unit = b.unit) && decide (a.unit.1 ≠ 5)

/-- Lower priority first: Y < S < L < T < V < M, then the earlier-issued operation (04 R68). -/
def flyBefore (a b : Fly) : Bool := decide (a.slot.code < b.slot.code) || (decide (a.slot.code = b.slot.code) && decide (a.seq ≤ b.seq))
def insFly (f : Fly) : List Fly → List Fly
  | [] => [f]
  | g :: r => if flyBefore f g then f :: g :: r else g :: insFly f r
def sortFlies (l : List Fly) : List Fly := l.foldr insFly []

/-- A first collision is recorded while the flag is clear (04 R68, R75): the losing operation's bundle and repeat index. -/
def noteCollision (c : CoreSt) (loser winner : Fly) (kind : Nat) : CoreSt :=
  if nbit (c.csr csrSticky).toNat stCollision then c
  else { c with csrs := tset word0 (c.setSticky stCollision).csrs csrColl
                  (BitVec.ofNat 64 (kind * 2 ^ 28 + loser.slot.code * 2 ^ 24 + winner.slot.code * 2 ^ 20 + loser.rep * 2 ^ 16 + loser.bundle)) }

/-- The operation of the highest priority among those landing together that writes the same unit. -/
def winnerOf (w : Wr) (later : List Fly) : Option Fly := later.reverse.find? fun f => f.writes.any fun x => w.meets x

/-- The landed-after-stop bit of a write unit whose value a write changes (04 R87, R88); none where nothing changes or no bit is kept. -/
def afterBit (c : CoreSt) (w : Wr) : Option Nat :=
  match w with
  | .sreg d v => if c.sreg d = v then none else some (d % 64)
  | .vch r j els => if els.all fun p => decide (c.velem r p.1 = p.2) then none else some (64 + r * 16 + j)
  | .pch p j bits => if bits.all fun q => decide (c.pbit p q.1 = q.2) then none else some (320 + p * 16 + j)
  | .fifo _ => if c.fifo.length ≥ 16 then none else some (448 + c.fifo.length)
  | _ => none

/-- A unit marked as changed after the stopping point (04 R87). -/
def CoreSt.markAfter (c : CoreSt) (b : Option Nat) : CoreSt :=
  match b with
  | some n => if c.phase = .stopped then { c with landedAfter := c.landedAfter ||| 2 ^ n } else c
  | none => c

/-- One write performed on the core's own registers; scratchpad bytes are written by `landSp`. -/
def applyWr (c : CoreSt) (bundle rep : Nat) (w : Wr) : CoreSt :=
  let c := c.markAfter (afterBit c w)
  match w with
  | .sreg d v => c.setS d v
  | .vch r _ els => { c with vregs := tsetAll word32z c.vregs (els.map fun p => (r * 4096 + p.1, p.2)) }
  | .pch p _ bits => { c with pregs := tsetAll falseAt c.pregs (bits.map fun q => (p * 4096 + q.1, q.2)) }
  | .csr n v => csrWrite c n v
  | .gbind g p => genBind c g p bundle rep
  | .gbase g v => c.setGen g { c.gen g with base := v }
  | .fifo e => if c.fifo.length ≥ 16 then c.setSticky stFeederEarly else { c with fifo := c.fifo ++ [e] }
  | .sp _ _ | .smile _ => c

/-- The writes of one landing operation performed: a unit that an operation of higher priority, or a later write of the same operation
(07 R138, R146), writes in this cycle is not (04 R68). Of one operation's two writes the second destination's stands (DESIGN CHOICE, log
entry 16). -/
def landWrites (f : Fly) (later : List Fly) : CoreSt → List Wr → CoreSt
  | c, [] => c
  | c, w :: ws => landWrites f later (match (winnerOf w later).orElse fun _ => if ws.any fun x => w.meets x then some f else none with
    | some g => noteCollision c f g w.unit.1
    | none => applyWr c f.bundle f.rep w) ws
/-- The register writes of one landing operation. -/
def landRegs (c : CoreSt) (f : Fly) (later : List Fly) : CoreSt := landWrites f later (c.orSticky f.sticky) f.writes

/-- All register writes of the operations landing in one cycle, lower priority first. -/
def landAll : CoreSt → List Fly → CoreSt
  | c, [] => c
  | c, f :: r => landAll (landRegs c f r) r

/-- An operation has reported its NaN: its other chunks report none (08 R163 counts operations; DESIGN CHOICE, log entry 16). -/
def CoreSt.nanSaid (c : CoreSt) (q : Nat) : CoreSt :=
  { c with flies := c.flies.map fun g => if g.seq = q then { g with nan := none } else g
           vjobs := c.vjobs.map fun j => if j.seq = q then { j with nanDone := true } else j }

/-- The trap record and count of a NaN result (08 R163 to R166), its entry, or the contained halt. -/
def nanReport (s : State) (uid : Nat) (f : Fly) : State :=
  match f.nan with
  | none => s
  | some (ix, halt) =>
    let c := s.core uid
    let s1 := (s.setCore uid ((c.nanSaid f.seq).setSticky stNanSeen)).inc (fTrapCount uid)
    let fresh := !s1.flag (fTrapValid uid)
    let s2 := if !fresh then s1 else
      ((s1.setReg (aTrap uid 0) (BitVec.ofNat 64 s.mile)).wrAll
        [(⟨aTrap uid 1, 63, 48⟩, c.flight), (⟨aTrap uid 1, 47, 32⟩, c.stage)]).setReg (aTrap uid 2)
          (BitVec.ofNat 64 (2 ^ 63 + c.part % 4 * 2 ^ 61 + uid / 4 * 2 ^ 55 + uid % 4 * 2 ^ 53 + f.slot.code * 2 ^ 50
            + f.rep * 2 ^ 46 + ix * 2 ^ 34 + f.bundle * 2 ^ 21))
    let rec3 := [(s2.reg (aTrap uid 0)).toNat, (s2.reg (aTrap uid 1)).toNat, (s2.reg (aTrap uid 2)).toNat]
    if halt then coreHalt s2 uid 6 0 f.bundle f.rep f.slot rec3
    else if fresh then
      errRaise s2 { wharf := tileWharf (uid / 4), cls := 0, cause := 0x06, kind := 1, part := c.part,
                    q2 := coreQ2 c uid f.bundle f.rep f.slot, q4 := rec3 }
    else s2
/-- The NaN results among the operations landing together: one for an operation, with its lowest element (08 R163, R164). -/
def nanFlies (l : List Fly) : List Fly :=
  l.filter fun f => match f.nan with
    | some x => !(l.any fun g => decide (g.seq = f.seq) && g.nan.any fun y => decide (y.1 < x.1))
    | none => false

/-- An uncorrectable lane-line in the data of a landing read halts the flight (05 R98, 04 R86). -/
def ueReport (s : State) (uid : Nat) (f : Fly) : State :=
  match f.ue with
  | none => s
  | some u => coreHalt (noteUe s (uid / 4) u.ll) uid 7 (laneOff u.ll) f.bundle f.rep f.slot [] u.esc u.esc.isSome

/-- The mesh port at which a transfer from one site reaches another: along x first, then along y (01 R14); N E S W local. -/
def meshPort (src dst : Nat) : Nat :=
  if src = dst then 4
  else if src / 8 ≠ dst / 8 then (if src / 8 < dst / 8 then 0 else 2)
  else if src % 8 < dst % 8 then 3 else 1
/-- A gate increment leaves the core: to its own gate unit, or over the mesh (04 R82, 09 R175); none does after a fatal error (14 R273). -/
def emitInc (s : State) (uid : Nat) (h : HeldInc) : State :=
  let who := Issuer.core uid h.bundle h.rep
  if s.isFatal then s
  else if h.tile = uid / 4 then s.modTile h.tile fun t => { t with gateOps := t.gateOps ++ [⟨h.gate, false, h.amount, 4, who⟩] }
  else { s with mesh := s.mesh ++ [⟨(s.core uid).part, .tile h.tile, .gateAdd h.gate h.amount (meshPort (s.tileSite (uid / 4)) (s.tileSite h.tile)), who⟩] }

/-- The held increments whose earlier writes have all landed (04 R82). -/
def releaseIncs (s : State) (uid : Nat) : State :=
  let c := s.core uid
  let ready := c.held.filter fun h => decide (h.rel ≤ c.cyc)
  ready.foldl (fun t h => emitInc t uid h) (s.setCore uid { c with held := c.held.filter fun h => !decide (h.rel ≤ c.cyc) })

/-- The scratchpad writes of the operations due now are presented: a denied one freezes the core as write back-up (05 R97). -/
def landSp (s : State) (uid : Nat) (f : Fly) : State :=
  let segs := f.writes.filterMap fun w => match w with | .sp o bs => some (o, bs.length) | _ => none
  if segs.isEmpty || f.wait then s
  else
    let k : ReqKind := if f.slot = .m then .drainWrite f.seq else .store f.seq (if f.slot = .s then 1 else 0)
    let r := present s (uid / 4) (.core uid) k true segs
    if r.1 then r.2
    else
      (deny s (uid / 4) ⟨.core uid, k, segs, true, 0, .denied⟩).modCore uid fun c =>
        { c with freezes := c.freezes ++ [⟨.writeBack, f.seq, none⟩],
                 flies := c.flies.map fun g => if g.seq = f.seq && g.tag = f.tag then { g with wait := true } else g }

/-- The bytes of a write at an offset that lie outside a range. -/
def cutOut (r : Nat × Nat) (w : Nat × List Byte) : List (Nat × List Byte) :=
  if overlaps w.1 w.2.length r.1 r.2 then
    [(w.1, w.2.take (r.1 - w.1)), (r.1 + r.2, w.2.drop (r.1 + r.2 - w.1))].filter fun x => !x.2.isEmpty
  else [w]
/-- Each landing operation keeps only the scratchpad bytes that none of a higher priority writes in the same cycle: a losing write is
discarded for those bytes and for no others, whenever its lanes are granted (04 R68). -/
def loseBytes (c : CoreSt) : List Fly → CoreSt
  | [] => c
  | f :: r =>
    let won := r.flatMap fun g => g.writes.filterMap fun w => match w with | .sp o bs => some (o, bs.length) | _ => none
    let trim (w : Wr) : List Wr := match w with
      | .sp o bs => (won.foldl (fun l x => l.flatMap (cutOut x)) [(o, bs)]).map fun x => .sp x.1 x.2
      | w => [w]
    let hit := f.writes.any fun w => match w with | .sp o bs => won.any fun x => overlaps o bs.length x.1 x.2 | _ => false
    loseBytes (if hit then { c with flies := c.flies.map fun g =>
      if g.seq = f.seq && g.tag = f.tag then { g with writes := g.writes.flatMap trim } else g } else c) r

/-- The bytes of a due operation's granted scratchpad writes are written; the caller goes from the lowest priority to the highest, so
that the winner's bytes remain (04 R68). -/
def landBytes (s : State) (uid : Nat) (f : Fly) : State :=
  match (s.core uid).flies.find? fun g => g.seq = f.seq && g.tag = f.tag with
  | some g =>
    if g.wait then s
    else
      (g.writes.foldl (fun t w => match w with | .sp o bs => spadWrite t (uid / 4) o bs | _ => t) s).modCore uid fun c =>
        { c with flies := c.flies.map fun g =>
            if g.seq = f.seq && g.tag = f.tag then { g with writes := g.writes.filter fun w => match w with | .sp _ _ => false | _ => true } else g }
  | none => s

/-- Collisions among the scratchpad writes of one cycle (04 R68). -/
def spCollisions (c : CoreSt) : List Fly → CoreSt
  | [] => c
  | f :: r =>
    let hit := f.writes.findSome? fun w => match w with | .sp _ _ => winnerOf w r | _ => none
    spCollisions (match hit with | some g => noteCollision c f g 5 | none => c) r

/-- The operations due at the core's present cycle, lowest priority first. -/
def dueFlies (c : CoreSt) : List Fly := sortFlies (c.flies.filter fun f => decide (f.due ≤ c.cyc))

/-- Freeze causes of operations due whose data have not arrived (04 R84, 05 R97). -/
def lateFreezes (c : CoreSt) : List Freeze :=
  (dueFlies c).filterMap fun f =>
    if c.freezes.any fun z => decide (z.seq = f.seq) && decide (z.cause = .dataLate ∨ z.cause = .writeBack) then none
    else if f.wait then some ⟨.dataLate, f.seq, none⟩
    else if f.late ≠ 0 then some ⟨.dataLate, f.seq, some f.late⟩
    else none

/-- The slot whose generator is g. -/
def genSlot (g : Nat) : Slot := if g < 2 then .l else if g = 2 then .t else .m
/-- An index group that met an uncorrectable lane-line halts the flight when it arrives (05 R98, 04 R86). -/
def groupUe (s : State) (uid g : Nat) (r : GrpRead) : State :=
  match r.ue with
  | some u => coreHalt (noteUe s (uid / 4) u.ll) uid 7 (laneOff u.ll) r.bundle r.rep (genSlot g) [] u.esc u.esc.isSome
  | none => s
/-- The shadow rows of one load that land in this cycle: one that met an uncorrectable lane-line halts the flight at its MSHADOW
(05 R98, 04 R86). -/
def shadowLandOne (s : State) (uid : Nat) (sh : Shadow) : State :=
  let cyc := (s.core uid).cyc
  if sh.reads.isEmpty then s
  else
    let s1 := s.modCore uid fun c => { c with shadows := c.shadows.map fun x =>
      if x.t = sh.t then { x with reads := x.reads.filter fun r => !decide (r.1 ≤ cyc) } else x }
    ((sh.reads.filter fun x => decide (x.1 ≤ cyc)).filterMap fun x => x.2.2).foldl (fun t u =>
      coreHalt (noteUe t (uid / 4) u.ll) uid 7 (laneOff u.ll) sh.bundle sh.rep .m [] u.esc u.esc.isSome) s1
def shadowLand (s : State) (uid : Nat) : State := (s.core uid).shadows.foldl (fun t sh => shadowLandOne t uid sh) s

/-- The MREADs that land now take the milestone counter: as it was at most 4 ns ago, at a moment that is not specified (15 R292; a free
value, log entry 3). -/
def mileSample (s : State) (uid : Nat) : State :=
  let c := s.core uid
  let mine (f : Fly) : Bool := decide (f.due ≤ c.cyc) && f.writes.any fun w => match w with | .smile _ => true | _ => false
  let v : Word64 := BitVec.ofNat 64 (s.mile + 2 ^ 64 - Config.freeNat s.free % 5)
  let take (w : Wr) : Wr := match w with | .smile d => .sreg d v | w => w
  if c.flies.any mine then
    { s.setCore uid { c with flies := c.flies.map fun f => if mine f then { f with writes := f.writes.map take } else f } with free := s.free + 1 }
  else s

/-- Everything due at the core's present cycle lands; where something due is not there, or a write is denied, the core freezes
instead (04 R66, R68, R84). Of several collisions of one cycle CSR_COLL records a scratchpad write's first, then the lowest losing write's
(DESIGN CHOICE, log entry 16). Index groups arrive four cycles after their grant (05 R103). -/
def landCycle (s : State) (uid : Nat) : State :=
  let due0 := dueFlies (s.core uid)
  let s0 := due0.reverse.foldl (fun t f => landSp t uid f) (s.modCore uid fun c => spCollisions c due0)
  let s1 := due0.foldl (fun t f => landBytes t uid f) (s0.modCore uid fun c => loseBytes c due0)
  let c1 := s1.core uid
  let late := lateFreezes c1
  if !c1.freezes.isEmpty || !late.isEmpty then s1.setCore uid { c1 with freezes := c1.freezes ++ late }
  else
    let s1 := mileSample s1 uid
    let c1 := s1.core uid
    let due := dueFlies c1
    let c2 := landAll { c1 with flies := c1.flies.filter fun f => !decide (f.due ≤ c1.cyc) } due
    let c3 := { c2 with gens := c2.gens.map fun p => (p.1, (p.2.dueReads c2.cyc).foldl genArrive p.2),
                        mms := c2.mms.filter fun m => !(due.any fun f => decide (f.slot = .m) && decide (f.seq = m.seq)) }
    let s2 := releaseIncs (s1.setCore uid c3) uid
    let s3 := (nanFlies due).reverse.foldl (fun t f => nanReport t uid f) s2
    let s4 := due.foldl (fun t f => ueReport t uid f) s3
    let s5 := [0, 1, 2, 3].foldl (fun t g => ((c2.gen g).dueReads c2.cyc).foldl (fun t r => groupUe t uid g r) t) s4
    shadowLand s5 uid

end Sys2Proof.Machine
end

