-- ==== Sys2Proof/Machine/SlotOps.lean ====
section
/-! DEFINITION. What an operation of the S, L, T and Y slots does at its issue (04 R72 to R75, R79 to R83). -/

namespace Sys2Proof.Machine
open Sys2Proof

/-- The value of an R- or I-format operation (04 R72): shifts use the low six bits, compares give 0 or 1. -/
def aluFn (o : AluOp) (a b : Word64) : Word64 :=
  match o with
  | .add => a + b
  | .sub => a - b
  | .and => a &&& b
  | .or => a ||| b
  | .xor => a ^^^ b
  | .shl => a <<< (b.toNat % 64)
  | .shr => a >>> (b.toNat % 64)
  | .sra => a.sshiftRight (b.toNat % 64)
  | .min => if a.slt b then a else b
  | .max => if a.slt b then b else a
  | .cmpeq => if a = b then 1#64 else 0#64
  | .cmplt => if a.slt b then 1#64 else 0#64
  | .cmpltu => if a.ult b then 1#64 else 0#64

/-- imm28 as an operand: zero-extended for logic and shifts, sign-extended for arithmetic and compares (04 R72). -/
def immOf (o : AluOp) (imm : Nat) : Word64 :=
  match o with
  | .and | .or | .xor | .shl | .shr | .sra => BitVec.ofNat 64 imm
  | _ => (BitVec.ofNat 28 imm).signExtend 64

/-- The scratchpad offset of SLD and SST (04 R72). -/
def sOffset (a : Word64) (imm : Nat) : Nat := (a + (BitVec.ofNat 28 imm).signExtend 64).toNat
/-- The same where it may be accessed; none is an address fault, whose entry shows its low 48 bits. -/
def sAddr (a : Word64) (imm : Nat) : Option Nat := if sOffset a imm % 8 ≠ 0 ∨ sOffset a imm ≥ spadBytes then none else some (sOffset a imm)

/-- A taken branch redirects the fourth bundle after it (04 R73). -/
def CoreSt.redirect (c : CoreSt) (target : Nat) : CoreSt := { c with redirects := c.redirects ++ [(c.pos + 4, target % 2 ^ 13)] }

/-- SCSRR issues with the value that its CSR held at the start of the cycle (04 R67, R75); a CSR that is not listed reads zero. -/
def issueCsrr (s : State) (uid d : Nat) (v : Option Word64) : State :=
  let c := s.core uid
  match v with
  | some v => s.setCore uid (c.issueW .s 1 [.sreg d v])
  | none => s.setCore uid ((c.setSticky stBadCsr).issueW .s 1 [.sreg d 0#64])

/-- An S-slot operation issues; `last` says that this is the bundle's last repetition, the only one at which a branch acts (04 R65, R73). -/
def issueS (s : State) (uid : Nat) (op : SOp) (last : Bool) : Except IssueErr State :=
  let c := s.core uid
  let res (lat d : Nat) (v : Word64) : Except IssueErr State := .ok (s.setCore uid (c.issueW .s lat [.sreg d v]))
  match op with
  | .nop => .ok s
  | .alu o d a b => res 1 d (aluFn o (c.sreg a) (c.sreg b))
  | .alui o d a imm => res 1 d (aluFn o (c.sreg a) (immOf o imm))
  | .mul d a b => res 3 d (c.sreg a * c.sreg b)
  | .mulhu d a b => res 3 d (BitVec.ofNat 64 ((c.sreg a).toNat * (c.sreg b).toNat / 2 ^ 64))
  | .mulhs d a b => res 3 d (BitVec.ofInt 64 ((c.sreg a).toInt * (c.sreg b).toInt / 2 ^ 64))
  | .ld d a imm =>
    match sAddr (c.sreg a) imm with
    | none => .error (.halt 4 (sOffset (c.sreg a) imm % 2 ^ 48) .s)
    | some o => .ok (issueLoad s uid .s 2 (.scl d) 8 (some [(o, 8)]))
  | .st d a imm =>
    match sAddr (c.sreg a) imm with
    | none => .error (.halt 4 (sOffset (c.sreg a) imm % 2 ^ 48) .s)
    | some o => .ok (issueStore s uid .s (some [(o, 8)]) (leBytes 8 (c.sreg d).toNat))
  | .csrr d n => .ok (issueCsrr s uid d (csrRead c uid n))
  | .csrw a n => .ok (s.setCore uid (c.issueW .s 1 [.csr n (c.sreg a)]))
  | .br t => .ok (if last then s.setCore uid (c.redirect t) else s)
  | .brz a t => .ok (if last && decide (c.sreg a = 0#64) then s.setCore uid (c.redirect t) else s)
  | .brnz a t => .ok (if last && decide (c.sreg a ≠ 0#64) then s.setCore uid (c.redirect t) else s)
  | .bri a => .ok (if last then s.setCore uid (c.redirect (c.sreg a).toNat) else s)
  | .brl d t => .ok (if last then s.setCore uid ((c.redirect t).issueW .s 1 [.sreg d (BitVec.ofNat 64 (c.pc + 4))]) else s)

/-- Bytes of a feeder entry by the product format (06 R115): 512 for the MX formats and FP32 split. -/
def feedBytes (prec : Word64) : Nat := if nbits prec.toNat 7 4 ≥ 8 then 512 else 256

/-- A load half issues on generator ag0 or ag1 (04 R79). -/
def issueL (s : State) (uid half : Nat) (op : LOp) : Except IssueErr State :=
  let c := s.core uid
  let baseOf (g r : Nat) : Except IssueErr State :=
    if (c.sreg r).toNat ≥ 2 ^ 26 then .error (.halt 4 ((c.sreg r).toNat % 2 ^ 48) .l)
    else .ok (s.setCore uid (c.issueW .l 1 [.gbase g (c.sreg r).toNat]))
  let access (k : LdKind) (len : Nat) (modes : Nat → Option Bool) : Except IssueErr State :=
    match ofGen (genAccess c half len modes) half .l c.cyc (s.tile (uid / 4)).tcyc with
    | .error e => .error e
    | .ok (segs, c') => .ok (issueLoad (s.setCore uid c') uid .l half k len segs)
  match op with
  | .nop => .ok s
  | .feed => access .feed (feedBytes (c.csr csrPrec)) (modesFeed (decide (feedBytes (c.csr csrPrec) = 512)))
  | .vec v ch => access (.vec v ((ch + c.rep) % 16)) 1024 modesVec
  | .scl d => access (.scl d) 8 modesLin
  | .bind p => .ok (s.setCore uid (c.issueW .l 1 [.gbind half p]))
  | .base r => baseOf half r
  | .skip =>
    match ofGen (genSkip c half) half .l c.cyc (s.tile (uid / 4)).tcyc with
    | .error e => .error e
    | .ok c' => .ok (s.setCore uid c')
  | .bind3 p =>
    if c.cyc < c.shadowBusy then .error (.halt 3 0 .l) else .ok (s.setCore uid (c.issueW .l 1 [.gbind 3 p]))
  | .base3 r => if c.cyc < c.shadowBusy then .error (.halt 3 0 .l) else baseOf 3 r

/-- The 256 elements of a chunk as bytes, w bytes of each (04 R80). -/
def chunkBytes (c : CoreSt) (v ch w : Nat) : List Byte :=
  (List.range 256).flatMap fun e => leBytes w (c.velem v (256 * ch + e)).toNat

/-- A T-slot operation issues on generator ag2 (04 R80). -/
def issueT (s : State) (uid : Nat) (op : TOp) : Except IssueErr State :=
  let c := s.core uid
  let access (len : Nat) (modes : Nat → Option Bool) (bs : List Byte) : Except IssueErr State :=
    match ofGen (genAccess c 2 len modes) 2 .t c.cyc (s.tile (uid / 4)).tcyc with
    | .error e => .error e
    | .ok (segs, c') => .ok (issueStore (s.setCore uid c') uid .t segs bs)
  match op with
  | .nop => .ok s
  | .vec v ch => access 1024 modesVec (chunkBytes c v ((ch + c.rep) % 16) 4)
  | .vec16 v ch => access 512 modesT16 (chunkBytes c v ((ch + c.rep) % 16) 2)
  | .vec8 v ch => access 256 modesLin (chunkBytes c v ((ch + c.rep) % 16) 1)
  | .scl r => access 8 modesLin (leBytes 8 (c.sreg r).toNat)
  | .bind p => .ok (s.setCore uid (c.issueW .t 1 [.gbind 2 p]))
  | .base r =>
    if (c.sreg r).toNat ≥ 2 ^ 26 then .error (.halt 4 ((c.sreg r).toNat % 2 ^ 48) .t)
    else .ok (s.setCore uid (c.issueW .t 1 [.gbase 2 (c.sreg r).toNat]))
  | .skip =>
    match ofGen (genSkip c 2) 2 .t c.cyc (s.tile (uid / 4)).tcyc with
    | .error e => .error e
    | .ok c' => .ok (s.setCore uid c')

def gate0 : Nat → BitVec 32 := fun _ => 0#32
/-- The value of a gate (09 R174). -/
def State.gate (s : State) (tile g : Nat) : BitVec 32 := tget gate0 (s.tile tile).gates g
def State.setGate (s : State) (tile g : Nat) (v : BitVec 32) : State :=
  s.modTile tile fun t => { t with gates := tset gate0 t.gates g v }
/-- The wait test: (int32)(value − target) ≥ 0 (09 R174). -/
def gateReached (v target : BitVec 32) : Bool := !(v - target).msb
/-- A gate reference: valid, tile, gate (03 R48). -/
def gateRef (tile g : Nat) : Nat := 2 ^ 31 + tile * 2 ^ 12 + g

/-- The tile a Y operation names: 0x3F is the core's own (04 R81). -/
def yTile (uid tile : Nat) : Nat := if tile = 63 then uid / 4 else tile

/-- The core cycle at which every data write issued so far has landed (04 R82): stores, SSTs and drains. -/
def lastWriteDue (c : CoreSt) : Nat :=
  max (lmax ((c.flies.filter fun f => f.writes.any fun w => match w with | .sp _ _ => true | _ => false).map fun f => f.due))
    (lmax (c.mms.map fun m => m.t + 142 + (if m.fmt = 0xE then (if m.passes = 1 then 1 else if m.passes = 2 then 3 else 6) else 1)))

/-- What a Y operation awaits before its bundle issues, if it does not hold yet (04 R83). A milestone awaited from before the counter's
wrap reads as reached (13 R261): the wrap turns it into 0. -/
def yAwait (s : State) (uid : Nat) (op : YOp) : Option Await :=
  let c := s.core uid
  match op with
  | .wait t g r =>
    if gateReached (s.gate (yTile uid t) g) (BitVec.ofNat 32 (c.sreg r).toNat) then none
    else some (.gate (gateRef (yTile uid t) g) ((c.sreg r).toNat % 2 ^ 32))
  | .mwait r => if (c.sreg r).toNat ≤ s.mile ∨ (c.wait.any fun w => decide (w.1 = .mile 0)) then none else some (.mile (c.sreg r).toNat)
  | _ => none

/-- A Y-slot operation issues (04 R81 to R83): it comes after the other slots of its bundle, whose writes precede an increment. An increment of
the core's own tile reaches the gate unit in the cycle after its issue, or after the last landing it waits for, and so is seen by a GWAIT one
cycle later (04 R82; 09 R175). -/
def issueY (s : State) (uid : Nat) (op : YOp) : Except IssueErr State :=
  let c := s.core uid
  let hold (tile g n : Nat) : Except IssueErr State :=
    if !tileFieldOk tile then .error (.halt 1 0 .y) else
    let own := decide (yTile uid tile = uid / 4)
    let rel := if own then max c.cyc (lastWriteDue c) + 1 else lastWriteDue c
    let h : HeldInc := ⟨rel, c.seq, yTile uid tile, g, n, c.pc, c.rep⟩
    if rel ≤ c.cyc then .ok (emitInc (s.setCore uid { c with seq := c.seq + 1 }) uid h)
    else .ok (s.setCore uid { c with held := c.held ++ [h], seq := c.seq + 1 })
  match op with
  | .nop => .ok s
  | .inc t g i => hold t g (i + 1)
  | .add t g r => hold t g ((c.sreg r).toNat % 2 ^ 32)
  | .wait t g _ =>
    if yTile uid t ≠ uid / 4 then .error (.halt 1 0 .y)
    else match yAwait s uid op with
      | some a => .error (.hold a)
      | none => let _ := g; .ok s
  | .read t g d =>
    if yTile uid t ≠ uid / 4 then .error (.halt 1 0 .y)
    else .ok (s.setCore uid (c.issueW .y 4 [.sreg d ((s.gate (yTile uid t) g).zeroExtend 64)]))
  | .mwait _ => match yAwait s uid op with
      | some a => .error (.hold a)
      | none => .ok s
  | .mread d => .ok (s.setCore uid (c.issueW .y 4 [.smile d]))

end Sys2Proof.Machine
end

