-- ==== Sys2Proof/Machine/VecOps.lean ====
section
/-! DEFINITION. The vector engine (07 R131 to R147): operands by chunk, element-wise results, conversions, lane tree, compress and
expand, optimizer step. -/

namespace Sys2Proof.Machine
open Sys2Proof

/-- Landing classes of R70, R77. -/
inductive VClass where
  | elem | trans | tree
  deriving DecidableEq, Repr

def vClass (op : VOpc) : VClass :=
  match op with
  | .vexp | .vlog | .vrcp | .vrsqrt | .vtanh | .vexpsub | .vnorm | .vopt0 | .vopt1 | .vopt2 | .vopt3 => .trans
  | .vrsum | .vrmax | .vrmin | .vrsegsum | .vrsegmax | .vrsegmin | .vcompress | .vexpand => .tree
  | _ => .elem

def VJob.chunksN (j : VJob) : Nat := cdiv j.n 256
/-- The rounding mode of an operation (04 R76, 08 R155). -/
def VJob.mode (j : VJob) : Rnd :=
  match j.rnd with
  | 1 => .rne
  | 2 => .rtz
  | 3 => .stoch
  | _ => match j.round.toNat % 4 with
    | 1 => .rtz
    | 2 => .stoch
    | _ => .rne
/-- subnormal_en as captured (07 R135). -/
def VJob.sub (j : VJob) : Bool := nbit j.round.toNat 4
def VJob.window (j : VJob) : Bool := decide (j.src = 1 ∨ j.src = 2)
/-- Extra cycles of a window operand (04 R70). -/
def VJob.winLat (j : VJob) : Nat := if j.window then 8 else 0

/-! ### Elements -/

/-- The draw of an element (08 R157). -/
def VJob.drawAt (j : VJob) (uid e dsel : Nat) : Nat := if j.mode = .stoch then draw j.seed uid j.bcnt e dsel else 0

def isNan32 (w : Nat) : Bool := decide (fFP32.decode w = .nan)
def int32 (w : Nat) : Int := sint 32 w
/-- The scalar constants of the optimizer step (07 R146). -/
def VJob.lo (j : VJob) : FV := ofF32 j.sub (j.sval.toNat % 2 ^ 32)
def VJob.hi (j : VJob) : FV := ofF32 j.sub (j.sval.toNat / 2 ^ 32)

/-- Maximum or minimum of two FP32 values (07 R136): NaN wins, max (−0, +0) = +0, min (−0, +0) = −0. -/
def fvMax (a b : FV) : FV :=
  if a.isNan || b.isNan then .nan else if a.isZero && b.isZero then (if a = .zero true ∧ b = .zero true then a else .zero false)
  else if a.lt b then b else a
def fvMin (a b : FV) : FV :=
  if a.isNan || b.isNan then .nan else if a.isZero && b.isZero then (match a, b with
    | .fin n1 _ _, .fin n2 _ _ => .zero (n1 || n2) | _, _ => a)
  else if b.lt a then b else a

/-- A zero without its exponent, so that zeros compare as data. -/
def FV.canonZero : FV → FV
  | .fin n m e => if m = 0 then .zero n else .fin n m e
  | v => v

/-- The number of an opcode (04 R77). -/
def VOpc.code (o : VOpc) : Nat := ((vOpcodes.find? fun p => decide (p.2 = o)).map (·.1)).getD 0

/-- A result stated within B ulp of v: one value for one operation, its operands and subnormal_en (08 R167). An infinity is as it is. -/
def VJob.near (j : VJob) (B : Nat) (ops : List Nat) (v : FV) : Nat :=
  nearF32 B j.sub (Config.opValue (j.op.code :: b2n j.sub :: ops)).toNat v

/-- VEXPSUB (07 R141): value, and the sticky flags. A NaN operand comes before the rows of an infinite maximum (07 R140; DEDUCED, log entry 9). -/
def expSub (j : VJob) (ops : List Nat) (x m : FV) : Nat × Nat :=
  if x.isNan || m.isNan then (fFP32.nanBits, 0)
  else match m with
    | .inf true => (0, 2 ^ stEmptyRow)
    | .inf false => (if x = .inf false then 0x3F800000 else 0, 2 ^ stInfInput)
    | _ => (j.near 2 ops (expFV (x.sub m)), 0)

/-- VNORM (07 R142). -/
def vnormVal (j : VJob) (ops : List Nat) (a b : FV) : Nat × Nat :=
  if b.isZero then (0, 2 ^ stEmptyRow) else (j.near 2 ops (a.div b), 0)

/-- VEXP's argument beyond which the result is +∞: 88.7228 (07 R140). -/
def expTop (v : FV) : Bool := FV.lt (.fin false 887228 0) (v.mul (.fin false 10000 0))
/-- A power of two, whose reciprocal is exact (08 R161). -/
def FV.isPow2 : FV → Bool
  | .fin _ m _ => decide (m ≠ 0) && decide (m = 2 ^ (bitlen m - 1))
  | _ => false
/-- An infinity where a value's magnitude lies beyond FP32 (07 R136). -/
def FV.capped (v : FV) : FV :=
  match v with
  | .fin n _ _ => if FV.lt v.abs (.fin false 1 128) then v else .inf n
  | v => v

/-- The narrow format that a code names (08 R151), element formats of the MX codes included. -/
def narrowFmt (code : Nat) : FFmt :=
  match code with
  | 2 => fBF16 | 3 => fFP16 | 4 => fE4M3 | 5 => fE5M2 | 7 => fE4M3 | 8 => fE5M2 | 9 => fE3M2 | 10 => fE2M3 | 11 => fE2M1
  | _ => fBF16
/-- Largest exponent of an MX element format (OCP Microscaling 1.0, 07 R138). -/
def mxEmax (code : Nat) : Int :=
  match code with
  | 7 => 8 | 8 => 15 | 9 => 4 | 10 => 2 | 11 => 2 | _ => 0

/-- FP32 to a non-MX format (07 R137): result bits, and whether the result is a NaN of that format. -/
def cvtDown (code : Nat) (mode : Rnd) (D : Nat) (v : FV) : Nat × Bool :=
  if code = 1 ∨ code = 6 then
    let w := if code = 1 then 32 else 8
    match v with
    | .nan => (0, false)
    | .inf n => (uint w (if n then -(2 ^ (w - 1) : Nat) else ((2 ^ (w - 1) - 1 : Nat) : Int)), false)
    | v => (uint w (clampInt w (toInt mode D v)), false)
  else (toNarrow (narrowFmt code) mode D v, v.isNan)

/-- A non-MX format to FP32 (07 R137); `shift` is the row shift of an INT32 window (06 R127). -/
def cvtUp (code shift : Nat) (mode : Rnd) (D : Nat) (sub : Bool) (w : Nat) : Nat :=
  if code = 1 then toF32 mode D sub ((FV.ofInt (int32 w)).scale2 shift)
  else if code = 6 then toF32 .rne 0 sub (FV.ofInt (sint 8 w))
  else toF32 .rne 0 sub ((narrowFmt code).decode (w % 2 ^ (1 + (narrowFmt code).ebits + (narrowFmt code).mbits)))

/-- Exponent of the largest power of two not above a finite non-zero magnitude. -/
def fvExp (v : FV) : Int :=
  match v with
  | .fin _ m e => e + bitlen m - 1
  | _ => 0

/-- The E8M0 scale of a block (07 R138): all zero gives 0x00, a NaN gives 0xFF; an infinity clamps to the top of the range. -/
def mxScale (code : Nat) (vs : List FV) : Nat :=
  if vs.any FV.isNan then 0xFF
  else if vs.all FV.isZero then 0
  else if vs.any fun v => decide (v.abs = .inf false) then 254
  else
    let top := (vs.filter fun v => !v.isZero).foldl (fun a v => max a (fvExp v)) (-1000)
    (max 0 (min 254 (top - mxEmax code + 127))).toNat

/-- One element under its block's scale (07 R138). An MX element whose scale is NaN and whose format has no NaN is a free value, one for a
format and an element's bits, and is reported as no NaN (07 R147; DESIGN CHOICE, log entry 16). -/
def mxDown (code scale : Nat) (mode : Rnd) (D w : Nat) (v : FV) : Nat × Bool :=
  let free := (Config.opValue [0x0C, code, w]).toNat
  if code = 12 then
    (if scale = 0xFF then (free % 256, false)
     else match v with
       | .inf n => (uint 8 (if n then -127 else 127), false)
       | v => (uint 8 (max (-127) (min 127 (toInt mode D ((v.scale2 (127 - scale)).scale2 6)))), false))
  else
    let f := narrowFmt code
    if scale = 0xFF then (if f.style = .none then (free % 2 ^ (1 + f.ebits + f.mbits), false) else (f.nanBits, true))
    else
      let x := v.scale2 (127 - scale)
      match x with
      | .inf n => (f.sgn n + f.maxBits, false)
      | .nan => (f.nanBits, decide (f.style ≠ .none))
      | .fin n m e =>
        let r := roundSub f mode D m e
        (f.sgn n + (f.pack r.1 r.2).getD f.maxBits, false)

/-- The exact value of an MX element under its scale. -/
def mxUp (code scale w : Nat) : FV :=
  if scale = 0xFF then .nan
  else
    let v := if code = 12 then (FV.ofInt (sint 8 w)).scale2 (-6)
      else (narrowFmt code).decode (w % 2 ^ (1 + (narrowFmt code).ebits + (narrowFmt code).mbits))
    v.scale2 ((scale : Int) - 127)

/-- The result of one element of an element-wise or transcendental operation that needs no neighbours: bits, NaN, sticky flags. Bits of a
logical operation or a shift that spell a NaN are none (07 R135, R147; DESIGN CHOICE, log entry 16).
For compares the bit is the result's lowest. -/
def vElem (j : VJob) (uid e shift : Nat) (a b c : Nat) : Nat × Bool × Nat :=
  let sub := j.sub
  let fa := ofF32 sub a
  let fb := ofF32 sub b
  let fc := ofF32 sub c
  let D := j.drawAt uid e 0
  let fin (v : FV) : Nat × Bool × Nat := let r := toF32 j.mode D sub v; (r, isNan32 r, 0)
  let near (B : Nat) (ops : List Nat) (v : FV) : Nat × Bool × Nat := let r := j.near B ops v; (r, isNan32 r, 0)
  let near1 (v : FV) : Nat × Bool × Nat := let r := toF32 .rne 0 sub v; (r, isNan32 r, 0)
  let int (i : Int) : Nat × Bool × Nat := (uint 32 i, false, 0)
  match j.op with
  | .vadd => fin (fa.add fb)
  | .vsub => fin (fa.sub fb)
  | .vmul => fin (fa.mul fb)
  | .vfma => fin ((fa.mul fb).add fc)
  | .vmax => if j.fmt = 1 then int (max (int32 a) (int32 b)) else near1 (fvMax fa.canonZero fb.canonZero)
  | .vmin => if j.fmt = 1 then int (min (int32 a) (int32 b)) else near1 (fvMin fa.canonZero fb.canonZero)
  | .vabs => (a % 2 ^ 31, false, 0)
  | .vneg => ((a + 2 ^ 31) % 2 ^ 32, false, 0)
  | .vmov => (a, false, 0)
  | .vbcast => (a, false, 0)
  | .vscale => fin (fa.scale2 (int32 b)).capped
  | .vcmplt => (b2n (if j.fmt = 1 then decide (int32 a < int32 b) else fa.lt fb), false, 0)
  | .vcmpeq => (b2n (if j.fmt = 1 then decide (a = b) else fa.eqv fb), false, 0)
  | .viadd => int (int32 a + int32 b)
  | .visub => int (int32 a - int32 b)
  | .vimul => int (int32 a * int32 b)
  | .vand => (a &&& b, false, 0)
  | .vor => (a ||| b, false, 0)
  | .vxor => (a ^^^ b, false, 0)
  | .vshl => ((a <<< (b % 32)) % 2 ^ 32, false, 0)
  | .vshr => (a >>> (b % 32), false, 0)
  | .vexp => if expTop fa then near1 (.inf false) else near 2 [a] (expFV fa)
  | .vlog => near 2 [a] (if fa.isNeg then .nan else lnFV fa)
  | .vrcp => if fa.isPow2 then near1 (FV.one.div fa) else near 1 [a] (FV.one.div fa)
  | .vrsqrt => near 1 [a] (FV.one.div fa.sqrt)
  | .vtanh => if fa.abs = .inf false then near1 (tanhFV fa) else near 2 [a] (tanhFV fa)
  | .vexpsub => let r := expSub j [a, b] fa fb; (r.1, isNan32 r.1, r.2)
  | .vnorm => let r := vnormVal j [a, b] fa fb; (r.1, isNan32 r.1, r.2)
  | .vopt0 => near1 ((j.lo.mul fb).add (j.hi.mul fa))
  | .vopt1 => near1 ((j.lo.mul fb).add ((j.hi.mul fa).mul fa))
  | .vopt2 => near 3 [a, b, j.sval.toNat] ((j.hi.mul fa).div (fb.sqrt.add j.lo))
  | .vopt3 => near1 ((j.lo.mul fb).sub fa)
  | .vcvt =>
    if j.vc % 2 = 0 then let r := cvtDown j.fmt j.mode D fa; (r.1, r.2, 0)
    else let r := cvtUp j.fmt shift j.mode D sub a; (r, isNan32 r, 0)
  | _ => (0, false, 0)

/-! ### Chunks -/

/-- The number of elements of chunk k. -/
def VJob.lanes (j : VJob) (k : Nat) : Nat := min 256 (j.n - 256 * k)
def chunkOf (j : VJob) (k : Nat) : Option VChunk := j.chunks.find? fun c => decide (c.j = k)
/-- All source elements read, in order, up to n; elements of chunks still waiting read as zero. -/
def allA (j : VJob) : List Word32 := (List.range j.chunksN).flatMap fun k => match chunkOf j k with
  | some c => c.xa | none => List.replicate (j.lanes k) 0#32
def allB (j : VJob) : List Word32 := (List.range j.chunksN).flatMap fun k => match chunkOf j k with
  | some c => c.xb | none => List.replicate (j.lanes k) 0#32
def allP (j : VJob) : List Bool := (List.range j.chunksN).flatMap fun k => match chunkOf j k with
  | some c => c.xp | none => List.replicate (j.lanes k) false

/-- The first NaN of a list of results, as a trap report. -/
def nanOf (j : VJob) (l : List (Nat × Nat × Bool × Nat)) : Option (Nat × Bool) :=
  (l.find? fun x => x.2.2.1).map fun x => (x.1, j.nanHalt)

/-- The sticky flags of a list of results. -/
def stickyOf (l : List (Nat × Nat × Bool × Nat)) : Nat := l.foldl (fun a x => a ||| x.2.2.2) 0

/-- An output of a vector operation: what it writes, the NaN it reports, the sticky flags it sets. -/
structure VOut where
  writes : List Wr
  nan : Option (Nat × Bool)
  sticky : Nat

/-- The shift of an INT32 window element by its row's count (06 R127). -/
def rowShiftOf (c : CoreSt) (j : VJob) (e : Nat) : Nat :=
  let k := nbits j.prec.toNat 15 12
  if j.window && decide (j.op = .vcvt) then
    tget nat0 c.rowShift ((if j.src = 2 then 4096 else 0) + (j.sval.toNat + e) / 128) * (if k = 0 then 16 else k)
  else 0

/-- MX block conversion of chunk k (07 R138): results and the block scales, which no predicate masks (DESIGN CHOICE, log entry 16). -/
def mxChunk (j : VJob) (uid : Nat) (c : VChunk) : List (Nat × Nat × Bool × Nat) × List (Nat × Word32) :=
  let vals := c.xa.map fun w => ofF32 j.sub w.toNat
  let blocks := cdiv c.xa.length 32
  let scale (b : Nat) : Nat := mxScale j.fmt ((vals.drop (32 * b)).take 32)
  let scales := (List.range blocks).map scale
  ((List.range c.xa.length).map fun i =>
      let e := 256 * c.j + i
      let r := mxDown j.fmt (lget 0 scales (i / 32)) j.mode (j.drawAt uid e 0) (lget 0#32 c.xa i).toNat (lget .nan vals i)
      (e, r.1, r.2, 0),
   (List.range blocks).map fun b => (8 * c.j + b, BitVec.ofNat 32 (lget 0 scales b)))

/-- Is the conversion one of the MX formats, and in which direction? -/
def VJob.mxDownward (j : VJob) : Bool := decide (j.op = .vcvt ∧ 7 ≤ j.fmt ∧ j.vc % 2 = 0)
def VJob.mxUpward (j : VJob) : Bool := decide (j.op = .vcvt ∧ 7 ≤ j.fmt ∧ j.vc % 2 = 1)

/-- The output of chunk k of an element-wise or transcendental operation (07 R131, R134, R136); the scales of an MX conversion's source chunk
land with it (07 R138; DESIGN CHOICE, log entry 16). -/
def elemOut (c : CoreSt) (j : VJob) (uid : Nat) (ch : VChunk) : VOut :=
  let lanes := List.range ch.xa.length
  let base := 256 * ch.j
  let keep (i : Nat) : Bool := lget true ch.xp i
  if j.op = .vsel then
    ⟨[.vch j.vd ch.j (lanes.map fun i => (base + i, if keep i then lget 0#32 ch.xa i else lget 0#32 ch.xb i))], none, 0⟩
  else if j.op = .vcmplt ∨ j.op = .vcmpeq then
    ⟨[.pch j.vd ch.j (lanes.map fun i =>
      (base + i, keep i && decide ((vElem j uid (base + i) 0 (lget 0#32 ch.xa i).toNat (lget 0#32 ch.xb i).toNat 0).1 = 1)))], none, 0⟩
  else if j.mxDownward then
    let r := mxChunk j uid ch
    let kept := r.1.filter fun x => keep (x.1 - base)
    ⟨[.vch j.vd ch.j (kept.map fun x => (x.1, BitVec.ofNat 32 x.2.1)), .vch j.vb (8 * ch.j / 256) r.2], nanOf j kept, 0⟩
  else
    let rs := (lanes.filter keep).map fun i =>
      let e := base + i
      let a : Nat := if j.op = .vbcast then j.bval.toNat else (lget 0#32 ch.xa i).toNat
      if j.mxUpward then
        let src := if j.fmt = 11 then
            (lget 0#32 (allA j) (e / 2)).toNat / (if e % 2 = 0 then 1 else 16) % 16 else a
        let r := toF32 j.mode (j.drawAt uid e 0) j.sub (mxUp j.fmt ((lget 0#32 j.scales (e / 32)).toNat % 256) src)
        (e, r, isNan32 r, 0)
      else
        (e, vElem j uid e (rowShiftOf c j e) a (lget 0#32 ch.xb i).toNat (lget 0#32 ch.xc i).toNat)
    let main : Wr := .vch j.vd ch.j (rs.map fun x => (x.1, BitVec.ofNat 32 x.2.1))
    let copy : List Wr := if j.op = .vopt3 then
        [.vch j.vc ch.j (rs.map fun x =>
          (x.1, BitVec.ofNat 32 (cvtDown j.fmt j.mode (j.drawAt uid x.1 1) (fFP32.decode x.2.1)).1))] else []
    ⟨main :: copy, nanOf j rs, stickyOf rs⟩

/-- The packed output chunk k of a conversion to MXFP4 (07 R139): two elements to one, zeros above. -/
def packOut (j : VJob) (uid k : Nat) : VOut :=
  let res (q : Nat) : List (Nat × Nat × Bool × Nat) := match chunkOf j q with | some c => (mxChunk j uid c).1 | none => []
  let two := res (2 * k) ++ res (2 * k + 1)
  let keep := match chunkOf j k with | some c => c.xp | none => []
  let code (e : Nat) : Nat := (lget (0, 0, false, 0) two e).2.1
  let els := (List.range (j.lanes k)).map fun i => (256 * k + i, code (2 * i) + 16 * code (2 * i + 1))
  let kept := els.filter fun x => lget true keep (x.1 - 256 * k)
  let sc := match chunkOf j k with | some c => (mxChunk j uid c).2 | none => []
  ⟨[.vch j.vd k (kept.map fun x => (x.1, BitVec.ofNat 32 x.2)), .vch j.vb 0 sc], none, 0⟩

/-! ### Lane tree, compress, expand -/

/-- One lane-partial addition (07 R143). -/
def treeAdd (j : VJob) (a b : Nat) : Nat :=
  if j.fmt = 1 then (a + b) % 2 ^ 32 else toF32 .rne 0 j.sub ((ofF32 j.sub a).add (ofF32 j.sub b))

/-- Pairs added at one tree level. -/
def treeLevel (add : Nat → Nat → Nat) : List Nat → List Nat
  | a :: b :: r => add a b :: treeLevel add r
  | l => l
def treeLevels (add : Nat → Nat → Nat) : Nat → List Nat → List Nat
  | 0, l => l
  | f + 1, l => treeLevels add f (treeLevel add l)
/-- The fixed-order sum of R143 over n elements. -/
def treeSum (j : VJob) (x : Nat → Nat) : Nat :=
  let lane (l : Nat) : Nat := (upFrom 1 (j.chunksN - 1)).foldl
    (fun p k => treeAdd j p (if 256 * k + l < j.n then x (256 * k + l) else 0)) (if l < j.n then x l else 0)
  lget 0 (treeLevels (treeAdd j) 8 ((List.range 256).map lane)) 0

/-- Does element a beat the winner b in a maximum or minimum (07 R144)? A NaN beats every number; the first stays on a tie. -/
def beats (j : VJob) (mx : Bool) (a b : Nat) : Bool :=
  if j.fmt = 1 then (if mx then decide (int32 b < int32 a) else decide (int32 a < int32 b))
  else
    let fa := ofF32 j.sub a
    let fb := ofF32 j.sub b
    if fb.isNan then false else if fa.isNan then true else if mx then fb.lt fa else fa.lt fb
/-- The winning value and index among chosen elements (07 R144). -/
def winner (j : VJob) (mx : Bool) (xs : List (Nat × Nat)) : Option (Nat × Nat) :=
  xs.foldl (fun w x => match w with
    | none => some x
    | some y => if beats j mx x.2 y.2 then some x else some y) none
/-- The value written for a winner: NaN as the default NaN, FP32 inputs read under subnormal_en. -/
def winVal (j : VJob) (mx : Bool) (w : Option (Nat × Nat)) : Nat :=
  match w with
  | some x => if j.fmt = 1 then x.2 else toF32 .rne 0 true (ofF32 j.sub x.2)
  | none => if j.fmt = 1 then (if mx then 0x80000000 else 0x7FFFFFFF) else fFP32.infBits mx

/-- The scalar form of a 32-bit result: FP32 zero-extended, INT32 sign-extended, as 07 R143 says of VRSUM, and of VRMAX and VRMIN too (DESIGN
CHOICE, log entry 16). -/
def scalarOf (j : VJob) (v : Nat) : Word64 := if j.fmt = 1 then BitVec.ofInt 64 (int32 v) else BitVec.ofNat 64 v

/-- The segments of n elements by their heads: element 0 always starts one (07 R134). -/
def segStarts (j : VJob) : List Nat := (List.range j.n).filter fun e => decide (e = 0) || (decide (j.pm ≠ 0) && lget false (allP j) e)

/-- The segment [start, end) of each element. -/
def segOf (starts : List Nat) (n e : Nat) : Nat × Nat :=
  ((starts.filter fun x => decide (x ≤ e)).getLastD 0, (starts.find? fun x => decide (e < x)).getD n)

/-- Vector values written as chunks; a chunk that a move or a tree operation gives no element is not written (DESIGN CHOICE, log entry 16). -/
def chunkWrites (vd : Nat) (els : List (Nat × Word32)) : List Wr :=
  ((List.range 16).map fun k => (Wr.vch vd k (els.filter fun x => decide (x.1 / 256 = k)))).filter fun w =>
    match w with | .vch _ _ l => !l.isEmpty | _ => true

/-- The results of a lane-tree operation once every chunk is read (07 R143 to R145). A NaN in a scalar result is element 0's (DESIGN CHOICE, log
entry 16). -/
def treeOut (j : VJob) : VOut :=
  let xs := allA j
  let ps := allP j
  let x (e : Nat) : Nat := (lget 0#32 xs e).toNat
  let sel (e : Nat) : Bool := decide (j.pm = 0) || lget false ps e
  let picked := (List.range j.n).filter sel
  let nan (e v : Nat) : Option (Nat × Bool) := if decide (j.fmt ≠ 1) && isNan32 v then some (e, j.nanHalt) else none
  let moved (l : List (Nat × Word32)) : VOut :=
    ⟨chunkWrites j.vd l ++ [.sreg j.sr (BitVec.ofNat 64 picked.length)],
      (l.find? fun q => isNan32 q.2.toNat).map fun q => (q.1, j.nanHalt), 0⟩
  match j.op with
  | .vrsum =>
    let r := treeSum j fun e => if sel e then x e else 0
    ⟨[.sreg j.sr (scalarOf j r)], nan 0 r, 0⟩
  | .vrmax | .vrmin =>
    let mx := decide (j.op = .vrmax)
    let w := winner j mx (picked.map fun e => (e, x e))
    let v := winVal j mx w
    let ix := match w with | some y => BitVec.ofNat 64 y.1 | none => BitVec.ofNat 64 allBits
    ⟨[.sreg j.sr (scalarOf j v), .sreg ((j.sr + 1) % 64) ix], nan 0 v, 0⟩
  | .vrsegsum =>
    let st := segStarts j
    let sums := st.map fun a => (a, let b := (segOf st j.n a).2; treeSum j fun e => if decide (a ≤ e) && decide (e < b) then x e else 0)
    let els := (List.range j.n).map fun e => (e, let a := (segOf st j.n e).1; ((sums.find? fun q => decide (q.1 = a)).map (·.2)).getD 0)
    ⟨chunkWrites j.vd (els.map fun q => (q.1, BitVec.ofNat 32 q.2)), (els.find? fun q => (nan q.1 q.2).isSome).bind fun q => nan q.1 q.2, 0⟩
  | .vrsegmax | .vrsegmin =>
    let mx := decide (j.op = .vrsegmax)
    let st := segStarts j
    let wins := st.map fun a => (a, let b := (segOf st j.n a).2; winVal j mx (winner j mx ((upFrom a (b - a)).map fun e => (e, x e))))
    let els := (List.range j.n).map fun e => (e, let a := (segOf st j.n e).1; ((wins.find? fun q => decide (q.1 = a)).map (·.2)).getD 0)
    ⟨chunkWrites j.vd (els.map fun q => (q.1, BitVec.ofNat 32 q.2)), (els.find? fun q => (nan q.1 q.2).isSome).bind fun q => nan q.1 q.2, 0⟩
  | .vcompress => moved ((List.range picked.length).map fun i => (i, lget 0#32 xs (lget 0 picked i)))
  | .vexpand => moved ((List.range picked.length).map fun i => (lget 0 picked i, lget 0#32 xs i))
  | _ => ⟨[], none, 0⟩

/-! ### Issue and progress -/

/-- Is the accumulator of the captured product format an integer one (06 R115)? -/
def intFormat (code : Nat) : Bool := decide (code = 7 ∨ code = 13)

/-- A window element (07 R133): FP32 sum of sum and compensation in a paired window, the stored value otherwise. The product format of CSR_PREC
at the operation's issue tells an INT32 window (DESIGN CHOICE, log entry 16). -/
def winElem (s : State) (tile : Nat) (j : VJob) (m : Nat) : Word32 :=
  let at4 (o : Nat) : Nat := leNat (spadRead s tile o 4)
  if winPaired j.win && !intFormat (nbits j.prec.toNat 7 4) then
    let o := winRowOff j.win (m / 128) + 4 * (m % 128)
    BitVec.ofNat 32 (toF32 .rne 0 j.sub ((ofF32 j.sub (at4 o)).add (ofF32 j.sub (at4 (o + 512)))))
  else if winPaired j.win then BitVec.ofNat 32 (at4 (winRowOff j.win (m / 128) + 4 * (m % 128)))
  else BitVec.ofNat 32 (at4 (winBase j.win + 4 * m))

/-- The scratchpad offset past the row of a window element. -/
def winEnd (w : Word64) (m : Nat) : Nat := winRowOff w (m / 128) + winRowBytes w

/-- A V operation issues (07 R131, R133): the job reads its chunk j at t + j. -/
def issueV (s : State) (uid : Nat) (op : VOpc) (f : VArg) : Except IssueErr State :=
  let c := s.core uid
  let win := if f.src = 2 then c.csr csrWinB else c.csr csrWinA
  let w := (c.sreg f.s).toNat
  let isWin := decide (f.src = 1 ∨ f.src = 2)
  let last := if op = .vbcast then w else w + f.n - 1
  if !vLegal op f then .error (.halt 1 0 .v)
  else if c.cyc < c.vbusy then .error (.halt 3 0 .v)
  else if isWin ∧ op ≠ .vbcast ∧ w % 128 ≠ 0 then .error (.halt 1 0 .v)
  else if isWin ∧ (w + f.n > 128 * winRows win ∨ winEnd win last > spadBytes) then .error (.halt 4 (winRowOff win (w / 128) % 2 ^ 48) .v)
  else
    let bv := if f.src = 3 then BitVec.ofNat 32 w else if isWin then 0#32 else c.velem f.va (w % 4096)
    let j : VJob :=
      { op := op, vd := f.vd, va := f.va, vb := f.vb, vc := f.vc, pm := f.pm, n := f.n, rnd := f.rnd, fmt := f.fmt, sr := f.s,
        src := f.src, t := c.cyc, seq := c.seq, bundle := c.pc, rep := c.rep, bcnt := c.bcount, sval := c.sreg f.s,
        round := c.csr csrRound, seed := c.csr csrSeed, win := win, prec := c.csr csrPrec,
        nanHalt := nbit (c.csr csrTrap).toNat 0, nanDone := false, chunks := [], waiting := [], emitted := [],
        bval := if op = .vbcast then bv else 0#32, scales := (List.range 128).map fun e => c.velem f.vb e }
    .ok (s.setCore uid { c with vjobs := c.vjobs ++ [j], vbusy := c.cyc + cdiv f.n 256, seq := c.seq + 1 })

/-- The lanes of chunk k of a window operand: the two rows that begin with its first element's (05 R94: 1 KiB, 2 KiB paired), as far as the
scratchpad goes. VBCAST reads the element it broadcasts at t, with the rows from that element's on (DESIGN CHOICE, log entry 16). -/
def VJob.winSegs (j : VJob) (k : Nat) : List (Nat × Nat) :=
  let r := (j.sval.toNat + (if j.op = .vbcast then 0 else 256 * k)) / 128
  ([r, r + 1].map fun r => (winRowOff j.win r, winRowBytes j.win)).filter fun p => decide (p.1 + p.2 ≤ spadBytes)
/-- Does a job read lanes for chunk k? VEXPAND from a window presents the lanes of all its chunks (07 R145 says which elements are not read,
of no lanes; DESIGN CHOICE, log entry 16). -/
def VJob.reads (j : VJob) (k : Nat) : Bool := j.window && (decide (j.op ≠ .vbcast) || decide (k = 0))

/-- The landing cycle of output chunk k (04 R70). -/
def VJob.due (j : VJob) (k : Nat) : Nat :=
  match vClass j.op with
  | .elem => j.t + 6 + k + j.winLat
  | .trans => j.t + 14 + k + j.winLat
  | .tree => j.t + j.chunksN + 8 + j.winLat
/-- Packed output k of a register source takes in the chunks 2k and 2k + 1 (07 R139) and lands at t + 6 + k (04 R70). Is a chunk one that is
read just before its output lands, 13 to 15 of them ahead of their cycle (DESIGN CHOICE, log entry 16)? -/
def VJob.early (j : VJob) (k : Nat) : Bool := j.mxDownward && decide (j.fmt = 11) && !j.window && decide (11 ≤ k)
/-- The chunks that are so read in a cycle. -/
def VJob.packNow (j : VJob) (cyc : Nat) : List Nat :=
  (List.range j.chunksN).filter fun k => j.early k && decide (j.t + 6 + k / 2 = cyc) && !(chunkOf j k).isSome

/-- The outputs of a job: one of a lane-tree operation, else one for each chunk. -/
def VJob.outputs (j : VJob) : Nat := if vClass j.op = .tree then 1 else j.chunksN
/-- The chunks that output k takes in. -/
def VJob.sources (j : VJob) (k : Nat) : List Nat :=
  (if vClass j.op = .tree then List.range j.chunksN
   else if j.mxDownward && decide (j.fmt = 11) then [k, 2 * k, 2 * k + 1]
   else if j.mxUpward && decide (j.fmt = 11) then [k, k / 2]
   else if j.window && decide (j.op = .vbcast) then [k, 0]
   else [k]).filter fun q => decide (q < j.chunksN)
/-- The outputs that have become ready. -/
def VJob.ready (j : VJob) : List Nat :=
  (List.range j.outputs).filter fun k => !j.emitted.contains k && (chunkOf j k).all (fun c => c.pred) && (j.sources k).all fun q => (chunkOf j q).isSome

/-- The value of output k. -/
def VJob.out (j : VJob) (c : CoreSt) (uid k : Nat) : VOut :=
  match vClass j.op with
  | .tree => treeOut j
  | _ => if j.mxDownward && decide (j.fmt = 11) then packOut j uid k
         else match chunkOf j k with
           | some ch => elemOut c j uid ch
           | none => ⟨[], none, 0⟩

/-- The first output that takes in a chunk: it answers for the lanes from which the chunk was read. -/
def VJob.firstOut (j : VJob) (q : Nat) : Option Nat := (List.range j.outputs).find? fun k => (j.sources k).contains q
/-- Output k sent to land, with the lanes that its chunks were read from and their lateness. -/
def VJob.fly (j : VJob) (k : Nat) (o : VOut) (wait : Bool) : Fly :=
  let src := (j.sources k).filterMap (chunkOf j)
  let own := src.filter fun c => decide (j.firstOut c.j = some k)
  { due := j.due k, slot := .v, seq := j.seq, tag := k, bundle := j.bundle, rep := j.rep, writes := o.writes, wait := wait,
    sticky := o.sticky, nan := if j.nanDone then none else o.nan, segs := own.flatMap fun c => c.segs, ue := own.findSome? fun c => c.ue,
    late := lmax (src.map fun c => c.late) }

/-- The outputs of a job that are ready are sent to land, or complete an output that was waiting for its data (05 R97). -/
def vEmit (c : CoreSt) (uid : Nat) (j : VJob) : CoreSt × VJob :=
  let new := j.ready.map fun k => j.fly k (j.out c uid k) false
  let flies := new.foldl (fun fs f =>
    if fs.any fun g => decide (g.seq = f.seq) && decide (g.tag = f.tag) then
      fs.map fun g => if g.seq = f.seq && g.tag = f.tag then f else g
    else fs ++ [f]) c.flies
  ({ c with flies := flies }, { j with emitted := j.emitted ++ j.ready })

/-- The operands of chunk k of a job, without a window. -/
def readChunk (c : CoreSt) (j : VJob) (k : Nat) : VChunk :=
  let es := upFrom (256 * k) (j.lanes k)
  { j := k,
    xa := es.map fun e => if j.src = 3 then BitVec.ofNat 32 j.sval.toNat else c.velem j.va e,
    xb := es.map fun e => c.velem j.vb e,
    xc := es.map fun e => c.velem j.vc e,
    xp := es.map fun e => if j.pm < 8 then true else c.pbit (j.pm - 8) e }

/-- The window elements of a chunk whose lanes are granted, put into the job (07 R133). -/
def VJob.take (j : VJob) (s : State) (tile : Nat) (ch : VChunk) : VJob :=
  let m := j.sval.toNat + 256 * ch.j
  let got := { ch with xa := if j.op = .vbcast then ch.xa else (upFrom m (j.lanes ch.j)).map fun e => winElem s tile j e
                       segs := j.winSegs ch.j, ue := firstUe s tile (j.winSegs ch.j) }
  { j with chunks := j.chunks ++ [got], waiting := j.waiting.filter fun q => decide (q.j ≠ ch.j)
           bval := if j.op = .vbcast then winElem s tile j m else j.bval }

/-- A job reads chunk k (07 R131): a window chunk presents its lanes, and a denied one waits (05 R97). -/
def vReadChunk (s : State) (uid : Nat) (j : VJob) (k : Nat) : State × VJob :=
  let c := s.core uid
  let ch := readChunk c j k
  if j.reads k then
    let r := present s (uid / 4) (.core uid) (.winop j.seq k) false (j.winSegs k)
    if r.1 then
      let e := vEmit c uid (j.take s (uid / 4) ch)
      (r.2.setCore uid e.1, e.2)
    else
      let held := ((List.range j.outputs).filter fun o => (j.sources o).contains k
          && !(c.flies.any fun g => decide (g.seq = j.seq) && decide (g.tag = o))).map fun o => j.fly o ⟨[], none, 0⟩ true
      ((deny s (uid / 4) ⟨.core uid, .winop j.seq k, j.winSegs k, false, 0, .denied⟩).setCore uid { c with flies := c.flies ++ held },
        { j with waiting := j.waiting ++ [ch] })
  else
    let e := vEmit c uid { j with chunks := j.chunks ++ [ch] }
    (s.setCore uid e.1, e.2)
/-- The chunks that a job reads in the present cycle. -/
def VJob.now (j : VJob) (cyc : Nat) : List Nat :=
  (List.range j.chunksN).filter fun k => decide (k = cyc - j.t) && !j.early k && !(chunkOf j k).isSome && !(j.waiting.any fun w => decide (w.j = k))
/-- The predicate chunk of a cycle, where its source chunk was read ahead of it (07 R131, R134). -/
def predRead (c : CoreSt) (j : VJob) : VJob :=
  { j with chunks := j.chunks.map fun q => if !q.pred && decide (q.j = c.cyc - j.t) then { q with xp := (readChunk c j q.j).xp, pred := true } else q }
/-- A job reads its chunks of the present cycle. -/
def vTickJob (s : State) (uid : Nat) (j : VJob) : State × VJob :=
  let r := (j.now (s.core uid).cyc).foldl (fun x k => vReadChunk x.1 uid x.2 k) (s, j)
  if r.2.chunks.all fun q => q.pred then r
  else
    let e := vEmit (r.1.core uid) uid (predRead (r.1.core uid) r.2)
    (r.1.setCore uid e.1, e.2)
/-- The reads of a core cycle whose outputs land in it: they see what else lands in it (04 R66). A cycle in which the core freezes is still
to come. -/
def packRead (s : State) (uid : Nat) : State :=
  let c := s.core uid
  if c.vjobs.all fun j => (j.packNow c.cyc).isEmpty then s
  else
    let h := (landCycle s uid).core uid
    if !h.freezes.isEmpty then s
    else
      let r := c.vjobs.foldl (fun (a : CoreSt × List VJob) j =>
        let e := vEmit a.1 uid { j with chunks := j.chunks ++ (j.packNow c.cyc).map fun k => { readChunk h j k with pred := decide (k < 13) } }
        (e.1, a.2 ++ [e.2])) (c, [])
      s.setCore uid { r.1 with vjobs := r.2 }
/-- Has a job nothing left to read or send? -/
def VJob.finished (j : VJob) (cyc : Nat) : Bool := decide (cyc + 1 ≥ j.t + j.chunksN) && j.waiting.isEmpty

/-- The vector engine in one core cycle. -/
def vTick (s : State) (uid : Nat) : State :=
  let r := (s.core uid).vjobs.foldl (fun (a : State × List VJob) j => let q := vTickJob a.1 uid j; (q.1, a.2 ++ [q.2])) (s, [])
  r.1.modCore uid fun c => { c with vjobs := r.2.filter fun j => !j.finished c.cyc }

/-- A denied window chunk is granted (05 R97): its elements are read now; its datum is late by the cycles of denial that the core has not
stood still. -/
def vGrant (s : State) (uid seq k denied : Nat) : State :=
  let c := s.core uid
  match c.vjobs.find? fun j => decide (j.seq = seq) with
  | none => s
  | some j =>
    match j.waiting.find? fun w => decide (w.j = k) with
    | none => s
    | some w =>
      let e := vEmit c uid (j.take s (uid / 4) { w with late := denied - w.late })
      s.setCore uid { e.1 with vjobs := (e.1.vjobs.map fun q => if q.seq = seq then e.2 else q).filter fun q => !q.finished c.cyc }

/-- The core has stood still for d cycles (04 R84): what is late is so much less late, what waits for its lanes has that much to its
credit. -/
def CoreSt.stoodStill (c : CoreSt) (d : Nat) : CoreSt :=
  { c with flies := c.flies.map fun f => { f with late := if f.wait then f.late + d else f.late - d }
           vjobs := c.vjobs.map fun j => { j with chunks := j.chunks.map (fun q => { q with late := q.late - d }),
                                                  waiting := j.waiting.map fun q => { q with late := q.late + d } } }

end Sys2Proof.Machine
end

