-- ==== Sys2Proof/Machine/MatOps.lean ====
section
/-! DEFINITION. The matrix array (06 R109 to R128): feeding, the rows of cells cycle by cycle, weight banks, swaps, the drain with
forwarding, paired windows and rescale-repeat. -/

namespace Sys2Proof.Machine
open Sys2Proof

/-- Products per cell (06 R115). -/
def prodP (fmt : Nat) : Nat := if fmt = 1 ∨ fmt = 2 ∨ fmt = 0xE ∨ fmt = 0 then 1 else if fmt = 0xC then 4 else 2
/-- MX formats (08 R152). -/
def isMx (fmt : Nat) : Bool := decide (8 ≤ fmt ∧ fmt ≤ 0xD)
/-- Element formats of activation and weight (08 R152). CSR_PREC never holds code 0 in a launched core; it reads as BF16. -/
def actFmt (fmt : Nat) : FFmt :=
  match fmt with
  | 2 => fFP16 | 3 => fE4M3 | 4 => fE5M2 | 5 => fE5M2 | 6 => fE4M3 | 8 => fE4M3 | 9 => fE5M2 | 0xA => fE3M2 | 0xB => fE2M3 | 0xC => fE2M1
  | _ => fBF16
def wgtFmt (fmt : Nat) : FFmt :=
  match fmt with
  | 2 => fFP16 | 3 => fE4M3 | 4 => fE5M2 | 5 => fE4M3 | 6 => fE5M2 | 8 => fE4M3 | 9 => fE5M2 | 0xA => fE3M2 | 0xB => fE2M3 | 0xC => fE2M1
  | _ => fBF16
def FFmt.width (f : FFmt) : Nat := 1 + f.ebits + f.mbits
/-- The feeder occupancy (04 R69). -/
def occOf (fmt passes : Nat) : Nat := if fmt = 0xE then (if passes = 1 then 1 else if passes = 2 then 3 else 6) else 1
def MMul.occ (m : MMul) : Nat := occOf m.fmt m.passes

/-- Halves of a split weight (06 R121, R122). -/
inductive Half where
  | head | hi | lo
  deriving DecidableEq, Repr

/-- The term vectors of an MMUL in feed order: activation term and weight half (06 R122). -/
def termsOf (fmt passes : Nat) : List (Nat × Half) :=
  if fmt ≠ 0xE ∨ passes = 1 then [(1, .head)]
  else if passes = 2 then [(1, .hi), (2, .head), (1, .head)]
  else [(1, .lo), (2, .hi), (3, .head), (1, .hi), (2, .head), (1, .head)]

/-- BF16 to nearest even of an exact value, as an exact value (06 R121). -/
def rneBf16 (v : FV) : FV := fBF16.decode (toNarrow fBF16 .rne 0 v)
/-- The terms of an FP32 activation (06 R121). -/
def actTerm (a : FV) (k : Nat) : FV :=
  let a1 := rneBf16 a
  if k = 1 then a1
  else
    let a2 := rneBf16 (a.sub a1)
    if k = 2 then a2 else rneBf16 ((a.sub a1).sub a2)

/-- The head of an FP32 weight: the largest BF16 value not above it (06 R121); of a NaN, of which the rule says nothing, the default BF16 NaN, with
tail 0 (DESIGN CHOICE, log entry 16). -/
def wHead (b : Nat) : Nat :=
  match fFP32.decode b with
  | .nan => fBF16.nanBits
  | .inf n => fBF16.infBits n
  | .fin n m _ =>
    if m < 2 ^ 23 then fBF16.sgn n
    else if n && decide (b % 2 ^ 16 ≠ 0) then b / 2 ^ 16 + 1 else b / 2 ^ 16
/-- Unbiased exponent of a BF16 head. -/
def headExp (h : Nat) : Int := max 1 (nbits h 14 7) - 127
/-- The tail of an FP32 weight: two 8-bit fields (06 R121). -/
def wTail (b : Nat) : Nat :=
  match fFP32.decode b, fBF16.decode (wHead b) with
  | .fin n m e, .fin n1 m1 e1 =>
    if m < 2 ^ 23 ∨ m1 = 0 then 0
    else
      match (FV.fin n m e).sub (.fin n1 m1 e1) with
      | .fin _ mr er =>
        -- r / u with u = 2^(e1' − 15)
        let x := er - (headExp (wHead b) - 15)
        let b2 := roundAt .rtz 0 mr x 0
        let rest := (FV.fin false mr x).sub (.fin false b2 0)
        let b3 := match rest with
          | .fin _ mm ee => min 255 (roundAt .rne 0 mm (ee + 8) 0)
          | _ => 0
        b2 % 256 * 256 + b3
      | _ => 0
  | _, _ => 0

def bank0 : Nat → BitVec 16 := fun _ => 0#16
/-- A cell's register in bank Y or X. -/
def CoreSt.cell (c : CoreSt) (y : Bool) (q col : Nat) : Nat := (tget bank0 (if y then c.bankY else c.bankX) (q * 128 + col)).toNat
def CoreSt.scaleReg (c : CoreSt) (y : Bool) (b col : Nat) : Nat := (tget byte0 (if y then c.scaleY else c.scaleX) (b * 128 + col)).toNat

/-- The 16-bit, byte or nibble element k of a feeder entry (06 R116). -/
def entryElem (e : List Byte) (fmt k : Nat) : Nat :=
  if fmt = 0xE then leNat (sliceB e (4 * k) 4)
  else if prodP fmt = 1 then leNat (sliceB e (2 * k) 2)
  else if prodP fmt = 2 then (lget 0#8 e k).toNat
  else (lget 0#8 e (k / 2)).toNat / (if k % 2 = 0 then 1 else 16) % 16

/-- The weight in slot s of a cell register. -/
def slotElem (w fmt s : Nat) : Nat :=
  if prodP fmt = 1 then w else if prodP fmt = 2 then w / 2 ^ (8 * s) % 256 else w / 2 ^ (4 * s) % 16

/-- The feed bank of a term vector: the tag of its feed cycle (06 R113). -/
def MMul.bank (m : MMul) (u : Nat) : Bool := lget false m.banks u

/-- The exact weight that a cell uses for a term (06 R121, R122, R153): a head of the bank of the term's tag; a tail of the bank that was the
shadow bank at the MMUL's issue, scaled by the head register of the other. -/
def cellWeight (c : CoreSt) (m : MMul) (u : Nat) (half : Half) (q col s : Nat) : FV :=
  let y := m.bank 0
  match half with
  | .head => (wgtFmt m.fmt).decode (slotElem (c.cell (m.bank u) q col) m.fmt s % 2 ^ (wgtFmt m.fmt).width)
  | .hi => .fin false (c.cell (!y) q col / 256) (headExp (c.cell y q col) - 15)
  | .lo => .fin false (c.cell (!y) q col % 256) (headExp (c.cell y q col) - 23)
/-- Does a term vector read a bank? -/
def MMul.uses (m : MMul) (u : Nat) (y : Bool) : Bool :=
  match lget (1, .head) (termsOf m.fmt m.passes) u with
  | (_, .head) => m.bank u == y
  | _ => true

/-- The exact activation of element k for a term. -/
def actElem (m : MMul) (term k : Nat) : FV :=
  let w := entryElem m.entry m.fmt k
  if m.fmt = 0xE then actTerm (fFP32.decode w) term else (actFmt m.fmt).decode (w % 2 ^ (actFmt m.fmt).width)

/-- The activation scale of block b (06 R117). -/
def actScale (m : MMul) (b : Nat) : Nat := (lget 0#8 m.entry (256 + b)).toNat

/-- The FP32 column sum of column col after logical row i on physical row q: the P products in ascending slot order (06 R116 to R118). -/
def fpCell (c : CoreSt) (m : MMul) (u : Nat) (i q col : Nat) (acc : Nat) : Nat :=
  let term := lget (1, .head) (termsOf m.fmt m.passes) u
  (List.range (prodP m.fmt)).foldl (fun a s =>
    let k := prodP m.fmt * i + s
    let p := (actElem m term.1 k).mul (cellWeight c m u term.2 q col s)
    let p' := if isMx m.fmt then
        (let xa := actScale m (k / 32)
         let xb := c.scaleReg (m.bank 0) (k / 32) col
         if xa = 0xFF ∨ xb = 0xFF then .nan else p.scale2 ((xa : Int) + xb - 254))
      else p
    addF32 a (flushF32 p')) acc

/-- The exact integer products of a cell (06 R118). -/
def intCell (c : CoreSt) (m : MMul) (i q col : Nat) : Int :=
  (List.range 2).foldl (fun a s => a + sint 8 (entryElem m.entry m.fmt (2 * i + s)) * sint 8 (slotElem (c.cell (m.bank 0) q col) m.fmt s)) 0

def wrap32 (i : Int) : Int := sint 32 (uint 32 i)
/-- σ of the vector (06 R125), 0 outside rescale (06 R124). -/
def MMul.sigma (m : MMul) : Nat := if m.ovfWrap then 0 else m.c * m.kstep

/-- The sign of a sum that leaves the INT32 range, 0 of one that does not (06 R124). -/
def ovfSign (x : Int) : Int := if ovf32 x then (if x < 0 then -1 else 1) else 0
/-- Per column, the sign of the first sum that left the range. -/
def ovfFirst (old new : List Int) : List Int := (List.range 128).map fun col => let o := lget 0 old col; if o = 0 then lget 0 new col else o

/-- A sum added to a column: in wrap mode it wraps; otherwise it is kept exact, and its sign is noted where it leaves the INT32 range
(06 R124). -/
def colAdd (wrap : Bool) (a x : Int) : Int × Int := if wrap then (wrap32 (a + x), 0) else (a + x, ovfSign (a + x))

/-- A block sum of MXINT8 shifted by its scales and σ (06 R124). A NaN scale has no integer value: free. -/
def blkShift (m : MMul) (c : CoreSt) (b col : Nat) (x : Int) : Int :=
  let xa := actScale m b
  let xb := c.scaleReg (m.bank 0) b col
  if xa = 0xFF ∨ xb = 0xFF then sint 32 (Config.opValue [0x100, xa, xb, uint 64 x]).toNat
  else
    let sh : Int := (xa : Int) + xb - 254 - m.sigma
    if sh ≥ 0 then (if m.ovfWrap then wrap32 (x * 2 ^ sh.toNat) else x * 2 ^ sh.toNat) else shrRne x (-sh).toNat

/-- One physical row crossed by term u of an MMUL (06 R109, R110): the mapped-out row passes the sums through. A block's weight scale is read at
its last logical row (06 R124; DESIGN CHOICE, log entry 16). -/
def rowStep (c : CoreSt) (mOut : Nat) (m : MMul) (u q : Nat) : MMul :=
  if q = mOut ∨ q > 128 then m
  else
    let i := if q < mOut then q else q - 1
    let old := lget [] m.sums u
    if m.fmt = 7 then
      let r := (List.range 128).map fun col => colAdd m.ovfWrap (lget 0 old col) (intCell c m i q col)
      { m with sums := lset m.sums u (r.map (·.1)), ovf := ovfFirst m.ovf (r.map (·.2)) }
    else if m.fmt = 0xD then
      let blk := (List.range 128).map fun col => lget 0 m.blk col + intCell c m i q col
      if i % 16 ≠ 15 then { m with blk := blk }
      else
        let sh := (List.range 128).map fun col => blkShift m c (i / 16) col (lget 0 blk col)
        let r := (List.range 128).map fun col => colAdd m.ovfWrap (lget 0 old col) (lget 0 sh col)
        let own := sh.map fun x => if m.ovfWrap then 0 else ovfSign x
        { m with sums := lset m.sums u (r.map (·.1)), blk := [], ovf := ovfFirst (ovfFirst m.ovf own) (r.map (·.2)) }
    else
      { m with sums := lset m.sums u ((List.range 128).map fun col =>
          ((fpCell c m u i q col (lget 0 old col).toNat : Nat) : Int)) }

/-- The stages of an MMUL in one core cycle: each term vector crosses its physical row, and D2 takes the term that leaves (06 R109, R122). -/
def mmTick (c : CoreSt) (mOut : Nat) (m : MMul) : MMul :=
  let terms := List.range m.occ
  let m1 := terms.foldl (fun m u => if m.t + u + 3 ≤ c.cyc ∧ c.cyc ≤ m.t + u + 131 then rowStep c mOut m u (c.cyc - (m.t + u + 3)) else m) m
  terms.foldl (fun m u =>
    if c.cyc = m.t + u + 133 then
      let x := lget [] m.sums u
      let x' := (List.range 128).map fun col => lget 0 x col
      { m with d2 := if m.fmt = 7 then x'.map fun v => shrRne v m.sigma
                     else if u = 0 ∨ m.fmt = 0xD then x'
                     else (List.range 128).map fun col => ((addF32 (lget 0 m.d2 col).toNat (lget 0 x' col).toNat : Nat) : Int) }
    else m) m1

/-- The sums of a vector fed whole through the present banks: the re-feed of a rescale-repeat (06 R126). -/
def reFeed (c : CoreSt) (mOut : Nat) (m : MMul) : MMul :=
  let m0 := { m with sums := [[]], blk := [], ovf := [] }
  let m1 := (List.range 129).foldl (fun m q => rowStep c mOut m 0 q) m0
  let x := (List.range 128).map fun col => lget 0 (lget [] m1.sums 0) col
  { m1 with d2 := if m.fmt = 7 then x.map fun v => shrRne v m1.sigma else x }

/-- Word i of a row's bytes. -/
def rowWord (bs : List Byte) (i : Nat) : Nat := leNat (sliceB bs (4 * i) 4)
def wordsBytes (ws : List Nat) : List Byte := ws.flatMap fun w => leBytes 4 w

/-- Sums aligned from a vector's count to its row's (06 R125): a right shift to nearest even; where an overwriting drain has meanwhile set
the row's count below the vector's, a left shift. -/
def alignRow (from_ to_ k : Nat) (x : Int) : Int := if from_ ≤ to_ then shrRne x ((to_ - from_) * k) else x * 2 ^ ((from_ - to_) * k)
/-- An element at c_r = 7: one that has overflowed anywhere is saturated by the sign of its first overflow (06 R126; the sign: DEDUCED, log
entry 16). -/
def saturate (first al sum : Int) : Int :=
  let g := if first ≠ 0 then first else if ovfSign al ≠ 0 then ovfSign al else ovfSign sum
  if g = 0 then sum else if g < 0 then -(2 ^ 31) else 2 ^ 31 - 1

/-- The integer drain add (06 R124 to R126): fuel counts the repeats; the row held in the drain is `base`, c_r the row's count.
Result: the sums, the new c_r, the MMUL, the repeats, whether elements saturated. -/
def intDrain (c : CoreSt) (mOut : Nat) : Nat → MMul → List Int → Nat → Nat → List Int × Nat × MMul × Nat × Bool
  | 0, m, _, cr, reps => (m.d2, cr, m, reps, false)
  | fuel + 1, m, base, cr, reps =>
    let al := (List.range 128).map fun i => alignRow m.c cr m.kstep (lget 0 m.d2 i)
    let sum := (List.range 128).map fun i => if m.acc = 1 then lget 0 base i + lget 0 al i else lget 0 al i
    if m.ovfWrap then (sum.map wrap32, cr, m, reps, false)
    else if (m.ovf.any fun g => decide (g ≠ 0)) || al.any ovf32 || sum.any ovf32 then
      (if cr < 7 then
        let m' := reFeed c mOut { m with c := cr + 1 }
        intDrain c mOut fuel m' (base.map fun b => shrRne b m.kstep) (cr + 1) (reps + 1)
      else ((List.range 128).map fun i => saturate (lget 0 m.ovf i) (lget 0 al i) (lget 0 sum i), cr, m, reps, true))
    else (sum, cr, m, reps, false)

def CoreSt.shiftKey (m : MMul) : Nat := m.win * 4096 + m.row

/-- The drain add of an MMUL (06 R119, R120, R125, R126): the row to be written, and the MMULs that forward from it given its row. An overwriting
one that overflows starts from the vector's c, not from the row's count of before; a paired column with a NaN in either word counts as one (08 R163; both DESIGN CHOICE,
log entry 16). -/
def drainAdd (s : State) (uid : Nat) (m : MMul) : State :=
  let c := s.core uid
  let mOut := s.rd (fArrayMap uid)
  let isInt := intFormat m.fmt
  let base := List.range 128 |>.map fun i => rowWord m.base i
  let comp := List.range 128 |>.map fun i => rowWord m.base (128 + i)
  let crOld := tget nat0 c.rowShift (CoreSt.shiftKey m)
  let cr0 := if m.acc = 0 then m.c else crOld
  let ir := intDrain c mOut 8 m (base.map fun w => sint 32 w) cr0 0
  let fp := (List.range 128).map fun i =>
    let x := (lget 0 m.d2 i).toNat
    if m.acc = 0 then (x, 0)
    else
      let b := lget 0 base i
      let s' := addF32 b x
      if m.paired then
        let e := ((fFP32.decode b).sub (fFP32.decode s')).add (fFP32.decode x)
        (s', flushF32 ((fFP32.decode (lget 0 comp i)).add e))
      else (s', 0)
  let sums := if isInt then ir.1.map (uint 32) else fp.map (·.1)
  let comps := if isInt then List.replicate 128 0 else fp.map (·.2)
  let row := wordsBytes sums ++ (if m.paired then wordsBytes comps else [])
  let reps := if isInt then ir.2.2.2.1 else 0
  let cr := if isInt then ir.2.1 else cr0
  let nan : Option (Nat × Bool) := if isInt then none
    else ((List.range 128).find? fun i => isNan32 (lget 0 sums i) || (m.paired && isNan32 (lget 0 comps i))).map fun i => (i, m.nanHalt)
  let c1 := if isInt ∨ m.acc = 0 then { c with rowShift := tset nat0 c.rowShift (CoreSt.shiftKey m) cr } else c
  let c2 := if reps = 0 then c1 else
    { (c1.setSticky stRescale) with freezes := c1.freezes ++ [⟨.rescale, m.seq, some (136 * reps)⟩] }
  let fly : Fly := { due := m.t + 142 + m.occ, slot := .m, seq := m.seq, bundle := m.bundle, rep := m.rep,
                     writes := if m.ue then [] else [.sp m.off row], nan := if m.ue then none else nan }
  let c3 := { c2 with flies := c2.flies ++ [fly],
                      mms := c2.mms.map fun q => if q.seq = m.seq then { q with out := some row }
                        else if q.fwd = some m.seq then { q with base := row ++ q.base.drop row.length, ue := q.ue || m.ue } else q }
  let s1 := (s.setCore uid c3).incBy (fRepeats uid) reps
  if isInt && ir.2.2.2.2 then s1.inc (fSaturated uid) else s1

/-- The drain's read of an MMUL (06 R119): forwarded from a pending drain write to the same offset, or presented to the lanes; a
denied read freezes the core as write back-up (05 R97). -/
def drainRead (s : State) (uid : Nat) (m : MMul) : State :=
  let c := s.core uid
  let len := if m.paired then 1024 else 512
  let earlier := (c.mms.filter fun q => decide (q.off = m.off) && decide (q.seq < m.seq)).getLast?
  let mark (f : MMul → MMul) (s : State) : State :=
    s.modCore uid fun c => { c with mms := c.mms.map fun q => if q.seq = m.seq then f q else q }
  match earlier with
  | some p =>
    let bs := match p.out with
      | some row => row ++ (spadRead s (uid / 4) m.off len).drop row.length
      | none => spadRead s (uid / 4) m.off len
    mark (fun q => { q with base := bs, fwd := if p.out.isSome then none else some p.seq, reading := true, ue := q.ue || p.ue }) s
  | none =>
    let segs := [(m.off, len)]
    let r := present s (uid / 4) (.core uid) (.drainRead m.seq) false segs
    if r.1 then
      mark (fun q => { q with base := spadRead s (uid / 4) m.off len, reading := true, lanes := true, met := firstUe s (uid / 4) segs }) r.2
    else
      mark (fun q => { q with reading := true })
        ((deny s (uid / 4) ⟨.core uid, .drainRead m.seq, segs, false, 0, .denied⟩).modCore uid fun c =>
          { c with freezes := c.freezes ++ [⟨.writeBack, m.seq, none⟩] })

/-- An uncorrectable lane-line met by a drain read (04 R86, 14 R267): the drain write, every drain write that forwards from it and the
increments held behind them are dropped, and the flight halts at the landing. -/
def drainUe (s : State) (uid : Nat) (m : MMul) (u : UeAt) : State :=
  let s1 := s.modCore uid fun c =>
    { c with mms := c.mms.map (fun q => if decide (q.seq = m.seq) || decide (q.fwd = some m.seq) then { q with ue := true } else q),
             held := c.held.filter fun h => decide (h.seq < m.seq) }
  coreHalt (noteUe s1 (uid / 4) u.ll) uid 7 (laneOff u.ll) m.bundle m.rep .m [] u.esc u.esc.isSome

/-- The drain in one core cycle, before the bundle issues: reads at t + 134 + o, adds at t + 141 + o (06 R109, R122). A read that met an
uncorrectable lane-line halts the flight, after the freeze if it was denied; a row that is forwarded is no read (05 R98; 06 R119). Freezes that landings of
the same cycle cause come first (04 R84; DESIGN CHOICE, log entry 16). -/
def drainTick (s : State) (uid : Nat) : State :=
  let due (s : State) := (s.core uid).mms
  let s1 := (due s).foldl (fun t m =>
    if m.acc = 1 ∧ m.reading = false ∧ m.t + 134 + m.occ ≤ (t.core uid).cyc then drainRead t uid m else t) s
  let s2 := (due s1).foldl (fun t m =>
    match m.met with
    | some u => if m.ue = false ∧ m.out = none ∧ (t.core uid).freezes.isEmpty then drainUe t uid m u else t
    | none => t) s1
  if (s2.core uid).freezes.isEmpty then
    (due s2).foldl (fun t m => match (t.core uid).mms.find? fun q => decide (q.seq = m.seq) with
      | some q => if q.out = none ∧ q.t + 141 + q.occ ≤ (t.core uid).cyc then drainAdd t uid q else t
      | none => t) s2
  else s2

/-! ### Shadow loading -/

/-- Bytes of a shadow row (06 R115). -/
def shadowBytes (fmt : Nat) : Nat := if fmt = 0xE then 512 else 256
/-- Does the format have a part 1 (06 R115)? -/
def hasPart1 (fmt : Nat) : Bool := isMx fmt || decide (fmt = 0xE)

/-- Is a shadow load still short of rows? -/
def Shadow.open_ (sh : Shadow) : Bool := !sh.none_ && !sh.shut && decide (sh.row < 128)
/-- The oldest shadow load that is short of rows: the one whose rows ag3 presents. A second load that begins when the first's 128 cycles are
over, its rows not all granted, takes its rows after the first's (DESIGN CHOICE, log entry 16). -/
def CoreSt.loading (c : CoreSt) : Option Shadow := c.shadows.find? Shadow.open_
/-- The shadow load of an issue cycle changed. -/
def CoreSt.modShadow (c : CoreSt) (t : Nat) (f : Shadow → Shadow) : CoreSt := { c with shadows := c.shadows.map fun x => if x.t = t then f x else x }

/-- The next row of a shadow load is presented (06 R112). -/
def shadowRow (s : State) (uid : Nat) (sh : Shadow) : Except IssueErr State :=
  let c := s.core uid
  match ofGen (genAccess c 3 (shadowBytes sh.fmt) (modesFeed (decide (sh.fmt = 0xE)))) 3 .m c.cyc (s.tile (uid / 4)).tcyc with
  | .error e => .error e
  | .ok (none, c') =>
    .ok (s.setCore uid (c'.modShadow sh.t fun x => { x with
      row := x.row + 1, lastGrant := some c.cyc, wr := x.wr ++ [(x.row, List.replicate (shadowBytes x.fmt) 0#8, c.cyc + 1)] }))
  | .ok (some segs, c') =>
    let r := present s (uid / 4) (.core uid) .shadowRow false segs
    if r.1 then
      .ok (r.2.setCore uid (c'.modShadow sh.t fun x => { x with
        row := x.row + 1, lastGrant := some c.cyc, wr := x.wr ++ [(x.row, spadReadSegs s (uid / 4) segs, c.cyc + 1)],
        reads := x.reads ++ [(c.cyc + 1, segs, firstUe s (uid / 4) segs)] }))
    else
      .ok ((deny s (uid / 4) ⟨.core uid, .shadowRow, segs, false, 0, .denied⟩).setCore uid (c'.modShadow sh.t fun x => { x with pend := some segs }))

/-- Has a shadow row been granted in the core's present cycle? -/
def CoreSt.rowGranted (c : CoreSt) : Bool := c.shadows.any fun x => decide (x.lastGrant = some c.cyc)
/-- ag3 in one unfrozen core cycle: one more row, when the last one has been granted in an earlier cycle (06 R112). -/
def shadowTick (s : State) (uid : Nat) : Except IssueErr State :=
  match (s.core uid).loading with
  | some sh =>
    if sh.pend.isSome ∨ (s.core uid).rowGranted then .ok s
    else match shadowRow s uid sh with
      | .error (.halt cause addr _) => .error (.row sh.t cause addr)
      | r => r
  | none => .ok s
/-- A shadow load at whose next row ag3 is at fault presents no more rows; those granted land (04 R86). -/
def CoreSt.shutShadow (c : CoreSt) (t : Nat) : CoreSt := c.modShadow t fun x => { x with shut := true, pend := none }

/-- The physical row of a logical one (06 R110). -/
def physRow (mOut j : Nat) : Nat := if j < mOut then j else j + 1

/-- A shadow row written into its bank (06 R112, R117, R121). -/
def bankWrite (c : CoreSt) (mOut : Nat) (sh : Shadow) (j : Nat) (bs : List Byte) : CoreSt :=
  if sh.part && isMx sh.fmt then
    if j < prodP sh.fmt * 4 then
      let upd (t : Tbl Byte) : Tbl Byte := tsetAll byte0 t ((List.range 128).map fun col => (j * 128 + col, lget 0#8 bs col))
      if sh.bankY then { c with scaleY := upd c.scaleY } else { c with scaleX := upd c.scaleX }
    else c
  else
    let v (col : Nat) : Nat :=
      if sh.fmt = 0xE then (let b := leNat (sliceB bs (4 * col) 4); if sh.part then wTail b else wHead b)
      else leNat (sliceB bs (2 * col) 2)
    let upd (t : Tbl (BitVec 16)) : Tbl (BitVec 16) :=
      tsetAll bank0 t ((List.range 128).map fun col => (physRow mOut j * 128 + col, BitVec.ofNat 16 (v col)))
    if sh.bankY then { c with bankY := upd c.bankY } else { c with bankX := upd c.bankX }

/-- A bank's registers and scales. -/
def CoreSt.bankOf (c : CoreSt) (y : Bool) : Tbl (BitVec 16) × Tbl Byte := if y then (c.bankY, c.scaleY) else (c.bankX, c.scaleX)
/-- Rows granted in the last cycle are written at the end of this one (06 R112); after the stop a bank that changes is marked (04 R87). -/
def shadowWrites (c : CoreSt) (mOut : Nat) (sh : Shadow) : CoreSt :=
  let due := sh.wr.filter fun w => decide (w.2.2 ≤ c.cyc)
  let c1 := due.foldl (fun c w => bankWrite c mOut sh w.1 w.2.1) c
  let c2 := c1.modShadow sh.t fun x => { x with wr := x.wr.filter fun w => !decide (w.2.2 ≤ c.cyc) }
  c2.markAfter (if c1.bankOf sh.bankY = c.bankOf sh.bankY then none else some 464)

/-- An earlier vector that uses the bank being loaded and meets a row already rewritten sets shadow_early (06 R114). -/
def shadowMeets (c : CoreSt) (mOut : Nat) (sh : Shadow) : Bool :=
  !sh.none_ && !sh.early && c.mms.any fun m => decide (m.t < sh.t)
    && (List.range m.occ).any fun u => m.uses u sh.bankY && decide (m.t + u + 3 ≤ c.cyc) && decide (c.cyc ≤ m.t + u + 131)
      && (let q := c.cyc - (m.t + u + 3)
          decide (q ≠ mOut) && (let j := if q < mOut then q else q - 1
            decide (j < sh.row) && !(sh.wr.any fun w => decide (w.1 = j))))

/-- The array in one core cycle, after the bundle has issued (06 R109, R112, R114). -/
def arrayTick (s : State) (uid : Nat) : State :=
  let c := s.core uid
  let mOut := s.rd (fArrayMap uid)
  let early := c.shadows.filter (shadowMeets c mOut)
  let c1 := { c with mms := c.mms.map (mmTick c mOut) }
  let c2 := c.shadows.foldl (fun c sh => shadowWrites c mOut sh) c1
  let c3 := early.foldl (fun c sh => (c.setSticky stShadowEarly).modShadow sh.t fun x => { x with early := true }) c2
  (s.setCore uid { c3 with shadows := c3.shadows.filter fun sh => sh.open_ || decide (c.cyc < sh.t + 140) || !sh.wr.isEmpty || !sh.reads.isEmpty }).incBy
    (fEarlySwaps uid) early.length

/-! ### Issue -/

/-- The term vectors fed in the present cycle take the feed bank as their tag (06 R113). -/
def CoreSt.tagFeed (c : CoreSt) : CoreSt :=
  { c with mms := c.mms.map fun m =>
      if m.t < c.cyc ∧ c.cyc < m.t + m.occ ∧ m.banks.length = c.cyc - m.t then { m with banks := m.banks ++ [c.feedY] } else m }

/-- The feed bank changes (06 R113): before a shadow load is due the swap is early; at or after it, an unfinished load freezes the core. A
vector being fed in this cycle keeps the bank of before. -/
def swapBank (s : State) (uid : Nat) : Except IssueErr State :=
  let c := s.core uid
  let flip : CoreSt := { c.tagFeed with feedY := !c.feedY }
  let loads := c.shadows.filter fun sh => !sh.none_
  if loads.any fun sh => sh.open_ && decide (sh.t + 128 ≤ c.cyc) then
    .error (.freeze ⟨.shadowLate (s.tile (uid / 4)).tcyc, c.seq, none⟩ none)
  else if loads.any fun sh => decide (c.cyc < sh.t + 128) then .ok ((s.setCore uid (flip.setSticky stShadowEarly)).inc (fEarlySwaps uid))
  else .ok (s.setCore uid flip)

/-- An M-slot operation issues (04 R78, 06 R112, R113, R115, R119, R125). -/
def issueM (s : State) (uid : Nat) (op : MOp) : Except IssueErr State :=
  let c := s.core uid
  let prec := (c.csr csrPrec).toNat
  let fmt := nbits prec 7 4
  match op with
  | .nop => .ok s
  | .swap => swapBank s uid
  | .shadow part =>
    if c.cyc < c.mbusy ∨ c.cyc < c.shadowBusy then .error (.halt 3 0 .m)
    else
      let sh : Shadow := { t := c.cyc, bankY := !c.feedY, part := part, none_ := part && !hasPart1 fmt, fmt := fmt, row := 0,
                           lastGrant := none, pend := none, wr := [], early := false, bundle := c.pc, rep := c.rep, reads := [] }
      let c1 := { c with shadows := c.shadows ++ [sh], shadowBusy := c.cyc + 128, seq := c.seq + 1 }
      if sh.none_ then .ok (s.setCore uid (c1.setSticky stBadCsr)) else shadowTick (s.setCore uid c1) uid
  | .mul sw win acc row =>
    let w := c.csr (if win then csrWinB else csrWinA)
    let r := (row + c.rep) % 4096
    let off := winRowOff w r
    if acc ≥ 2 then .error (.halt 1 0 .m)
    else if c.cyc < c.mbusy then .error (.halt 3 0 .m)
    else if r ≥ winRows w ∨ off + winRowBytes w > spadBytes then .error (.halt 4 (off % 2 ^ 48) .m)
    else
      match (if sw then swapBank s uid else .ok s) with
      | .error e => .error e
      | .ok s1 =>
        let c1 := s1.core uid
        let passes := if fmt = 0xE then prec % 4 else 1
        let k := nbits prec 15 12
        let entry := match c1.fifo with | e :: _ => e | [] => c1.lastVec
        let early := c1.fifo.isEmpty
        let winN := b2n win
        let m : MMul :=
          { t := c1.cyc, seq := c1.seq, bundle := c1.pc, rep := c1.rep, entry := takePad 512 entry, fmt := fmt, passes := passes,
            ovfWrap := nbit prec 8, kstep := if k = 0 then 16 else k, banks := [c1.feedY], acc := acc, win := winN, row := r, off := off,
            paired := winPaired w, c := if acc = 0 then 0 else tget nat0 c1.rowShift (winN * 4096 + r),
            nanHalt := nbit (c1.csr csrTrap).toNat 0, sums := List.replicate (occOf fmt passes) [], blk := [], ovf := [], d2 := [],
            base := [], fwd := none, reading := false, ue := false, out := none }
        let c2 := { c1 with mms := c1.mms ++ [m], mbusy := c1.cyc + m.occ, seq := c1.seq + 1, fifo := c1.fifo.drop 1, lastVec := entry }
        .ok (s1.setCore uid (if early then c2.setSticky stFeederEarly else c2))

end Sys2Proof.Machine
end

