-- ==== Sys2Proof/Machine/Grants.lean ====
section
/-! DEFINITION. The grants of waiting requests, and the turns of the tile's mesh endpoint among them (05 R94 to R97). -/

namespace Sys2Proof.Machine
open Sys2Proof

/-- Does a freeze wait for an index group? -/
def FrzCause.onGroup (k : FrzCause) (g off : Nat) : Bool := match k with | .index h o _ => decide (h = g) && decide (o = off) | _ => false
/-- The freeze causes that FREEZE_END ends: not a rescale-repeat, not an index read. -/
def Freeze.plain (f : Freeze) : Bool := match f.cause with | .rescale | .index _ _ _ => false | _ => true

/-- Is one of two requests that share their lanes a write which the other, of the same core, reads (05 R95)? -/
def feeds (o d : Denied) : Bool :=
  o.write && !d.write && decide (o.who = d.who) && (footprint o.segs).any fun p => (footprint d.segs).contains p
/-- Does another waiting request of the tile that has its lanes free come before the one at a place (05 R96)? Among equals the older comes
first. It wants one of its lanes, or writes what it reads: a read in the cycle of its core's write returns the written value (05 R95). -/
def outranked (first : Nat) (t : TileSt) (i : Nat) (d : Denied) : Bool :=
  let ahead (o : Denied) : Bool := decide (o.turn = .asks) && (clash o d || feeds o d) && t.fits o
  ((t.denied.take i).any fun o => ahead o && !ranksBefore first t.guard d o) || (t.denied.drop (i + 1)).any fun o => ahead o && ranksBefore first t.guard o d

/-- The bytes of a write that waited for its lanes, and the write done. -/
def waitedWrites (s : State) (tile : Nat) (fs : List Fly) : State :=
  fs.foldl (fun t g => g.writes.foldl (fun t w => match w with | .sp o bs => spadWrite t tile o bs | _ => t) t) s

/-- What a granted request of a core does after n tile cycles of denial (05 R97), in the core cycle of the grant: a load's bytes are read and land late; a store's bytes are
written; the freeze that waits for it learns its length. -/
def grantEffect (s : State) (tile uid : Nat) (d : Denied) (n : Nat) : State :=
  let c := s.core uid
  let cy := s.grantCyc uid
  let frozen (q : Nat) : Bool := c.freezes.any fun f => decide (f.seq = q) && f.plain
  let durOf (q k : Nat) (c : CoreSt) : CoreSt :=
    { c with freezes := c.freezes.map fun f => if f.seq = q && f.dur.isNone && f.plain then { f with dur := some (max 1 k) } else f }
  match d.kind with
  | .load q _ =>
    let left := n - ((c.flies.find? fun g => decide (g.seq = q)).map fun g => g.late).getD 0
    let fill (g : Fly) : Fly := match g.load with
      | some (k, sg) => { g with wait := false, load := none, late := if frozen q then 0 else left,
                                 writes := loadWrites k (spadReadSegs s tile sg), ue := firstUe s tile sg }
      | none => g
    s.setCore uid (durOf q left { c with flies := c.flies.map fun g => if g.seq = q then fill g else g })
  | .winop q k =>
    let job := c.vjobs.find? fun j => decide (j.seq = q)
    let mine (g : Fly) : Bool := decide (g.seq = q) && decide (g.due ≤ c.cyc) && job.any fun j => (j.sources g.tag).contains k
    let awaited := frozen q && c.flies.any fun g => g.wait && mine g
    (vGrant s uid q k n).modCore uid fun c =>
      let here := c.flies.filter fun g => !g.wait && mine g
      if awaited && !here.isEmpty then
        durOf q (lmax (here.map fun g => g.late)) { c with flies := c.flies.map fun g => if !g.wait && mine g then { g with late := 0 } else g }
      else c
  | .store q _ | .drainWrite q =>
    (waitedWrites s tile (c.flies.filter fun g => decide (g.seq = q))).modCore uid fun c => durOf q n { c with flies := c.flies.map fun g =>
      if g.seq = q then { g with wait := false, writes := g.writes.filter fun w => match w with | .sp _ _ => false | _ => true } else g }
  | .drainRead q =>
    s.setCore uid (durOf q n { c with mms := c.mms.map fun m => if m.seq = q then
      { m with base := spadReadSegs s tile d.segs, lanes := true, met := firstUe s tile d.segs } else m })
  | .shadowRow =>
    match c.loading with
    | some sh => s.setCore uid (c.modShadow sh.t fun x => { x with
        pend := none, row := x.row + 1, lastGrant := some cy, wr := x.wr ++ [(x.row, spadReadSegs s tile d.segs, cy + 1)],
        reads := x.reads ++ [(cy + 1, d.segs, firstUe s tile d.segs)] })
    | none => s
  | .index g off =>
    let got (r : GrpRead) : GrpRead :=
      if r.off = off && !r.granted then { r with granted := true, at_ := cy, data := spadReadSegs s tile d.segs, ue := firstUe s tile d.segs } else r
    let wait (f : Freeze) : Freeze := match f.cause with
      | .index _ _ t0 => if f.cause.onGroup g off then { f with dur := some ((s.tile tile).tcyc + 4 - t0) } else f
      | _ => f
    let c1 : CoreSt := { c with freezes := c.freezes.map wait }
    s.setCore uid (c1.setGen g { c.gen g with reads := (c.gen g).reads.map got })
  | .bargePiece => s

/-- A denied request is granted its lanes in the n-th tile cycle from now (05 R96, R97): of a core with its effect; of a piece, which acts
at its next command. The cycle in which it was denied is over by then. On a tile that is down nothing is granted (15 R290). -/
def grantRequest (s : State) (tile i n : Nat) : State :=
  if !tileReady s tile then s else
  let s1 := if n = 0 then s else s.nextCycle tile n
  let t := s1.tile tile
  match t.denied[i]? with
  | none => s
  | some d =>
    if d.turn ≠ .asks ∨ !t.fits d ∨ outranked (firstCore tile t) t i d then s
    else
      let t1 := { t.grant d with denied := t.denied.eraseIdx i }
      match d.who with
      | .core uid => grantEffect (s1.setTile tile t1) tile uid d d.count
      | _ => s1.setTile tile { t1 with won := t1.won ++ [d] }

/-! ### The mesh endpoint -/

/-- The waiting request that is served first in the present tile cycle, if it comes before a piece that is newer than all of them. -/
def firstAhead (first : Nat) (t : TileSt) (d : Denied) : Option Nat :=
  let ready (o : Denied) : Bool := decide (o.turn = .asks) && t.fits o && !ranksBefore first t.guard d o
  t.denied.findIdx? fun o => ready o && !t.denied.any fun p => ready p && ranksBefore first t.guard p o
/-- All that come before a piece in the present tile cycle are granted in their order. -/
def settleAhead (s : State) (tile : Nat) (d : Denied) : State :=
  (s.tile tile).denied.foldl (fun t _ => match firstAhead (firstCore tile (t.tile tile)) (t.tile tile) d with
    | some i => grantRequest t tile i 0
    | none => t) s
/-- A piece at the endpoint is presented in the next tile cycle, and in the following ones while it is denied (05 R96, R97); each denial
is a grant of one that waits. -/
def endpointPiece : Nat → State → Nat → Denied → State
  | 0, s, tile, d => (s.nextCycle tile 1).modTile tile fun t => t.grant d
  | f + 1, s, tile, d =>
    let s1 := settleAhead (s.nextCycle tile 1) tile d
    if (s1.tile tile).fits d then s1.modTile tile fun t => t.grant d else endpointPiece f s1 tile { d with count := d.count + 1 }
/-- The pieces of a range: one in each tile cycle, at most 4 KiB, and before a write that covers only a byte of a lane a read of that lane
(05 R94). -/
def endpointPieces (off n : Nat) (write : Bool) : List (List (Nat × Nat) × Bool) :=
  let part (k : Nat) : List (Nat × Nat) × Bool := ([(max off (4096 * k), min (off + n) (4096 * (k + 1)) - max off (4096 * k))], write)
  let all := (upFrom (off / 4096) ((off + n - 1) / 4096 + 1 - off / 4096)).map part
  if write && !(partLanes off n).isEmpty then ((partLanes off n).map fun h => (h, 2), false) :: all else all
/-- An access of the ring engine, the tollhouse or the exchange through the tile's mesh endpoint: it spends tile cycles of its own, and
waits behind the requests that are being presented there and rank before it (05 R94, R96, R97). -/
def endpointTurn (s : State) (tile off n : Nat) (write : Bool) : State :=
  if n = 0 then s
  else (endpointPieces off n write).foldl (fun t p =>
    endpointPiece ((t.tile tile).denied.length + 1) t tile ⟨.remote, .bargePiece, p.1, p.2, 0, .asks⟩) s

end Sys2Proof.Machine
end

