-- ==== Sys2Proof/Machine/Cycle.lean ====
section
/-! DEFINITION. The core cycle: freezes, landing, the issue of a bundle in all its slots, branches, stopping points,
the ends of freezes (04 R64 to R74, R83 to R87; 05 R98, R103). -/

namespace Sys2Proof.Machine
open Sys2Proof

/-- A group read that has its cycle is presented, unless it is granted or already being presented (05 R103). -/
def presentGroup (s : State) (uid g : Nat) (r : GrpRead) : State :=
  let c := s.core uid
  if r.granted ∨ c.cyc < r.at_ ∨ ((s.tile (uid / 4)).denied.any fun d => decide (d.who = .core uid) && decide (d.kind = .index g r.off)) then s
  else
    let segs := [(r.off, 64)]
    let p := present s (uid / 4) (.core uid) (.index g r.off) false segs
    if p.1 then
      let got := { r with granted := true, at_ := c.cyc, data := spadRead s (uid / 4) r.off 64, ue := firstUe s (uid / 4) segs }
      p.2.setCore uid (c.setGen g { c.gen g with reads := (c.gen g).reads.map fun x => if x = r then got else x })
    else deny s (uid / 4) ⟨.core uid, .index g r.off, segs, false, 0, .denied⟩
/-- Index groups asked for are presented in their cycle (05 R103). -/
def indexTickGen (s : State) (uid g : Nat) : State := ((s.core uid).gen g).reads.foldl (fun t r => presentGroup t uid g r) s

def indexTick (s : State) (uid : Nat) : State := [0, 1, 2, 3].foldl (fun t g => indexTickGen t uid g) s

/-- The repetition that does not issue: a contained halt, a freeze or a hold (04 R83, R84, R86). An access that misses presents its group in
this cycle, whatever else its generator is reading (05 R103). A fault at a row of an MSHADOW issued earlier names the present bundle
(DESIGN CHOICE, log entry 16). -/
def applyIssueErr (s : State) (uid : Nat) (e : IssueErr) : State :=
  let c := s.core uid
  match e with
  | .halt cause addr sl => coreHalt s uid cause addr c.pc c.rep sl
  | .row t cause addr => coreHalt (s.setCore uid (c.shutShadow t)) uid cause addr c.pc c.rep .m
  | .hold a => s.setCore uid { c.stoodStill 1 with cntWait := satAdd 48 c.cntWait 1, wait := some (match c.wait with | some w => w | none => (a, s.mile)) }
  | .freeze f rd =>
    let c1 := { c with freezes := c.freezes ++ [f] }
    match rd with
    | none => s.setCore uid c1
    | some (g, r) => indexTickGen (s.setCore uid (c1.setGen g ((c.gen g).ask { r with bundle := c.pc, rep := c.rep }))) uid g

/-- All slots of a bundle issue (04 R65): M and V first, because their lanes rank first within a core (05 R96), Y last, because the
other slots' writes precede an increment (04 R82). The first fault in this order is the one that halts the core (DESIGN CHOICE, log entry 16). -/
def issueSlots (s : State) (uid : Nat) (b : Bundle) (last : Bool) : Except IssueErr State :=
  let c0 := s.core uid
  match (match b.y with
    | .wait t _ _ => if yTile uid t ≠ uid / 4 then some (IssueErr.halt 1 0 .y) else (yAwait s uid b.y).map .hold
    | y => (yAwait s uid y).map .hold) with
  | some e => .error e
  | none =>
  match issueM s uid b.m with
  | .error e => .error e
  | .ok s =>
  match shadowTick s uid with
  | .error e => .error e
  | .ok s =>
  match (match b.v with | some (o, f) => issueV s uid o f | none => .ok s) with
  | .error e => .error e
  | .ok s =>
  match issueL (vTick s uid) uid 0 b.l0 with
  | .error e => .error e
  | .ok s =>
  match issueL s uid 1 b.l1 with
  | .error e => .error e
  | .ok s =>
  match issueT s uid b.t with
  | .error e => .error e
  | .ok s =>
  match (match b.s with | .csrr d n => Except.ok (issueCsrr s uid d (csrRead c0 uid n)) | o => issueS s uid o last) with
  | .error e => .error e
  | .ok s => issueY s uid b.y

/-- The next bundle address and position after a bundle's last repetition (04 R73). -/
def nextBundle (c : CoreSt) : CoreSt :=
  let pos := c.pos + 1
  match c.redirects.find? fun r => decide (r.1 = pos) with
  | some r => { c with pos := pos, rep := 0, pc := r.2, redirects := c.redirects.filter fun q => decide (q.1 ≠ pos) }
  | none => { c with pos := pos, rep := 0, pc := c.pc + 1 }

/-- The counters after one repetition of a bundle has issued (04 R65, R73): the last repetition of an eop bundle ends issue, and the core's next
bundle address stays the eop bundle's own (04 R88 names none for an ended core: DESIGN CHOICE, log entry 16). -/
def afterIssue (c : CoreSt) (b : Bundle) : CoreSt :=
  let c1 := { c with bcount := (c.bcount + 1) % 2 ^ 48, wait := none }
  if c.rep < b.repM1 then { c1 with rep := c.rep + 1 }
  else if b.eop then { c1 with phase := .ended, redirects := [], rep := 0, pos := c.pos + 1 }
  else nextBundle c1

/-- The end of a core cycle: the array moves, index reads are presented, the cycle count rises (04 R66, 06 R109). -/
def endCycle (s : State) (uid : Nat) : State :=
  (arrayTick (indexTick s uid) uid).modCore uid fun c => { c with cyc := c.cyc + 1 }

/-- A core stopped before its next issue; a core held by a wait or frozen records that (04 R87, R88). -/
def stopCore (s : State) (c : CoreSt) (why : Nat) : CoreSt :=
  { c with phase := .stopped, stopMile := s.mile, wait := none,
           stopState := if c.wait.isSome then 3 else if !c.freezes.isEmpty then 4 else why }

/-- A core that reaches the stopping point of a dump of its flight (04 R87, 09 R186): 0 at a count, 1 at a milestone. -/
def stopPoint (s : State) (c : CoreSt) : Option Nat :=
  match (dumpsOf s c.part c.flight).find? fun d => if d.atMile then decide (s.mile ≥ d.n) else decide (c.bcount ≥ d.n) with
  | some d => some (b2n d.atMile)
  | none => none
/-- A frozen core stops where its milestone is reached (04 R87). -/
def frozenStop (s : State) (uid : Nat) : State :=
  let c := s.core uid
  if c.phase ≠ .run ∨ s.isFatal then s
  else if (dumpsOf s c.part c.flight).any fun d => d.atMile && decide (s.mile ≥ d.n) then s.setCore uid (stopCore s c 1) else s

/-- The whole of a core cycle up to the issue: what is due lands, the drain moves, the vectors being fed take their tags (04 R66, 06 R113). -/
def beginCycle (s : State) (uid : Nat) : State :=
  let s1 := landCycle (packRead (tileTouch s uid) uid) uid
  if (s1.core uid).freezes.isEmpty then (drainTick s1 uid).modCore uid CoreSt.tagFeed else s1

/-- One cycle of a core that issues nothing more: what it has issued goes on landing (04 R74, R86). -/
def idleCycle (s : State) (uid : Nat) : State :=
  match shadowTick s uid with
  | .error (.row t cause addr) => endCycle (vTick (applyIssueErr s uid (.row t cause addr)) uid) uid
  | .error e => applyIssueErr s uid e
  | .ok s1 => endCycle (vTick s1 uid) uid

/-- The index groups that a bundle's accesses miss, each on a generator of its own (05 R103). -/
def missesOf (s : State) (uid : Nat) (b : Bundle) : List (Freeze × Nat × GrpRead) :=
  [shadowTick s uid, issueL s uid 0 b.l0, issueL s uid 1 b.l1, issueT s uid b.t].filterMap fun r => match r with
    | .error (.freeze f (some rd)) => some (f, rd)
    | _ => none
/-- A bundle with an access that misses does not issue: every access of it that misses presents its group in this cycle (05 R103). -/
def freezeMisses (s : State) (uid : Nat) (b : Bundle) (f : Freeze) (rd : Nat × GrpRead) : State :=
  ((missesOf s uid b).filter fun m => decide (m.2.1 ≠ rd.1)).foldl (fun t m => applyIssueErr t uid (.freeze m.1 (some m.2)))
    (applyIssueErr s uid (.freeze f (some rd)))
/-- One issue cycle of a core (04 R65): a frozen core only stops at its milestone (R87); otherwise what is due lands, and the next repetition issues unless
the core freezes, waits, halts or has reached its stopping point. A bundle that does not decode halts the core before a wait of it is looked at
(DESIGN CHOICE, log entry 16). -/
def coreCycle (s : State) (uid : Nat) : State :=
  if (s.core uid).phase ≠ .run ∨ !(s.core uid).freezes.isEmpty ∨ s.isFatal then frozenStop s uid
  else
    let s1 := beginCycle s uid
    let c := s1.core uid
    if c.phase ≠ .run ∨ !c.freezes.isEmpty then s1
    else match stopPoint s1 c with
      | some why => s1.setCore uid (stopCore s1 c why)
      | none =>
        if c.pc > 0x1FFF then coreHalt s1 uid 2 0 c.pc c.rep .y
        else match decBundle (tget (fun _ => 0#256) c.imem c.pc).toNat with
          | .error sl => coreHalt s1 uid 1 0 c.pc c.rep sl
          | .ok b =>
            match issueSlots s1 uid b (decide (c.rep = b.repM1)) with
            | .error (.freeze f (some rd)) => freezeMisses s1 uid b f rd
            | .error e => applyIssueErr s1 uid e
            | .ok s2 => endCycle (s2.modCore uid fun c => afterIssue c b) uid

/-- One operation issued alone at the core's present cycle: it takes effect as in a bundle, and moves neither the bundle address nor
the cycle count (DESIGN CHOICE, log entry 10); on a tile that is down it waits (15 R290). -/
def issueOne (s : State) (uid : Nat) (f : State → Except IssueErr State) : State :=
  if (s.core uid).phase ≠ .run ∨ !(s.core uid).freezes.isEmpty ∨ s.isFatal ∨ !tileReady s (uid / 4) then s
  else match f s with
    | .ok s' => s'
    | .error e => applyIssueErr s uid e

/-- Do the operations landing now include one that read a lane-line? -/
def dueReads (c : CoreSt) (ll : Nat) : Option Fly := (dueFlies c).find? fun f => (segHalves f.segs).any fun h => decide (laneLine h = ll)

/-- Does a core's read of byte ranges meet a lane-line? -/
def readMeets (segs : List (Nat × Nat)) (ll : Nat) : Bool := (segHalves segs).any fun h => decide (laneLine h = ll)
/-- The index group read that arrives now and meets a lane-line. -/
def dueGroup (c : CoreSt) (ll : Nat) : Option (Nat × GrpRead) :=
  [0, 1, 2, 3].findSome? fun g => ((c.gen g).reads.find? fun r =>
    r.granted && (decide (r.at_ + 4 ≤ c.cyc) || (c.freezes.any fun f => f.cause.onGroup g r.off)) && readMeets [(r.off, 64)] ll).map fun r => (g, r)
/-- The drain read under way that meets a lane-line. -/
def dueDrain (c : CoreSt) (ll : Nat) : Option MMul :=
  c.mms.find? fun m => decide (m.acc = 1) && m.lanes && m.fwd.isNone && m.out.isNone && readMeets [(m.off, if m.paired then 1024 else 512)] ll
/-- An ECC event in a shadow row, an index group or a drain read that lands now (05 R98): a correction freezes the core for two cycles,
an uncorrectable error halts the flight. -/
def landEccOther (s : State) (uid : Nat) (u : Upset) : State :=
  let c := s.core uid
  let row (x : Nat × List (Nat × Nat) × Option UeAt) : Bool := decide (x.1 ≤ c.cyc) && readMeets x.2.1 u.at_
  let rows := c.shadows.any fun sh => sh.reads.any row
  let grp := dueGroup c u.at_
  let dr := dueDrain c u.at_
  if !rows && grp.isNone && dr.isNone then s
  else
    let r := spadEcc s (uid / 4) u.at_ u.syn u.bad
    match r.2 with
    | .corrected => r.1.modCore uid fun c => { c with freezes := c.freezes ++ [⟨.ecc, c.seq, some 2⟩] }
    | .bad esc =>
      let ue : UeAt := ⟨u.at_, esc⟩
      let s1 := r.1.modCore uid fun c =>
        { c with shadows := c.shadows.map fun sh => { sh with reads := sh.reads.map fun x => if row x then (x.1, x.2.1, some ue) else x }
                 gens := c.gens.map fun p => (p.1, { p.2 with reads := p.2.reads.map fun r => if grp = some (p.1, r) then { r with ue := some ue } else r }) }
      match dr with
      | some m => drainUe s1 uid m ue
      | none => s1

/-- An ECC event in the data of a load that lands now (05 R98): a correction freezes the core for two cycles, an uncorrectable error
halts the flight at the landing. -/
def landEcc (s : State) (uid : Nat) (u : Upset) : State :=
  match dueReads (s.core uid) u.at_ with
  | none => landEccOther s uid u
  | some f =>
    let r := spadEcc s (uid / 4) u.at_ u.syn u.bad
    match r.2 with
    | .corrected => r.1.modCore uid fun c => { c with freezes := c.freezes ++ [⟨.ecc, f.seq, some 2⟩] }
    | .bad esc => r.1.modCore uid fun c =>
        { c with flies := c.flies.map fun g => if g.seq = f.seq && g.tag = f.tag then { g with ue := some ⟨u.at_, esc⟩ } else g }

/-- What is due lands; a core that issues nothing more also spends one core cycle. On a tile that is down nothing moves (15 R290). -/
def landingCycle (s : State) (uid : Nat) (ecc : Option Upset) : State :=
  let s0 := match ecc with
    | some u => if (s.core uid).freezes.all fun f => (match f.cause with | .index _ _ _ => true | _ => false) then landEcc s uid u else s
    | none => s
  if !tileReady s (uid / 4) then s
  else if !(s.core uid).freezes.isEmpty then s0
  else
    let s1 := if (s0.core uid).freezes.isEmpty then beginCycle s0 uid else s0
    let c := s1.core uid
    if c.freezes.isEmpty && decide (c.phase = .stopped ∨ c.phase = .ended) then idleCycle s1 uid else s1

/-! ### Ends of freezes -/

/-- Freeze cycles counted against their cause (04 R85). -/
def countFreeze (c : CoreSt) (k : FrzCause) (n : Nat) : CoreSt :=
  match k with
  | .dataLate | .index _ _ _ => { c with cntData := satAdd 48 c.cntData n }
  | .writeBack => { c with cntWrite := satAdd 48 c.cntWrite n }
  | .ecc => { c with cntEcc := satAdd 48 c.cntEcc n }
  | .shadowLate _ | .rescale => { c with cntShadow := satAdd 48 c.cntShadow n }

/-- Each cycle counts against the earliest-detected cause still in force (06 R123): the causes in order of detection, with the
cycles already counted. -/
def countAll : CoreSt → List Freeze → Nat → CoreSt
  | c, [], _ => c
  | c, f :: r, acc => let d := f.dur.getD 0; countAll (countFreeze c f.cause (d - acc)) r (max acc d)

/-- The core stood still through freezes: every cause is counted, and the cycles are spent. -/
def countOut (c : CoreSt) (fs : List Freeze) : CoreSt := (countAll c fs 0).stoodStill (lmax (fs.map fun f => f.dur.getD 0))

/-- The remaining rows of the shadow loads, at most one a tile cycle, while the core is frozen (05 R97). A row that misses its index group
waits for it; a fault ends the load, and with it the wait of the swap. -/
def shadowDrain : Nat → State → Nat → State
  | 0, s, _ => s
  | f + 1, s, uid =>
    match (s.core uid).loading with
    | some sh =>
      if sh.pend.isSome ∨ (s.core uid).cyc < sh.t + 128 then s
      else match shadowRow (if (s.core uid).rowGranted then s.nextCycle (uid / 4) 1 else s) uid sh with
        | .ok s' => shadowDrain f s' uid
        | .error (.halt cause addr _) =>
          applyIssueErr (s.modCore uid fun c => { c with freezes := c.freezes.filter fun z => match z.cause with | .shadowLate _ => false | _ => true })
            uid (.row sh.t cause addr)
        | .error e => applyIssueErr s uid e
    | none => s

/-- A shadow-late freeze lasts from the tile cycle of the swap to the one in which the last row is granted (04 R84). -/
def Freeze.closed (f : Freeze) (tcyc : Nat) : Freeze :=
  match f.cause with | .shadowLate t0 => { f with dur := some (tcyc - t0 + 1) } | _ => f
def Freeze.late (f : Freeze) : Bool := match f.cause with | .shadowLate _ => true | _ => false

/-- The last freeze cause clears (04 R84): every cause must have its duration; a shadow-late freeze first loads the remaining rows. -/
def freezeEnds (s : State) (uid : Nat) : State :=
  if !tileReady s (uid / 4) then s else
  let waits := (s.core uid).freezes.any fun f => match f.cause with | .index _ _ _ => true | _ => false
  let s1 := if (s.core uid).freezes.any Freeze.late && !waits then shadowDrain 260 s uid else s
  let c := s1.core uid
  let open_ := c.shadows.any fun sh => sh.open_ && decide (sh.t + 128 ≤ c.cyc)
  let fz := if open_ then c.freezes else c.freezes.map fun f => f.closed (s1.tile (uid / 4)).tcyc
  let plain := fz.filter Freeze.plain
  if plain.isEmpty || plain.any fun f => f.dur.isNone then s1.setCore uid { c with freezes := fz }
  else
    let seqs := plain.map fun f => f.seq
    let c' := countOut { c with flies := c.flies.map fun g => if seqs.contains g.seq && !g.wait && decide (g.due ≤ c.cyc) then { g with late := 0 } else g } plain
    s1.setCore uid { c' with freezes := fz.filter fun f => !f.plain }

/-- A rescale-repeat freeze ends (06 R126): 136 cycles for each repeat are counted. -/
def rescaleEnds (s : State) (uid : Nat) : State :=
  if !tileReady s (uid / 4) then s else
  s.modCore uid fun c =>
    let z := c.freezes.filter fun f => decide (f.cause = .rescale)
    { countOut c z with freezes := c.freezes.filter fun f => !decide (f.cause = .rescale) }

/-- The cycles that an index freeze lasts, once its group is granted: four from the grant (05 R103). -/
def Freeze.groupDur (c : CoreSt) (f : Freeze) : Option Nat :=
  match f.dur, f.cause with
  | some n, _ => some n
  | none, .index g off _ => ((c.gen g).reads.find? fun r => r.granted && decide (r.off = off)).map fun r => r.at_ + 4 - c.cyc
  | none, _ => none
/-- An index freeze of which n cycles have been counted for another cause. -/
def Freeze.later (c : CoreSt) (n : Nat) (f : Freeze) : Freeze :=
  match f.cause with
  | .index g off t0 => { f with cause := .index g off (t0 + n), dur := (f.groupDur c).map (· - n) }
  | _ => f
/-- The tile cycles from now to the end of an index freeze whose cycles pass on the tile. -/
def Freeze.ahead (tcyc : Nat) (f : Freeze) : Nat := match f.cause with | .index _ _ t0 => t0 + f.dur.getD 0 - tcyc | _ => 0
/-- An index group arrives (05 R103), four cycles after its grant; an access frozen on it resumes. A freeze that began after the grant lasts
for what is left of the four cycles, and one that goes on for another group for what is left of its own. Where the same freeze is shadow late,
that is the earlier cause: it takes the cycles (06 R123), which pass on the tile. -/
def indexArrives (s : State) (uid g : Nat) : State :=
  if !tileReady s (uid / 4) then s else
  let c := s.core uid
  let frozen := c.freezes.any fun f => match f.cause with | .index h _ _ => decide (h = g) | _ => false
  match (c.gen g).reads.find? fun r => r.granted && (frozen || decide (r.at_ + 4 ≤ c.cyc)) with
  | some r =>
    let z := (c.freezes.filter fun f => f.cause.onGroup g r.off).map fun f => { f with dur := some ((f.groupDur c).getD 0) }
    let c1 := if c.freezes.any Freeze.late then c else countOut c z
    let left := lmax (z.map (Freeze.ahead (s.tile (uid / 4)).tcyc))
    let s1 := if c.freezes.any Freeze.late && decide (0 < left) then s.nextCycle (uid / 4) left else s
    let gone := if c.freezes.any Freeze.late then 0 else lmax (z.map fun f => f.dur.getD 0)
    groupUe (s1.setCore uid { c1.setGen g (genArrive (c.gen g) r) with
      freezes := (c.freezes.filter fun f => !f.cause.onGroup g r.off).map (Freeze.later c gone) }) uid g r
  | none => s

end Sys2Proof.Machine
end

