-- ==== Sys2Proof/Machine/Mem.lean ====
section
/-! DEFINITION. The device physical address space (01 R17 to R20): where an address lies, who owns it, HBM bytes and their
check codes (14 R267, R274), and requests to the host (02 R32, R357). -/

namespace Sys2Proof.Machine
open Sys2Proof

def stackBytes : Nat := 24 * 2 ^ 30
def quadBytes : Nat := 0x2400000000
def hbmTop : Nat := 0x9000000000
def siteWindow : Nat := 0x10000000000
def tileWindow : Nat := 0x10100000000
def hostWindow : Nat := 0x20000000000
def regWindow : Nat := 0x30000000000

/-- Stack and stack address of an HBM address (01 R19, R20). -/
def hbmMap (wide : Bool) (dpa : Nat) : Nat × Nat :=
  if wide then
    let g := dpa / 2048
    (g % 24, g / 24 * 2048 + dpa % 2048)
  else
    let off := dpa % quadBytes
    let g := off / 2048
    (lget 0 (quadStacks (dpa / quadBytes)) (g % 6), g / 6 * 2048 + off % 2048)

/-- The key of an HBM byte in the mode in effect. -/
def hbmKey (s : State) (dpa : Nat) : Nat := let m := hbmMap s.hbmWide dpa; m.1 * stackBytes + m.2
/-- The stack of an HBM address. -/
def hbmStack (s : State) (dpa : Nat) : Nat := (hbmMap s.hbmWide dpa).1

/-- Where an address lies (01 R17; 13 R257). -/
inductive Loc where
  | hbm
  | spad (tile off : Nat)
  | host (bus : Nat)
  /-- Remote write aperture: entry, offset. -/
  | remote (e o : Nat)
  /-- Remote gate aperture: entry, tile, gate. -/
  | remoteGate (e tile gate : Nat)
  | nowhere
  deriving DecidableEq, Repr

/-- The logical tile that a site carries (01 R10, R11). -/
def State.siteTile (s : State) (site : Nat) : Option Nat := (List.range 60).find? fun id => decide (s.tileSite id = site)

/-- Where the byte at an address lies. -/
def dpaLoc (s : State) (a : Nat) : Loc :=
  if a < hbmTop then .hbm
  else if siteWindow ≤ a ∧ a < siteWindow + 64 * spadBytes then
    match s.siteTile ((a - siteWindow) / spadBytes) with
    | some t => .spad t ((a - siteWindow) % spadBytes)
    | none => .nowhere
  else if tileWindow ≤ a ∧ a < tileWindow + 60 * spadBytes then .spad ((a - tileWindow) / spadBytes) ((a - tileWindow) % spadBytes)
  else if hostWindow ≤ a ∧ a < hostWindow + 2 ^ 40 then .host (a - hostWindow)
  else if regWindow + 0x80000000 ≤ a ∧ a < regWindow + 0xC0000000 then
    .remote ((a - regWindow - 0x80000000) / 0x1000000) ((a - regWindow - 0x80000000) % 0x1000000)
  else if regWindow + 0xC0000000 ≤ a ∧ a < regWindow + 0xC4000000 then
    let o := a - regWindow - 0xC0000000
    .remoteGate (o / 0x100000) (o % 0x100000 / 4 / 4096) (o % 0x100000 / 4 % 4096)
  else .nowhere

/-- The valid bit of a remote-target entry (13 R256). -/
def fRemValid (p e : Nat) : Fld := ⟨0x2000 + 0x400 * p + 0x10 * e, 63, 63⟩

/-- Does a started partition own HBM at an address: its quadrants' ranges, or all of it in module-wide interleave (16 R311)? -/
def ownsHbm (s : State) (part dpa : Nat) : Bool :=
  decide (s.rd (fPartState part) ≠ 0) && (s.hbmWide || nbit (s.rd (fPartQuads part)) (dpa / quadBytes))
def ownsTile (s : State) (part tile : Nat) : Bool := decide (s.tilePart tile = some part)

/-- May a partition access the byte at an address (01 R17)? Every started partition owns the host window. `far` says that the access may go
out through the remote apertures, as a barge's write may (13 R257). -/
def dpaByteOk (s : State) (part : Nat) (far : Bool) (a : Nat) : Bool :=
  match dpaLoc s a with
  | .hbm => ownsHbm s part a
  | .spad t _ => ownsTile s part t
  | .host _ => decide (s.rd (fPartState part) ≠ 0)
  | .remote e _ => far && decide (e < 64) && s.flag (fRemValid part e)
  | _ => false

/-- The addresses at which the range a … a + n − 1 can enter another part: every part of R17 starts at a multiple of 16 MiB. -/
def dpaPoints (a n : Nat) : List Nat :=
  a :: (a + n - 1) :: (upFrom (a / 2 ^ 24 + 1) ((a + n - 1) / 2 ^ 24 - a / 2 ^ 24)).map (2 ^ 24 * ·)

/-- Is an access permitted, judged byte by byte (01 R17)? A remote gate takes 4-byte writes only (13 R257). -/
def dpaOk (s : State) (part : Nat) (far : Bool) (a n : Nat) : Bool :=
  if n = 0 then true
  else match dpaLoc s a with
  | .remoteGate e t _ => far && decide (n = 4) && decide (a % 4 = 0) && decide (e < 64) && decide (t < 60) && s.flag (fRemValid part e)
  | _ => (dpaPoints a n).all fun p => dpaByteOk s part far p

/-- Is a range in HBM that a partition owns? -/
def hbmOk (s : State) (part a n : Nat) : Bool := decide (a + n ≤ hbmTop) && dpaOk s part false a n
/-- Does a range meet the host window? -/
def touchesHost (a n : Nat) : Bool := overlaps a n hostWindow (2 ^ 40)

/-! ### HBM bytes -/

/-- n bytes of HBM. -/
def hbmRead (s : State) (dpa n : Nat) : List Byte := (List.range n).map fun i => tget byte0 s.hbm (hbmKey s (dpa + i))
/-- The little-endian number in n bytes of HBM. -/
def hbmNat (s : State) (dpa n : Nat) : Nat := leNat (hbmRead s dpa n)
/-- The codewords that a range covers whole, by number: key / 64. -/
def fullWords (s : State) (dpa n : Nat) : List Nat :=
  let a := (dpa + 63) / 64
  (upFrom a ((dpa + n) / 64 - a)).map fun w => hbmKey s (64 * w) / 64
/-- The codewords that a range touches. -/
def wordsOf (s : State) (dpa n : Nat) : List Nat :=
  if n = 0 then [] else (upFrom (dpa / 64) ((dpa + n - 1) / 64 + 1 - dpa / 64)).map fun w => hbmKey s (64 * w) / 64
/-- Bytes written; a full 64-byte write clears an uncorrectable codeword, and any write cancels a queued correction of the codewords that it
touches (14 R267, 17 R323). -/
def hbmWrite (s : State) (dpa : Nat) (bs : List Byte) : State :=
  let full := if s.hbmUe.isEmpty then [] else fullWords s dpa bs.length
  let some_ := if s.hbmCe.isEmpty && s.hbmCeEntry.isEmpty then [] else wordsOf s dpa bs.length
  { s with
    hbm := tsetAll byte0 s.hbm ((List.range bs.length).map fun i => (hbmKey s (dpa + i), lget 0#8 bs i))
    hbmUe := full.foldl (fun t w => tset nat0 t w 0) s.hbmUe
    hbmCe := some_.foldl (fun t w => tset nat0 t w 0) s.hbmCe
    hbmCeEntry := some_.foldl (fun t w => tset nat0 t w 0) s.hbmCeEntry }
/-- The address of the byte with a key: the inverse of the interleave. -/
def hbmUnmap (wide : Bool) (key : Nat) : Nat :=
  let st := key / stackBytes
  let a := key % stackBytes
  if wide then (a / 2048 * 24 + st) * 2048 + a % 2048
  else
    let q := wharfQuad (st / 3)
    q * quadBytes + (a / 2048 * 6 + (quadStacks q).findIdx (· = st)) * 2048 + a % 2048
/-- Zeros written to n bytes (03 R50, 16 R313): listed bytes go, the check state of codewords covered whole is renewed, and no queued correction
of a codeword touched remains. -/
def hbmZero (s : State) (dpa n : Nat) : State :=
  let hit (k : Nat) : Bool := decide (dpa ≤ hbmUnmap s.hbmWide k) && decide (hbmUnmap s.hbmWide k < dpa + n)
  let whole (w : Nat) : Bool := hit (w * 64) && hit (w * 64 + 63)
  let part (w : Nat) : Bool := let a := hbmUnmap s.hbmWide (w * 64); overlaps a 64 dpa n
  { s with
    hbm := s.hbm.filter fun p => !hit p.1
    hbmUe := s.hbmUe.filter fun p => !whole p.1
    hbmCe := s.hbmCe.filter fun p => !part p.1
    hbmCeEntry := s.hbmCeEntry.filter fun p => !part p.1 }
/-- A codeword known to be uncorrectable among those that a range touches: its address and its symbols in error. -/
def hbmFirstUe (s : State) (dpa n : Nat) : Option (Nat × Nat) :=
  if s.hbmUe.isEmpty || n = 0 then none
  else (upFrom (dpa / 64) ((dpa + n - 1) / 64 + 1 - dpa / 64)).findSome? fun w =>
    let k := tget nat0 s.hbmUe (hbmKey s (64 * w) / 64)
    if k ≠ 0 ∧ 64 * w < hbmTop then some (64 * w, k) else none
/-- An uncorrectable codeword that a write covers only in part: such a write is not performed (14 R267). -/
def hbmPartUe (s : State) (dpa n : Nat) : Option (Nat × Nat) :=
  if s.hbmUe.isEmpty || n = 0 then none
  else (upFrom (dpa / 64) ((dpa + n - 1) / 64 + 1 - dpa / 64)).findSome? fun w =>
    let k := tget nat0 s.hbmUe (hbmKey s (64 * w) / 64)
    if k ≠ 0 ∧ 64 * w < hbmTop ∧ (64 * w < dpa ∨ dpa + n < 64 * w + 64) then some (64 * w, k) else none

/-- A check-code result on the codeword at an address (14 R267, R274): a correction is entered and queued for write-back; an
uncorrectable codeword, or a second and different event on one whose write-back is queued, stays uncorrectable. `syn` is the symbol
position of a correction, the number of symbols in error of an uncorrectable one. -/
def hbmEcc (s : State) (part dpa syn : Nat) (bad : Bool) : State × EccOut :=
  let w := hbmKey s dpa / 64
  let pend := tget nat0 s.hbmCe w
  let escalates := decide (pend ≠ 0) && (bad || decide (pend ≠ syn + 1))
  if bad || escalates then
    ({ s with
       hbmUe := tset nat0 s.hbmUe w (if bad then max 1 syn else 2)
       hbmCe := tset nat0 s.hbmCe w 0
       hbmCeEntry := tset nat0 s.hbmCeEntry w 0 },
     .bad (if escalates then some (tget nat0 s.hbmCeEntry w) else none))
  else
    let st := hbmStack s dpa
    let e : ErrIn := { wharf := st / 3, cls := 0, cause := 0x02, kind := 5, part := part, q2 := st, detail := syn, addr := dpa / 64 * 64 }
    (errRaise { s with hbmCe := tset nat0 s.hbmCe w (syn + 1), hbmCeEntry := tset nat0 s.hbmCeEntry w (errEntry s e) } e, .corrected)

/-- An uncorrectable codeword met where nothing halts, by the patrol or the exchange: its entry (14 R267, R272). -/
def hbmUeAlone (s : State) (part dpa syms : Nat) (esc : Option Nat) : State :=
  let st := hbmStack s dpa
  errRaise s { wharf := st / 3, cls := 1, cause := 0x43, kind := 5, part := part, q2 := st, detail := syms, addr := dpa, q4 := esc.toList,
               escalated := esc.isSome }

/-! ### Bytes anywhere in the device -/

/-- The byte at an address of HBM or a scratchpad; zero elsewhere. -/
def dpaByte (s : State) (a : Nat) : Byte :=
  match dpaLoc s a with
  | .hbm => tget byte0 s.hbm (hbmKey s a)
  | .spad t o => tget byte0 s.spad (spadKey s t o)
  | _ => 0#8
def dpaRead (s : State) (a n : Nat) : List Byte := (List.range n).map fun i => dpaByte s (a + i)

def fEffCaps : Fld := ⟨0x1070, 31, 0⟩
/-- Is a capability bit in eff_caps (02 R25)? -/
def State.cap (s : State) (b : Nat) : Bool := nbit (s.rd fEffCaps) b
/-- Max_Payload_Size in force (02 R25). -/
def maxPayload (s : State) : Nat := if s.cap 6 then 512 else 256
/-- Bytes cut where their bus addresses are multiples of n (DESIGN CHOICE, log entry 15). -/
def cutAt (n : Nat) : Nat → Nat → List Byte → List Posted
  | 0, _, _ => []
  | f + 1, a, bs =>
    if bs.isEmpty then [] else ⟨a, bs.take (n - a % n)⟩ :: cutAt n f (a + (n - a % n)) (bs.drop (n - a % n))
/-- A write of bytes to the host: posted writes of at most Max_Payload_Size (02 R25, R357). -/
def hostPost (s : State) (bus : Nat) (bs : List Byte) : State := linkPost s (cutAt (maxPayload s) (bs.length / 256 + 2) bus bs)

/-- Contiguous runs of bytes that lie in one part: HBM, one scratchpad, the host window, given as (address, bytes). -/
def dpaSplit : Nat → Nat → List Byte → List (Nat × List Byte)
  | 0, _, _ => []
  | f + 1, a, bs =>
    if bs.isEmpty then []
    else
      let n := min bs.length (2 ^ 24 - a % 2 ^ 24)
      (a, bs.take n) :: dpaSplit f (a + n) (bs.drop n)

/-- One run of bytes written at an address: HBM, scratchpad through its endpoint, or posted to the host (01 R17, R18; 05 R94). -/
def dpaPut (s : State) (p : Nat × List Byte) : State :=
  match dpaLoc s p.1 with
  | .hbm => hbmWrite s p.1 p.2
  | .spad t o => spadWrite (endpointTurn s t o p.2.length true) t o p.2
  | .host b => if s.dlActive then hostPost s b p.2 else s
  | _ => s
/-- A range split where it can enter another part. -/
def rangeSplit : Nat → Nat → Nat → List (Nat × Nat)
  | 0, _, _ => []
  | f + 1, a, n =>
    if n = 0 then [] else
      let k := min n (2 ^ 24 - a % 2 ^ 24)
      (a, k) :: rangeSplit f (a + k) (n - k)
def rangeParts (a n : Nat) : List (Nat × Nat) := rangeSplit (n / 2 ^ 24 + 2) a n
/-- The lane cycles of a read of the ring engine, the tollhouse or the exchange, where it reads scratchpads (05 R94). -/
def dpaTurn (s : State) (a n : Nat) : State :=
  (rangeParts a n).foldl (fun t p => match dpaLoc t p.1 with | .spad tile o => endpointTurn t tile o p.2 false | _ => t) s
/-- Does a write cover part of an uncorrectable codeword or lane-line, so that it is not performed (05 R98, 14 R267)? -/
def dpaPartUe (s : State) (a n : Nat) : Bool :=
  (rangeParts a n).any fun p => match dpaLoc s p.1 with
    | .spad t o => ((partLanes o p.2).map laneLine).any fun l => tget falseAt (s.tile t).ue l
    | .hbm => (hbmPartUe s p.1 p.2).isSome
    | _ => false
/-- Bytes written at an address by the ring engine or the tollhouse. -/
def dpaWrite (s : State) (a : Nat) (bs : List Byte) : State :=
  (dpaSplit (bs.length / 2 ^ 24 + 2) a bs).foldl dpaPut s

/-- Is the memory at an address out of its low form (15 R290)? -/
def hbmReady (s : State) (q : Nat) : Bool := if s.hbmWide then [120, 121, 122, 123].all (domUp s) else domUp s (120 + q)
def locReady (s : State) (a : Nat) : Bool :=
  match dpaLoc s a with
  | .hbm => hbmReady s (a / quadBytes)
  | .spad t _ => tileReady s t
  | _ => true
/-- The tile whose scratchpad holds an address. -/
def dpaTile (s : State) (a : Nat) : List Nat := match dpaLoc s a with | .spad t _ => [t] | _ => []
/-- The tiles whose scratchpads hold bytes of n from an address: scratchpads stand side by side in their two windows (01 R17). -/
def dpaTiles (s : State) (a n : Nat) : List Nat :=
  if n = 0 ∨ (dpaTile s a).isEmpty then [] else (List.range ((a % spadBytes + n - 1) / spadBytes + 1)).flatMap fun i => dpaTile s (a + i * spadBytes)

/-! ### Requests to the host -/

def fCplTimeout : Fld := ⟨0x1808, 7, 4⟩
/-- Requests that may be outstanding: 768 with 10-bit tags (02 R25); with 14-bit tags one for each tag (DESIGN CHOICE, log entry 15). -/
def reqLimit (s : State) : Nat := if s.cap 7 then 2 ^ 14 else 768
/-- The completion timeout in force, in milliseconds (02 R32). -/
def cplMs (s : State) : Nat := 2 ^ (min 7 (s.rd fCplTimeout))
/-- Is there a tag for another request, and does the link carry it (02 R25, R32)? -/
def tagFree (s : State) : Bool := decide (s.reqs.length < reqLimit s) && !s.link.stalled
/-- Requests that wait are issued, oldest first, while there are tags; each takes the timeout in force at its issue (02 R32). -/
def reqIssue : Nat → State → State
  | 0, s => s
  | n + 1, s => match s.reqWait with
    | x :: w => if tagFree s then reqIssue n { s with reqs := s.reqs ++ [⟨s.nextTag, x.2.1, x.2.2, cplMs s, x.1⟩], nextTag := s.nextTag + 1, reqWait := w } else s
    | [] => s
def reqPump (s : State) : State := reqIssue s.reqWait.length s
/-- A non-posted request: issued, or waiting behind those that wait already. -/
def hostAsk (s : State) (kind : ReqFor) (addr len : Nat) : State := reqPump { s with reqWait := s.reqWait ++ [(kind, addr, len)] }
/-- Would a request be issued at once? -/
def mayAsk (s : State) : Bool := tagFree s && s.reqWait.isEmpty
/-- Is there a request of a kind, outstanding or waiting? -/
def asked (s : State) (p : ReqFor → Bool) : Bool := (s.reqs.any fun q => p q.kind) || s.reqWait.any fun x => p x.1
/-- May a bus address be used: without win_1tib only those below 256 GiB (02 R25)? -/
def busOk (s : State) (a n : Nat) : Bool := s.cap 9 || decide (a + n ≤ 2 ^ 38)
/-- The first outstanding request that satisfies p ends: its tag is free. -/
def dropReq (s : State) (p : HostReq → Bool) : State := reqPump { s with reqs := dropFirst p s.reqs }
/-- Every request of a kind is given up: no answer to it will be looked at. -/
def dropReqs (s : State) (p : ReqFor → Bool) : State :=
  reqPump { s with reqs := s.reqs.filter fun q => !p q.kind, reqWait := s.reqWait.filter fun x => !p x.1 }

end Sys2Proof.Machine
end

