-- ==== Sys2Proof/Machine/RingRegs.lean ====
section
/-! DEFINITION. The registers of a command ring, its record, and the fields of a descriptor (03 R41, R45, R47, R48). -/

namespace Sys2Proof.Machine
open Sys2Proof

/-! ### Registers of a ring (03 R41) -/
def fHead (r : Nat) : Fld := ⟨aRing r 0x20, 63, 32⟩
def fLastStatus (r : Nat) : Fld := ⟨aRing r 0x20, 31, 24⟩
def fOutstanding (r : Nat) : Fld := ⟨aRing r 0x20, 23, 16⟩
def fStray (r : Nat) : Fld := ⟨aRing r 0x20, 15, 8⟩
def fRState (r : Nat) : Fld := ⟨aRing r 0x20, 1, 0⟩
def fStartCount (r : Nat) : Fld := ⟨aRing r 0x18, 63, 32⟩
def fRVec (r : Nat) : Fld := ⟨aRing r 0x18, 31, 21⟩
def fRSize (r : Nat) : Fld := ⟨aRing r 0x18, 16, 12⟩
def fRPart (r : Nat) : Fld := ⟨aRing r 0x18, 11, 10⟩
def fHoldoff (r : Nat) : Fld := ⟨aRing r 0x18, 7, 4⟩
def fCfgErr (r : Nat) : Fld := ⟨aRing r 0x18, 2, 2⟩
def fErrIrq (r : Nat) : Fld := ⟨aRing r 0x18, 1, 1⟩
def fEnable (r : Nat) : Fld := ⟨aRing r 0x18, 0, 0⟩
def fDescBase (r : Nat) : Fld := ⟨aRing r 0, 63, 12⟩
def fCplBase (r : Nat) : Fld := ⟨aRing r 8, 63, 12⟩
def fDbAddr (r : Nat) : Fld := ⟨aRing r 0x10, 63, 3⟩
def aSummary (p : Nat) : Nat := 0x100000 + 8 * p
def fSumBase (p : Nat) : Fld := ⟨aSummary p, 63, 7⟩
def fSumValid (p : Nat) : Fld := ⟨aSummary p, 0, 0⟩
def fHostMismatch : Fld := ⟨0x1800, 0, 0⟩

def ring0 : Nat → RingSt := fun _ => {}
def State.ring (s : State) (r : Nat) : RingSt := tget ring0 s.rings r
/-- Has a register of the ring a pending write (03 R42)? -/
def ringPending (s : State) (r : Nat) : Bool := s.pendingSt.any fun p => decide (0x110000 ≤ p.1) && decide ((p.1 - 0x110000) / 0x40 = r) && decide (p.1 < 0x120000)
/-- A ring's record written, with what RING_STATE shows of it. -/
def State.putRing (s : State) (r : Nat) (g : RingSt) : State :=
  { s with rings := tset ring0 s.rings r g }.wrAll
    [(fOutstanding r, min 64 g.out.length), (fRState r, if ringPending s r then 3 else g.st)]
def State.modRing (s : State) (r : Nat) (f : RingSt → RingSt) : State := s.putRing r (f (s.ring r))
/-- Has less than 1 ms passed since a milestone (03 R45)? -/
def lately (s : State) (t : Option Nat) : Bool := t.any fun a => decide ((s.mile + 2 ^ 64 - a) % 2 ^ 64 < 1000000)
/-- Is a ring active for its partition's polling (03 R45)? -/
def ringActive (s : State) (g : RingSt) : Bool := !g.out.isEmpty || lately s g.seenAt

/-- The distance of a count from another, modulo 2^32. -/
def countFrom (h c : Nat) : Nat := (c + 2 ^ 32 - h % 2 ^ 32) % 2 ^ 32
def countNext (c : Nat) (n : Nat) : Nat := (c + n) % 2 ^ 32
/-- A quiescent point of a ring (03 R42). -/
def ringQuiet (s : State) (r : Nat) : Bool :=
  let g := s.ring r
  decide (g.st ≠ 1) || (decide (s.rd (fHead r) = g.tail) && g.out.isEmpty)

/-! ### Descriptor fields (03 R47, R48) -/
def dq (q : List Nat) (i : Nat) : Nat := lget 0 q i
def dOpcode (q : List Nat) : Nat := dq q 0 % 256
def dSub (q : List Nat) : Nat := nbits (dq q 0) 15 8
def dIrq (q : List Nat) : Bool := nbit (dq q 0) 18
def dRelaxedBit (q : List Nat) : Bool := nbit (dq q 0) 16
/-- Are the reserved bits of the header zero? -/
def dHeaderOk (q : List Nat) : Bool := decide (nbits (dq q 0) 31 19 = 0) && !nbit (dq q 0) 17
/-- Quadwords from i on are zero. -/
def dZeroFrom (q : List Nat) (i : Nat) : Bool := (upFrom i (8 - i)).all fun j => decide (dq q j = 0)
/-- Bits of a quadword from `lo` up are zero. -/
def dHiZero (q : List Nat) (i lo : Nat) : Bool := decide (dq q i < 2 ^ lo)

end Sys2Proof.Machine
end

