-- ==== Sys2Proof/Machine/AttOps.lean ====
section
/-! DEFINITION. What TOLL_STATUS shows of the tollhouse, and its queue of attestation requests (16 R308, R310, R318). -/

namespace Sys2Proof.Machine
open Sys2Proof

/-! ### TOLL_STATUS (16 R318) -/

def fTollSvnFused : Fld := ⟨0x900000, 63, 56⟩
def fTollActiveSvn : Fld := ⟨0x900000, 55, 48⟩
def fBootState : Fld := ⟨0x900000, 47, 45⟩
def fActiveSlot : Fld := ⟨0x900000, 44, 44⟩
def fActiveState : Fld := ⟨0x900000, 43, 41⟩
def fOtherState : Fld := ⟨0x900000, 40, 38⟩
def fDebug : Fld := ⟨0x900000, 37, 36⟩
def fProvisioned : Fld := ⟨0x900000, 35, 35⟩
def fAttQueue : Fld := ⟨0x900000, 34, 30⟩
def fLogEntries : Fld := ⟨0x900000, 29, 22⟩

def TrustSt.slot (t : TrustSt) (i : Nat) : FwSlot := lget {} t.slots i
/-- boot_state: 0 measuring, 1 released, 2 recovery, 3 warm reset. -/
def TrustSt.bootState (t : TrustSt) : Nat := if t.recovery then 2 else if t.warm.isSome then 3 else if t.released then 1 else 0
/-- active_state: 1 active, 3 trial. -/
def TrustSt.activeState (t : TrustSt) : Nat := if t.trialBoot then 3 else 1
/-- The slot that the report and TOLL_STATUS call the other: the one that does not run; in recovery, where no slot runs and an update may go
to either, the one that an update has gone to (16 R302, R309, R310; DEDUCED, log entry 16). -/
def TrustSt.otherSlot (t : TrustSt) : Nat := if t.recovery then (t.receiving <|> t.staged).getD (1 - t.running) else 1 - t.running
/-- other_state, of the other slot: 0 none, 1 receiving, 2 staged, 4 fallback. -/
def TrustSt.otherState (t : TrustSt) : Nat :=
  if t.receiving = some t.otherSlot then 1 else if t.trialBoot then 4 else if t.staged = some t.otherSlot then 2 else 0
/-- What TOLL_STATUS shows of the tollhouse. -/
def tollShow (s : State) : State :=
  let t := s.trust
  s.wrAll [(fTollSvnFused, t.fusedSvn), (fTollActiveSvn, (t.slot t.running).svn), (fBootState, t.bootState), (fActiveSlot, t.running),
    (fActiveState, t.activeState), (fOtherState, t.otherState), (fDebug, t.debug), (fProvisioned, b2n !t.root.isEmpty),
    (fAttQueue, t.queue.length), (fLogEntries, t.log.length), (⟨0x900010, 63, 0⟩, t.serial)]
def State.putTrust (s : State) (t : TrustSt) : State := tollShow { s with trust := t }
def State.modTrust (s : State) (f : TrustSt → TrustSt) : State := s.putTrust (f s.trust)

/-! ### The request queue (16 R308) -/

/-- Requests that are not of hail; four of the sixteen places are kept for hail. -/
def otherReqs (t : TrustSt) : Nat := (t.queue.filter fun q => match q.who with | .hail _ => false | _ => true).length
def attRoom (t : TrustSt) (hail : Bool) : Bool := decide (t.queue.length < 16) && (hail || decide (otherReqs t < 12))
/-- Is the hail path open: released, no host mismatch, no warm reset in progress, no fatal error (16 R310, 02 R26, 14 R273)? -/
def hailOpen (s : State) : Bool := !s.flag fHostMismatch && s.trust.warm.isNone && s.trust.released && !s.isFatal
/-- Is a request's path open? That of the board management controller always is, the only one after a fatal error (14 R273). -/
def attOpen (s : State) (q : AttReq) : Bool :=
  match q.who with
  | .hail _ => hailOpen s
  | .bmc => true
  | .ring _ _ => !s.flag fHostMismatch && !s.isFatal
/-- The class of a request in the order of service: hail, board management controller, rings. -/
def attClass (q : AttReq) : Nat := match q.who with | .hail _ => 0 | .bmc => 1 | .ring _ _ => 2
/-- The request that is served next: the oldest of the first class. -/
def nextAtt (s : State) : Option AttReq :=
  [0, 1, 2].findSome? fun k => s.trust.queue.find? fun q => decide (attClass q = k) && attOpen s q
/-- The request whose report is signed now: the one in service, or else the next. -/
def attNow (s : State) : Option AttReq :=
  match s.trust.serving with
  | some q => if s.trust.queue.contains q && attOpen s q then some q else nextAtt s
  | none => nextAtt s
/-- A free signing engine takes the next request into service. -/
def attServe (s : State) : State := s.putTrust { s.trust with serving := attNow s }
def attPush (s : State) (q : AttReq) : State := attServe (s.putTrust { s.trust with queue := s.trust.queue ++ [q] })
/-- The request of a ring's descriptor (03 R49). -/
def attOfDesc (r count : Nat) (q : List Nat) : AttReq :=
  ⟨.ring r count, ([2, 3, 4, 5].flatMap fun i => leBytes 8 (dq q i)), false, nbits (dq q 6) 47 0, nbits (dq q 7) 31 0⟩
/-- Ring requests still outside the queue, oldest first. -/
def waitingAtts (s : State) : List AttReq :=
  let l := s.rings.flatMap fun p => p.2.out.filterMap fun d =>
    if d.work = .attest ∧ !(s.trust.queue.any fun q => decide (q.who = .ring p.1 d.count)) then some (d.t0, attOfDesc p.1 d.count d.q) else none
  (l.foldl (fun acc x => (acc.takeWhile fun y => decide (y.1 ≤ x.1)) ++ x :: acc.dropWhile fun y => decide (y.1 ≤ x.1)) []).map fun x => x.2
/-- Freed places go to ring requests that wait. -/
def attFill (s : State) : State := (waitingAtts s).foldl (fun t q => if attRoom t.trust false then attPush t q else t) s
/-- Requests leave the queue unanswered, and their places are given on. -/
def attDrop (s : State) (p : AttReq → Bool) : State :=
  attServe (attFill (s.putTrust { s.trust with queue := s.trust.queue.filter fun q => !p q }))

end Sys2Proof.Machine
end

