-- ==== Sys2Proof/Machine/RingOps.lean ====
section
/-! DEFINITION. What every command of a ring shares: its registers, completion records, MSI-X moderation, halting and settling,
and the dispatch of a fetched descriptor (03 R38 to R59). -/

namespace Sys2Proof.Machine
open Sys2Proof

/-- The classes of R49, one for each subcode that a class lists. -/
inductive DClass where
  | nop | imageLoad | launchEnd | launchStart | stopEop | stopBundle | barge | gateSet | gateAdd | gateWait | fenceThis | fenceOther
  | bucket | wipeAll | wipeRange | report | chain | telemetry | staged | dumpCount | dumpMile
  deriving DecidableEq, Repr

/-- The class of a descriptor; none where its opcode, subcode or header is malformed (03 R49; 16 R308). -/
def dClass (q : List Nat) : Option DClass :=
  if !dHeaderOk q then none
  else match dOpcode q, dSub q with
  | 0x00, 0 => some .nop
  | 0x01, 0 => some .imageLoad
  | 0x02, 0 => some .launchEnd
  | 0x02, 1 => some .launchStart
  | 0x03, 0 => some .stopEop
  | 0x03, 1 => some .stopBundle
  | 0x04, 0 => some .barge
  | 0x05, 0 => some .gateSet
  | 0x06, 0 => some .gateAdd
  | 0x07, 0 => some .gateWait
  | 0x08, 0 => some .fenceThis
  | 0x08, 1 => some .fenceOther
  | 0x09, 0 => some .bucket
  | 0x0A, 0 => some .wipeAll
  | 0x0A, 1 => some .wipeRange
  | 0x0B, 0 => some .report
  | 0x0B, 1 => some .chain
  | 0x0C, 0 => some .telemetry
  | 0x0D, 0 => some .staged
  | 0x0E, 0 => some .dumpCount
  | 0x0E, 1 => some .dumpMile
  | _, _ => none

/-- A gate reference: well formed, naming a gate; or none where it is malformed (03 R48). -/
inductive GateRef where
  | none
  | bad
  | gate (tile g : Nat)
  deriving DecidableEq, Repr

def decRef (w : Nat) : GateRef :=
  let v := w % 2 ^ 32
  if !nbit v 31 then (if v = 0 then .none else .bad)
  else if nbits v 30 18 ≠ 0 ∨ nbits v 17 12 ≥ 60 then .bad
  else .gate (nbits v 17 12) (nbits v 11 0)

/-! ### Completion records and interrupts -/

/-- The quadwords of a completion record (03 R51). -/
def cplBytes (c n status opcode tag mile result : Nat) : List Byte :=
  leBytes 8 (c * 2 ^ 32 + status % 256 * 2 ^ 24 + opcode % 256 * 2 ^ 16 + (1 - c / 2 ^ n % 2))
    ++ leBytes 8 tag ++ leBytes 8 mile ++ leBytes 8 result

/-- The completion record of a count, one 32-byte posted write into its slot (03 R51), at any bus address: 02 R25 limits host-window DPAs
(DESIGN CHOICE, log entry 15). -/
def cplWrite (s : State) (r c status opcode tag result : Nat) : State :=
  hostPost s (s.rd (fCplBase r) * 4096 + 32 * (c % 2 ^ s.rd (fRSize r))) (cplBytes c (s.rd (fRSize r)) status opcode tag s.mile result)

/-- The ring's vector raised after a record (03 R54): while irq_holdoff is above 0 a request within a holdoff window is held, but never a
halting one. -/
def ringIrq (s : State) (r : Nat) (halting : Bool) : State :=
  let g := s.ring r
  let on := decide (s.rd (fHoldoff r) ≠ 0)
  if g.irqOpen && on && !halting then s.putRing r { g with irqHeld := true }
  else (msixRaise s (s.rd (fRVec r))).putRing r { g with irqOpen := on || g.irqHeld }

/-! ### Halts (03 R56, R58) -/

/-- Descriptor reads of a ring from a count that satisfies p. -/
def descReqs (r : Nat) (p : Nat → Bool) (k : ReqFor) : Bool := match k with | .desc r' c _ => decide (r' = r) && p c | _ => false

/-- The issuer of an operation whose descriptor its ring may have given up. -/
def givenUp (mine : Nat → Nat → Bool) (i : Issuer) : Issuer := match i with | .ring r c => if mine r c then .none else i | _ => i
/-- Dispatched descriptors of a ring are given up: none of them writes a record, and no outcome of the work that goes on for them
reaches the ring again (R60, promise 2). A launch not yet checked and a dump not yet applied are cancelled (09 R186). -/
def dropOut (s : State) (r : Nat) (p : Nat → Bool) : State :=
  let mine (r' c : Nat) : Bool := decide (r' = r) && p c
  let s1 := dropReqs s fun k => match k with | .source r' c => mine r' c | _ => false
  attDrop ({ s1 with
    flights := (s1.flights.filter fun (f : Flight) => !(mine f.ring f.count && decide (f.step = LaunchStep.check))).map fun (f : Flight) =>
      if mine f.ring f.count then { f with orphan := true } else f
    mesh := s1.mesh.map fun (x : MeshX) => { x with who := givenUp mine x.who }
    barges := s1.barges.filter fun (b : Barge) => !(b.complete && match b.origin with | .ring r' c => mine r' c | _ => false)
    tiles := tmap tile0 (fun _ (t : TileSt) => { t with gateOps := t.gateOps.map fun (o : GateOp) => { o with who := givenUp mine o.who } }) s1.tiles
    dumps := (s1.dumps.filter fun (d : Dump) => d.applied || !mine d.ring d.count).map fun (d : Dump) => if mine d.ring d.count then { d with orphan := true } else d }.modRing r fun g =>
      { g with out := g.out.filter fun d => !p d.count }) fun q => match q.who with | .ring r' c => mine r' c | _ => false

/-- A ring halts at a count: nothing unstarted remains, the doorbell's resume_gen is recorded, RING_STATE shows the halt. The resume_gen
is that of the last doorbell read (DESIGN CHOICE, log entry 15). -/
def ringStop (s : State) (r k : Nat) (kind : HaltKind) (status : Option Nat) : State :=
  let g := s.ring r
  let s1 := dropReqs s (descReqs r fun _ => true)
  let s2 := s1.putRing r { g with st := 2, halt := kind, next := k, waiting := [], halting := [],
                                  gen := if kind = .firstRead then none else some g.genSeen }
  s2.wrAll ((fHead r, k) :: (match status with | some st => [(fLastStatus r, st)] | none => []))

/-- What a dispatched descriptor waits for is changed. -/
def setWork (s : State) (r c : Nat) (w : Work) : State :=
  s.modRing r fun g => { g with out := g.out.map fun d => if d.count = c then { d with work := w } else d }

/-- Does what a descriptor waits for halt its ring (03 R52, R56)? -/
def Work.halts : Work → Bool
  | .judged st _ _ => decide (st ≥ 0x40)
  | .bargeHalted _ _ _ => true
  | _ => false
/-- The halt of a ring under way: the entry that it began with; a halt without an entry has none (14 R274). -/
def ringHandled (s : State) (r : Nat) : Option (List Nat) :=
  let g := s.ring r
  if g.haltIx.isSome ∨ g.st = 2 ∨ !g.halting.isEmpty then some g.haltIx.toList else none
/-- The entry of a ring halted on a descriptor: cause 0x40, detail the status, in N0's queue (14 R268, R272). -/
def ringErrIn (s : State) (r c status addr : Nat) (q4 : List Nat) : ErrIn :=
  { wharf := 0, cls := 1, cause := 0x40, kind := 0, part := s.rd (fRPart r), halted := true, q2 := r + c * 2 ^ 32,
    detail := status, addr := addr, q4 := q4 }
/-- An entry of a ring's halt; the first of them is the one being handled until the ring resumes (14 R274). -/
def ringErrOne (s : State) (r : Nat) (hw : Bool) (e : ErrIn) : State :=
  (errRaise s (e.during hw (ringHandled s r))).modRing r fun g => { g with haltIx := some (g.haltIx.getD (errIndex s e.wharf)) }
/-- The descriptors of a ring that have been judged to halt it and have no entry yet get theirs. -/
def ringFlush (s : State) (r : Nat) : State :=
  (s.ring r).out.foldl (fun t d => match d.work with
    | .judged st res none =>
      if st < 0x40 then t
      else setWork (ringErrOne t r false (ringErrIn t r d.count st 0 [])) r d.count (.judged st res (some (errIndex t 0)))
    | _ => t) s
/-- A halting entry of a ring: after those of what was judged before, and its queue index. -/
def ringErr (s : State) (r : Nat) (hw : Bool) (e : ErrIn) : State × Nat :=
  let s1 := ringFlush s r
  (ringErrOne s1 r hw e, errIndex s1 e.wharf)
/-- The error entry of a ring halted on a descriptor. -/
def ringEntry (s : State) (r c status addr : Nat) (q4 : List Nat) : State := (ringErr s r false (ringErrIn s r c status addr q4)).1
/-- An uncorrectable datum that the ring engine reads or would merge: the ring's entry, status 0x4A, the entry named (14 R267). -/
def ringUe (s : State) (r count addr : Nat) (esc : Option Nat) : State × Work :=
  let x := ringErr s r true { ringErrIn s r count 0x4A addr esc.toList with escalated := esc.isSome }
  (x.1, .judged 0x4A x.2 (some x.2))

/-- The next head once a count is complete: past every count already complete. -/
def headPast : Nat → Nat → List Nat → Nat × List Nat
  | 0, h, l => (h, l)
  | f + 1, h, l => if l.contains h then headPast f (countNext h 1) (l.filter (· ≠ h)) else (h, l)

/-- The halting descriptor with the lowest count. -/
def firstHalting (h : Nat) (l : List (Nat × Nat × Nat × Nat × Nat)) : Option (Nat × Nat × Nat × Nat × Nat) :=
  l.foldl (fun m x => match m with | some y => if countFrom h x.1 < countFrom h y.1 then some x else some y | none => some x) none
/-- Is a count at or after a halting descriptor, so that it is not started any more (R56)? -/
def pastHalting (s : State) (r c : Nat) : Bool :=
  let h := s.rd (fHead r)
  let upTo (k : Nat) : Bool := decide (countFrom h k ≤ countFrom h c)
  ((s.ring r).halting.any fun x => upTo x.1) || (s.ring r).out.any fun d => d.work.halts && upTo d.count

/-- A halting descriptor whose every earlier descriptor has completed or halted halts the ring: the lowest halting count, once it is
head, is where the ring halts, and its record is written; the other halting ones are as if never started (03 R56). -/
def ringSettle (s : State) (r : Nat) : State :=
  match firstHalting (s.rd (fHead r)) (s.ring r).halting with
  | none => s
  | some (k, op, tag, status, result) =>
    if s.rd (fHead r) ≠ k then s
    else
      let irq := op / 256 = 1
      let s1 := ringStop s r k .resume (some status)
      let s2 := cplWrite s1 r k status (op % 256) tag result
      if s2.flag (fErrIrq r) || irq then ringIrq s2 r true else s2

/-- A descriptor halts its ring (03 R56): successors that have not started are cancelled; its entry is in place before its record. In
a ring already halted it is a started successor that did not complete, and leaves nothing but its entry. Of a descriptor that was never
read the record's opcode and irq are zero, as its tag is. It is not outstanding from here on, and a successor that has been dispatched has
started (03 R41; DESIGN CHOICE, all in log entry 15). -/
def ringHaltAt (s : State) (r : Nat) (d : Dispatched) (status result addr : Nat) (entry : Option Nat) : State :=
  let s0 := s.modRing r fun g => { g with out := g.out.filter fun x => decide (x.count ≠ d.count) }
  let s1 := match entry with
    | some ix => s0.modRing r fun g => { g with haltIx := some (g.haltIx.getD ix) }
    | none => ringEntry s0 r d.count status addr []
  let g := s1.ring r
  let out := g.out
  if g.st ≠ 1 then s1
  else
    let h := s1.rd (fHead r)
    let later (c : Nat) : Bool := decide (countFrom h d.count ≤ countFrom h c)
    let tag := if status = 0x43 && d.q.isEmpty then 0 else dq d.q 1
    ringSettle ((dropReqs s1 (descReqs r later)).putRing r
      { g with out := out, waiting := g.waiting.filter (fun f => !later f.count),
               halting := g.halting ++ [(d.count, dOpcode d.q + b2n (dIrq d.q) * 256, tag, status, result)] }) r

/-! ### Dispatch (03 R55) -/

/-- The relaxed bit as the ring engine takes it. -/
def Fetched.relaxed (f : Fetched) : Bool :=
  f.bad.isNone && dRelaxedBit f.q && decide (dOpcode f.q ≠ 0x08) && decide (dOpcode f.q ≠ 0x0D) && decide (dOpcode f.q ≠ 0x0E)

/-- The next descriptor of a ring that may be dispatched now (R55): none at or after a halting one (R56), none while the link stalls
(02 R32). One that is not relaxed waits for every earlier one to complete. -/
def ringNext (s : State) (r : Nat) : Option Fetched :=
  let g := s.ring r
  if g.st ≠ 1 ∨ g.out.length ≥ 64 ∨ s.isFatal ∨ s.link.stalled then none
  else match g.waiting with
    | f :: _ =>
      let h := s.rd (fHead r)
      let before (c : Nat) : Bool := decide (countFrom h c < countFrom h f.count)
      if pastHalting s r f.count ∨ asked s (descReqs r before) then none
      else if f.relaxed || !(g.out.any fun d => before d.count) then some f else none
    | [] => none

/-- A descriptor dispatched with what it waits for. -/
def ringStart (s : State) (r : Nat) (f : Fetched) (w : Work) : State :=
  s.modRing r fun g => { g with waiting := g.waiting.drop 1, out := g.out ++ [⟨f.count, f.q, s.mile, w⟩] }

/-- Descriptors that are judged without executing: a failed seq check or fetch, a malformed header, opcode or subcode
(03 R47, R49, R355). -/
def ringJudge : Nat → State → Nat → State
  | 0, s, _ => s
  | n + 1, s, r =>
    match ringNext s r with
    | some f =>
      match f.bad, dClass f.q with
      | some st, _ => ringJudge n (ringStart s r f (.judged st 0 none)) r
      | none, none => ringJudge n (ringStart s r f (.judged 0x41 0 none)) r
      | none, some _ => s
    | none => s

/-- A descriptor completes (03 R50, R51, R54): its record, with which a barge leaves its engine (09 R176), its interrupt, then head passes
every complete count; what may be judged now is judged. -/
def ringDone (s : State) (r : Nat) (d : Dispatched) (status result : Nat) : State :=
  let s0 := { s with barges := s.barges.filter fun b => !(b.complete && decide (b.origin = .ring r d.count)) }
  let s1 := cplWrite s0 r d.count status (dOpcode d.q) (dq d.q 1) result
  let s2 := if dIrq d.q then ringIrq s1 r false else s1
  let g := s2.ring r
  let hp := headPast (g.after.length + 1) (s.rd (fHead r)) (d.count :: g.after)
  ringJudge 64 (ringSettle ((s2.putRing r { g with out := g.out.filter (fun x => decide (x.count ≠ d.count)), after := hp.2 }).wr (fHead r) hp.1) r) r

/-- Classes whose work reads or writes the HBM of the ring's partition at their dispatch: they wait for its ready signal (15 R290). -/
def classUsesHbm : DClass → Bool
  | .imageLoad | .launchEnd | .launchStart | .wipeAll | .wipeRange | .report | .chain | .telemetry | .bucket => true
  | _ => false
/-- The tiles whose scratchpads an image load reads, or a certificate chain, report or snapshot is written to (03 R49). -/
def descSpads (s : State) (q : List Nat) : List Nat :=
  match dClass q with
  | some .imageLoad => dpaTiles s (nbits (dq q 2) 47 0) (nbits (dq q 3) 31 0)
  | some .chain | some .report => dpaTiles s (dq q 6) (dq q 7)
  | some .telemetry => dpaTiles s (dq q 2) (dq q 3)
  | _ => []
/-- The memory that a class and a descriptor of it use at dispatch is up; a report's scratchpad is waited for when it is signed (15 R290).
Under a host mismatch attestation is answered on the board management controller's path only (02 R26). -/
def classReady (s : State) (r : Nat) (k : DClass) (q : List Nat) : Bool :=
  (!classUsesHbm k || ([0, 1, 2, 3].all fun i => !(s.hbmWide || nbit (s.rd (fPartQuads (s.rd (fRPart r)))) i) || domUp s (120 + i)))
    && (decide (k = .report) || (descSpads s q).all (tileReady s))
    && !(s.flag fHostMismatch && (decide (k = .report) || decide (k = .chain)))

/-- The next descriptor of a ring executes if it is of the class: the body gives its effect and what it then waits for. -/
def ringExec (s : State) (r : Nat) (k : DClass) (body : State → Fetched → State × Work) : State :=
  match ringNext s r with
  | some f =>
    if f.bad.isNone && decide (dClass f.q = some k) && classReady s r k f.q then
      let b := body s f
      ringJudge 64 (ringStart b.1 r f b.2) r
    else s
  | none => s

/-- Work that is done for a descriptor settles it, unless something else has settled it before. -/
def settleWork (s : State) (r c : Nat) (w0 w : Work) : State :=
  s.modRing r fun g => { g with out := g.out.map fun d => if d.count = c ∧ d.work = w0 then { d with work := w } else d }
/-- Every dispatched descriptor of every ring that waits as described. -/
def mapWork (s : State) (f : Nat → Dispatched → Work) : State :=
  { s with rings := tmap ring0 (fun r g => { g with out := g.out.map fun d => { d with work := f r d } }) s.rings }

end Sys2Proof.Machine
end

