-- ==== Sys2Proof/Machine/BargeOps.lean ====
section
/-! DEFINITION. Barges: their shape, ranges and pieces, how one fails, and standing barges (09 R176 to R181; 13 R257). -/

namespace Sys2Proof.Machine
open Sys2Proof

/-- Is an engine code one of R176's, with this channel? -/
def engineOk (e ch : Nat) : Bool := (decide (e < 60) && decide (ch < 16)) || (decide (0x80 ≤ e) && decide (e < 0x88) && decide (ch < 8))
/-- The partition of an engine. -/
def enginePart (s : State) (e : Nat) : Option Nat := if e < 60 then s.tilePart e else s.quadPart (wharfQuad (e - 0x80))
/-- Places of an engine (09 R176). -/
def enginePlaces (e : Nat) : Nat := if e < 60 then 256 else 128
/-- Places in effect: a stack at 95 °C halves its quadrant's barge admission (15 R286). -/
def placesNow (s : State) (e : Nat) : Nat :=
  let q := if e < 60 then tileQuad e else wharfQuad (e - 0x80)
  if s.power.stackHot.any fun st => decide (wharfQuad (st / 3) = q) then enginePlaces e / 2 else enginePlaces e
/-- The wharf die whose queue takes an engine's entries (14 R268). -/
def engineQueue (e : Nat) : Nat := if e < 60 then tileWharf e else e - 0x80

/-- Element width of a transposing barge. -/
def tWidth (tr : Nat) : Nat := if tr = 1 then 2 else 4
/-- The shape rules of R177. -/
def bargeShapeOk (rows rowBytes sp dp tr : Nat) : Bool :=
  decide (rows ≠ 0) && decide (rowBytes ≠ 0) && decide (tr < 3) && (decide (rows = 1) || (decide (rowBytes ≤ sp) && (decide (tr ≠ 0) || decide (rowBytes ≤ dp))))
    && (decide (tr = 0) || (decide (rowBytes % (128 * tWidth tr) = 0) && decide (rows % 128 = 0) && decide (rows * tWidth tr ≤ dp)))

/-- Rows and bytes per row at the destination. -/
def Barge.dstRows (b : Barge) : Nat := if b.transpose = 0 then b.rows else b.rowBytes / tWidth b.transpose
def Barge.dstRowBytes (b : Barge) : Nat := if b.transpose = 0 then b.rowBytes else b.rows * tWidth b.transpose
def Barge.bytes (b : Barge) : Nat := b.rows * b.rowBytes
/-- Bytes of a piece: at most 1 KiB of a row, or one column of a 128 × 128 block (DESIGN CHOICE, log entry 11). -/
def Barge.pieceBytes (b : Barge) : Nat := if b.transpose = 0 then 1024 else 128 * tWidth b.transpose
def Barge.piecesPerRow (b : Barge) : Nat := cdiv b.dstRowBytes b.pieceBytes
def Barge.pieces (b : Barge) : Nat := b.dstRows * b.piecesPerRow

/-- The byte ranges a piece reads. -/
def Barge.pieceSrc (b : Barge) (k : Nat) : List (Nat × Nat) :=
  let row := k / b.piecesPerRow
  let o := k % b.piecesPerRow * b.pieceBytes
  let n := min b.pieceBytes (b.dstRowBytes - o)
  if b.transpose = 0 then [(b.src + row * b.srcPitch + o, n)]
  else
    let w := tWidth b.transpose
    (List.range (n / w)).map fun i => (b.src + (o / w + i) * b.srcPitch + row * w, w)
/-- The byte range a piece writes. -/
def Barge.pieceDst (b : Barge) (k : Nat) : Nat × Nat :=
  let o := k % b.piecesPerRow * b.pieceBytes
  (b.dst + k / b.piecesPerRow * b.dstPitch + o, min b.pieceBytes (b.dstRowBytes - o))

/-- Every byte range of a barge is permitted (01 R17, 09 R177). -/
def Barge.rangesOk (s : State) (b : Barge) : Bool :=
  ((List.range b.rows).all fun j => dpaOk s b.part false (b.src + j * b.srcPitch) b.rowBytes)
    && ((List.range b.dstRows).all fun j => dpaOk s b.part true (b.dst + j * b.dstPitch) b.dstRowBytes)
/-- Does a barge read or write the host window? -/
def Barge.usesHost (b : Barge) : Bool :=
  ((List.range b.rows).any fun j => touchesHost (b.src + j * b.srcPitch) b.rowBytes)
    || ((List.range b.dstRows).any fun j => touchesHost (b.dst + j * b.dstPitch) b.dstRowBytes)

/-- The barge with a number. -/
def State.barge (s : State) (id : Nat) : Option Barge := s.barges.find? fun b => decide (b.id = id)
def State.modBarge (s : State) (id : Nat) (f : Barge → Barge) : State :=
  { s with barges := s.barges.map fun b => if b.id = id then f b else b }

/-- A barge leaves its engine. -/
def State.dropBarge (s : State) (id : Nat) : State := { s with barges := s.barges.filter fun x => decide (x.id ≠ id) }

/-- q2 of a barge's entry (14 R271). -/
def Barge.q2 (b : Barge) : Nat :=
  b.engine + b.chan * 2 ^ 8 + (match b.origin with
    | .ring r c => r * 2 ^ 22 + c * 2 ^ 32
    | .standing _ ix _ => 2 ^ 12 + ix * 2 ^ 16
    | .dump => 0)

/-- The halt of a barge's containment unit under way (14 R274). -/
def Barge.handled (s : State) (b : Barge) : Option (List Nat) :=
  match b.origin with
  | .ring r _ => ringHandled s r
  | .standing _ _ fid => flightHandled s b.part fid
  | .dump => none

/-- A barge fails: nothing more is sent. Its ring's descriptor takes the status once what was sent before has ended, or its flight halts
with the entry (09 R181, R184). -/
def bargeFail (s : State) (b : Barge) (status ix : Nat) : State :=
  let s1 := s.modBarge b.id fun x => { x with failed := true }
  match b.origin with
  | .ring r c => settleWork s1 r c (.barge b.id) (.bargeHalted b.id status ix)
  | .standing _ _ fid => haltFlight s1 b.part fid ix (decide (status = 0x4D))
  | .dump => s1

/-- A barge halts with an entry of its own (14 R272, R274): a hardware error while its unit is halting is fatal. -/
def bargeHalt (s : State) (b : Barge) (w cause detail addr status : Nat) (hw : Bool) (q4 : Option Nat) (esc : Bool) : State :=
  let e : ErrIn := { wharf := w, cls := 1, cause := cause, kind := if b.engine < 60 then 2 else 3, part := b.part, halted := true, q2 := b.q2,
                     detail := detail, addr := addr, q4 := q4.toList, escalated := esc }
  match b.origin with
  | .ring r _ => let x := ringErr s r hw e; bargeFail x.1 b status x.2
  | _ => bargeFail (errRaise s (e.during hw (b.handled s))) b status (errIndex s w)

/-- An uncorrectable HBM codeword under a barge: cause 0x43 in the stack's queue, detail the symbols in error (09 R181; 14 R268). -/
def bargeHbmUe (s : State) (b : Barge) (dpa syms : Nat) (esc : Option Nat) : State :=
  bargeHalt s b (hbmStack s dpa / 3) 0x43 syms (dpa / 64 * 64) 0x4A true esc esc.isSome
/-- An uncorrectable lane-line under a barge: cause 0x44, detail 0x4A; TILE_SPAD_STATUS records it (05 R98, 09 R181). -/
def bargeSpadUe (s : State) (b : Barge) (tile ll : Nat) (esc : Option Nat) : State :=
  bargeHalt (noteUe s tile ll) b (engineQueue b.engine) 0x44 0x4A (tileWindow + tile * spadBytes + laneOff ll) 0x4A true esc esc.isSome

/-- Where a piece goes on the mesh. -/
def meshDst (s : State) (dpa : Nat) : MeshDst :=
  match dpaLoc s dpa with
  | .spad t _ => .tile t
  | .host _ => .host
  | .remote _ _ | .remoteGate _ _ _ => .remote
  | _ => .wharf (hbmStack s dpa / 3)

/-! ### The gate unit -/

/-- Ports in the order in which sets are applied (09 R175). -/
def gatePorts : List Nat := [0, 1, 2, 3, 4]

/-- The value of one gate after the operations of a cycle: the last set in port order, then the sum of the adds (09 R175). -/
def gateApply (ops : List GateOp) (g : Nat) (v : BitVec 32) : BitVec 32 :=
  let mine := ops.filter fun o => decide (o.gate = g)
  let set := (gatePorts.flatMap fun p => mine.filter fun o => o.set && decide (o.port = p)).getLast?
  let base := match set with | some o => BitVec.ofNat 32 o.value | none => v
  base + BitVec.ofNat 32 (lsum ((mine.filter fun o => !o.set).map fun o => o.value))

/-- What a gate operation of a ring answers its descriptor with: a set the value before, an add the value after (03 R53). -/
def gateAnswers (s : State) (before after : TileSt) : State :=
  before.gateOps.foldl (fun a o => match o.who with
    | .ring r c => settleWork a r c .gate (.judged 0 (tget gate0 (if o.set then before else after).gates o.gate).toNat none)
    | _ => a) s
/-- The gate that the exchange stage of a group raises (10 R189). -/
def fAddedGate (n : Nat) : Fld := ⟨aGrp n 0x28, 57, 46⟩
/-- The slots of reductions that a tile's gates now show as added (10 R199, R200): the milestone of their addition. -/
def stampAdded (s : State) (tile : Nat) : State :=
  let now (b : Bucket) (l : Landed) : Bool := decide (l.tile = some tile) && l.addedAt.isNone
    && gateReached (s.gate tile (s.rd (fAddedGate b.grp))) (BitVec.ofNat 32 (l.slot + 1))
  let stamp (b : Bucket) : Bucket := { b with landed := b.landed.map fun l => if now b l then { l with addedAt := some s.mile } else l }
  { s with buckets := s.buckets.map stamp }
/-- All operations that arrived in a tile cycle are applied, and the descriptors among their issuers complete (09 R175; 03 R50). After a fatal
error none is (14 R273, R275). -/
def gateAll (s : State) (tile : Nat) : State :=
  let t := s.tile tile
  let t' : TileSt := { t with
    gateOps := []
    gates := (t.gateOps.map fun o => o.gate).foldl (fun gs g => tset gate0 gs g (gateApply t.gateOps g (tget gate0 t.gates g))) t.gates }
  if s.isFatal then s else gateAnswers (stampAdded (s.setTile tile t') tile) t t'
/-- GATE_UNIT_APPLY of a tile whose clock runs. -/
def gateUnit (s : State) (tile : Nat) : State := if !tileReady s tile then s else gateAll s tile

/-- A gate operation arrives at its tile. -/
def gatePush (s : State) (tile : Nat) (o : GateOp) : State := s.modTile tile fun t => { t with gateOps := t.gateOps ++ [o] }
/-- A gate raised by an engine: the add arrives, and the tile cycle ends with everything that has arrived in it (09 R175; DESIGN CHOICE,
log entry 16); at a tile that is down it waits (15 R290). -/
def gateAddNow (s : State) (tile g n : Nat) : State := gateUnit (gatePush s tile ⟨g, false, n, 4, .none⟩) tile

/-- A piece handed to the mesh with its bytes, in parts where it enters another stack, scratchpad or aperture; each is a transfer (01 R14,
R17; 13 R257). -/
def pieceSend (s : State) (b : Barge) (k : Nat) (bytes : List Byte) : State :=
  let dst := (b.pieceDst k).1
  let parts := cutAt (if dst < hbmTop then 2048 else 2 ^ 24) 3 dst bytes
  let s1 : State := { s with mesh := s.mesh ++ parts.map fun (p : Posted) => (⟨b.part, meshDst s p.addr, .piece b.id k p.addr p.data, .barge b.id⟩ : MeshX) }
  s1.modBarge b.id fun x => { x with handed := x.handed + parts.length }
/-- The release gate of a standing barge whose last source byte has been read. -/
def bargeRelease (s : State) (b : Barge) : State :=
  match b.release, s.barge b.id with
  | some g, some x => if x.sent = b.pieces ∧ x.awaiting.isEmpty ∧ !x.failed then gateAddNow s b.engine g 1 else s
  | _, _ => s

/-- A request of a barge or mesh piece: granted before and not yet acted on, or presented now; denied, it is presented again (05 R96, R97).
A piece that no core may deny, and that finds cores' claims in this tile cycle, goes first in the next one. -/
def piecePresent (s : State) (tile : Nat) (who : Requester) (write : Bool) (segs : List (Nat × Nat)) : Bool × State :=
  let t := s.tile tile
  let mine (d : Denied) : Bool := decide (d.who = who) && decide (d.segs = segs) && decide (d.write = write)
  let d : Denied := ⟨who, .bargePiece, segs, write, 0, .denied⟩
  if t.won.any mine then (true, s.setTile tile { t with won := dropFirst mine t.won })
  else if t.denied.any mine then (false, s)
  else
    let r := present s tile who .bargePiece write segs
    if r.1 then r
    else if lastRank t.guard d then (false, deny s tile d)
    else
      let r2 := present (s.nextCycle tile 1) tile who .bargePiece write segs
      if r2.1 then r2 else (false, deny s tile d)

/-- A request put up for the next tile cycle. -/
def pieceQueue (s : State) (tile : Nat) (who : Requester) (write : Bool) (segs : List (Nat × Nat)) : State :=
  deny s tile ⟨who, .bargePiece, segs, write, 0, .next⟩

/-- A write of a barge or mesh piece put up for the next tile cycle: where it covers only a byte of a lane, first its read of that lane. -/
def writeQueue (s : State) (tile : Nat) (who : Requester) (o n : Nat) : State :=
  if (partLanes o n).isEmpty then pieceQueue s tile who true [(o, n)] else pieceQueue s tile who false ((partLanes o n).map fun h => (h, 2))
/-- A write of a barge or mesh piece presented: one that covers only a byte of a lane reads that lane in one tile cycle and writes it in
a later one (05 R94). -/
def writePresent (s : State) (tile : Nat) (who : Requester) (o n : Nat) : Bool × State :=
  let t := s.tile tile
  let segs := [(o, n)]
  let old := (partLanes o n).map fun h => (h, 2)
  let up := (t.denied ++ t.won).any fun d => decide (d.who = who) && decide (d.segs = segs) && d.write
  if old.isEmpty || up then piecePresent s tile who true segs
  else
    let r := piecePresent s tile who false old
    if r.1 then (false, pieceQueue r.2 tile who true segs) else r

/-- The part of byte ranges that lies in one scratchpad, as offsets. -/
def segsIn (s : State) (tile : Nat) (segs : List (Nat × Nat)) : List (Nat × Nat) :=
  (segs.flatMap fun p => rangeParts p.1 p.2).filterMap fun p => match dpaLoc s p.1 with | .spad t o => if t = tile then some (o, p.2) else none | _ => none

/-- A byte range put into the first part none of whose lanes it uses at another line. -/
def intoRound (p : Nat × Nat) : List (List (Nat × Nat)) → List (List (Nat × Nat))
  | [] => [[p]]
  | r :: rest =>
    if (footprint [p]).all fun a => (footprint r).all fun b => decide (a.1 ≠ b.1) || decide (a.2 = b.2) then (r ++ [p]) :: rest
    else r :: intoRound p rest
/-- Byte ranges split into lane-disjoint parts, one tile cycle each (05 R94). -/
def laneRounds (segs : List (Nat × Nat)) : List (List (Nat × Nat)) := segs.foldl (fun rs p => intoRound p rs) []
/-- The lane-disjoint parts of a piece's source, tile by tile. -/
def pieceRounds (s : State) (b : Barge) (k : Nat) : List (Nat × List (Nat × Nat)) :=
  let tiles := (((b.pieceSrc k).flatMap fun p => rangeParts p.1 p.2).filterMap fun p => match dpaLoc s p.1 with | .spad t _ => some t | _ => none).eraseDups
  tiles.flatMap fun t => (laneRounds (segsIn s t (b.pieceSrc k))).map fun r => (t, r)

/-- The data of a piece read from HBM (14 R267): `at_` of an ECC event is the address of the codeword. -/
def pieceFromHbm (s : State) (b : Barge) (k : Nat) (ecc : Option Upset) : State :=
  let r : State × EccOut := match ecc with | some u => hbmEcc s b.part u.at_ u.syn u.bad | none => (s, .corrected)
  let s1 := r.1.modBarge b.id fun x => { x with sent := x.sent + 1 }
  match r.2, ecc with
  | .bad esc, some u => bargeHbmUe r.1 b u.at_ (if u.bad then max 1 u.syn else 2) esc
  | _, _ => match (b.pieceSrc k).findSome? fun p => hbmFirstUe s1 p.1 p.2 with
    | some ue => bargeHbmUe r.1 b ue.1 ue.2 none
    | none => bargeRelease (pieceSend s1 b k ((b.pieceSrc k).flatMap fun p => dpaRead s1 p.1 p.2)) b

/-- The data of a piece read from scratchpads, part by part (05 R94, R96 to R98). -/
def pieceFromSpad (s : State) (b : Barge) (k : Nat) (ecc : Option Upset) : State :=
  let rounds := pieceRounds s b k
  match rounds[b.round]? with
  | none => s
  | some (tile, segs) =>
    let p := piecePresent s tile (.barge b.id) false segs
    if !p.1 then p.2
    else
      let r : State × EccOut := match ecc with | some u => spadEcc p.2 tile u.at_ u.syn u.bad | none => (p.2, .corrected)
      match r.2, ecc with
      | .bad esc, some u => bargeSpadUe r.1 b tile u.at_ esc
      | _, _ => match firstUe r.1 tile segs, rounds[b.round + 1]? with
        | some u, _ => bargeSpadUe r.1 b tile u.ll none
        | none, some (t2, segs2) => pieceQueue (r.1.modBarge b.id fun x => { x with round := x.round + 1 }) t2 (.barge b.id) false segs2
        | none, none => pieceFromHbm (r.1.modBarge b.id fun x => { x with round := 0 }) b k none

/-- A piece read from the host window: one non-posted request for each contiguous run of its source; an address the link cannot carry is a
host-window fault (01 R18, 02 R25). During a stall barges wait (02 R32). -/
def pieceFromHost (s : State) (b : Barge) (k : Nat) : State :=
  let runs := b.pieceSrc k
  match (if s.dlActive then runs.find? fun p => !busOk s (p.1 - hostWindow) p.2 else runs.head?) with
  | some p => bargeHalt s b (engineQueue b.engine) 0x44 0x43 p.1 0x43 false none false
  | none =>
    if !mayAsk s then s
    else ((List.range runs.length).foldl (fun t i => hostAsk t (.piece b.id k i) ((lget (0, 0) runs i).1 - hostWindow) (lget (0, 0) runs i).2) s).modBarge
      b.id fun x => { x with sent := x.sent + 1, awaiting := x.awaiting ++ [k] }

/-- Does a barge engine run: that of a tile while the tile is up (15 R290)? -/
def engineUp (s : State) (e : Nat) : Bool := decide (60 ≤ e) || tileReady s e
/-- May a barge send its next piece: admitted, and every piece of the channel's earlier barges handed over (09 R178)? -/
def bargeMaySend (s : State) (b : Barge) : Bool :=
  b.admitted && engineUp s b.engine && !b.failed && decide (b.sent < b.pieces) && !s.isFatal
    && (s.barges.takeWhile fun x => decide (x.id ≠ b.id)).all fun x =>
      decide (x.engine ≠ b.engine) || decide (x.chan ≠ b.chan) || x.failed || (decide (x.sent = x.pieces) && x.awaiting.isEmpty)

/-- The next piece of a barge is read and handed to the mesh (09 R178). -/
def pieceRead (s : State) (id : Nat) (ecc : Option Upset) : State :=
  match s.barge id with
  | none => s
  | some b =>
    if !bargeMaySend s b ∨ !(b.pieceSrc b.sent).all (fun p => locReady s p.1 && locReady s (p.1 + p.2 - 1)) then s
    else
      match dpaLoc s ((b.pieceSrc b.sent).headD (0, 0)).1 with
      | .spad _ _ => pieceFromSpad s b b.sent ecc
      | .host _ => pieceFromHost s b b.sent
      | .hbm => pieceFromHbm s b b.sent ecc
      | _ => bargeHalt s b (engineQueue b.engine) 0x44 0x42 ((b.pieceSrc b.sent).headD (0, 0)).1 0x42 false none false

/-- The bytes of a piece whose runs have all arrived, in the order of the runs. -/
def piecePut (b : Barge) (k : Nat) : Option (List Byte) :=
  let n := (b.pieceSrc k).length
  let got (i : Nat) : Option (List Byte) := b.got.findSome? fun x => if x.1 = k ∧ x.2.1 = i then some x.2.2 else none
  if (List.range n).all fun i => (got i).isSome then some ((List.range n).flatMap fun i => (got i).getD []) else none
/-- The host's data of a run of a piece arrive, or the request is refused (01 R18, 14 R266). The piece goes on once all of its runs are there;
what still arrives of a refused piece, or of a barge that has failed, is of no use (09 R181). -/
def pieceArrives (s : State) (id k i : Nat) (data : Option (List Byte)) : State :=
  match s.barge id with
  | none => s
  | some b =>
    let run := lget (0, 0) (b.pieceSrc k) i
    let s0 := s.modBarge id fun x => { x with awaiting := x.awaiting.filter (· ≠ k), got := x.got.filter fun g => decide (g.1 ≠ k) }
    if !b.awaiting.contains k then s
    else if b.failed then s0
    else match data with
    | some bs =>
      let b1 := { b with got := b.got ++ [(k, i, takePad run.2 bs)] }
      match piecePut b1 k with
      | some bytes => bargeRelease (pieceSend s0 b k bytes) b
      | none => s.modBarge id fun _ => b1
    | none => bargeHalt s0 b (engineQueue b.engine) 0x44 0x43 run.1 0x43 false none false

/-- A piece's bytes are visible. -/
def pieceWritten (s : State) (id n : Nat) : State := s.modBarge id fun x => { x with written := x.written + 1, moved := x.moved + n }

/-- A remote-target entry as it stands (13 R256): vc, destination partition and module, base. -/
def remEntry (s : State) (part e : Nat) : Nat × Nat × Nat × Nat :=
  let q0 := (s.reg (0x2000 + 0x400 * part + 0x10 * e)).toNat
  (nbits q0 28 26, nbits q0 25 24, nbits q0 23 0, (s.reg (0x2000 + 0x400 * part + 0x10 * e + 8)).toNat % 2 ^ 48)
/-- A message originates at a wharf die (13 R254). -/
def originate (s : State) (m : RemoteMsg) : State := { s with remotes := s.remotes ++ [{ m with no := s.arrivals }], arrivals := s.arrivals + 1 }
/-- A piece becomes a message through a remote-target entry; through one that is no longer valid it is an address fault (13 R257). -/
def pieceRemote (s : State) (b : Barge) (e dpa n cls : Nat) (body : Nat → List Byte) : State :=
  let x := remEntry s b.part e
  if s.flag (fRemValid b.part e) then
    originate s { barge := some (b.id, n), part := b.part, dstModule := x.2.2.1, dstPart := x.2.1, vc := x.1, cls := cls, body := body x.2.2.2,
                  home := engineQueue b.engine }
  else bargeHalt (s.modBarge b.id fun y => { y with written := y.written + 1 }) b (engineQueue b.engine) 0x44 0x42 dpa 0x42 false none false
/-- A piece, or its part, that meets its destination (09 R178, R181; 14 R267): false while it is denied its lanes. -/
def pieceLand (s : State) (id dpa : Nat) (bytes : List Byte) (ecc : Option Upset) : Bool × State :=
  let lost (t : State) : State := t.modBarge id fun x => { x with written := x.written + 1 }
  match s.barge id with
  | none => (true, s)
  | some b =>
    match dpaLoc s dpa with
    | .spad t o =>
      let n := min bytes.length (spadBytes - o)
      let p := writePresent s t (.barge id) o n
      if !p.1 then p
      else
        let r : State × EccOut := match ecc with | some u => spadEcc p.2 t u.at_ u.syn u.bad | none => (p.2, .corrected)
        match r.2, ecc with
        | .bad esc, some u => (true, bargeSpadUe (lost r.1) b t u.at_ esc)
        | _, _ => match ((partLanes o n).map laneLine).find? fun l => tget falseAt (r.1.tile t).ue l with
          | some ll => (true, bargeSpadUe (lost r.1) b t ll none)
          | none => (true, pieceWritten (spadWrite r.1 t o bytes) id bytes.length)
    | .hbm =>
      let r : State × EccOut := match ecc with | some u => hbmEcc s b.part u.at_ u.syn u.bad | none => (s, .corrected)
      match r.2, ecc with
      | .bad esc, some u => (true, bargeHbmUe (lost r.1) b u.at_ (if u.bad then max 1 u.syn else 2) esc)
      | _, _ => match hbmPartUe r.1 dpa bytes.length with
        | some ue => (true, bargeHbmUe (lost r.1) b ue.1 ue.2 none)
        | none => (true, pieceWritten (hbmWrite r.1 dpa bytes) id bytes.length)
    | .host bus =>
      if s.link.stalled then (false, s)
      else if s.dlActive ∧ busOk s bus bytes.length then (true, pieceWritten (hostPost s bus bytes) id bytes.length)
      else (true, bargeHalt (lost s) b (engineQueue b.engine) 0x44 0x43 dpa 0x43 false none false)
    | .remote e o =>
      (true, pieceRemote s b e dpa bytes.length 1 fun base => leBytes 8 ((base + o) % 2 ^ 48) ++ leBytes 8 0 ++ bytes)
    | .remoteGate e t g => (true, pieceRemote s b e dpa bytes.length 2 fun _ => leBytes 8 (gateRef t g) ++ leBytes 8 (leNat bytes))
    | .nowhere => (true, bargeHalt (lost s) b (engineQueue b.engine) 0x44 0x42 dpa 0x42 false none false)

/-- The places of a wharf engine that forwarded segments hold until they have left their ports (09 R176, 10 R192). -/
def segPlaces (s : State) (w : Nat) : Nat := lsum (s.ports.map fun p => (p.2.outq.filter fun m => decide (m.wharf = some w)).length)
/-- Has an engine a place left? -/
def placeFree (s : State) (e : Nat) : Bool :=
  decide ((s.barges.filter fun x => decide (x.engine = e) && x.admitted).length + (if e < 0x80 then 0 else segPlaces s (e - 0x80)) < placesNow s e)

/-- Has a dump stopped every core of a flight, so that its standing barges fire no more (09 R184, R186)? -/
def dumpStopped (s : State) (f : Flight) : Bool :=
  decide (f.step = .running) && !(dumpsOf s f.part f.fid).isEmpty && f.cores.all fun u => decide ((s.core u).phase ≠ .run)
/-- Is a firing of a flight that a dump has stopped? -/
def Barge.stopped (s : State) (b : Barge) : Bool :=
  match b.origin with
  | .standing _ _ fid => (flightOf s b.part fid).any (dumpStopped s)
  | _ => false
/-- The remote-target entries through which a barge sends (13 R257). -/
def Barge.entries (s : State) (b : Barge) : List Nat :=
  ((List.range b.dstRows).flatMap fun j => (rangeParts (b.dst + j * b.dstPitch) b.dstRowBytes).filterMap fun p => match dpaLoc s p.1 with
    | .remote e _ | .remoteGate e _ _ => some e
    | _ => none).eraseDups
/-- Admission: the first ready barge of its engine, when a place is free (09 R176); no firing of a flight that has stopped (R184, R186). -/
def bargeAdmit (s : State) (id : Nat) : State :=
  match s.barge id with
  | none => s
  | some b =>
    if b.admitted ∨ s.isFatal ∨ !engineUp s b.engine ∨ b.stopped s ∨ !placeFree s b.engine
        ∨ (s.barges.find? fun x => decide (x.engine = b.engine) && !x.admitted).map (fun x => x.id) ≠ some id then s
    else
      let s1 := s.modBarge id fun x => { x with admitted := true }
      match b.origin with
      | .standing t ix _ => s1.modTile t fun ti =>
          { ti with standing := tset (fun _ => none) ti.standing ix ((tget (fun _ => none) ti.standing ix).map fun st => { st with admitted := st.admitted + 1 }) }
      | _ => s1

/-- A standing barge's i-th firing as a barge (09 R179). -/
def firing (s : State) (tile ix i : Nat) (st : Standing) : Barge :=
  let q (j : Nat) : Nat := (lget 0#64 st.entry j).toNat
  let done := match decRef (q 6) with | .gate t g => some (t * 4096 + g) | _ => none
  { id := s.bargeNext, part := st.part, engine := tile, chan := nbits (q 5) 41 38,
    src := nbits (q 0) 47 0 + i % nbits (q 0) 55 48 * nbits (q 2) 31 0,
    dst := nbits (q 1) 47 0 + i % nbits (q 0) 63 56 * nbits (q 2) 63 32,
    rowBytes := nbits (q 3) 31 0, rows := nbits (q 3) 63 32, srcPitch := nbits (q 4) 31 0, dstPitch := nbits (q 4) 63 32,
    transpose := nbits (q 5) 43 42, done := done, release := if nbit (q 5) 25 then some (nbits (q 5) 37 26) else none,
    origin := .standing tile ix st.flight, ready := (s.tile tile).tcyc }

/-- Firings of a standing barge that have become ready so far. -/
def firedSoFar (s : State) (tile ix : Nat) (st : Standing) : Nat :=
  st.admitted + (s.barges.filter fun b => !b.admitted && (match b.origin with | .standing t j _ => decide (t = tile) && decide (j = ix) | _ => false)).length

/-- Do the gates allow the next firing of a standing barge (09 R179)? -/
def standingReady (s : State) (tile ix : Nat) : Bool :=
  match tget (fun _ => none) (s.tile tile).standing ix with
  | none => false
  | some st =>
    let q (j : Nat) : Nat := (lget 0#64 st.entry j).toNat
    let n := firedSoFar s tile ix st + 1
    let credit := nbits (q 7) 15 0
    st.armed && (decide (nbits (q 6) 63 32 = 0) || decide (n ≤ nbits (q 6) 63 32))
      && gateReached (s.gate tile (nbits (q 5) 11 0)) (BitVec.ofNat 32 (st.bT + n))
      && (!nbit (q 5) 24 || gateReached (s.gate tile (nbits (q 5) 23 12) + BitVec.ofNat 32 credit) (BitVec.ofNat 32 (st.bC + n)))

/-- Does a ready barge let a firing of the same tile cycle go before it: a descriptor's, or a firing of a later entry (09 R176)? -/
def givesWay (a : Barge) (ix : Nat) (b : Barge) : Bool :=
  decide (b.engine = a.engine) && !b.admitted && decide (b.ready = a.ready)
    && match b.origin with | .standing _ jx _ => decide (ix < jx) | _ => true
/-- A firing takes its place among the ready barges of its engine (09 R176). -/
def firingIn (l : List Barge) (a : Barge) (ix : Nat) : List Barge :=
  let n := (l.takeWhile fun b => !givesWay a ix b).length
  l.take n ++ a :: l.drop n

/-- A standing barge fires: its bytes are checked under R17, and a failure halts its flight (09 R179). -/
def standingFire (s : State) (tile ix : Nat) : State :=
  if !standingReady s tile ix ∨ s.isFatal ∨ !tileReady s tile then s
  else match tget (fun _ => none) (s.tile tile).standing ix with
  | none => s
  | some st =>
    let i := firedSoFar s tile ix st
    let b := firing s tile ix i st
    let lim := nbits (lget 0#64 st.entry 6).toNat 63 32
    if !b.rangesOk s then bargeHalt s b (engineQueue tile) 0x44 0x42 b.src 0x42 false none false
    else
      let s1 := { s with barges := firingIn s.barges b ix, bargeNext := s.bargeNext + 1 }
      if lim ≠ 0 ∧ i + 1 = lim then
        s1.modTile tile fun ti => { ti with standing := tset (fun _ => none) ti.standing ix (some { st with armed := false }) }
      else s1

/-- A failed barge leaves its engine: the bytes that it has written are known, and its descriptor takes its status (14 R356). -/
def bargeLeaves (s : State) (b : Barge) : State :=
  let s1 := s.dropBarge b.id
  match b.origin with
  | .ring r _ => s1.modRing r fun g => { g with out := g.out.map fun d => match d.work with
      | .bargeHalted i st ix => if i = b.id then { d with work := .judged st (if st = 0x4A then ix else b.moved) (some ix) } else d
      | _ => d }
  | _ => s1
/-- A descriptor barge is complete: it keeps its place until its record is written (09 R176), if its ring still has the descriptor. -/
def bargeRecorded (s : State) (b : Barge) (r c : Nat) : State :=
  if (s.ring r).out.any fun d => decide (d.count = c) && decide (d.work = .barge b.id) then
    settleWork (s.modBarge b.id fun x => { x with complete := true }) r c (.barge b.id) (.judged 0 b.bytes none)
  else s.dropBarge b.id
/-- A barge completes (09 R177 to R179): every byte visible, earlier barges of its channel complete; its done gate rises, then its
descriptor may be recorded. A failed barge leaves its place with neither. While the tile of its done gate is down the barge keeps its place, since
the increment is not visible there (09 R176, R177; 15 R290). -/
def bargeComplete (s : State) (id : Nat) : State :=
  match s.barge id with
  | none => s
  | some b =>
    let earlier := (s.barges.takeWhile fun x => decide (x.id ≠ id)).any fun x =>
      decide (x.engine = b.engine) && decide (x.chan = b.chan) && !x.complete
    if b.complete ∨ b.written < b.handed ∨ !b.awaiting.isEmpty then s
    else if b.failed then bargeLeaves s b
    else if !b.admitted ∨ b.sent < b.pieces ∨ earlier ∨ s.isFatal ∨ (b.done.any fun k => !tileReady s (k / 4096)) then s
    else
      let s2 := match b.done with | some k => gateAddNow s (k / 4096) (k % 4096) 1 | none => s
      match b.origin with
      | .ring r c => bargeRecorded s2 b r c
      | .standing t ix _ => (s2.dropBarge id).modTile t fun ti =>
          { ti with standing := tset (fun _ => none) ti.standing ix ((tget (fun _ => none) ti.standing ix).map fun st => { st with completed := st.completed + 1 }) }
      | .dump => s2.dropBarge id

end Sys2Proof.Machine
end

