-- ==== Sys2Proof/Machine/Sha.lean ====
section
/-! DEFINITION. SHA-384 (FIPS 180-4), the digest of flight images and of the measurement ledger (09 R168, 16 R297), and the CRC-32 of
a flit (11 R211). -/

namespace Sys2Proof.Machine
open Sys2Proof

/-- Has n no divisor from 2 below it? -/
def isPrime (n : Nat) : Bool := decide (2 ≤ n) && ((List.range n).drop 2).all fun d => decide (n % d ≠ 0)
/-- The primes below 410: the first eighty. -/
def shaPrimes : List Nat := (List.range 410).filter isPrime
/-- The largest x below 2^b more than lo whose k-th power is at most n, one bit at a time. -/
def rootBits (k n : Nat) : Nat → Nat → Nat
  | 0, lo => lo
  | b + 1, lo => rootBits k n b (if (lo + 2 ^ b) ^ k ≤ n then lo + 2 ^ b else lo)
/-- The first 64 bits of the fraction of the k-th root of p. -/
def rootFrac (k p : Nat) : Word64 := BitVec.ofNat 64 (rootBits k (p * 2 ^ (64 * k)) 69 0)

/-- The hash value as its two interleaved histories, newest first: the words a to d, and e to h. -/
structure Sha where
  hi : List Word64
  lo : List Word64
  deriving DecidableEq, Repr

/-- The eighty round constants: cube roots of the first eighty primes. -/
def shaConsts : List Word64 := shaPrimes.map (rootFrac 3)
/-- The initial hash value of SHA-384: square roots of the ninth to sixteenth primes. -/
def shaStart : Sha :=
  let w := ((shaPrimes.drop 8).take 8).map (rootFrac 2)
  ⟨w.take 4, w.drop 4⟩

/-- The sum of a word turned right by each of some distances, modulo 2. -/
def turns (x : Word64) (l : List Nat) : Word64 := l.foldl (fun a n => a ^^^ x.rotateRight n) 0#64

/-- A message schedule of n more words, newest first. -/
def shaSchedule : Nat → List Word64 → List Word64
  | 0, w => w
  | n + 1, w =>
    let old := lget 0#64 w 14
    let new := lget 0#64 w 1
    shaSchedule n ((lget 0#64 w 15 + (turns old [1, 8] ^^^ old >>> 7) + lget 0#64 w 6 + (turns new [19, 61] ^^^ new >>> 6)) :: w)

/-- One round: a word enters each history, the oldest leaves it. -/
def shaStep (h : Sha) (kw : Word64) : Sha :=
  let a := lget 0#64 h.hi
  let e := lget 0#64 h.lo
  let choice := e 2 ^^^ (e 0 &&& (e 1 ^^^ e 2))
  let major := (a 0 &&& (a 1 ||| a 2)) ||| (a 1 &&& a 2)
  let t := kw + e 3 + turns (e 0) [14, 18, 41] + choice
  ⟨(t + turns (a 0) [28, 34, 39] + major) :: h.hi.take 3, (a 3 + t) :: h.lo.take 3⟩

/-- The big-endian number in bytes. -/
def beNat (bs : List Byte) : Nat := bs.foldl (fun a b => 256 * a + b.toNat) 0
/-- The big-endian bytes of a number. -/
def beBytes (n v : Nat) : List Byte := (leBytes n v).reverse

/-- One 128-byte block compressed into the hash value. -/
def shaBlock (h : Sha) (blk : List Byte) : Sha :=
  let first := (List.range 16).map fun i => BitVec.ofNat 64 (beNat ((blk.drop (120 - 8 * i)).take 8))
  let kw := (shaConsts.zip (shaSchedule 64 first).reverse).map fun p => p.1 + p.2
  let g := kw.foldl shaStep h
  ⟨List.zipWith (· + ·) h.hi g.hi, List.zipWith (· + ·) h.lo g.lo⟩

/-- A message ended by a one bit, zeros, and its length in bits as 16 bytes, in whole blocks. -/
def shaPad (m : List Byte) : List Byte :=
  m ++ [0x80#8] ++ List.replicate ((128 - (m.length + 17) % 128) % 128) 0#8 ++ beBytes 16 (8 * m.length)

/-- SHA-384 (16 R297 and wherever the specification names a digest): the first six words of the hash value of the padded message. -/
def sha384 (m : List Byte) : List Byte :=
  let p := shaPad m
  let h := (List.range (p.length / 128)).foldl (fun h i => shaBlock h ((p.drop (128 * i)).take 128)) shaStart
  (h.hi ++ h.lo.take 2).flatMap fun w => beBytes 8 w.toNat

/-- One bit of a reflected CRC-32, polynomial 0xEDB88320. -/
def crcBit (c : Nat) : Nat := if c % 2 = 1 then (c / 2) ^^^ 0xEDB88320 else c / 2
def crcByte (c : Nat) (b : Byte) : Nat := (List.range 8).foldl (fun x _ => crcBit x) (c ^^^ b.toNat)
/-- CRC-32 of bytes, initial value and final inversion all ones. -/
def crc32 (bs : List Byte) : Nat := (bs.foldl crcByte 0xFFFFFFFF) ^^^ 0xFFFFFFFF
/-- Bytes with their CRC-32 after them (11 R212, R223). -/
def withCrc (b : List Byte) : List Byte := b ++ leBytes 4 (crc32 b)

end Sys2Proof.Machine
end

