-- ==== Sys2Proof/Machine/ImageOps.lean ====
section
/-! DEFINITION. Flight images in HBM: header, tables, and the checks of a load and of a launch (09 R168 to R172, R179). -/

namespace Sys2Proof.Machine
open Sys2Proof

/-- A quadword of an image. -/
def im64 (s : State) (dpa off : Nat) : Nat := hbmNat s (dpa + off) 8

/-! Header fields (09 R168). -/
def imgStages (s : State) (d : Nat) : Nat := nbits (im64 s d 8) 15 0
def imgGates (s : State) (d : Nat) : Nat := nbits (im64 s d 8) 31 16
def imgStanding (s : State) (d : Nat) : Nat := nbits (im64 s d 8) 47 32
def imgClock (s : State) (d : Nat) : Nat := nbits (im64 s d 8) 63 48
def imgStageOff (s : State) (d : Nat) : Nat := nbits (im64 s d 0x58) 31 0
def imgGateOff (s : State) (d : Nat) : Nat := nbits (im64 s d 0x58) 63 32
def imgStandOff (s : State) (d : Nat) : Nat := nbits (im64 s d 0x60) 31 0
def imgDigest (s : State) (d : Nat) : List Byte := hbmRead s (d + 0xD0) 48

/-- A stage entry (09 R169): its address, and fields. -/
def stageAt (s : State) (d i : Nat) : Nat := d + imgStageOff s d + 0x1080 * i
def stTile (s : State) (a : Nat) : Nat := nbits (hbmNat s a 8) 5 0
def stCore (s : State) (a : Nat) : Nat := nbits (hbmNat s a 8) 9 8
def stUid (s : State) (a : Nat) : Nat := 4 * stTile s a + stCore s a
def stId (s : State) (a : Nat) : Nat := nbits (hbmNat s a 8) 31 16
def stEntry (s : State) (a : Nat) : Nat := nbits (hbmNat s a 8) 44 32
def stCount (s : State) (a : Nat) : Nat := nbits (hbmNat s a 8) 61 48
def stProg (s : State) (a : Nat) : Nat := nbits (hbmNat s (a + 8) 8) 31 0
/-- The CSRs that a stage entry initialises, in its order. -/
def csrInits : List Nat := [csrRound, csrSeed, csrPrec, csrWinA, csrWinB, csrWaitTo, csrTrap]

/-- Magic, version, id, length, tables, digest (09 R168; first check of R171). -/
def imgHeaderOk (s : State) (d id len : Nat) : Bool :=
  let tab (off n size : Nat) : Bool := decide (off % 64 = 0) && decide (off < len) && decide (off + n * size ≤ len)
  decide (0x100 ≤ len) && decide (im64 s d 0 = 0x494C464B + 2 ^ 32 + id * 2 ^ 48)
    && decide (1 ≤ imgStages s d) && decide (imgStages s d ≤ 240) && decide (imgGates s d ≤ 4096) && decide (imgStanding s d ≤ 3840)
    && (decide (imgClock s d = 0) || (decide (400 ≤ imgClock s d) && decide (imgClock s d ≤ 1800)))
    && decide (im64 s d 0x50 = len) && decide (im64 s d 0x60 < 2 ^ 32)
    && ((upFrom 13 13).all fun i => decide (im64 s d (8 * i) = 0))
    && tab (imgStageOff s d) (imgStages s d) 0x1080 && tab (imgGateOff s d) (imgGates s d) 8 && tab (imgStandOff s d) (imgStanding s d) 64
    && decide (imgDigest s d = sha384 (hbmRead s d 0xD0 ++ hbmRead s (d + 0x100) (len - 0x100)))

/-- The profile equals the FEAT_ registers in every bit, and the spare map matches (01 R5, R12; second check of R171). -/
def imgProfileOk (s : State) (d : Nat) : Bool :=
  ((List.range 7).all fun i => decide (im64 s d (0x10 + 8 * i) = (s.reg (0x1080 + 8 * i)).toNat))
    && (decide (im64 s d 0x48 = 0) || decide (im64 s d 0x48 = (s.reg 0x1018).toNat))

/-- Is a stage entry well formed (09 R169; 05 R100; 04 R75)? -/
def stageOk (s : State) (d len i : Nat) : Bool :=
  let a := stageAt s d i
  let w := hbmNat s a 8
  decide (nbits w 7 6 = 0) && decide (nbits w 15 10 = 0) && decide (nbits w 47 45 = 0) && decide (nbits w 63 62 = 0)
    && decide (stTile s a < 60) && decide (1 ≤ stCount s a) && decide (stCount s a ≤ 8192) && decide (stEntry s a < stCount s a)
    && decide (hbmNat s (a + 8) 8 < 2 ^ 32) && decide (stProg s a % 32 = 0) && decide (stProg s a + 32 * stCount s a ≤ len)
    && ((upFrom 2 6).all fun k => decide (hbmNat s (a + 8 * k) 8 = 0)) && decide (hbmNat s (a + 0x78) 8 = 0)
    && ((List.range 7).all fun k => !csrBad (lget 0 csrInits k) (hbmNat s (a + 0x40 + 8 * k) 8))
    && ((List.range 32).all fun p => strideOk fun k => hbmNat s (a + 0x80 + 128 * p + 8 * k) 8)

/-- Is a gate initialisation entry well formed (09 R170)? -/
def gateInitOk (w : Nat) : Bool := decide (nbits w 63 50 = 0) && decide (nbits w 49 44 < 60)

/-- A standing-barge entry (09 R179). -/
def standAt (s : State) (d i : Nat) : Nat := d + imgStandOff s d + 64 * i
def standWords (s : State) (d i : Nat) : List Word64 := (List.range 8).map fun k => BitVec.ofNat 64 (hbmNat s (standAt s d i + 8 * k) 8)
def standTile (s : State) (d i : Nat) : Nat := nbits (hbmNat s (standAt s d i + 40) 8) 49 44
/-- Does an address lie in a scratchpad window (01 R17)? -/
def inSpadWindow (a : Nat) : Bool := decide (siteWindow ≤ a) && decide (a < tileWindow + 60 * spadBytes)
/-- Does every slot of a reach lie within one scratchpad of the window (05 R106): its rows with their pitch, at each of its slots? -/
def reachFits (dst slots stride rows rowBytes pitch : Nat) : Bool :=
  (List.range slots).all fun i =>
    let a := dst + i * stride
    decide (a / spadBytes = (a + (rows - 1) * pitch + rowBytes - 1) / spadBytes) && decide (a / spadBytes = dst / spadBytes)
/-- Is a standing-barge entry well formed (09 R179, 05 R106)? -/
def standOk (s : State) (d i : Nat) (tiles : List Nat) : Bool :=
  let q (k : Nat) : Nat := hbmNat s (standAt s d i + 8 * k) 8
  let dst := nbits (q 1) 47 0
  decide (nbits (q 1) 63 48 = 0) && decide (nbits (q 5) 63 50 = 0) && decide (nbits (q 7) 63 16 = 0)
    && decide (nbits (q 0) 55 48 ≠ 0) && decide (nbits (q 0) 63 56 ≠ 0)
    && tiles.contains (nbits (q 5) 49 44)
    && bargeShapeOk (nbits (q 3) 63 32) (nbits (q 3) 31 0) (nbits (q 4) 31 0) (nbits (q 4) 63 32) (nbits (q 5) 43 42)
    && (!inSpadWindow dst || (decide (dst % 1024 = 0) && decide (nbits (q 2) 63 32 % 1024 = 0) && decide (nbits (q 4) 63 32 % 1024 = 0)
          && decide (nbits (q 3) 31 0 % 1024 = 0)
          && reachFits dst (nbits (q 0) 63 56) (nbits (q 2) 63 32) (if nbits (q 5) 43 42 = 0 then nbits (q 3) 63 32 else nbits (q 3) 31 0 / tWidth (nbits (q 5) 43 42))
            (if nbits (q 5) 43 42 = 0 then nbits (q 3) 31 0 else nbits (q 3) 63 32 * tWidth (nbits (q 5) 43 42)) (nbits (q 4) 63 32)))
    && decide (decRef (q 6) ≠ .bad)

/-- The cores and tiles that an image names. -/
def imgCores (s : State) (d : Nat) : List Nat := (List.range (imgStages s d)).map fun i => stUid s (stageAt s d i)
def imgTiles (s : State) (d : Nat) : List Nat := ((List.range 60).filter fun t => (imgCores s d).any fun u => decide (u / 4 = t))

/-- Every table is well formed (third check of R171; 09 R188). -/
def imgTablesOk (s : State) (d len : Nat) : Bool :=
  let tiles := imgTiles s d
  ((List.range (imgStages s d)).all fun i => stageOk s d len i)
    && decide ((imgCores s d).Nodup)
    && ((List.range (imgGates s d)).all fun i => gateInitOk (im64 s d (imgGateOff s d + 8 * i)))
    && ((List.range (imgStanding s d)).all fun i => standOk s d i tiles)
    && ((List.range 60).all fun t => decide (((List.range (imgStanding s d)).filter fun i => decide (standTile s d i = t)).length ≤ 64))

/-- The status of an image's check (09 R171), 0 when it passes. -/
def imgCheck (s : State) (d id len : Nat) : Nat :=
  if !imgHeaderOk s d id len then 0x49 else if !imgProfileOk s d then 0x48 else if !imgTablesOk s d len then 0x49 else 0

/-- Does a running flight use the image (09 R171)? -/
def imgUsed (s : State) (part id : Nat) : Bool := s.flights.any fun f => decide (f.part = part) && decide (f.image = id) && decide (f.step ≠ .check)
def State.image (s : State) (part id : Nat) : Option Image := s.images.find? fun m => decide (m.part = part) && decide (m.id = id)

/-- The end of an image load: bytes are written, checked, and the image enters the table (09 R171): status. -/
def imgEnter (s : State) (part id dst : Nat) (bytes : List Byte) : State × Nat :=
  let s1 := hbmWrite s dst bytes
  let st := imgCheck s1 dst id bytes.length
  if st ≠ 0 then (s1, st)
  else if (s1.image part id).isSome then
    if imgUsed s1 part id then (s1, 0x41)
    else ({ s1 with images := (s1.images.filter fun m => !(decide (m.part = part) && decide (m.id = id))) ++ [⟨part, id, dst, bytes.length, imgDigest s1 dst⟩] }, 0)
  else if (s1.images.filter fun m => decide (m.part = part)).length ≥ 64 then (s1, 0x41)
  else ({ s1 with images := s1.images ++ [⟨part, id, dst, bytes.length, imgDigest s1 dst⟩] }, 0)

/-- A standing entry as armed, before its bases are known. -/
def standingOf (s : State) (f : Flight) (i : Nat) : Standing := ⟨f.part, f.fid, standWords s f.dpa i, 0, 0, 0, 0, true⟩

/-- The refusal of a launch before its first step (09 R172), 0 when none. -/
def launchRefused (s : State) (part id fid : Nat) : Nat :=
  match s.image part id with
  | none => 0x41
  | some m =>
    if (flightOf s part fid).isSome then 0x41
    else if (imgCores s m.dpa).any fun u => !ownsTile s part (u / 4) then 0x42
    else if (List.range (imgGates s m.dpa)).any fun i => !ownsTile s part (nbits (im64 s m.dpa (imgGateOff s m.dpa + 8 * i)) 49 44) then 0x42
    else if (List.range (imgStanding s m.dpa)).any (fun i =>
      let w := standWords s m.dpa i
      let st : Standing := ⟨part, fid, w, 0, 0, 0, 0, true⟩
      let slots := max (nbits (lget 0#64 w 0).toNat 55 48) (nbits (lget 0#64 w 0).toNat 63 56)
      (match decRef (lget 0#64 w 6).toNat with | .gate t _ => !ownsTile s part t | _ => false)
        || (List.range slots).any fun k => !(firing s (standTile s m.dpa i) 0 k st).rangesOk s) then 0x42
    else 0

end Sys2Proof.Machine
end

