-- ==== Sys2Proof/Machine/FlightOps.lean ====
section
/-! DEFINITION. Flights: launch steps, common clock, stops, halt notices, dumps and the end (04 R87, R88; 09 R172, R173, R183 to
R187; 16 R315). -/

namespace Sys2Proof.Machine
open Sys2Proof

/-! ### Clocks of the tiles (09 R183) -/
def fTileClock (n : Nat) : Fld := ⟨aPwr (0x100 + 8 * n), 63, 52⟩
def fTileCeiling (n : Nat) : Fld := ⟨aPwr (0x100 + 8 * n), 51, 40⟩
def fTilePower (n : Nat) : Fld := ⟨aPwr (0x100 + 8 * n), 39, 32⟩
def fTileTemp (n : Nat) : Fld := ⟨aPwr (0x100 + 8 * n), 31, 24⟩
def fTileDroop (n : Nat) : Fld := ⟨aPwr (0x100 + 8 * n), 23, 0⟩
/-- The clock that a tile's budget allows, when no limit cuts it: nominal 1,600 MHz. -/
def clock0 : Nat → Nat := fun _ => 1600
/-- A tile's permitted clock: a 25 MHz step, at least 0.40 GHz (15 R281, R282). -/
def permitted (s : State) (t : Nat) : Nat := max 400 (min (tget clock0 s.power.own t) (s.rd (fTileCeiling t)) / 25 * 25)
/-- Is a flight the same launch? -/
def Flight.same (f g : Flight) : Bool :=
  decide (g.ring = f.ring) && decide (g.count = f.count) && decide (g.part = f.part) && decide (g.fid = f.fid) && decide (g.orphan = f.orphan)
/-- Has a launch claimed its cores? -/
def Flight.claimed (f : Flight) : Bool := decide (f.step ≠ .check) && decide (f.step ≠ .idleCores)
/-- The clock of each tile of a flight under clock_mhz: its permitted clock, at most clock_mhz. -/
def flightClocks (s : State) (f : Flight) : List Nat := f.tiles.map fun t => min f.clockMhz (permitted s t)
/-- Does clock_mhz set the clocks of a flight's tiles? -/
def Flight.clocked (f : Flight) : Bool := f.claimed && decide (f.clockMhz ≠ 0)
/-- A flight whose tiles' clocks are read again: once the budget has lowered one of them, all follow to a common value until the flight
ends (09 R183). -/
def Flight.follow (s : State) (f : Flight) : Flight :=
  if !f.clocked then f
  else
    let now := flightClocks s f
    { f with clocks := now, common := f.common || (f.clocks.zip now).any fun p => decide (p.2 < p.1) }
/-- The clock that a flight gives one of its tiles: its own, or the common value. -/
def Flight.clockOf (f : Flight) (t : Nat) : Nat :=
  if f.common then f.clocks.foldl min f.clockMhz else lget f.clockMhz f.clocks (f.tiles.idxOf t)
/-- The clock of a tile: its permitted clock, or the lowest that a flight holding it gives it (09 R183). -/
def tileClock (s : State) (t : Nat) : Nat :=
  (s.flights.filter fun f => f.clocked && f.tiles.contains t).foldl (fun m f => min m (f.clockOf t)) (permitted s t)
/-- Every tile runs at its clock; a gated one is locked at 0.40 GHz (15 R288). -/
def clockRefresh (s : State) : State :=
  let s1 : State := { s with flights := s.flights.map (Flight.follow s) }
  s1.wrAll ((List.range 60).map fun t => (fTileClock t, if tget dom0 s.power.dom (60 + t) = .low then 400 else tileClock s1 t))

/-! ### Records -/

/-- The launch descriptor of a flight, if its record is still pending. A launch with subcode 1 is done once every core has issued its first
bundle: a flight that halts after its release does not halt its ring (03 R50). -/
def judgeLaunch (s : State) (f : Flight) (status result : Nat) (entry : Option Nat) : State :=
  let late := f.atStart && decide (f.step = .running) && decide (status ≠ 0x05)
  if f.orphan then s
  else settleWork s f.ring f.count .launch (if late then .judged 0 f.ts none else .judged status result entry)
/-- Every stop descriptor that waits for a flight of a partition. -/
def judgeStops (s : State) (part fid n : Nat) : State :=
  mapWork s fun r d => if d.work = .stop fid && decide (s.rd (fRPart r) = part) then .judged 0 n none else d.work

/-! ### The ledger (16 R297, R298) -/

def ledgerBytes (s : State) (i : Nat) : List Byte := (List.range 6).flatMap fun q => leBytes 8 (s.reg (aToll (0x100 + 0x40 * i + 8 * q))).toNat
def putLedger (s : State) (i : Nat) (d : List Byte) : State :=
  (List.range 6).foldl (fun t q => t.setReg (aToll (0x100 + 0x40 * i + 8 * q)) (BitVec.ofNat 64 (leNat (sliceB d (8 * q) 8)))) s
def zeros48 : List Byte := List.replicate 48 0#8
/-- The oldest log entry dropped when the log is full: its ledger's base takes that event in. -/
def logRoom (t : TrustSt) : TrustSt :=
  match t.log with
  | e :: r => if t.log.length ≥ 64 then
      { t with log := r, dropped := true,
               bases := (t.bases ++ List.replicate (8 - t.bases.length) zeros48).set e.ledger (sha384 (lget zeros48 t.bases e.ledger ++ e.d)) } else t
  | [] => t
/-- Extend: the ledger becomes SHA-384 of itself and the event's digest, and the log grows. -/
def ledgerExtend (s : State) (i kind : Nat) (d : List Byte) : State :=
  let t := logRoom s.trust
  let s1 := putLedger s i (sha384 (ledgerBytes s i ++ d))
  let s2 : State := { s1 with trust := { t with log := t.log ++ [LogEv.mk i kind s.mile d] } }
  s2.wr fLogEntries (t.log.length + 1)

/-! ### Launch steps (09 R172; 04 R63) -/

/-- The bundles, stride programs and CSRs of a stage entry. -/
def stageImem (s : State) (f : Flight) (a n : Nat) : Tbl (BitVec 256) :=
  tsetAll (fun _ => 0#256) [] ((List.range n).map fun i => (i, BitVec.ofNat 256 (leNat (hbmRead s (f.dpa + stProg s a + 32 * i) 32))))
def stageProgs (s : State) (a : Nat) : Tbl Word64 :=
  tsetAll word0 [] ((List.range 512).map fun i => (i, BitVec.ofNat 64 (hbmNat s (a + 0x80 + 8 * i) 8)))
def stageCsrs (s : State) (a : Nat) : Tbl Word64 :=
  tsetAll word0 [] ((List.range 7).map fun k =>
    (lget 0 csrInits k, BitVec.ofNat 64 (hbmNat s (a + 0x40 + 8 * k) 8 &&& (csrMask (lget 0 csrInits k)).getD 0)))

/-- The state of a core that a stage entry gives it. -/
def stageCore (s : State) (f : Flight) (a : Nat) : CoreSt :=
  { phase := .armed, part := f.part, flight := f.fid, stage := stId s a, arg := f.arg, pc := stEntry s a
    imem := stageImem s f a (stCount s a)
    progs := stageProgs s a
    csrs := stageCsrs s a }

/-- The registers that a launch clears for a core (06 R130, 08 R166, 18 R338). -/
def clearCoreRegs (s : State) (uid : Nat) : State :=
  [aArrayEvents uid, aTrap uid 0, aTrap uid 1, aTrap uid 2].foldl (fun t a => t.setReg a 0#64) s

/-- Programs, stride programs and CSRs copied, cores reset (09 R172). -/
def launchCopy (s : State) (f : Flight) : State :=
  (List.range (imgStages s f.dpa)).foldl (fun t i =>
    let a := stageAt s f.dpa i
    clearCoreRegs (t.setCore (stUid s a) (stageCore s f a)) (stUid s a)) s

/-- Gates initialised in table order (09 R170). -/
def launchGates (s : State) (f : Flight) : State :=
  (List.range (imgGates s f.dpa)).foldl (fun t i =>
    let w := im64 s f.dpa (imgGateOff s f.dpa + 8 * i)
    t.setGate (nbits w 49 44) (nbits w 43 32) (BitVec.ofNat 32 w)) s

/-- The lowest free place of a tile's standing barges. -/
def freeStanding (t : TileSt) : Nat := ((List.range (t.standing.length + 1)).find? fun i => (tget (fun _ => none) t.standing i).isNone).getD t.standing.length
/-- Standing barges armed, with the trigger and credit values of that moment (09 R179). -/
def launchArm (s : State) (f : Flight) : State :=
  let s0 := (f.cores.map (· / 4)).eraseDups.foldl (fun t n => t.modTile n fun ti => { ti with rot := s.mile }) s
  (List.range (imgStanding s f.dpa)).foldl (fun t i =>
    let w := standWords s f.dpa i
    let tile := standTile s f.dpa i
    let q5 := (lget 0#64 w 5).toNat
    t.modTile tile fun ti =>
      let st : Standing := ⟨f.part, f.fid, w, (tget gate0 ti.gates (nbits q5 11 0)).toNat, (tget gate0 ti.gates (nbits q5 23 12)).toNat, 0, 0, true⟩
      { ti with standing := tset (fun _ => none) ti.standing (freeStanding ti) (some st) }) s0

/-! ### Dumps (04 R88, 09 R186, R187) -/

/-- Is a standing entry of a flight? -/
def Standing.of (part fid : Nat) (st : Standing) : Bool := decide (st.part = part) && decide (st.flight = fid)

/-- The live state of a generator (05 R99): the next address before its check; free where the generator is unbound, its program empty or
its index not held, so that the spec gives it no value. -/
def genLive (c : CoreSt) (g free : Nat) : List Byte :=
  let v := c.gen g
  let next := match genNext v (c.stride v.prog) with
    | some (some a) => (a % (2 ^ 26 : Int)).toNat
    | some none => 2 ^ 32
    | none => Config.freeNat free % 2 ^ 26
  let grp (b : Option (Nat × List Byte)) : Nat := match b with | some p => p.1 / 64 % 2 ^ 20 + 2 ^ 20 | none => 0
  let ix (k : Nat) : Nat := lget 0 v.i k % 2 ^ 16
  ([v.prog % 32 + b2n v.bound * 2 ^ 8 + b2n v.ended * 2 ^ 9 + min 0xFFFF v.wraps * 2 ^ 16, v.base % 2 ^ 26,
    ix 0 + ix 1 * 2 ^ 16 + ix 2 * 2 ^ 32 + ix 3 * 2 ^ 48, ix 4 + ix 5 * 2 ^ 16, v.count % 2 ^ 48, next, grp v.grpA + grp v.grpB * 2 ^ 32, 0]).flatMap
      fun w => leBytes 8 w

/-- A weight bank as dumped: 129 rows in physical order. -/
def bankBytes (c : CoreSt) (y : Bool) : List Byte := (List.range (129 * 128)).flatMap fun i => leBytes 2 (tget bank0 (if y then c.bankY else c.bankX) i).toNat

/-- The shift counts of an accumulator window's rows, three bits a row (06 R127). -/
def shiftBytes (c : CoreSt) (w : Nat) : List Byte :=
  (List.range 512).flatMap fun i => leBytes 3 (lsum ((List.range 8).map fun j => tget nat0 c.rowShift (w * 4096 + 8 * i + j) % 8 * 2 ^ (3 * j)))

/-- The state that a dump shows. A core that halted by itself shows 2, one stopped by a notice or a flight stop 0: R88 lists neither (DESIGN
CHOICE, log entry 16). -/
def dumpState (c : CoreSt) : Nat := if c.stopState = 5 then 2 else c.stopState
/-- A core's dump record (04 R88): offset and bytes of each part; the rest of the record is zero. flight_id and stage_id stand as in CSR_FLIGHT
(DESIGN CHOICE, log entry 16). -/
def coreRecord (c : CoreSt) (uid free : Nat) : List (Nat × List Byte) :=
  let red := c.redirects.take 3
  let target (i : Nat) : Nat := (lget (0, 0) red i).2 % 2 ^ 13
  [(0, leBytes 8 (uid / 4 * 2 ^ 8 + uid % 4) ++ leBytes 8 (c.flight * 2 ^ 16 + c.stage) ++ leBytes 8 (c.bcount % 2 ^ 48)
      ++ leBytes 8 (c.rep * 2 ^ 16 + c.pc % 2 ^ 13) ++ leBytes 8 c.stopMile ++ leBytes 8 (dumpState c) ++ leBytes 8 (c.csr csrSticky).toNat
      ++ leBytes 8 (red.length * 2 ^ 48 + target 0 + target 1 * 2 ^ 16 + target 2 * 2 ^ 32)),
   (0x40, leBytes 64 (c.landedAfter % 2 ^ 465)),
   (0x100, (List.range 64).flatMap fun d => leBytes 8 (c.sreg d).toNat),
   (0x400, (List.range 128).flatMap fun n => leBytes 8 ((csrRead c uid n).getD 0#64).toNat),
   (0x800, [0, 1, 2, 3].flatMap fun g => genLive c g free),
   (0x1000, (List.range 512).flatMap fun i => leBytes 8 (tget word0 c.progs i).toNat),
   (0x2000, (List.range 8).flatMap fun p => (List.range 512).map fun i =>
      BitVec.ofNat 8 (lsum ((List.range 8).map fun b => b2n (c.pbit p (8 * i + b)) * 2 ^ b))),
   (0x3000, c.fifo.flatMap fun e => takePad 512 e),
   (0x10000, (List.range 65536).flatMap fun i => leBytes 4 (tget word32z c.vregs i).toNat),
   (0x50000, bankBytes c c.feedY), (0x58100, bankBytes c !c.feedY),
   (0x60200, shiftBytes c 0), (0x60800, shiftBytes c 1)]

/-- A part of the dump written: zeros, then what it holds. -/
def dumpPut (s : State) (a len : Nat) (l : List (Nat × List Byte)) : State := l.foldl (fun t p => hbmWrite t (a + p.1) p.2) (hbmZero s a len)

/-- A tile section (09 R187). Standing barges armed at the stop: those that a notice disarmed, or those still armed. -/
def tileSection (s : State) (part fid : Nat) (disarmed : List (Nat × Nat)) (tile : Nat) : List (Nat × List Byte) :=
  let t := s.tile tile
  let st (i : Nat) : Option Standing := tget (fun _ => none) t.standing i
  let mine := (List.range 64).filterMap st |>.filter fun x => Standing.of part fid x && x.armed
  [(0, leBytes 8 tile ++ leBytes 8 s.mile ++ leBytes 8 ((disarmed.lookup tile).getD mine.length))]
    ++ (List.range 4).map (fun k => (0x1000 + 0x1000 * k, (List.range 4096).map fun i =>
        let c := s.core (4 * tile + k)
        tget byte0 (if i < 2048 then c.scaleX else c.scaleY) (i % 2048)))
    ++ (List.range 64).filterMap (fun i => (st i).map fun x =>
        (0x5000 + 128 * i, (x.entry.flatMap fun w => leBytes 8 w.toNat) ++ leBytes 8 x.admitted ++ leBytes 8 x.completed ++ leBytes 8 (x.bT + x.bC * 2 ^ 32)))
    ++ [(0x8000, (List.range 4096).flatMap fun g => leBytes 4 (tget gate0 t.gates g).toNat)]
    ++ (s.spad.filterMap fun p => if spadKey s tile 0 ≤ p.1 ∧ p.1 < spadKey s tile 0 + spadBytes then some (0x10000 + (p.1 - spadKey s tile 0), [p.2]) else none)

def coreRecBytes : Nat := 0x61000
def sectionBase : Nat := 0x05AF0000
def sectionBytes : Nat := 0x04010000

/-- A write of a dump that would merge into an uncorrectable codeword is not performed: its ring halts as the ring engine does, and the
dump writes nothing more (14 R267). -/
def dumpFails (s : State) (d : Dump) (ue : Nat) : State :=
  let x := if d.orphan then (s, .judged 0x4A 0 (some 0)) else ringUe s d.ring d.count ue none
  match x.2 with
  | .judged _ ix _ =>
    settleWork { x.1 with dumps := x.1.dumps.map fun y => if y = d then { y with failed := some ix } else y } d.ring d.count (.dump d.fid) x.2
  | _ => x.1
/-- A part of a dump written, unless it has failed. -/
def dumpWrite (s : State) (d : Dump) (a len : Nat) (l : List (Nat × List Byte)) : State :=
  if !s.dumps.contains d ∨ d.failed.isSome then s
  else match hbmPartUe s a len with
  | some ue => dumpFails s d ue.1
  | none => dumpPut s a len l
/-- A core's record is written into a dump that has room for it (04 R88, 09 R187). -/
def coreDumpTo (s : State) (d : Dump) (uid : Nat) : State :=
  if (uid + 1) * coreRecBytes ≤ d.limit then
    { dumpWrite s d (d.dpa + uid * coreRecBytes) coreRecBytes (coreRecord (s.core uid) uid s.free) with free := s.free + 1 }
  else s
/-- A core's record is written into every dump of its flight. -/
def coreDump (s : State) (uid : Nat) : State :=
  (dumpsOf s (s.core uid).part (s.core uid).flight).foldl (fun t d => coreDumpTo t d uid) s
/-- The cores of a flight that are done when a dump begins to apply write their records into it (04 R87, 09 R186). -/
def coreDumpDone (s : State) (f : Flight) (d : Dump) : State :=
  (f.cores.filter fun u => decide ((s.core u).phase = .done)).foldl (fun t u => coreDumpTo t d u) s

/-- A lane-line that the dump finds uncorrectable is dumped with its stored bits and logged, and the dump continues (09 R187); the dump's ring
halts with 0x4A, at the first of them, as the ring engine does that reads a dump source (14 R267; the two together: DESIGN CHOICE, log
entry 16). The others, and all where no ring has the dump any more, are entered as found with no reader. -/
def dumpUe (s : State) (d : Dump) (tile ll : Nat) (esc : Option Nat) : State :=
  if d.orphan ∨ !(s.ring d.ring).out.any fun x => decide (x.count = d.count) && decide (x.work = .dump d.fid) then spadUeAlone s tile ll esc
  else
    let x := ringUe (noteUe s tile ll) d.ring d.count (tileWindow + tile * spadBytes + laneOff ll) esc
    settleWork x.1 d.ring d.count (.dump d.fid) x.2
/-- The uncorrectable lane-lines of a tile met by the dump, one of them perhaps just now. -/
def dumpUes (s : State) (d : Dump) (tile : Nat) (ecc : Option (Nat × Upset)) : State :=
  let r : State × EccOut × Nat := match ecc with
    | some (t, u) => if t = tile then (let x := spadEcc s tile u.at_ u.syn u.bad; (x.1, x.2, u.at_)) else (s, .corrected, 0)
    | none => (s, .corrected, 0)
  let escOf (ll : Nat) : Option Nat := match r.2.1 with | .bad x => if ll = r.2.2 then x else none | .corrected => none
  ((r.1.tile tile).ue.filter fun p => p.2).foldl (fun t p => dumpUe t d tile p.1 (escOf p.1)) r.1

/-- Whole tile sections in ascending order while they fit; the status and result of the descriptor (09 R187). -/
def dumpTiles (s : State) (f : Flight) (d : Dump) (ecc : Option (Nat × Upset)) : State × Nat × Nat :=
  let fit (t : Nat) : Bool := decide (sectionBase + (t + 1) * sectionBytes ≤ d.limit)
  let ok := f.tiles.takeWhile fit
  let s1 := ok.foldl (fun t tile =>
    dumpUes (dumpWrite t d (d.dpa + sectionBase + tile * sectionBytes) sectionBytes (tileSection s f.part f.fid f.disarmed tile)) d tile ecc) s
  if ok.length = f.tiles.length then
    (s1, 0, (f.cores.filter fun u => decide ((u + 1) * coreRecBytes ≤ d.limit)).length * coreRecBytes + ok.length * sectionBytes)
  else (s1, 0x4E, sectionBase + sectionBytes * (lmax f.tiles + 1))

/-- Every dump of a flight that has stopped is finished. -/
def dumpEnd (s : State) (f : Flight) (ecc : Option (Nat × Upset)) : State :=
  (dumpsOf s f.part f.fid).foldl (fun t d =>
    let r := dumpTiles t f d ecc
    let t1 := { r.1 with dumps := r.1.dumps.filter fun x => decide ({ x with failed := none } ≠ { d with failed := none }) }
    if d.orphan then t1 else settleWork t1 d.ring d.count (.dump d.fid) (.judged r.2.1 r.2.2 none)) s

/-! ### Stopping and ending -/

/-- Has a core nothing in flight? -/
def CoreSt.quiet (c : CoreSt) : Bool :=
  c.flies.isEmpty && c.vjobs.isEmpty && c.mms.isEmpty && c.held.isEmpty && c.freezes.isEmpty && c.shadows.all fun sh => !sh.open_ && sh.wr.isEmpty

/-- Is it a gate increment of a core? -/
def incOf (uid : Nat) (i : Issuer) : Bool := match i with | .core u _ _ => decide (u = uid) | _ => false
/-- Are the gate increments of a core visible: none on the mesh, none that its gate unit has not applied (04 R74)? -/
def incsSeen (s : State) (uid : Nat) : Bool :=
  !(s.mesh.any fun x => incOf uid x.who) && !(s.tiles.any fun p => p.2.gateOps.any fun o => incOf uid o.who)

/-- The standing barges of a flight armed on a tile. -/
def armedOn (s : State) (part fid n : Nat) : Nat :=
  ((s.tile n).standing.filter fun p => p.2.any fun x => x.of part fid && x.armed).length
/-- The standing barges of a flight disarmed; the number armed at that moment is kept for the dump (09 R184, R187). -/
def disarm (s : State) (part fid : Nat) (tiles : List Nat) : State :=
  let s1 := modFlight s part fid fun f => { f with disarmed := f.disarmed ++ tiles.map fun n => (n, armedOn s part fid n) }
  tiles.foldl (fun t n => t.modTile n fun ti => { ti with standing := ti.standing.map fun p => (p.1, p.2.map fun x => if x.of part fid then { x with armed := false } else x) }) s1
/-- The standing barges of an ended flight leave their engines. -/
def unarm (s : State) (part fid : Nat) (tiles : List Nat) : State :=
  tiles.foldl (fun t n => t.modTile n fun ti => { ti with standing := ti.standing.filter fun p => !(p.2.any (Standing.of part fid)) }) s
/-- Is a barge a firing of a flight? -/
def firingOf (part fid : Nat) (b : Barge) : Bool := match b.origin with | .standing _ _ x => decide (b.part = part) && decide (x = fid) | _ => false
/-- Firings not admitted are dropped, on one tile (09 R184). -/
def dropFirings (s : State) (part fid tile : Nat) : State :=
  { s with barges := s.barges.filter fun b => !(firingOf part fid b && !b.admitted && decide (b.engine = tile)) }

/-- A flight ends: cores are free, standing barges gone, records judged (09 R172, R173, R184). -/
def flightGone (s : State) (f : Flight) (status result stopped : Nat) (entry : Option Nat) : State :=
  let s1 := if f.claimed then f.cores.foldl (fun t u => t.modCore u fun c => { c with phase := .idle }) s else s
  let s2 := unarm s1 f.part f.fid f.tiles
  let s3 := { s2 with flights := dropFirst f.same s2.flights }
  clockRefresh (judgeStops (judgeLaunch s3 f status result entry) f.part f.fid stopped)

/-- A flight stop reaches a flight: before the release the flight ends at once (09 R172, R184), unless it is halting. -/
def flightStop (s : State) (f : Flight) (k : StopKind) : State :=
  if f.step ≠ .running then (if f.haltIx.isSome then s else flightGone (f.tiles.foldl (fun t n => dropFirings t f.part f.fid n) s) f 0x05 0 0 none)
  else modFlight s f.part f.fid fun g =>
    match g.stop, k with
    | .none, .atBundle => { g with stop := .atBundle, notices := g.tiles }
    | .atEop, .atBundle => { g with stop := .atBundle, notices := g.tiles }
    | .none, _ => { g with stop := k }
    | _, _ => g

/-- The flights of a partition stop as under a subcode-1 stop, or halt without error records (16 R303, R314). -/
def stopFlights (s : State) (part : Nat) : State :=
  (s.flights.filter fun f => decide (f.part = part) && decide (f.step ≠ .check)).foldl (fun t f => flightStop t f .atBundle) s

/-- A core stops at a notice (09 R184): one that has issued its last repetition counts as ended. A dump shows the stopped core in state 0
(DESIGN CHOICE, log entry 16). -/
def noticeCore (s : State) (uid : Nat) : State :=
  s.modCore uid fun c => if c.phase = .run then stopCore s c 0 else c

/-- clear_run is set by a successful clear program (16 R315). -/
def fClear : Nat → Fld := fPartClear
def clearRun (s : State) (f : Flight) (status : Nat) : State :=
  let dig := tget (fun _ => []) s.parts.clearDigest f.part
  let img := s.image f.part f.image
  let all := (List.range 60).all fun t => !ownsTile s f.part t || f.tiles.contains t
  if status = 0 ∧ !f.atStart ∧ dig ≠ [] ∧ img.map (fun m => m.digest) = some dig ∧ all then
    ledgerExtend ({ s with parts := { s.parts with clearMile := tset nat0 s.parts.clearMile f.part s.mile } }.wr (fPartClear f.part) 1)
      6 0x09 (sha384 (Config.measured 0x09 [f.part]))
  else s

/-- Do the standing barges of a flight fire no more: told to stop, or stopped by a dump (09 R184, R186)? -/
def Flight.firesNoMore (s : State) (f : Flight) : Bool :=
  (decide (f.stop ≠ .none) && decide (f.stop ≠ .atEop)) || !(dumpsOf s f.part f.fid).isEmpty
/-- May a flight end: every core quiet, every notice delivered, no firing in progress and none whose conditions are met (09 R173)? A
flight that a firing has halted before its release ends without its cores (R172). -/
def flightCanEnd (s : State) (f : Flight) : Bool :=
  ((decide (f.step = .running) && f.cores.all fun u => decide ((s.core u).phase = .done)) || (decide (f.step = .release) && f.haltIx.isSome))
    && f.notices.isEmpty
    && !(s.barges.any fun b => firingOf f.part f.fid b && (b.admitted || !f.firesNoMore s))
    && (f.firesNoMore s || f.tiles.all fun n => (s.tile n).standing.all fun p => !(p.2.any (Standing.of f.part f.fid)) || !standingReady s n p.1)
/-- The status of a flight that ends: a halt, a rescale-repeat of one of its cores, a stop (03 R52; 06 R128). A flight that a halt-and-dump
has stopped takes a stop's 0x05, which R52 names for a flight stop alone (DESIGN CHOICE, log entry 16). -/
def endStatus (s : State) (f : Flight) : Nat :=
  if f.haltIx.isSome then (if f.dropped then 0x4D else 0x4A)
  else if f.cores.any fun u => decide (s.rd (fRepeats u) ≠ 0) then 0x02
  else if f.stop = .none ∧ dumpsOf s f.part f.fid = [] then 0 else 0x05

/-- FLIGHT_END (09 R173). The stopped cores of its result are those that a stop has cut short, not those that have run to their eop (03 R53;
DESIGN CHOICE, log entry 16). -/
def flightEnd (s : State) (part fid : Nat) (ecc : Option (Nat × Upset)) : State :=
  match flightOf s part fid with
  | none => s
  | some f =>
    if !flightCanEnd s f ∨ s.isFatal then s
    else
      let s0 := f.tiles.foldl (fun t n => dropFirings t part fid n) s
      let s1 := dumpEnd s0 f ecc
      let st := endStatus s f
      let result := match f.haltIx with
        | some ix => if f.step ≠ .running then 0 else if f.dropped then f.ts else ix
        | none => f.ts
      clearRun (flightGone s1 f st result (f.cores.filter fun u => decide ((s.core u).stopState ≠ 2)).length f.haltIx) f st

end Sys2Proof.Machine
end

