-- ==== Sys2Proof/WellFormed.lean ====
section
/-! DEFINITION. Which commands are well formed: the unit they name exists, and a slot operation's fields fit the slot word (04 R76 to R81). A
value that an event or a message carries is never ill-formed: its field takes the bits that fit, or the bound that the rule gives. -/

namespace Sys2Proof
open Sys2Proof

def okUid (uid : Nat) : Bool := decide (uid < 240)
def okTile (n : Nat) : Bool := decide (n < 60)
def okReg (d : Nat) : Bool := decide (d < 64)
def okImm (i : Nat) : Bool := decide (i < 2 ^ 28)
def okTarget (t : Nat) : Bool := decide (t < 2 ^ 13)
def okRing (r : Nat) : Bool := decide (r < 1024)
def okPart (p : Nat) : Bool := decide (p < 4)
def okPort (p : Nat) : Bool := decide (p < 16)
def okStack (st : Nat) : Bool := decide (st < 24)
/-- A naturally aligned 4- or 8-byte access (02 R35). -/
def okAccess (off size : Nat) : Bool := (decide (size = 4) || decide (size = 8)) && decide (off % size = 0)
/-- The tile field of a Y operation (04 R81): 60 to 62 name no tile, and the operation halts its core. -/
def okYTile (t : Nat) : Bool := decide (t < 64)

/-- The fields of a V operation are within the widths of R76. -/
def VArg.ok (f : VArg) : Bool :=
  decide (f.vd < 16) && decide (f.va < 16) && decide (f.vb < 16) && decide (f.vc < 16) && decide (f.pm < 16) && decide (1 ≤ f.n)
    && decide (f.n ≤ 4096) && decide (f.rnd < 4) && decide (f.fmt < 16) && decide (f.s < 64) && decide (f.src < 4)

/-- A thermal sensor of a tile. -/
def okThermal (t i : Nat) : Bool := okTile t && decide (i < 8)

/-- Does an ECC event name a place below n? -/
def upsetIn (n : Nat) (e : Option Upset) : Bool := match e with | some u => decide (u.at_ < n) | none => true

/-- Is a command one that can occur on the module? -/
def Instr.wf : Instr → Bool
  | .mswap u | .tskip u | .bundleIssue u | .operationLanding u _
  | .freezeEnd u | .rescaleFreezeEnd u | .coreWaitTimeout u | .mshadow u _ => okUid u
  | .sadd u d a b | .ssub u d a b | .sand u d a b | .sor u d a b | .sxor u d a b | .sshl u d a b | .sshr u d a b | .ssra u d a b
  | .smin u d a b | .smax u d a b | .scmpeq u d a b | .scmplt u d a b | .scmpltu u d a b
  | .smul u d a b | .smulhu u d a b | .smulhs u d a b => okUid u && okReg d && okReg a && okReg b
  | .saddi u d a i | .ssubi u d a i | .sandi u d a i | .sori u d a i | .sxori u d a i | .sshli u d a i | .sshri u d a i
  | .ssrai u d a i | .smini u d a i | .smaxi u d a i | .scmpeqi u d a i | .scmplti u d a i | .scmpltui u d a i
  | .sld u d a i | .sst u d a i => okUid u && okReg d && okReg a && okImm i
  | .scsrr u d n | .scsrw u d n => okUid u && okReg d && decide (n < 2 ^ 12)
  | .br u t => okUid u && okTarget t
  | .brz u a t | .brnz u a t | .brl u a t => okUid u && okReg a && okTarget t
  | .bri u a => okUid u && okReg a
  | .vadd u f | .vsub u f | .vmul u f | .vfma u f | .vmax u f | .vmin u f | .vabs u f | .vneg u f | .vsel u f | .vmov u f
  | .vscale u f | .vcvt u f | .vcmplt u f | .vcmpeq u f | .viadd u f | .visub u f | .vimul u f | .vand u f | .vor u f | .vxor u f
  | .vshl u f | .vshr u f | .vbcast u f | .vexp u f | .vlog u f | .vrcp u f | .vrsqrt u f | .vtanh u f | .vexpsub u f
  | .vnorm u f | .vrsum u f | .vrmax u f | .vrmin u f | .vrsegsum u f | .vrsegmax u f | .vrsegmin u f | .vcompress u f
  | .vexpand u f | .vopt0 u f | .vopt1 u f | .vopt2 u f | .vopt3 u f => okUid u && f.ok
  | .mmul u _ _ acc row => okUid u && decide (acc < 4) && decide (row < 4096)
  | .lfeed u h | .lskip u h => okUid u && decide (h < 2)
  | .lvec u h v c => okUid u && decide (h < 2) && decide (v < 16) && decide (c < 16)
  | .lscl u h r | .lbase u h r | .lbase3 u h r => okUid u && decide (h < 2) && okReg r
  | .lbind u h p | .lbind3 u h p => okUid u && decide (h < 2) && decide (p < 32)
  | .tvec u v c | .tvec16 u v c | .tvec8 u v c => okUid u && decide (v < 16) && decide (c < 16)
  | .tscl u r | .tbase u r | .mwait u r | .mread u r => okUid u && okReg r
  | .tbind u p => okUid u && decide (p < 32)
  | .ginc u t g i => okUid u && okYTile t && decide (g < 4096) && decide (i < 16)
  | .gadd u t g r | .gwait u t g r | .gread u t g r => okUid u && okYTile t && decide (g < 4096) && okReg r
  | .requestGrant t _ _ | .gateUnitApply t | .droopClear t | .tileDemand t _ | .tileGrant t | .tileClockStep t _ => okTile t
  | .throttleRecheck k | .restoreStep k => decide (k < 68)
  | .patrolScrubClaim t b e => okTile t && decide (b < 64) && upsetIn (64 * 8192) e
  | .indexGroupArrival u g => okUid u && decide (g < 4)
  | .imageLoad r _ | .flightLaunchAtEnd r | .flightLaunchAtStart r | .flightStopAtEop r | .flightStopAtBundle r | .barge r | .gateSet r | .gateAdd r
  | .gateWait r | .fenceThisRing r | .fenceOtherRing r | .haltAndDumpAtCount r | .haltAndDumpAtMilestone r | .noOperation r | .wipeAll r
  | .wipeRange r | .ringEnable r | .ringDisable r | .doorbellReadReturn r _ _ | .descriptorReadReturn r _ _ | .irqHoldoffExpiry r
  | .attestationReportRequest r | .certificateChainRequest r | .reductionBucketPost r | .stagedSetting r | .telemetrySnapshot r => okRing r
  | .launchStepDone r _ _ | .flightRelease r _ | .descriptorComplete r _ | .descriptorWaitTimeout r _ | .stagedSettingTimeout r _
  | .bucketDeadline r _ | .resultTimeout r _ => okRing r
  | .flightEnd p t => okPart p && t.ecc.all fun x => okTile x.1 && decide (x.2.at_ < 2 ^ 25)
  | .haltNoticeArrival p _ t => okPart p && okTile t.tile && upsetIn (2 ^ 25) t.ecc
  | .standingBargeFiring t _ => okTile t
  | .bargeAdmission _ | .bargePieceRead _ _ | .bargeCompletion _ | .meshTransferDelivery _ _ => true
  | .ucieTrainingAttempt m | .ucieAttemptTimeout m | .ucieLaneFailure m => decide (m < 4)
  | .dlActiveLoss l | .hostResetN l => l.all fun x => okRing x.1
  | .cplTimeoutExpiry _ | .hostReadCompletion _ _ _ | .barBadAccess _ => true
  | .registerWrite o _ _ => decide (o < 2 ^ 26)
  | .msixTableWrite o _ _ => decide (o < 2 ^ 20)
  | .summaryPoll p | .pollBackoff p | .summaryBitmapReturn p _ _ => okPart p
  | .summaryCasReturn p w _ => okPart p && decide (w < 16)
  | .bmcAttestationReport _ | .pldmActivate _ | .provisionWrite _ _ _ => true
  | .pldmFirmwareTransfer k _ => decide (k < 2)
  | .warmResetStepDone l => l.all okTile
  | .startBlockReturn _ _ | .ucieTrainingStepDone _ _ | .warmReset _ | .partitionStart _ | .partitionStop _ | .inputVoltageChange _
  | .poolExchange _ _ _ | .bmcCapSet _ _ => true
  | .flitTransmit p | .lineSwitch p _ | .ackTimeout p | .rekeyOffer p _ _ | .rekeyAccept p _ | .rekeyDecline p | .rekeyPeriodExpiry p
  | .rekeyOfferRepeat p | .darkRequest p _ | .lossOfLight p | .lightDetected p | .hailStepDone p _ | .hailAttemptTimeout p | .hailBackoffExpiry p
  | .wakeToneDetected p | .wakeToneTimeout p | .lnkEnable p _ | .lnkRehail p | .receivedPowerReport p _ | .reportsAbsent p | .biasAdjust p _
  | .swapNow p | .spareLockTimeout p | .ringLockUpdate p _ | .xtalkRecalibration p _ | .xtalkNow p | .receiverAdapt p _ _ _ _
  | .milestoneTimestamp p _ _ _ _ => okPort p
  | .flitReceive p g _ _ _ | .testPatternReport p g _ | .retireAnnouncement p g _ | .restoreAnnouncement p g _ => okPort p && decide (g < 16)
  | .laserSwapStepDone p x => okPort p && x.all fun k => decide (k.1 < 16)
  | .ringRangeRetry p k => okPort p && decide (k < 64)
  | .messageRoute src vc => decide (src < 17) && decide (vc < 8)
  | .remoteWrite _ _ | .remoteGateAdd _ | .partialSegment _ | .contributionSegment _ | .missingNotice _ | .resultSegment _ | .repeatNotice _
  | .trailerSegment _ | .slotLanding _ | .segmentForward _ => true
  | .powerUpStepDone t => t.rows.all (fun x => okUid x.1 && decide (x.2 < 129)) && t.bad.all okTile && t.spareBad.all okPart
  | .fatalHardwareFailure x => match x with
    | .tile n => okTile n
    | .router k => decide (k < 64)
    | .stack st ch => okStack st && decide (ch < 16)
    | .errq w => decide (w < 8)
    | _ => true
  | .droopTrip t x => okTile t && decide (x.sensor < 16)
  | .thermalSample x => match x with
    | .tile n _ => okTile n
    | .wharf w _ => decide (w < 8)
    | .stack st _ => okStack st
    | .chiplet p _ | .bank p _ _ => okPort p
  | .domainTransitionDone d => decide (d < 141)
  | .stApply b => match b with
    | .ring r => okRing r
    | .summary p => okPart p
    | .remote p e => okPart p && decide (e < 64)
    | .rgrp n => decide (n < 256)
    | .port p => okPort p
    | .mile => true
  | .errqAck w _ => decide (w < 8)
  | .hbmCorrectionWriteBack w => decide (w < 24 * 402653184)
  | .hbmScrubBurst st e => okStack st && e.all (fun u => decide (u.at_ < 32))
  | .hbmPeriodicTraining st ch => okStack st && decide (ch < 16)
  | .droopSensorTrim t i _ => okTile t && decide (i < 16)
  | .thermalSensorTrim t i _ => okThermal t i
  | .snop | .vnop | .mnop | .lnop | .tnop | .ynop | .functionLevelReset | .d3hotEntry | .d0Return |
  .descriptorFetch | .attestationSigned | .bmcCertificateChain | .pldmCommit | .commitWindowExpiry | .provisionRequest | .bmcFactoryReset
  | .bmcWarmResetRequest | .partitionStartStepDone | .partitionStopDrained | .laneRelock | .milestoneWrap | .mileRefSet | .powerUp |
  .powerUpStepTimeout | .overVoltageTimeout | .inputUnderVoltage | .sagLimitEntry | .sagLimitExit | .presentNHigh | .wakeN |
  .fatalShutdownStepDone | .pwrWake | .wakeVoteExpiry | .flashLogWrite | .telemetrySample | .hbmScrubPassDeadline | .ucieRetrain | .ucieReleaseHold
  | .wearAccounting _ => true

end Sys2Proof
end

