-- ==== Sys2Proof/Machine/Run.lean ====
section
/-! DEFINITION. How a meaning answers: a well-formed command has its effect, any other faults. -/

namespace Sys2Proof.Machine
open Sys2Proof

abbrev Out := Host.Outcome State Fault Refusal

/-- The outcome of an effect that leaves state t, when what the command names exists. -/
def runIf (ok : Bool) (t : State) : Out := if ok then .next t else .fault .noSuchUnit
/-- The outcome of a command whose effect leaves state t. -/
def run (c : Instr) (t : State) : Out := runIf c.wf t

end Sys2Proof.Machine
end

