-- ==== Sys2Proof/Machine/CoreEvents.lean ====
section
/-! DEFINITION. What befalls a core and a scratchpad: issue, landing, freezes, wait timeouts, grants, the patrol scrub's claims,
index groups, the gate unit (04 R65 to R86, 05 R97, R98, R103, 09 R175, R185, 17 R321). -/

namespace Sys2Proof.Machine
open Sys2Proof

/-- A core whose every operation has landed and whose gate increments are visible has ended its stage or is stopped for good; its dump record is written
(04 R74, R86 to R88). -/
def settleCore (s : State) (uid : Nat) : State :=
  let c := s.core uid
  if (c.phase = .stopped ∨ c.phase = .ended) ∧ c.quiet ∧ incsSeen s uid then
    let s1 := s.modCore uid fun c => { c with stopState := if c.phase = .ended then 2 else c.stopState,
                                              stopMile := if c.phase = .ended then s.mile else c.stopMile }
    (coreDump s1 uid).modCore uid fun c => { c with phase := .done }
  else s

/-- One issue cycle of a core whose tile is up (15 R290). On a tile in retention or gated it waits; an MWAIT whose milestone has come wakes it
(15 R291). -/
def bundleIssue (s : State) (uid : Nat) : State :=
  let due := (s.core uid).wait.any fun w => match w.1 with | .mile m => decide (m ≤ s.mile) | .gate _ _ => false
  if tileReady s (uid / 4) then coreCycle s uid
  else if due then wakeTiles s [uid / 4]
  else s
/-- BUNDLE_ISSUE: one issue cycle of a core (04 R65, R66, R73, R83, R84, R86, R87). -/
def execBundleIssue (uid : Nat) (s : State) : Out := run (.bundleIssue uid) (bundleIssue s uid)

/-- OPERATION_LANDING: what is due lands; a core that has ended or stopped finishes (04 R66, R68, R74, R88; 05 R98; 08 R163). -/
def execOperationLanding (uid : Nat) (ecc : Option Upset) (s : State) : Out :=
  run (.operationLanding uid ecc) (settleCore (landingCycle s uid ecc) uid)

/-- FREEZE_END: the last freeze cause clears and the cycles are counted (04 R84, R85; 06 R123). -/
def execFreezeEnd (uid : Nat) (s : State) : Out := run (.freezeEnd uid) (freezeEnds s uid)

/-- RESCALE_FREEZE_END: the repeat passes are over (06 R126). -/
def execRescaleFreezeEnd (uid : Nat) (s : State) : Out := run (.rescaleFreezeEnd uid) (rescaleEnds s uid)

/-- REQUEST_GRANT: a denied request is granted its lanes (05 R96, R97). -/
def execRequestGrant (tile index cycles : Nat) (s : State) : Out := run (.requestGrant tile index cycles) (grantRequest s tile index cycles)

/-- INDEX_GROUP_ARRIVAL: four cycles after its grant an index group reaches its generator (05 R103). -/
def execIndexGroupArrival (uid gen : Nat) (s : State) : Out := run (.indexGroupArrival uid gen) (indexArrives s uid gen)

/-- GATE_UNIT_APPLY: sets, then the sum of the adds, of one tile cycle (09 R175). -/
def execGateUnitApply (tile : Nat) (s : State) : Out := run (.gateUnitApply tile) (gateUnit s tile)

/-! ### Wait timeouts (04 R83, 09 R185) -/

/-- A timeout field in ticks: 0 stands for 10,000,000. -/
def waitTicks (t : Nat) : Nat := if t = 0 then 10000000 else t
/-- A wait that is holding: when it began, who waits, and the quadword that names it (14 R271). -/
structure Peer where
  t0 : Nat
  ring : Option (Nat × Nat)
  uid : Option Nat
  word : Nat

/-- The waits of a partition: gate waits and fences of its rings, gate waits of its cores. -/
def peersOf (s : State) (part : Nat) : List Peer :=
  let rings := s.rings.flatMap fun p =>
    if s.rd (fRPart p.1) ≠ part then [] else p.2.out.filterMap fun d =>
      let who := p.1 * 2 ^ 21 + d.count % 2 ^ 21
      match d.work with
      | .gateWait ref _ _ => some ⟨d.t0, some (p.1, d.count), none, ref * 2 ^ 32 + who⟩
      | .fence (some o) _ => some ⟨d.t0, some (p.1, d.count), none, (2 ^ 30 + o.1 * 2 ^ 16 + o.2 % 2 ^ 16) * 2 ^ 32 + who⟩
      | _ => none
  let cores := s.cores.filterMap fun p =>
    match p.2.wait with
    | some (.gate ref _, t0) => if p.2.part = part ∧ p.2.phase = .run
        then some ⟨t0, none, some p.1, ref * 2 ^ 32 + 2 ^ 31 + p.1 / 4 * 2 ^ 8 + p.1 % 4⟩ else none
    | _ => none
  rings ++ cores
def insPeer (a : Peer) : List Peer → List Peer
  | [] => [a]
  | b :: r => if a.t0 < b.t0 then a :: b :: r else b :: insPeer a r
/-- The four oldest peer waits, and whether there are more (09 R185). -/
def peerList (l : List Peer) : List Nat × Bool :=
  let o := l.foldl (fun acc a => insPeer a acc) []
  ((o.take 4).map fun a => a.word, decide (o.length > 4))

/-- A held core reaches its limit: the flight halts with cause 5 and the peer-wait list (04 R83, 14 R271). -/
def waitTimeout (s : State) (uid : Nat) : State :=
  let c := s.core uid
  match c.wait with
  | none => s
  | some (a, t0) =>
    if c.phase ≠ .run ∨ s.isFatal ∨ s.mile < t0 + waitTicks (nbits (c.csr csrWaitTo).toNat 39 0) then s
    else
      let p := peerList ((peersOf s c.part).filter fun x => decide (x.uid ≠ some uid))
      let q3 := b2n p.2 + (match a with | .gate ref _ => ref * 2 ^ 8 | .mile m => 2 + m % 2 ^ 40 * 2 ^ 8)
      coreHalt s uid 5 q3 c.pc c.rep .y p.1

/-- CORE_WAIT_TIMEOUT (04 R83, R86; 09 R185). -/
def execCoreWaitTimeout (uid : Nat) (s : State) : Out := run (.coreWaitTimeout uid) (waitTimeout s uid)

/-! ### Patrol scrub (05 R94 to R98, 17 R321) -/

/-- The scrub goes on to a bank's next line: a pass is complete when all 64 banks have done their last line (17 R321). -/
def scrubNext (s : State) (tile bank line : Nat) : State :=
  let t := s.tile tile
  let done := if line = 8191 then t.scrubDone ||| 2 ^ bank else t.scrubDone
  let s1 := s.setTile tile { t with scrubLine := tset nat0 t.scrubLine bank ((line + 1) % 8192)
                                    scrubDone := if done = 2 ^ 64 - 1 then 0 else done }
  if done = 2 ^ 64 - 1 then s1.inc (fScrubPasses tile) else s1
/-- The scrub's claim of a bank: all lanes of its line are read in a new tile cycle whose number is 16 × bank modulo 1,024; a
correction found before is written back first. What a core is still presenting is denied by it where they meet (17 R321). -/
def scrubClaim (s : State) (tile bank : Nat) (ecc : Option Upset) : State :=
  if s.isFatal ∨ !tileReady s tile then s
  else
    let t := s.tile tile
    let ahead := (16 * bank + 1024 - (t.tcyc + 1) % 1024) % 1024 + 1
    let t1 := newTileCycle (s.rd (fGuard tile)) ahead t
    let line := tget nat0 t.scrubLine bank
    let t2 := { t1 with claims := (List.range 64).map fun l => ⟨64 * bank + l, line, .scrub, false⟩ }
    let denied (s : State) : State := s.incBy (fScrubDenials tile) ((s.tile tile).denied.filter (scrubBlocks (s.tile tile))).length
    match tget (fun _ => none) t.scrubFix bank with
    | some ll =>
      scrubNext (denied (s.setTile tile { t2 with
        claims := t2.claims.map fun c => { c with write := true }
        ce := tset nat0 t2.ce ll 0
        ceEntry := tset nat0 t2.ceEntry ll 0
        scrubFix := tset (fun _ => none) t2.scrubFix bank none })) tile bank line
    | none =>
      let next (s : State) : State := scrubNext s tile bank line
      let s2 := denied (s.setTile tile t2)
      let known := ((List.range 64).map fun l => (64 * bank + l) * 8192 + line).filter fun ll => tget falseAt t.ue ll
      let s3 := known.foldl (fun a ll => spadUeAlone a tile ll none) s2
      match ecc with
      | none => next s3
      | some u =>
        let ll := (64 * bank + u.at_ / 8192 % 64) * 8192 + line
        if known.contains ll then next s3
        else
          let r := spadEcc s3 tile ll u.syn u.bad
          match r.2 with
          | .corrected => r.1.modTile tile fun t => { t with scrubFix := tset (fun _ => none) t.scrubFix bank (some ll) }
          | .bad esc => next (spadUeAlone r.1 tile ll esc)

/-- PATROL_SCRUB_CLAIM (17 R321, 05 R98). -/
def execPatrolScrubClaim (tile bank : Nat) (ecc : Option Upset) (s : State) : Out :=
  run (.patrolScrubClaim tile bank ecc) (scrubClaim s tile bank ecc)

end Sys2Proof.Machine
end

