-- ==== Sys2Proof/Machine/Flights.lean ====
section
/-! DEFINITION. The commands of images, flights and bisection (03 R49, R50; 04 R87; 09 R171 to R173, R184 to R187). -/

namespace Sys2Proof.Machine
open Sys2Proof

/-- A descriptor judged at its dispatch: status and result. -/
def judgeAs (st result : Nat) : Work := .judged st result none

/-! ### Image load (09 R171) -/

/-- The first uncorrectable location of a source range: address, and the lane-line when it lies in a scratchpad. -/
def srcUe (s : State) (a n : Nat) : Option (Nat × Option (Nat × Nat)) :=
  (rangeParts a n).findSome? fun p => match dpaLoc s p.1 with
    | .spad t o => (firstUe s t [(o, p.2)]).map fun u => (p.1 - o + laneOff u.ll, some (t, u.ll))
    | _ => (hbmFirstUe s p.1 p.2).map fun x => (x.1, none)

/-- The image's bytes are in the module: they are written and checked. -/
def imageArrive (s : State) (r count : Nat) (q : List Nat) (bytes : List Byte) : State × Work :=
  let dst := nbits (dq q 4) 47 0
  match hbmPartUe s dst bytes.length with
  | some ue => ringUe s r count ue.1 none
  | none =>
    let e := imgEnter s (s.rd (fRPart r)) (nbits (dq q 3) 47 32) dst bytes
    (e.1, judgeAs e.2 bytes.length)

/-- An image load dispatched. A length that is no multiple of 64 is malformed: R49 states the multiple and no status (DESIGN CHOICE, log
entry 15). -/
def imageLoadBody (r : Nat) (ecc : Option Upset) (s : State) (f : Fetched) : State × Work :=
  let q := f.q
  let part := s.rd (fRPart r)
  let src := nbits (dq q 2) 47 0
  let len := nbits (dq q 3) 31 0
  let dst := nbits (dq q 4) 47 0
  if !dHiZero q 2 48 ∨ !dHiZero q 3 48 ∨ !dHiZero q 4 48 ∨ !dZeroFrom q 5 ∨ len % 64 ≠ 0 then (s, judgeAs 0x41 0)
  else if !dpaOk s part false src len ∨ !hbmOk s part dst len then (s, judgeAs 0x42 0)
  else if touchesHost src len then
    if !s.dlActive ∨ !busOk s (src - hostWindow) len then (s, judgeAs 0x43 0)
    else (hostAsk s (.source r f.count) (src - hostWindow) len, .source)
  else
    let e : State × EccOut := match ecc, dpaLoc s src with
      | some u, .hbm => hbmEcc s part u.at_ u.syn u.bad
      | some u, .spad t _ => spadEcc s t u.at_ u.syn u.bad
      | _, _ => (s, .corrected)
    let esc : Option Nat := match e.2 with | .bad x => x | .corrected => none
    match srcUe e.1 src len with
    | some (a, some (t, ll)) => ringUe (noteUe e.1 t ll) r f.count a esc
    | some (a, none) => ringUe e.1 r f.count a esc
    | none => imageArrive (dpaTurn e.1 src len) r f.count q (dpaRead e.1 src len)

/-! ### Launch (09 R172) -/

/-- The flight of a launch descriptor (03 R49, 09 R172). -/
def newFlight (s : State) (r count : Nat) (q : List Nat) (m : Image) (atStart : Bool) : Flight where
  part := s.rd (fRPart r)
  fid := nbits (dq q 2) 31 16
  image := m.id
  dpa := m.dpa
  len := m.len
  ring := r
  count := count
  atStart := atStart
  arg := nbits (dq q 4) 47 0
  startMile := dq q 3
  step := .check
  cores := imgCores s m.dpa
  tiles := imgTiles s m.dpa
  ts := 0
  stop := .none
  haltIx := none
  dropped := false
  notices := []
  clockMhz := imgClock s m.dpa

/-- A flight launch dispatched: refused, or the flight's launch begins with the check. -/
def launchBody (r : Nat) (atStart : Bool) (s : State) (f : Fetched) : State × Work :=
  let q := f.q
  let part := s.rd (fRPart r)
  let id := nbits (dq q 2) 15 0
  let fid := nbits (dq q 2) 31 16
  if !dHiZero q 2 32 ∨ !dHiZero q 4 48 ∨ !dZeroFrom q 5 then (s, judgeAs 0x41 0)
  else
    match launchRefused s part id fid, s.image part id with
    | 0, some m =>
      ({ s with flights := s.flights ++ [newFlight s r f.count q m atStart] }, .launch)
    | st, _ => (s, judgeAs st 0)

/-- The launch of a descriptor: that of the descriptor outstanding now, or of one that its ring has dropped. -/
def launchOf (s : State) (r count : Nat) : Option Flight :=
  let mine := s.flights.filter fun f => decide (f.ring = r) && decide (f.count = count)
  match mine.find? fun f => !f.orphan with | some f => some f | none => mine.head?
def modLaunch (s : State) (r count : Nat) (g : Flight → Flight) : State :=
  match launchOf s r count with
  | some f => { s with flights := replaceFirst (Flight.same f) g s.flights }
  | none => s

/-- A step of a launch raises its ready signal (09 R172), which waits while a tile of the flight is not up (15 R290): an uncorrectable codeword under the copy ends the flight with 0x4A. A launch that
finds its flight_id running is refused and leaves that flight alone. -/
def launchStep (s : State) (r count : Nat) (ecc : Option Upset) : State :=
  match launchOf s r count with
  | none => s
  | some f =>
    let adv (st : LaunchStep) (t : State) : State := modLaunch t r count fun g => { g with step := st }
    if s.isFatal ∨ (f.claimed ∧ !f.tiles.all (tileReady s)) then s
    else match f.step with
    | .check =>
      if (flightOf s f.part f.fid).isSome then judgeLaunch { s with flights := dropFirst f.same s.flights } f 0x41 0 none else adv .idleCores s
    | .idleCores =>
      if (f.cores.all fun u => decide ((s.core u).phase = .idle)) && (f.tiles.all fun t => tileReady s t)
          && (s.flights.takeWhile fun g => !f.same g).all (fun g =>
            decide (g.step ≠ .idleCores) || g.cores.all fun u => !f.cores.contains u) then
        let s1 := f.cores.foldl (fun t u => t.modCore u fun c => { c with phase := .armed, part := f.part, flight := f.fid }) s
        let quads := ([0, 1, 2, 3].filter fun q => f.tiles.any fun t => decide (tileQuad t = q))
        let s2 := (List.range 4).foldl (fun t p => if quads.any fun q => nbit (t.rd (fPartQuads p)) q then t.wr (fPartPristine p) 0 else t)
          { s1 with fenced := s1.fenced.filter (fun t => !f.tiles.contains t), parts := { s1.parts with touched := s1.parts.touched ++ quads.filter fun q => !s1.parts.touched.contains q } }
        clockRefresh (adv .copy s2)
      else s
    | .copy =>
      let e : State × EccOut := match ecc with | some u => hbmEcc s f.part u.at_ u.syn u.bad | none => (s, .corrected)
      let esc : Option Nat := match e.2 with | .bad x => x | .corrected => none
      match hbmFirstUe e.1 f.dpa f.len with
      | some ue =>
        let x := ringUe e.1 r count ue.1 esc
        match x.2 with
        | .judged _ _ ix => flightGone x.1 f 0x4A 0 0 ix
        | _ => x.1
      | none => adv .gates (launchCopy e.1 f)
    | .gates => adv .arm (launchGates s f)
    | .arm => adv .release (launchArm s f)
    | .release => s
    | .running => s

/-- Armed dumps of a flight apply (09 R186). -/
def applyDumps (s : State) (part fid : Nat) : State :=
  { s with dumps := s.dumps.map fun d => if d.part = part ∧ d.fid = fid then { d with applied := true } else d }

/-- The cores of an armed flight issue their first bundles (09 R172). A start_mile that finds a tile of the flight down wakes the flight's
tiles, and the flight waits for them (15 R290, R291). -/
def release (s : State) (r count : Nat) : State :=
  match launchOf s r count with
  | none => s
  | some f =>
    if f.step ≠ .release ∨ f.haltIx.isSome ∨ s.mile < f.startMile ∨ s.isFatal then s
    else if !f.tiles.all (tileReady s) then wakeTiles s f.tiles
    else
      let s1 := applyDumps s f.part f.fid
      let s2 := modLaunch s1 r count fun g => { g with step := .running, ts := s.mile }
      f.cores.foldl (fun t u => coreCycle (t.modCore u fun c => { c with phase := .run }) u) s2

/-! ### Stops -/

/-- A flight stop dispatched (03 R50, 09 R184). -/
def stopBody (r : Nat) (k : StopKind) (s : State) (f : Fetched) : State × Work :=
  let fid := nbits (dq f.q 2) 31 16
  if nbits (dq f.q 2) 15 0 ≠ 0 ∨ !dHiZero f.q 2 32 ∨ !dZeroFrom f.q 3 then (s, judgeAs 0x41 0)
  else match flightOf s (s.rd (fRPart r)) fid with
  | none => (s, judgeAs 0 0)
  | some g => (flightStop s g k, if g.step = .running then .stop fid else judgeAs 0 0)

/-- A tile of a flight receives a notice (09 R184): its cores stop, its firings not yet admitted are dropped, its entries disarm. -/
def notice (s : State) (part fid tile : Nat) : State :=
  match flightOf s part fid with
  | none => s
  | some f =>
    if !f.notices.contains tile then s
    else
      let s1 := modFlight s part fid fun g => { g with notices := g.notices.filter (· ≠ tile) }
      let s2 := (f.cores.filter fun u => decide (u / 4 = tile)).foldl noticeCore s1
      disarm (dropFirings s2 part fid tile) part fid [tile]

/-! ### Halt-and-dump -/

/-- A halt-and-dump dispatched (09 R186). -/
def dumpBody (r : Nat) (atMile : Bool) (s : State) (f : Fetched) : State × Work :=
  let q := f.q
  let part := s.rd (fRPart r)
  let fid := nbits (dq q 2) 31 16
  let dpa := nbits (dq q 4) 47 0
  let lim := nbits (dq q 5) 47 0
  if nbits (dq q 2) 15 0 ≠ 0 ∨ !dHiZero q 2 32 ∨ !dHiZero q 4 48 ∨ !dHiZero q 5 48 ∨ !dZeroFrom q 6 then (s, judgeAs 0x41 0)
  else if !hbmOk s part dpa lim then (s, judgeAs 0x42 0)
  else
    let d : Dump := ⟨part, fid, r, f.count, atMile, dq q 3, dpa, lim, false, false, none⟩
    match flightOf s part fid with
    | some g =>
      if g.step = .running then
        let t := coreDumpDone { s with dumps := s.dumps ++ [{ d with applied := true }] } g { d with applied := true }
        (t, match t.dumps.getLast?.bind fun x => x.failed with | some ix => .judged 0x4A ix (some ix) | none => .dump fid)
      else ({ s with dumps := s.dumps ++ [d] }, .dump fid)
    | none => ({ s with dumps := s.dumps ++ [d] }, .dump fid)

end Sys2Proof.Machine
end

