-- ==== Sys2Proof/Machine/Gates.lean ====
section
/-! DEFINITION. The descriptors of gates, fences, wipes and no operation (03 R48 to R50, R53; 09 R174). -/

namespace Sys2Proof.Machine
open Sys2Proof

/-- The status of a required gate reference, 0 when it names a gate of the partition (03 R48). -/
def gateStatus (s : State) (part w : Nat) : Nat :=
  match decRef w with
  | .gate t _ => if ownsTile s part t then 0 else 0x42
  | _ => 0x41
def refTile (w : Nat) : Nat := nbits w 17 12
def refGate (w : Nat) : Nat := nbits w 11 0

/-- A gate operation of a descriptor crosses the mesh from N0 to its tile; the descriptor completes once the new value is visible
(03 R50, 09 R175). It enters the mesh at site 0, the first of N0's four links, sites 0 to 3 (01 R14; DESIGN CHOICE, log entry 15). -/
def gateSend (s : State) (r count w : Nat) (load : Nat → MeshLoad) : State :=
  let site := s.tileSite (refTile w)
  { s with mesh := s.mesh ++ [⟨s.rd (fRPart r), .tile (refTile w), load (if site = 0 then 0 else meshPort 0 site), .ring r count⟩] }
/-- GATE_SET: the value before is the result (03 R53, 09 R174). -/
def gateSetBody (r : Nat) (s : State) (f : Fetched) : State × Work :=
  let w := dq f.q 2
  if !dHiZero f.q 2 32 ∨ !dHiZero f.q 3 32 ∨ !dZeroFrom f.q 4 then (s, judgeAs 0x41 0)
  else match gateStatus s (s.rd (fRPart r)) w with
  | 0 => (gateSend s r f.count w (.gateSet (refGate w) (dq f.q 3)), .gate)
  | st => (s, judgeAs st 0)

/-- GATE_ADD: the value after is the result (03 R53, 09 R174). -/
def gateAddBody (r : Nat) (s : State) (f : Fetched) : State × Work :=
  let w := dq f.q 2
  if !dHiZero f.q 2 32 ∨ !dHiZero f.q 3 32 ∨ !dZeroFrom f.q 4 then (s, judgeAs 0x41 0)
  else match gateStatus s (s.rd (fRPart r)) w with
  | 0 => (gateSend s r f.count w (.gateAdd (refGate w) (dq f.q 3)), .gate)
  | st => (s, judgeAs st 0)

/-- GATE_WAIT: the descriptor then waits (03 R50). -/
def gateWaitBody (r : Nat) (s : State) (f : Fetched) : State × Work :=
  let w := dq f.q 2
  if !dHiZero f.q 2 32 ∨ !dHiZero f.q 3 32 ∨ !dHiZero f.q 4 40 ∨ !dZeroFrom f.q 5 then (s, judgeAs 0x41 0)
  else match gateStatus s (s.rd (fRPart r)) w with
  | 0 => (s, .gateWait w (dq f.q 3) (waitTicks (dq f.q 4)))
  | st => (s, judgeAs st 0)

/-- A fence dispatched: all earlier descriptors have completed (03 R50, R55). -/
def fenceBody (other : Bool) (s : State) (f : Fetched) : State × Work :=
  if !dHiZero f.q 2 10 ∨ !dHiZero f.q 3 32 ∨ !dHiZero f.q 4 40 ∨ !dZeroFrom f.q 5 then (s, judgeAs 0x41 0)
  else (s, .fence (if other then some (dq f.q 2, dq f.q 3) else none) (waitTicks (dq f.q 4)))

/-- The parts of HBM that a wipe scrubs: a range, or every quadrant of the partition. -/
def wipeParts (s : State) (part a n : Nat) : List (Nat × Nat) :=
  if a = 0 ∧ n = hbmTop then
    if s.hbmWide then [(0, hbmTop)]
    else ([0, 1, 2, 3].filter fun q => nbit (s.rd (fPartQuads part)) q).map fun q => (q * quadBytes, quadBytes)
  else [(a, n)]
/-- A wipe is complete. -/
def wipeDone (s : State) (part a n : Nat) : State := (wipeParts s part a n).foldl (fun t p => hbmZero t p.1 p.2) s

end Sys2Proof.Machine
end

