-- ==== Sys2Proof/Machine/GroupOps.lean ====
section
/-! DEFINITION. Group entries, and the bucket table as the link and the ports also use it: the hold area, an entry's end, the halt of a post
whose buffer cannot be used, and what the host answers of such a buffer (10 R189, R191, R197; 01 R17, R18). -/

namespace Sys2Proof.Machine
open Sys2Proof

/-! ### Group entries (10 R189) -/
def fRg (n off hi lo : Nat) : Fld := ⟨aGrp n off, hi, lo⟩
def rgValid (s : State) (n : Nat) : Bool := s.flag (fRg n 0 63 63)
def rgPart (s : State) (n : Nat) : Nat := s.rd (fRg n 0 62 61)
def rgAlg (s : State) (n : Nat) : Nat := s.rd (fRg n 0 60 59)
def rgTreeReturn (s : State) (n : Nat) : Bool := s.flag (fRg n 0 58 58) || decide (rgAlg s n ≠ 0)
def rgVc (s : State) (n : Nat) : Nat := s.rd (fRg n 0 57 55)
def rgFan (s : State) (n : Nat) : Nat := s.rd (fRg n 0 50 48) + 1
def rgId (s : State) (n : Nat) : Nat := s.rd (fRg n 0 47 32)
def rgSegBytes (s : State) (n : Nat) : Nat := let v := s.rd (fRg n 0 31 28); 1024 * 2 ^ (if v ≥ 7 then 6 else v)
def rgRank (s : State) (n : Nat) : Nat := s.rd (fRg n 0 19 0)
def rgN (s : State) (n : Nat) : Nat := s.rd (fRg n 8 63 44) + 1
def rgOwnerBase (s : State) (n : Nat) : Nat := s.rd (fRg n 8 43 24)
def rgHold (s : State) (n : Nat) : Nat := s.rd (fRg n 0x20 47 0)
def rgHoldMib (s : State) (n : Nat) : Nat := s.rd (fRg n 0x20 63 48)
def rgArrive (s : State) (n : Nat) : Nat := s.rd (fRg n 0x28 45 34)
def rgAdded (s : State) (n : Nat) : Nat := s.rd (fAddedGate n)
def rgSlots (s : State) (n : Nat) : Nat := s.rd (fRg n 0x28 33 26)
def rgLandOff (s : State) (n : Nat) : Nat := s.rd (fRg n 0x28 25 0)
def fLatePosts (n : Nat) : Fld := fRg n 0x38 63 48
def fRepeats2 (n : Nat) : Fld := fRg n 0x38 47 32
def fFallbacks (n : Nat) : Fld := fRg n 0x38 31 24
def fHalts (n : Nat) : Fld := fRg n 0x38 23 16
def fHoldPeak (n : Nat) : Fld := fRg n 0x38 15 0
/-- The valid entry by which a partition is a member of a group. -/
def groupOf (s : State) (part gid : Nat) : Option Nat :=
  (List.range 256).find? fun n => rgValid s n && decide (rgPart s n = part) && decide (rgId s n = gid)

/-! ### The bucket table and its hold area (10 R191, R197) -/

/-- A bucket-table entry replaced, by its key. -/
def sameKey (x y : Bucket) : Bool := decide (x.grp = y.grp) && decide (x.step = y.step) && decide (x.bucket = y.bucket)

def segHoldBytes (g : Seg) : Nat := 64 + g.payload.length
/-- The bytes that a bucket holds: segments that cannot land yet, results that have no buffer, and, until its post comes, the trailer. -/
def bucketHolds (b : Bucket) : Nat :=
  lsum ((b.held ++ b.resultSegs).map segHoldBytes) + (if b.post.isSome then 0 else lsum (b.final.toList.map segHoldBytes))
/-- The bytes taken in a group's hold area. -/
def holdUsed (s : State) (n : Nat) : Nat := lsum ((s.buckets.filter fun b => decide (b.grp = n)).map bucketHolds)
/-- The use of a group's hold area, and its largest in MiB. -/
def holdSync (s : State) (n : Nat) : State :=
  let u := holdUsed s n
  let s1 : State := { s with holdUse := tset nat0 s.holdUse n u }
  let peak := min 0xFFFF (cdiv u (2 ^ 20))
  if s.rd (fHoldPeak n) < peak then s1.wr (fHoldPeak n) peak else s1
/-- Does the hold area have room for a segment? -/
def holdRoom (s : State) (n : Nat) (g : Seg) : Bool := decide (tget nat0 s.holdUse n + segHoldBytes g + 0x210000 ≤ rgHoldMib s n * 2 ^ 20)
/-- An entry leaves the table: its held bytes are released. -/
def bucketFree (s : State) (b : Bucket) : State := holdSync { s with buckets := dropFirst (sameKey b) s.buckets } b.grp
def State.putBucket (s : State) (b : Bucket) : State :=
  holdSync { s with buckets := s.buckets.map fun x => if sameKey x b then b else x } b.grp

/-! ### A post's result word, and its buffer (03 R53; 01 R18) -/

/-- A trailer as received. -/
def trailerRead (p : List Byte) : Trailer :=
  let q0 := leNat (sliceB p 0 8)
  let q1 := leNat (sliceB p 8 8)
  let n := min 8 (nbits q0 45 42)
  { count := nbits q0 41 21, top := leNat (sliceB p 0x20 32), overflow := nbit q0 46, lagRank := nbits q1 19 0, lagNs := nbits q1 63 32,
    lastAdd := leNat (sliceB p 0x18 8),
    leaves := (List.range n).map fun j => (leNat (sliceB p (0x10 + j) 1), leNat (sliceB p (0x40 + 512 * j) 512)) }
/-- The result word of a post (03 R53): its missing count is the final trailer's, or what this rank knows of the pass. -/
def postResult (s : State) (b : Bucket) : Nat :=
  let before := if rgAlg s b.grp = 0 then b.before else b.notices.length
  let m := match b.final with | some g => (trailerRead g.payload).count | none => max b.told (before + b2n b.missedSelf)
  min 3 b.rep * 2 ^ 20 + b.exponent % 256 * 2 ^ 24 + m * 2 ^ 32
/-- A post whose buffer, trailer record or rank table it may not use, or the host refuses, halts its ring with a status (01 R17, R18); its entry
is freed. -/
def bufferHalt (s : State) (b : Bucket) (status : Nat) : State :=
  match b.post with
  | none => s
  | some p => settleWork (bucketFree s b) p.ring p.count (.bucket b.grp b.bucket b.step) (.judged status (postResult s b) none)
def noByte : Nat → Option Byte := fun _ => none
/-- Bytes of a host buffer that the wharf now knows. -/
def PostSt.know (p : PostSt) (bus : Nat) (bs : List Byte) : PostSt :=
  { p with host := tsetAll noByte p.host ((List.range bs.length).map fun i => (bus + i, some (lget 0#8 bs i))) }
/-- The host's bytes of a buffer arrive, or the request is refused, which halts the post (01 R18; 14 R266). -/
def bufArrives (s : State) (r c addr len : Nat) (data : Option (List Byte)) : State :=
  match s.buckets.find? fun b => b.post.any fun p => decide (p.ring = r) && decide (p.count = c) with
  | none => s
  | some b => match data with
    | some bs => s.putBucket { b with post := b.post.map fun p => p.know addr (takePad len bs) }
    | none => bufferHalt s b 0x43

end Sys2Proof.Machine
end

