-- ==== Sys2Proof/Machine/Barges.lean ====
section
/-! DEFINITION. The commands of barges, standing barges and the mesh (01 R14, R15; 09 R176 to R181; 14 R356). -/

namespace Sys2Proof.Machine
open Sys2Proof

/-- The barge of a descriptor (03 R49). -/
def descBarge (s : State) (r count : Nat) (q : List Nat) : Barge where
  id := s.bargeNext
  part := s.rd (fRPart r)
  engine := nbits (dq q 6) 15 8
  chan := nbits (dq q 6) 7 0
  src := nbits (dq q 2) 47 0
  dst := nbits (dq q 3) 47 0
  rowBytes := nbits (dq q 4) 31 0
  rows := nbits (dq q 4) 63 32
  srcPitch := nbits (dq q 5) 31 0
  dstPitch := nbits (dq q 5) 63 32
  transpose := nbits (dq q 6) 17 16
  done := match decRef (dq q 7) with | .gate t g => some (t * 4096 + g) | _ => none
  release := none
  origin := .ring r count
  ready := (s.tile (nbits (dq q 6) 15 8)).tcyc

/-- A barge descriptor dispatched: malformed, faulted, or ready at its engine (09 R176, R177). -/
def bargeBody (r : Nat) (s : State) (f : Fetched) : State × Work :=
  let q := f.q
  let b := descBarge s r f.count q
  if !dHiZero q 2 48 ∨ !dHiZero q 3 48 ∨ !dHiZero q 6 18 ∨ !dHiZero q 7 32 ∨ decRef (dq q 7) = .bad
      ∨ !bargeShapeOk b.rows b.rowBytes b.srcPitch b.dstPitch b.transpose ∨ !engineOk b.engine b.chan then (s, judgeAs 0x41 0)
  else if enginePart s b.engine ≠ some b.part ∨ (b.done.any fun k => !ownsTile s b.part (k / 4096)) ∨ !b.rangesOk s then (s, judgeAs 0x42 0)
  else ({ s with barges := s.barges ++ [b], bargeNext := s.bargeNext + 1 }, .barge b.id)

/-- May a standing barge of a tile fire: its flight holds its entries armed, and neither a notice nor a dump that has stopped every core
has stopped them (09 R179, R184, R186)? -/
def mayFire (s : State) (tile ix : Nat) : Bool :=
  match tget (fun _ => none) (s.tile tile).standing ix with
  | none => false
  | some st => match flightOf s st.part st.flight with
    | none => false
    | some f => (decide (f.step = .release) || decide (f.step = .running)) && !dumpStopped s f
      && (decide (f.stop = .none) || decide (f.stop = .atEop) || f.notices.contains tile)

/-! ### The mesh -/

/-- Does a transfer's tag match its endpoint (01 R15)? -/
def tagOk (s : State) (x : MeshX) : Bool :=
  match x.dst with
  | .tile t => ownsTile s x.tag t
  | .wharf w => decide (s.quadPart (wharfQuad w) = some x.tag) || (s.hbmWide && decide (s.rd (fPartState x.tag) ≠ 0))
  | .host | .remote => true
/-- The site whose router meets the endpoint (01 R13): of a wharf die's four edge routers the same one always (DESIGN CHOICE, log entry 15). -/
def dstSite (s : State) (d : MeshDst) : Nat :=
  match d with
  | .tile t => s.tileSite t
  | .wharf w => lget 0 [0, 4, 7, 39, 56, 60, 0, 32] w
  | _ => 0

/-- A transfer dropped by its router: the router's entry, then the issuer's halting entry (14 R356). -/
def meshDrop (s : State) (x : MeshX) : State :=
  let site := dstSite s x.dst
  let w := quadWharf (siteQuad site)
  let ix := errIndex s w
  let s1 := errRaise { s with routerDrops := tset nat0 s.routerDrops site (tget nat0 s.routerDrops site + 1) }
    { wharf := w, cls := 1, cause := 0x46, kind := 7, part := x.tag, q2 := site }
  match x.who with
  | .core uid bundle rep => coreHalt s1 uid 9 0 bundle rep .y [] (some ix)
  | .barge id => match s1.barge id with
    | some b =>
      let s2 := s1.modBarge id fun y => { y with written := y.written + 1 }
      match b.origin with
      | .standing _ _ _ => bargeHalt s2 b (engineQueue b.engine) 0x41 9 0 0x4D false (some ix) false
      | _ => bargeHalt s2 b (engineQueue b.engine) 0x44 0x4D 0 0x4D false (some ix) false
    | none => s1
  | .ring r c =>
    let x := ringErr s1 r false (ringErrIn s1 r c 0x4D 0 [ix])
    setWork x.1 r c (.judged 0x4D 0 (some x.2))
  | .none => s1

/-- Do two issuers share a stream that the mesh keeps in order: one issuer, or two barges of one channel (09 R178)? -/
def sameStream (s : State) (a b : Issuer) : Bool :=
  decide (a = b) || match a, b with
    | .barge i, .barge j => (match s.barge i, s.barge j with
      | some x, some y => decide (x.engine = y.engine) && decide (x.chan = y.chan)
      | _, _ => false)
    | _, _ => false
/-- The transfer leaves the mesh. -/
def meshTake (s : State) (i : Nat) : State := { s with mesh := s.mesh.eraseIdx i }

/-- The i-th transfer meets its endpoint's router: dropped, delivered, or still denied its lanes (01 R15; 05 R96; 09 R175, R178). -/
def meshDeliver (s : State) (i : Nat) (ecc : Option Upset) : State :=
  match s.mesh[i]? with
  | none => s
  | some x =>
    if (s.mesh.take i).any fun y => sameStream s y.who x.who && decide (y.dst = x.dst) then s
    else if !tagOk s x then meshDrop (meshTake s i) x
    else if (match x.load with | .piece _ _ dpa _ => !locReady s dpa | _ => false) then s
    else match x.dst, x.load with
    | .tile t, .gateAdd g n p => if s.isFatal then s else gatePush (meshTake s i) t ⟨g, false, n, p, x.who⟩
    | .tile t, .gateSet g v p => if s.isFatal then s else gatePush (meshTake s i) t ⟨g, true, v, p, x.who⟩
    | _, .piece id _ dpa bytes =>
      let r := pieceLand s id dpa bytes ecc
      if r.1 then meshTake r.2 i else r.2
    | _, _ => meshTake s i

end Sys2Proof.Machine
end

