-- ==== Sys2Proof/Machine/RegWrite.lean ====
section
/-! DEFINITION. Writes of BAR0 registers: change classes, pending writes, masked writes of staged settings, ownership
(18 R331 to R339, 03 R57). -/

namespace Sys2Proof.Machine
open Sys2Proof

def fFxIgnored : Fld := ⟨0x1C00, 63, 56⟩
def fHoleWrites : Fld := ⟨0x1C00, 55, 48⟩
def fRoWrites : Fld := ⟨0x1C00, 47, 40⟩
def fStPending : Fld := ⟨0x1C00, 39, 28⟩
def fLastOffset : Fld := ⟨0x1C00, 25, 0⟩

/-- The mask of a register's write-1-to-clear fields. -/
def RegInfo.clr (i : RegInfo) : Nat := i.w1c.foldl (fun m p => m ||| bmask p.1 p.2) 0
/-- The command bits of a register whose writes are rows of their own, and bits that read zero whatever is written (02, 11, 12, 13, 15, 16). -/
def commandBits (off : Nat) : Nat :=
  if off = 0x1440 then 1
  else if off = 0x1808 then 6
  else if off = 0x800010 then 4
  else if off = 0x900008 then bmask 15 8 + 1
  else if inBlk 0x400000 0x1000 16 off 0 then 3
  else if inBlk 0x410000 0x1000 16 off 0 then 3
  else 0

/-- What a read of the register returns: pending ST fields show the value last written (18 R334); MILE_NOW is the
counter (13 R260). -/
def State.visible (s : State) (off : Nat) : Nat :=
  if off = 0x600018 then s.mile else match regInfo off, s.pendingSt.find? fun p => decide (p.1 = off) with
  | some i, some p => ((s.reg off).toNat &&& (2 ^ 64 - 1 - i.st)) ||| (p.2.toNat &&& i.st)
  | _, _ => (s.reg off).toNat

/-! ### The record of a port -/
def port0 : Nat → PortSt := fun _ => {}
def State.port (s : State) (p : Nat) : PortSt := tget port0 s.ports p
def State.putPort (s : State) (p : Nat) (g : PortSt) : State := { s with ports := tset port0 s.ports p g }
def State.modPort (s : State) (p : Nat) (f : PortSt → PortSt) : State := s.putPort p (f (s.port p))

/-- Is any port Up; is any partition not stopped? -/
def fPortState (p : Nat) : Fld := ⟨aLnk p 0x10, 63, 60⟩
def anyStarted (s : State) : Bool := [0, 1, 2, 3].any fun p => decide (s.rd (fPartState p) ≠ 0)
/-- LNK_STATUS.state of an Up port. -/
def portUpCode : Nat := 3
def portUp (s : State) (p : Nat) : Bool := decide (s.rd (fPortState p) = portUpCode)
/-- Does the block of an FX field count as started (18 R333)? -/
def fxStarted (s : State) (off : Nat) : Bool :=
  if off = 0x1400 ∨ off = 0x800028 then anyStarted s
  else if off = 0x1410 then (List.range 16).any fun p => portUp s p
  else if 0x1420 ≤ off ∧ off < 0x1440 then decide (s.rd (fPartState ((off - 0x1420) / 8)) ≠ 0)
  else false

/-- The W1C fields in which a 1 was written are cleared whole (18 R332, R339). -/
def clearW1c (i : RegInfo) (w ones : Nat) : Nat :=
  i.w1c.foldl (fun v p => if ones &&& bmask p.1 p.2 ≠ 0 then v &&& (2 ^ 64 - 1 - bmask p.1 p.2) else v) w

/-- The number of registers with a pending write, and what each touched ring shows (18 R339, 03 R42). -/
def showPending (s : State) : State := s.wr fStPending s.pendingSt.length
/-- The ring of a register of the RING_ block. -/
def ringOf (off : Nat) : Option Nat := if 0x110000 ≤ off ∧ off < 0x120000 then some ((off - 0x110000) / 0x40) else none
/-- A ring's RING_STATE.state shows again what the ring is. -/
def showRing (s : State) (off : Nat) : State :=
  match ringOf off with
  | some r => s.putRing r (s.ring r)
  | none => s

/-- A pending write replaces the register's earlier one and is the latest to arrive (18 R334). -/
def pend (s : State) (off v : Nat) : State :=
  showRing (showPending { s with pendingSt := s.pendingSt.filter (fun p => decide (p.1 ≠ off)) ++ [(off, BitVec.ofNat 64 v)] }) off

/-- CORE_NAN_TRAP2: clearing valid clears nan_count, in CORE_NAN_TRAP1, too (08 R166). -/
def isTrap2 (off : Nat) : Bool := inBlkRun 0x200000 0x1000 60 off 0x140 16 && decide ((off - 0x200000) % 0x1000 % 0x20 = 0x10)
/-- Is it a register of the exact route entries, whose learned bit a host write clears (13 R251)? -/
def isRouteEx (off : Nat) : Bool := inBlk 0x500000 8 4096 off 0
/-- The FX and LV fields of a write take effect at once; command bits have rows of their own; ones clear W1C fields. -/
def writeNow (s : State) (off : Nat) (i : RegInfo) (m v ones : Nat) : State :=
  let w := (s.reg off).toNat
  let s1 := s.setReg off (BitVec.ofNat 64 (clearW1c i ((w &&& (2 ^ 64 - 1 - m)) ||| (v &&& m)) ones))
  if isTrap2 off && nbit ones 63 then s1.wr ⟨off - 8, 31, 16⟩ 0
  else if isRouteEx off then s1.wr ⟨off, 62, 62⟩ 0
  else s1

/-- Does the pending write of a group entry's WHF_RGRP_CFG write 1 to valid (10 R189)? A write of the other half leaves that as it is. -/
def noteValid (s : State) (off half v : Nat) : State :=
  if !inBlk 0x300000 0x40 256 off 0 then s
  else
    let n := (off - 0x300000) / 0x40
    let now := if nbit half 63 then nbit v 63 else s.groupSet.contains n && s.pendingSt.any fun p => decide (p.1 = off)
    { s with groupSet := s.groupSet.filter (· ≠ n) ++ if now then [n] else [] }

/-- A direct BAR0 write of n = 4 or 8 bytes, naturally aligned (18 R332 to R334). -/
def regWrite (s : State) (off n data : Nat) : State :=
  let a := off / 8 * 8
  let half := if n = 8 then allBits else bmask 31 0 * 2 ^ (8 * (off - a))
  let put := data % 2 ^ (8 * n) * 2 ^ (8 * (off - a))
  match regInfo a with
  | none => (s.inc fHoleWrites).wr fLastOffset off
  | some i =>
    if i.fx = 0 ∧ i.st = 0 ∧ i.lv = 0 ∧ i.w1c.isEmpty then (s.inc fRoWrites).wr fLastOffset off
    else
      let v := (s.visible a &&& (allBits - half)) ||| put
      let started := fxStarted s a
      let s1 := if started ∧ i.fx &&& half ≠ 0 then (s.inc fFxIgnored).wr fLastOffset off else s
      let m := ((if started then 0 else i.fx) ||| i.lv) &&& (allBits - commandBits a)
      let s2 := writeNow s1 a i (m &&& half) v (put &&& half)
      if i.st = 0 then s2 else pend (noteValid s2 a half v) a (v &&& i.st)

/-- The pending writes of some registers applied in the order of arrival (18 R335). -/
def applyPending (s : State) (mine : Nat → Bool) : State :=
  let l := s.pendingSt.filter fun p => mine p.1
  let s1 := l.foldl (fun t p => match regInfo p.1 with | some i => writeNow t p.1 i i.st p.2.toNat 0 | none => t)
    { s with pendingSt := s.pendingSt.filter fun p => !mine p.1 }
  l.foldl (fun t p => showRing t p.1) (showPending s1)

/-! ### Staged settings (03 R57, 18 R335 to R337) -/

/-- The block that holds a register's ST fields. -/
def regBlk (off : Nat) : Option Blk :=
  if 0x100000 ≤ off ∧ off < 0x100020 then some (.summary ((off - 0x100000) / 8))
  else if 0x110000 ≤ off ∧ off < 0x120000 then some (.ring ((off - 0x110000) / 0x40))
  else if 0x2000 ≤ off ∧ off < 0x3000 then some (.remote ((off - 0x2000) / 0x400) ((off - 0x2000) % 0x400 / 0x10))
  else if 0x300000 ≤ off ∧ off < 0x304000 then some (.rgrp ((off - 0x300000) / 0x40))
  else if 0x400000 ≤ off ∧ off < 0x410000 then some (.port ((off - 0x400000) / 0x1000))
  else if 0x410000 ≤ off ∧ off < 0x420000 then some (.port ((off - 0x410000) / 0x1000))
  else if off = 0x600000 ∨ off = 0x600008 then some .mile
  else none

/-- The quadrant of a port: of its wharf die (01 R13). -/
def portQuad (p : Nat) : Nat := wharfQuad (p / 2)
/-- The partition a register belongs to; none: only direct writes change it (18 R337). -/
def regOwner (s : State) (off : Nat) : Option Nat :=
  match regBlk off with
  | some (.ring r) => some (s.rd (fRPart r))
  | some (.summary p) => some p
  | some (.rgrp n) => some (s.rd ⟨aGrp n 0, 62, 61⟩)
  | some (.port p) => s.quadPart (portQuad p)
  | some _ => none
  | none => if 0x200000 ≤ off ∧ off < 0x23C000 then s.tilePart ((off - 0x200000) / 0x1000) else none
/-- The partition field that a write would put into a register, where it has one. -/
def newOwner (off v : Nat) : Option Nat :=
  if inBlk 0x110000 0x40 1024 off 0x18 then some (nbits v 11 10)
  else if inBlk 0x300000 0x40 256 off 0 then some (nbits v 62 61)
  else none

/-- The value that a staged setting gives a register. -/
def stagedValue (s : State) (off val mask : Nat) : Nat := ((s.visible off) &&& (allBits - mask)) ||| (val &&& mask)

/-- What becomes of a staged setting before any quiescent point: a status, or none when it may be written (03 R57; 18 R335, R337). A PART_
register is none that such a setting may address (03 R57; 16 R318); of any other a mask with an FX field of a started block is judged before
the owner of the register (DEDUCED, log entry 16). -/
def stagedCheck (s : State) (part off val mask : Nat) : Option Nat :=
  match regInfo off with
  | none => some 0x41
  | some i =>
    if 0x1400 ≤ off ∧ off < 0x3000 ∧ (off < 0x1800 ∨ 0x2000 ≤ off) then some 0x46
    else if i.fx &&& mask ≠ 0 ∧ fxStarted s off then some 0x45
    else if regOwner s off ≠ some part then some 0x46
    else if (newOwner off (stagedValue s off val mask)).any fun q => decide (q ≠ part) then some 0x46
    else if mask &&& (allBits - (i.fx ||| i.st ||| i.lv ||| i.clr)) ≠ 0 then some 0x41
    else none

/-- The offset, value, mask and timeout of a staged-setting descriptor (03 R49). -/
def stOff (q : List Nat) : Nat := dq q 2
def stVal (q : List Nat) : Nat := dq q 3
def stMask (q : List Nat) : Nat := dq q 4

/-- A staged setting written: every masked field, W1C fields as W1C. -/
def stagedWrite (s : State) (off val mask : Nat) : State :=
  match regInfo off with
  | none => s
  | some i =>
    let m := mask &&& (i.fx ||| i.st ||| i.lv) &&& (allBits - commandBits off)
    showRing (writeNow s off i m (stagedValue s off val mask) (val &&& mask)) off

/-- The number of a staged setting that waits, in the order of dispatch (18 R335). -/
def Dispatched.stagedNo (d : Dispatched) : Nat := match d.work with | .staged _ n => n | _ => 0
/-- The staged-setting descriptors that wait on a block, with their rings, in the order of their dispatch. -/
def stagedWaiting (s : State) (b : Blk) : List (Nat × Dispatched) :=
  let l := s.rings.flatMap fun x => x.2.out.filterMap fun d => match d.work with
    | .staged _ _ => if regBlk (stOff d.q) = some b then some (x.1, d) else none
    | _ => none
  l.foldl (fun acc d => (acc.takeWhile fun e => decide (e.2.stagedNo ≤ d.2.stagedNo)) ++ d ::
    acc.dropWhile fun e => decide (e.2.stagedNo ≤ d.2.stagedNo)) []

/-- One staged setting lands: written whole with what its command bits ask for, or refused; its result is the register after the write. -/
def stagedLand (act : State → Nat → Nat → Nat → State) (s : State) (r : Nat) (q : List Nat) : State × Work :=
  match stagedCheck s (s.rd (fRPart r)) (stOff q) (stVal q) (stMask q) with
  | some st => (s, .judged st (s.visible (stOff q)) none)
  | none =>
    let s1 := act (stagedWrite s (stOff q) (stVal q) (stMask q)) (stOff q) (stVal q) (stMask q)
    (s1, .judged 0 (s1.visible (stOff q)) none)

/-- A block at its quiescent point: its pending direct writes in the order of arrival, then the staged settings that wait on it in the
order of their dispatch (18 R335). -/
def blkApply (act : State → Nat → Nat → Nat → State) (s : State) (b : Blk) : State :=
  (stagedWaiting s b).foldl (fun t x =>
      let y := stagedLand act t x.1 x.2.q
      setWork y.1 x.1 x.2.count y.2)
    (applyPending s fun off => decide (regBlk off = some b))
/-- Without command bits. -/
def noAct (s : State) (_ _ _ : Nat) : State := s

end Sys2Proof.Machine
end

