-- ==== Sys2Proof/Machine/Rings.lean ====
section
/-! DEFINITION. The events of the command rings: enabling, polling, doorbells, fetching, completion, timeouts
(03 R38 to R59, R354, R355). -/

namespace Sys2Proof.Machine
open Sys2Proof

/-- The poll state of a partition that nothing has changed (03 R45). -/
def poll0 : Nat → PollSt := fun _ => {}

/-- Does the ring engine work: the link is up and carries traffic, the function is in D0, the host matches, nothing fatal, no warm reset
(02 R26, R32, R33, R37; 14 R273; 16 R303)? -/
def engineOn (s : State) : Bool :=
  s.dlActive && !s.link.stalled && !s.link.d3hot && !s.flag fHostMismatch && !s.isFatal && s.trust.warm.isNone

/-! ### Doorbells (03 R39, R46, R59, R355) -/

/-- A ring halts at its head without a record: entry with the status as detail, vector while err_irq = 1 (03 R46, R54, R355). Descriptors
dispatched before go on, that at head among them: they write their records and move head while the ring is halted (DESIGN CHOICE, log
entry 15). After a fatal error only the entry follows: the sequence halts the ring, with last_status unchanged and without a vector (14 R273). -/
def doorbellHalt (s : State) (r status : Nat) (kind : HaltKind) : State :=
  let k := s.rd (fHead r)
  let s0 := ringEntry s r k status 0 []
  if s.isFatal then s0
  else
    let s1 := ringStop s0 r k kind (some status)
    if s1.flag (fErrIrq r) then ringIrq s1 r true else s1

/-- A refused or timed-out doorbell read (03 R355); of a ring that is halted already it changes nothing (DESIGN CHOICE, log entry 15). -/
def doorbellRefused (s : State) (r : Nat) : State :=
  if (s.ring r).st ≠ 1 then s
  else doorbellHalt s r 0x43 (if (s.ring r).gen.isNone then .firstRead else .resume)

/-- The doorbell record of a ring is read; an address the link cannot carry is refused (02 R25). -/
def doorbellAsk (s : State) (r : Nat) : State :=
  let a := s.rd (fDbAddr r) * 8
  if busOk s a 8 then hostAsk s (.doorbell r) a 8 else doorbellRefused s r

/-- A doorbell record arrives (03 R39, R46, R59). A faulty one that finds the ring halted and would not resume it is ignored whole (DESIGN
CHOICE, log entry 15). -/
def doorbellGot (s : State) (r word : Nat) : State :=
  let g := s.ring r
  let gen := nbits word 63 48
  let tail := nbits word 31 0
  let bad := nbits word 47 32 ≠ 0 ∨ countFrom (s.rd (fHead r)) tail > 2 ^ s.rd (fRSize r)
  let resumes : Bool := match g.st, g.halt, g.gen with
    | 2, HaltKind.resume, some x => decide (x ≠ gen)
    | 2, HaltKind.firstRead, _ => true
    | _, _, _ => false
  if g.st = 0 then s
  else if bad then
    if g.st = 1 ∨ resumes then doorbellHalt (s.putRing r { g with genSeen := gen }) r 0x4C .resume else s
  else if g.st = 1 then s.putRing r { g with tail := tail, genSeen := gen, gen := some (g.gen.getD gen) }
  else if resumes then s.putRing r { g with tail := tail, genSeen := gen, gen := some gen, st := 1, next := s.rd (fHead r), haltIx := none }
  else s.putRing r { g with tail := tail }

/-- DOORBELL_READ_RETURN (03 R46, R54, R59, R355). -/
def doorbellReturn (s : State) (r : Nat) (status : CplStatus) (word : Nat) : State :=
  let p (q : HostReq) : Bool := decide (q.kind = .doorbell r)
  if !(s.reqs.any p) then s
  else
    let s1 := dropReq s p
    if status = .ok then doorbellGot s1 r word else doorbellRefused s1 r

/-! ### Enabling and disabling (03 R42) -/

/-- The pending value of RING_CFG. -/
def pendingCfg (s : State) (r : Nat) : Option Nat := (s.pendingSt.find? fun p => decide (p.1 = aRing r 0x18)).map fun p => p.2.toNat
def ringRegs (r off : Nat) : Bool := decide (ringOf off = some r)

/-- A ring whose enable is applied enters service, or the enable is refused with cfg_error (03 R41, R42): enable then reads 0. It shows
state 1, with its tail at start_count, before its first doorbell read has returned (DESIGN CHOICE, log entry 15). -/
def ringOn (s : State) (r : Nat) : State :=
  let n := s.rd (fRSize r)
  let p := s.rd (fRPart r)
  if n < 6 ∨ n > 16 ∨ s.rd (fPartState p) ≠ 2 then (s.wrAll [(fEnable r, 0), (fCfgErr r, 1)]).modRing r fun g => { g with st := 0 }
  else
    let c := s.rd (fStartCount r)
    let s2 := { dropReqs s (fun k => decide (k = ReqFor.doorbell r)) with polls := tset poll0 s.polls p { backedOff := false, freshAt := some s.mile } }
    doorbellAsk ((s2.wr (fHead r) c).putRing r { st := 1, tail := c, next := c, irqOpen := (s.ring r).irqOpen, irqHeld := (s.ring r).irqHeld }) r

/-- A ring leaves service: nothing of it is fetched, waits or is recorded; its launches not yet checked and its armed dumps are cancelled
(03 R42, 09 R186). A request held in its holdoff window is raised at the window's end all the same (03 R54). -/
def ringOff (s : State) (r : Nat) : State :=
  let s1 := dropOut (dropReqs s fun k => match k with | .doorbell r' | .desc r' _ _ => decide (r' = r) | _ => false) r fun _ => true
  s1.putRing r { (s1.ring r) with
    st := 0, waiting := [], out := [], after := [], halting := [], gen := none, haltIx := none }

/-- Is a write of RING_CFG waiting for the ring's quiescent point? -/
def cfgWaiting (s : State) (r : Nat) : Bool :=
  (pendingCfg s r).isSome || (stagedWaiting s (.ring r)).any fun x => decide (stOff x.2.q = aRing r 0x18)
/-- A ring at its quiescent point: its registers apply; an enable set by them puts it into service, one cleared takes it out. An enable
waits while the ring engine does not work. -/
def ringApply (s : State) (r : Nat) : State :=
  let s1 := blkApply noAct s (.ring r)
  let again := cfgWaiting s r && decide ((s.ring r).st = 2) && decide ((s.ring r).halt = .reenable)
  let turnsOn := s1.flag (fEnable r) && (!s.flag (fEnable r) || again)
  if turnsOn then (if engineOn s then ringOn s1 r else s)
  else if s.flag (fEnable r) && !s1.flag (fEnable r) then ringOff s1 r
  else s1
/-- RING_ENABLE: the pending enable applies at the quiescent point. -/
def ringEnable (s : State) (r : Nat) : State :=
  match pendingCfg s r with
  | none => s
  | some v =>
    let again := decide ((s.ring r).st = 2) && decide ((s.ring r).halt = .reenable)
    if !nbit v 0 ∨ (s.flag (fEnable r) ∧ !again) ∨ !ringQuiet s r ∨ !engineOn s then s else ringApply s r

/-- RING_DISABLE: at the quiescent point; a ring whose every outstanding descriptor is an armed halt-and-dump counts as at one
(03 R42, 09 R186). -/
def ringDisable (s : State) (r : Nat) : State :=
  match pendingCfg s r with
  | none => s
  | some v =>
    let armed := (s.ring r).out.all fun d => s.dumps.any fun x => decide (x.ring = r) && decide (x.count = d.count) && !x.applied
    if nbit v 0 ∨ !s.flag (fEnable r) ∨ !(ringQuiet s r || (armed && (s.ring r).waiting.isEmpty)) then s
    else ringApply s r

/-! ### Polling (03 R44, R45, R354) -/

/-- A refused bitmap read or CAS: a corrected entry, and polling goes on (03 R354). -/
def bitmapRefused (s : State) (p : Nat) (cas : Bool) : State :=
  errRaise s { wharf := 0, cls := 0, cause := 0x09, kind := 14, part := p, q2 := p + b2n cas * 4, detail := b2n cas }

/-- SUMMARY_POLL: one 128-byte read of a valid bitmap (03 R44); nothing is polled in Dormant (15 R291). -/
def summaryPoll (s : State) (p : Nat) : State :=
  if !engineOn s ∨ !s.flag (fSumValid p) ∨ !mayAsk s ∨ s.rd ⟨0x800008, 21, 19⟩ = 3 then s
  else
    let a := s.rd (fSumBase p) * 128
    if busOk s a 128 then hostAsk s (.bitmap p) a 128 else bitmapRefused s p false

/-- The rings that a bitmap word announces. -/
def wordRings (word v : Nat) : List Nat := ((List.range 64).filter fun i => nbit v i).map fun i => 64 * word + i
/-- Is a ring in service for a partition? -/
def ringServes (s : State) (p r : Nat) : Bool := decide ((s.ring r).st ≠ 0) && decide (s.rd (fRPart r) = p)

/-- The CAS of one non-zero word of the bitmap at a bus address, and its rings become active. -/
def casWord (s : State) (p base w v : Nat) : State :=
  if v = 0 then s
  else
    let s1 := (wordRings w v).foldl (fun t r => if ringServes t p r then t.modRing r fun g => { g with seenAt := some s.mile } else t) s
    hostAsk { s1 with polls := tset poll0 s1.polls p { tget poll0 s1.polls p with backedOff := false } } (.cas p w v) (base + 8 * w) 8

/-- SUMMARY_BITMAP_RETURN (03 R40, R44, R45, R354). -/
def bitmapReturn (s : State) (p : Nat) (status : CplStatus) (words : List Nat) : State :=
  let is (q : HostReq) : Bool := decide (q.kind = .bitmap p)
  match s.reqs.find? is with
  | none => s
  | some q =>
    let s1 := dropReq s is
    if status = .ok then (List.range 16).foldl (fun t w => casWord t p q.addr w (lget 0 words w % 2 ^ 64)) s1
    else bitmapRefused s1 p false

/-- The doorbells of the rings seen are read; a bit for a ring that does not serve the partition is stray (03 R40, R44). -/
def readDoorbells (s : State) (p w seen : Nat) : State :=
  (wordRings w seen).foldl (fun t r => if ringServes t p r then doorbellAsk t r else t.inc (fStray r)) s

/-- SUMMARY_CAS_RETURN: whether or not the CAS succeeded, the doorbells are read (03 R44, R354). -/
def casReturn (s : State) (p w : Nat) (status : CplStatus) : State :=
  match s.reqs.findSome? fun q => match q.kind with | .cas p' w' v => if p' = p ∧ w' = w then some v else none | _ => none with
  | none => s
  | some seen =>
    let s1 := dropReq s fun q => match q.kind with | .cas p' w' _ => decide (p' = p) && decide (w' = w) | _ => false
    readDoorbells (if status = .ok then s1 else bitmapRefused s1 p true) p w seen

/-- POLL_BACKOFF: 1 ms has passed with no active ring (03 R45). One that is active still, or an enabling or a valid bit of less than 1 ms ago,
leaves the period as it is. -/
def pollBackoff (s : State) (p : Nat) : State :=
  if ((List.range 1024).any fun r => ringServes s p r && ringActive s (s.ring r)) || lately s (tget poll0 s.polls p).freshAt then s
  else { s with
    polls := tset poll0 s.polls p { backedOff := true }
    rings := tmap ring0 (fun r g => if s.rd (fRPart r) = p then { g with seenAt := none } else g) s.rings }

/-! ### Fetching (03 R46, R47, R55, R355) -/

/-- Descriptors of a ring being read. -/
def inFlight (s : State) (r : Nat) : Nat :=
  lsum ((s.reqs.map (fun q => q.kind) ++ s.reqWait.map fun x => x.1).map fun k => match k with | .desc r' _ n => if r' = r then n else 0 | _ => 0)
/-- How many descriptors a ring may fetch on its turn: none at or after a halting one (R56). The limit of 64 counts those fetched or being
read, too (DESIGN CHOICE, log entry 15). -/
def fetchable (s : State) (r : Nat) : Nat :=
  let g := s.ring r
  let h := s.rd (fHead r)
  let room := match firstHalting h g.halting with | some x => countFrom h x.1 - countFrom h g.next | none => 64
  if g.st ≠ 1 ∨ g.gen.isNone then 0
  else min (min 8 room) (min (countFrom g.next g.tail) (64 - (g.out.length + g.waiting.length + inFlight s r)))
/-- The ring whose turn it is: the first with something to fetch after the one that fetched last. -/
def nextTurn (s : State) : Option Nat := ((List.range 1024).map fun i => (s.rrLast + 1 + i) % 1024).find? fun r => decide (fetchable s r ≠ 0)

/-- A descriptor put among the waiting ones, in order of count. -/
def insFetched (h : Nat) (f : Fetched) : List Fetched → List Fetched
  | [] => [f]
  | g :: r => if countFrom h f.count < countFrom h g.count then f :: g :: r else g :: insFetched h f r

def insAll (h : Nat) (w l : List Fetched) : List Fetched := l.foldl (fun w f => insFetched h f w) w

/-- Fetched descriptors join the ring; counts already complete are skipped, and so are those that were started before a halt and run still
(03 R56, R59; for these DESIGN CHOICE, log entry 15), and those at or after a halting one. -/
def addFetched (s : State) (r : Nat) (l : List Fetched) : State :=
  let h := s.rd (fHead r)
  ringJudge 64 (s.modRing r fun g =>
    { g with waiting := insAll h g.waiting (l.filter fun f =>
        !g.after.contains f.count && !(g.out.any fun d => decide (d.count = f.count)) && !pastHalting s r f.count) }) r

/-- One read of n descriptors from a count, which does not wrap; an address the link cannot carry is refused. -/
def fetchRead (s : State) (r c n : Nat) : State :=
  if n = 0 then s
  else
    let a := s.rd (fDescBase r) * 4096 + 64 * (c % 2 ^ s.rd (fRSize r))
    if busOk s a (64 * n) then hostAsk s (.desc r c n) a (64 * n)
    else addFetched s r ((List.range n).map fun i => ⟨countNext c i, [], some 0x43⟩)

/-- DESCRIPTOR_FETCH: at most 8 descriptors in one read, or two where the ring wraps (03 R46). -/
def descFetch (s : State) : State :=
  match nextTurn s with
  | none => s
  | some r =>
    if !engineOn s ∨ !mayAsk s then s
    else
    let n := fetchable s r
    let c := (s.ring r).next
    let size := 2 ^ s.rd (fRSize r)
    let first := min n (size - c % size)
    let s1 := { s with rrLast := r }.modRing r fun g => { g with next := countNext g.next n }
    fetchRead (fetchRead s1 r c first) r (countNext c first) (n - first)

/-- DESCRIPTOR_READ_RETURN: the seq check, or the whole read refused (03 R47, R355). -/
def descReturn (s : State) (r : Nat) (status : CplStatus) (descs : List (List Nat)) : State :=
  match s.reqs.findSome? fun q => match q.kind with | .desc r' c n => if r' = r then some (c, n) else none | _ => none with
  | none => s
  | some (c, n) =>
    let s1 := dropReq s fun q => match q.kind with | .desc r' _ _ => decide (r' = r) | _ => false
    addFetched s1 r ((List.range n).map fun i =>
      let k := countNext c i
      let q := (List.range 8).map fun j => lget 0 (lget [] descs i) j % 2 ^ 64
      if status ≠ .ok then ⟨k, [], some 0x43⟩ else ⟨k, q, if nbits (dq q 0) 63 32 = k then none else some 0x40⟩)

/-! ### Completion (03 R50 to R56) -/

def outOf (s : State) (r count : Nat) : Option Dispatched := (s.ring r).out.find? fun d => decide (d.count = count)

/-- Has a core issued its first bundle, or stopped without? -/
def hasIssued (c : CoreSt) : Bool := decide (c.bcount ≠ 0) || decide (c.rep ≠ 0) || decide (c.phase ≠ .run)

/-- DESCRIPTOR_COMPLETE: the descriptor's work is finished, or what it waits for holds now (03 R50, R53). -/
def descComplete (s : State) (r count : Nat) : State :=
  match outOf s r count with
  | none => s
  | some d =>
    if s.isFatal ∨ s.link.stalled then s
    else match d.work with
    | .judged st res ix => if st < 0x40 then ringDone s r d st res else ringHaltAt s r d st res 0 ix
    | .gateWait ref target _ =>
      let v := s.gate (nbits ref 17 12) (nbits ref 11 0)
      if gateReached v (BitVec.ofNat 32 target) then ringDone s r d 0 v.toNat else s
    | .fence none _ => if (s.ring r).out.all fun x => decide (countFrom (s.rd (fHead r)) d.count ≤ countFrom (s.rd (fHead r)) x.count)
        then ringDone s r d 0 0 else s
    | .fence (some o) _ =>
      if sint 32 (s.rd (fHead o.1) + 2 ^ 32 - o.2) > 0 then ringDone s r d 0 0 else s
    | .wipe a n => ringDone (wipeDone s (s.rd (fRPart r)) a n) r d 0 (lsum ((wipeParts s (s.rd (fRPart r)) a n).map fun p => p.2))
    | .launch => match launchOf s r count with
      | some f => if f.atStart && decide (f.step = .running) && (f.cores.all fun u => hasIssued (s.core u)) then ringDone s r d 0 f.ts else s
      | none => s
    | _ => s

/-- IRQ_HOLDOFF_EXPIRY: the window ends, and a held request is raised once, which opens the next one while irq_holdoff is above 0 (03 R54).
After a fatal error no ring raises its vector (14 R273). -/
def holdoffEnd (s : State) (r : Nat) : State :=
  let g := s.ring r
  if !g.irqOpen ∨ s.isFatal then s
  else if g.irqHeld then msixRaise (s.putRing r { g with irqHeld := false, irqOpen := decide (s.rd (fHoldoff r) ≠ 0) }) (s.rd (fRVec r))
  else s.putRing r { g with irqOpen := false }

/-- Does what a waiting descriptor waits for hold now (03 R50)? -/
def waitHolds (s : State) (r : Nat) (d : Dispatched) : Bool :=
  match d.work with
  | .gateWait ref target _ => gateReached (s.gate (nbits ref 17 12) (nbits ref 11 0)) (BitVec.ofNat 32 target)
  | .fence (some o) _ => decide (sint 32 (s.rd (fHead o.1) + 2 ^ 32 - o.2) > 0)
  | .fence none _ => (s.ring r).out.all fun x => decide (countFrom (s.rd (fHead r)) d.count ≤ countFrom (s.rd (fHead r)) x.count)
  | _ => false
/-- DESCRIPTOR_WAIT_TIMEOUT: status 0x44 with the peer-wait list (03 R50, R53; 09 R185; 14 R271), unless what is waited for holds. -/
def descTimeout (s : State) (r count : Nat) : State :=
  match outOf s r count with
  | none => s
  | some d =>
    let part := s.rd (fRPart r)
    let go (lim word result : Nat) : State :=
      if s.mile < d.t0 + lim ∨ s.isFatal then s
      else if waitHolds s r d then descComplete s r count
      else
        let p := peerList ((peersOf s part).filter fun x => decide (x.ring ≠ some (r, count)))
        let x := ringErr s r false (ringErrIn s r count 0x44 (b2n p.2 + word * 2 ^ 8) p.1)
        setWork x.1 r count (.judged 0x44 result (some x.2))
    match d.work with
    | .gateWait ref _ lim => go lim ref (ref * 2 ^ 32 + (s.gate (nbits ref 17 12) (nbits ref 11 0)).toNat)
    | .fence (some o) lim => go lim (2 ^ 30 + o.1 * 2 ^ 16 + o.2 % 2 ^ 16) (o.1 + s.rd (fHead o.1) * 2 ^ 32)
    | .fence none lim => go lim 0 0
    | _ => s



end Sys2Proof.Machine
end

