-- ==== Sys2Proof/Machine/Link.lean ====
section
/-! DEFINITION. The UCIe link to the host die, the PCIe function and BAR accesses (01 R18; 02 R23 to R37, R357; 18 R332). -/

namespace Sys2Proof.Machine
open Sys2Proof

def fBadAccess : Fld := ⟨0x1800, 63, 56⟩
def fRetrains : Fld := ⟨0x1800, 55, 48⟩
def fRepaired : Fld := ⟨0x1800, 47, 40⟩
def fModFail (m : Nat) : Fld := ⟨0x1800, 35 + 4 * m, 32 + 4 * m⟩
def fModState (m : Nat) : Fld := ⟨0x1800, 25 + 2 * m, 24 + 2 * m⟩
def fWidth : Fld := ⟨0x1800, 23, 16⟩
def fHostProfile : Fld := ⟨0x1068, 63, 0⟩
def modDown : Nat := 0
def modTraining : Nat := 1
def modActive : Nat := 2
def modHeld : Nat := 3

/-- The modules that are not held down: the mask the Kendidor advertises (02 R28). -/
def localMask (s : State) : Nat := lsum ([0, 1].map fun m => if s.rd (fModState m) = modHeld then 0 else 2 ^ m)
/-- The modules that an attempt trains: those of both masks; both of them only with x128, else module 0 alone (02 R25, R28); without x128 and
without module 0 the other one (02 R29; DESIGN CHOICE, log entry 15). -/
def trainMask (s : State) : Nat :=
  let both := s.link.localMask &&& s.link.remoteMask
  if both = 3 ∧ !s.cap 3 ∧ s.link.step ≠ some 0 ∧ s.link.step ≠ some 1 then 1 else both
def maskWidth (m : Nat) : Nat := popcount 2 m * 0x40

/-- A link event: WHF_UCIE_EVENT, and an entry of N0's queue with that value as source (02 R28, 14 R271). -/
def ucieEvent (s : State) (code trained : Nat) : State :=
  let v := s.mile % 2 ^ 40 * 2 ^ 24 + code * 2 ^ 16 + s.link.localMask % 4 * 2 ^ 14 + s.link.remoteMask % 4 * 2 ^ 12 + trained % 4 * 2 ^ 10
  errRaise (s.setReg 0x1810 (BitVec.ofNat 64 v)) { wharf := 0, cls := 0, cause := 0x05, kind := 8, q2 := v, detail := code }

/-! ### Loss of DL_Active (02 R33) -/

/-- Do the barges of an armed standing entry touch the host window? -/
def standingUsesHost (s : State) (tile ix : Nat) (st : Standing) : Bool :=
  (List.range (max (nbits (lget 0#64 st.entry 0).toNat 55 48) (nbits (lget 0#64 st.entry 0).toNat 63 56))).any fun i => (firing s tile ix i st).usesHost

/-- Barges and flights that access the host window halt with a host-window fault. -/
def hostUsersFault (s : State) : State :=
  let s1 := (s.barges.filter fun b => !b.failed && b.usesHost).foldl (fun t b =>
    bargeHalt (t.modBarge b.id fun x => { x with awaiting := [] }) b (engineQueue b.engine) 0x44 0x43 b.src 0x43 false none false) s
  (List.range 60).foldl (fun t n =>
    (t.tile n).standing.foldl (fun t p => match p.2 with
      | some st => if st.armed && standingUsesHost t n p.1 st && !flightHalting t st.part st.flight then
          let b := firing t n p.1 (firedSoFar t n p.1 st) st
          bargeHalt t b (engineQueue n) 0x44 0x43 b.src 0x43 false none false
        else t
      | none => t) t) s1

/-- A ring halts without a record at a count, and the descriptors that satisfy p are given up (02 R33, R36, R37). -/
def ringHaltQuiet (s : State) (r k : Nat) (kind : HaltKind) (p : Nat → Bool) : State := dropOut (ringStop s r k kind none) r p

/-- The first incomplete descriptor of a ring when some records were not acknowledged. -/
def firstIncomplete (s : State) (r : Nat) (unacked : List (Nat × Nat)) : Nat :=
  (unacked.filter fun p => decide (p.1 = r)).foldl (fun k p => if sint 32 (p.2 + 2 ^ 32 - k) < 0 then p.2 % 2 ^ 32 else k) (s.rd (fHead r))

/-- DL_Active is lost: the ring engine stops, every ring in service halts, host-window users fault (02 R33). Before DL_Active has risen there
is nothing to lose, and an attempt under way goes on (DESIGN CHOICE, log entry 15). -/
def dlLoss (s : State) (unacked : List (Nat × Nat)) : State :=
  if !s.dlActive then s
  else
    let s0 : State := { s with
      dlActive := false
      link := { s.link with step := none, stalled := false, held := [] } }
    let s1 := ucieEvent (s0.wrAll [(fWidth, 0), (fModState 0, if s.rd (fModState 0) = modHeld then modHeld else modDown),
      (fModState 1, if s.rd (fModState 1) = modHeld then modHeld else modDown)]) 0x05 0
    let s2 := hostUsersFault s1
    let s3 := (List.range 1024).foldl (fun t r =>
      if (t.ring r).st = 0 then t
      else (ringHaltQuiet t r (firstIncomplete t r unacked) .reenable fun _ => true).modRing r fun g => { g with after := [] }) s2
    let lostBlock := asked s3 fun k => decide (k = ReqFor.startBlock)
    let s4 := { s3 with reqs := [], reqWait := [] }
    if lostBlock then { s4 with parts := { s4.parts with op := none } }.wrAll [(⟨0x1440, 1, 1⟩, 1), (⟨0x1440, 0, 0⟩, 0)] else s4

/-! ### Training (02 R24 to R32) -/

/-- No module can train: the link stays down as a fatal error (02 R30). -/
def linkLost (s : State) : State := dlLoss (errFatal s 0 0x83 8 (s.reg 0x1810).toNat 0) []

/-- A full attempt starts (02 R24): the modules that are not held down train, once the masks are known. One under way is given up for it
(DESIGN CHOICE, log entry 15). -/
def attemptStart (s : State) (keep : Bool) : State :=
  if s.isFatal ∨ !(s.power.step.any fun k => k ≥ 6) then s
  else
    let lm := localMask s
    let s1 : State := { s with link := { s.link with step := some 0, localMask := lm, asked := true, failed := 0, stalled := keep && s.dlActive },
                                power := { s.power with dlBegun := true } }
    (s1.inc fRetrains).wrAll ([0, 1].map fun m => (fModState m, if nbit lm m then modTraining else modHeld))
/-- The host die advertises its mask at the attempt under way (02 R28): an empty intersection fails it at once; the third one since
the link was last up is fatal, whatever attempts came between (R30; DESIGN CHOICE, log entry 15). -/
def maskExchange (s : State) (remote : Nat) : State :=
  if s.isFatal ∨ s.link.step.isNone ∨ !s.link.asked then s
  else
    let lm := s.link.localMask
    let both := lm &&& (remote % 4)
    let s1 : State := { s with link := { s.link with remoteMask := remote % 4, asked := false } }
    let s2 := s1.wrAll ([0, 1].map fun m => (fModState m, if nbit lm m then (if nbit both m then modTraining else modDown) else modHeld))
    let s3 := if both ≠ lm ∨ both ≠ remote % 4 then ucieEvent s2 0x01 both else s2
    if both ≠ 0 then s3
    else
      let n := s.link.empty + 1
      let s4 := ucieEvent { s3 with link := { s3.link with step := none, empty := n } } 0x02 0
      if n ≥ 3 ∨ lm = 0 then linkLost s4 else s4

/-- Capabilities that R25 requires. -/
def requiredCaps : Nat := 7
/-- Parameter exchange: the host's profile, eff_caps, host mismatch, ledger 5 (02 R25, R26; 16 R297). -/
def paramExchange (s : State) (profile : Nat) : State :=
  let caps := profile % 2 ^ 32
  let s1 := (s.setReg 0x1068 (BitVec.ofNat 64 profile)).wr fEffCaps (0x3FF &&& caps)
  let bad := caps &&& requiredCaps ≠ requiredCaps ∨ nbits profile 63 56 ≠ 1
  let s2 := s1.wr fHostMismatch (if bad then 1 else 0)
  let s3 := { s2 with link := { s2.link with step := some 2 } }
  let s4 := ledgerExtend s3 5 0x06 (sha384 (leBytes 8 profile ++ leBytes 8 (s3.reg 0x1070).toNat ++ leBytes 8 (maskWidth (trainMask s3))))
  if bad then ucieEvent s4 0x06 (trainMask s4) else s4

/-- Data-lane repair: each repair is an event; a module that needs more than R23 allows fails its attempt, which then ends at its limit
(02 R24, R31). -/
def laneRepairs (s : State) (repairs : List Nat) : State :=
  if s.link.failed ≠ 0 then s else
  let bad (m : Nat) : Bool := [2 * m, 2 * m + 1].any fun h => decide (lget 0 repairs h > 2) || (decide (lget 0 repairs h ≠ 0) && !s.cap 4)
  let failed := lsum ([0, 1].map fun m => if nbit (trainMask s) m && bad m then 2 ^ m else 0)
  let now := (List.range 4).map fun h => if nbit (trainMask s) (h / 2) && !bad (h / 2) then lget 0 repairs h else 0
  let s1 : State := { s with link := { s.link with failed := failed, repaired := now, step := if failed = 0 then some 3 else s.link.step } }
  ((List.range (lsum now)).foldl (fun t _ => ucieEvent t 0x04 (trainMask t)) s1).wr fRepaired (lsum now)

/-- A start block that could not be read: nothing changes, fault is set (16 R311). -/
def startFault (s : State) : State :=
  { s with parts := { s.parts with op := none } }.wrAll [(⟨0x1440, 1, 1⟩, 1), (⟨0x1440, 0, 0⟩, 0)]

/-- The request with a tag is answered by data, or refused. -/
def answer (s : State) (q : HostReq) (data : Option (List Byte)) (start : State → Option (List Byte) → State) : State :=
  match q.kind, data with
  | .piece id k i, d => pieceArrives s id k i d
  | .source r c, some bs => match outOf s r c with
    | some d => let x := imageArrive s r c d.q (takePad q.len bs)
                settleWork x.1 r c .source x.2
    | none => s
  | .source r c, none => settleWork s r c .source (.judged 0x43 0 none)
  | .bitmap p, _ => bitmapRefused s p false
  | .cas p w v, _ => readDoorbells (bitmapRefused s p true) p w v
  | .doorbell r, _ => doorbellRefused s r
  | .desc r c n, _ => addFetched s r ((List.range n).map fun i => ⟨countNext c i, [], some 0x43⟩)
  | .buffer r c, d => bufArrives s r c q.addr q.len d
  | .startBlock, d => start s d

/-- Requests that wait, and whose addresses the link no longer carries, are host-window faults (02 R25). -/
def waitFaults (s : State) : State :=
  let far (x : ReqFor × Nat × Nat) : Bool := !busOk s x.2.1 x.2.2
  (s.reqWait.filter far).foldl (fun t x => answer t ⟨0, x.2.1, x.2.2, 0, x.1⟩ none fun u _ => startFault u) { s with reqWait := s.reqWait.filter fun x => !far x }

/-- The link is up (02 R24, R29): what a stall held goes out in order (02 R32), but for requests that the link no longer carries (02 R25), and
descriptors that came back malformed, or not at all, in the stall are judged. -/
def linkUp (s : State) : State :=
  let m := trainMask s
  let s1 : State := { s with
    dlActive := true
    power := { s.power with dlRose := true }
    posted := s.posted ++ s.link.held
    link := { s.link with step := none, stalled := false, held := [], empty := 0 } }
  let s2 := (reqPump (waitFaults s1)).wrAll ((fWidth, maskWidth m) :: [0, 1].flatMap fun i => if nbit m i then [(fModState i, modActive), (fModFail i, 0)]
    else [(fModState i, if s.rd (fModState i) = modHeld then modHeld else modDown)])
  s2.rings.foldl (fun t p => ringJudge 64 t p.1) s2

/-- A training step is done (02 R24). -/
def trainStep (s : State) (profile : Nat) (repairs : List Nat) : State :=
  if s.isFatal then s
  else match s.link.step with
  | some 0 => { s with link := { s.link with step := some 1 } }
  | some 1 => if s.link.asked then s else paramExchange s (profile % 2 ^ 64)
  | some 2 => laneRepairs s repairs
  | some 3 => { s with link := { s.link with step := some 4 } }
  | some 4 => { s with link := { s.link with step := some 5 } }
  | some 5 => linkUp s
  | _ => s

/-- The modules charged with a failed attempt: those that did not reach mb_train_ok. A failure before it that names no module is every
training module's; one after it raises no count, nor does one at which the host die has advertised no mask (DESIGN CHOICE, log entry 15). -/
def chargedMask (s : State) (failed : Nat) : Nat :=
  if s.link.step.any (fun k => k < 4) && !s.link.asked then (let f := (failed ||| s.link.failed) &&& trainMask s; if f = 0 then trainMask s else f) else 0
/-- A module's third failed attempt holds it down (02 R29). -/
def chargeModule (s : State) (m : Nat) : State :=
  let n := min 3 (s.rd (fModFail m) + 1)
  let s1 := s.wr (fModFail m) n
  if n ≥ 3 then ucieEvent (s1.wr (fModState m) modHeld) 0x03 0 else s1
/-- An attempt ends at its 2 ms limit (02 R24, R29, R30). -/
def attemptFails (s : State) (failed : Nat) : State :=
  if s.link.step.isNone ∨ s.isFatal then s
  else
    let ch := chargedMask s failed
    let s1 := ucieEvent (s.wrAll ([0, 1].map fun m => (fModState m, if s.rd (fModState m) = modHeld then modHeld else modDown))) 0x02 0
    let s2 := [0, 1].foldl (fun t m => if nbit ch m then chargeModule t m else t) { s1 with link := { s1.link with step := none } }
    if localMask s2 = 0 then linkLost s2 else s2

/-- UCIE_LANE_FAILURE: repaired by recalibration, or a full retrain (02 R31), as where a half has no spare left (02 R23; DESIGN CHOICE, log
entry 15). -/
def laneFailure (s : State) (half : Nat) : State :=
  if !s.dlActive ∨ s.isFatal ∨ s.rd (fModState (half / 2)) ≠ modActive then s
  else
    let n := lget 0 s.link.repaired half + 1
    if s.cap 5 && s.cap 4 && decide (n ≤ 2) then
      let s1 : State := { s with link := { s.link with repaired := s.link.repaired.set half n } }
      ucieEvent (s1.wr fRepaired (lsum s1.link.repaired)) 0x04 (trainMask s1)
    else attemptStart s true

/-! ### Completions of host reads (01 R18, 02 R32, 14 R266) -/

/-- CPL_TIMEOUT_EXPIRY: a Completer Abort (02 R32; 03 R354, R355). -/
def cplTimeout (s : State) (tag : Nat) : State :=
  match s.reqs.find? fun q => decide (q.tag = tag) with
  | none => s
  | some q => answer (dropReq s fun x => decide (x.tag = tag)) q none fun t _ => startFault t

/-- HOST_READ_COMPLETION: of a barge piece, an image source or a bucket's buffer; any other request has a row of its own (01 R18). -/
def readCompletion (s : State) (tag : Nat) (status : CplStatus) (data : List Byte) : State :=
  match s.reqs.find? fun q => decide (q.tag = tag) with
  | none => s
  | some q => match q.kind with
    | .piece _ _ _ | .source _ _ | .buffer _ _ =>
      answer (dropReq s fun x => decide (x.tag = tag)) q (if status = .ok then some data else none) fun t _ => t
    | _ => s

/-! ### BAR accesses (02 R35, 18 R332, 03 R54) -/

/-- MSIX_TABLE_WRITE: a table quadword is written; an unmasked vector whose pending bit is set is sent (02 R34, 03 R54). -/
def msixWrite (s : State) (off size data : Nat) : State :=
  if off ≥ 0x8000 then s
  else
    let k := off / 8
    let old := (s.msixAt k).toNat
    let half := if size = 8 then allBits else bmask 31 0 * 2 ^ (8 * (off - 8 * k))
    let put := data % 2 ^ (8 * size) * 2 ^ (8 * (off - 8 * k))
    let v := (old &&& (allBits - half)) ||| put
    let v := if k % 2 = 1 then v % 2 ^ 33 else v / 4 * 4
    let s1 := { s with msix := tset msixInit s.msix k (BitVec.ofNat 64 v) }
    let vec := k / 2
    if tget falseAt s.msixPend vec && !(s1.msixAt (2 * vec + 1)).getLsbD 32 then
      msixRaise { s1 with msixPend := tset falseAt s1.msixPend vec false } vec
    else s1

/-! ### What host software sees of the function (02 R34, R35): the block's commands hold no reads, so these answer them -/

/-- A base address register: a window's size in bytes, 64-bit, prefetchable. -/
structure Bar where
  size : Nat
  wide : Bool
  prefetch : Bool
  deriving DecidableEq, Repr
/-- Capabilities of a PCIe function (02 R34). -/
inductive PcieCap where
  | pciExpress | powerManagement | msix | aer | dataLinkFeature | tags10 | tags14 | atomicRequester
  | intx | msi | sriov | ats | pasid | pri | acs | resizableBar | doe | aspm
  deriving DecidableEq, Repr
/-- The type 0 header of the function: what R34 gives it. -/
structure PcieHeader where
  vendor : Nat
  device : Nat
  classCode : Nat
  revision : Nat
  /-- BAR0, BAR2 and BAR4; an unimplemented one reads as zero, as the expansion ROM does. -/
  bars : List (Option Bar)
  expansionRom : Nat
  caps : List PcieCap
  deriving DecidableEq, Repr
/-- The function's header (02 R34): Revision ID is FEAT_REV.wharf_rev. -/
def pcieHeader (s : State) : PcieHeader where
  vendor := 0x1F3C
  device := 0x0480
  classCode := 0x120000
  revision := s.rd ⟨0x1060, 15, 8⟩
  bars := [some ⟨64 * 2 ^ 20, true, false⟩, some ⟨2 ^ 20, true, false⟩, none]
  expansionRom := 0
  caps := [.pciExpress, .powerManagement, .msix, .aer, .dataLinkFeature, .tags10, .tags14, .atomicRequester]

/-- A quadword of BAR2 (02 R34, R35): the MSI-X table, the pending bits at 0x8_0000, zero elsewhere. -/
def bar2Word (s : State) (k : Nat) : Nat :=
  if k < 0x1000 then (s.msixAt k).toNat
  else if 0x10000 ≤ k ∧ k < 0x10020 then lsum ((List.range 64).map fun i => b2n (tget falseAt s.msixPend (64 * (k - 0x10000) + i)) * 2 ^ i)
  else 0
/-- What a BAR read returns, none where it completes with Unsupported Request (02 R35, 18 R332); none too in D3hot, where no BAR is decoded
(02 R37). BAR0 holds registers, BAR2 the MSI-X table. -/
def barRead (s : State) (bar2 : Bool) (off size : Nat) : Option Nat :=
  if s.link.d3hot || !okAccess off size then none
  else
    let w := if bar2 then bar2Word s (off / 8) else if (regInfo (off / 8 * 8)).isSome then s.visible (off / 8 * 8) else 0
    some (w / 2 ^ (8 * (off % 8)) % 2 ^ (8 * size))

/-! ### The function (02 R36, R37) -/

/-- Does a register belong to the ring engine (18 R331)? -/
def ringEngineReg (off : Nat) : Bool := decide (0x100000 ≤ off) && decide (off < 0x120000)
/-- FUNCTION_LEVEL_RESET: every ring out of service, the flights launched by rings stop, ring engine and MSI-X state cleared, the mask bits
too (02 R36, 18 R338). -/
def flr (s : State) : State :=
  let s1 := (List.range 4).foldl stopFlights s
  let had (r : Nat) : Bool := ringPending s1 r
  let s2 := showPending { s1 with pendingSt := s1.pendingSt.filter fun p => !ringEngineReg p.1 }
  let s3 := (List.range 1024).foldl (fun t r => if (t.ring r).st = 0 ∧ !t.flag (fEnable r) ∧ !had r then t else ringOff (t.wr (fEnable r) 0) r) s2
  dropReqs { s3 with
    rings := []
    rrLast := 1023
    polls := []
    images := []
    dumps := s3.dumps.filter fun d => d.applied
    msix := (List.range 2048).map fun v => (2 * v + 1, 0#64)
    msixPend := [] } fun k => match k with | .piece _ _ _ | .startBlock => false | _ => true

/-- D3HOT_ENTRY: active rings halt at their first incomplete descriptor, without records; what was started after it runs to completion
(02 R37, 03 R56). -/
def d3hot (s : State) : State :=
  let s1 := (List.range 1024).foldl (fun t r => let g := t.ring r
    if g.st = 1 ∧ ringActive s g then ringHaltQuiet t r (t.rd (fHead r)) .resume fun c => decide (c = t.rd (fHead r)) else t) s
  { s1 with link := { s1.link with d3hot := true }, power := { s1.power with wakeVote := false, wakeTiles := [] } }
/-- D0_RETURN: decode and polling again (02 R37); it wakes the module with the host rings' vote, which ends as that of PWR_CTRL.wake does
(15 R291; the end: DESIGN CHOICE, log entry 13). -/
def d0 (s : State) : State := if !s.link.d3hot then s else { s with link := { s.link with d3hot := false }, power := { s.power with wakeVote := true } }

end Sys2Proof.Machine
end

