-- ==== Sys2Proof/Machine/TrustOps.lean ====
section
/-! DEFINITION. The tollhouse: measured start, firmware slots, keys, reports (16 R297 to R310). -/

namespace Sys2Proof.Machine
open Sys2Proof

/-! ### The module flash (16 R299; 17 R327) -/

/-- A range of the flash: first address, length. -/
structure FlashRange where
  base : Nat
  len : Nat
  deriving DecidableEq, Repr
def flashBoot : FlashRange := ⟨0x0, 0x100000⟩
def flashSlot (i : Nat) : FlashRange := ⟨0x100000 + i * 0x2000000, 0x2000000⟩
def flashIdentity : FlashRange := ⟨0x4100000, 0x100000⟩
def flashReserved : FlashRange := ⟨0x4200000, 0x100000⟩
def flashLog : FlashRange := ⟨0x4300000, 0xBD00000⟩
/-- A reserved record: the oldest fatal one gives way when the area is full; a condemnation never does. -/
def reservePut (l : List FlashRec) (r : FlashRec) : List FlashRec :=
  if l.length < flashReserved.len / 64 then l ++ [r]
  else dropFirst (fun x => match x with | .condemn _ => false | _ => true) l ++ [r]

/-! ### Measured start (16 R301, R302) -/

/-- Registers whose contents are fuses: spare map, logical tile map, array maps, serial number (01 R21, 06 R129, 16 R318). -/
def fuseReg (off : Nat) : Bool :=
  decide (off = 0x1018) || (decide (0x1020 ≤ off) && decide (off < 0x1060)) || inBlkRun 0x200000 0x1000 60 off 0x100 4 || decide (off = 0x900010)
/-- The fuse state, with the debug state: fused svn, serial number, and the fuses that registers show. -/
def fuseState (s : State) : List Nat :=
  [s.trust.fusedSvn, s.trust.debug, s.trust.serial] ++ (s.regs.filter fun x => fuseReg x.1).flatMap fun x => [x.1, x.2.toNat]
/-- Does a slot verify (16 R300)? -/
def slotOk (t : TrustSt) (i : Nat) : Bool := (t.slot i).present && (t.slot i).ok && decide (t.fusedSvn ≤ (t.slot i).svn)
/-- The slot that is tried first: a trial slot, unless its activation named the cold reset and this is a warm one (16 R304); else the active
one. -/
def firstSlot (t : TrustSt) (cold : Bool) : Nat := match t.trial with
  | some i => if cold || !t.trialCold then i else t.active
  | none => t.active
/-- Ledger 4 takes in the installation root and link certificate digests (16 R297). -/
def extendProvision (s : State) : State := ledgerExtend s 4 0x05 (sha384 (sha384 s.trust.root ++ sha384 s.trust.chain))
def State.measAt (s : State) (n : Nat) : State := s.putTrust { s.trust with meas := n }
/-- WHF_FLASH_LOG shows the log (17 R330). -/
def flashShow (s : State) : State :=
  s.wrAll [(⟨0xA00200, 63, 48⟩, min 0xFFFF (lmax (s.flash.erases.map fun x => x.2))), (⟨0xA00200, 31, 20⟩, s.flash.block % 3024),
    (⟨0xA00200, 19, 5⟩, s.flash.reserved.length)]
/-- Both slots have failed: recovery, of which the tollhouse writes the flash entry itself (16 R302). No slot runs, so none runs on trial. -/
def enterRecovery (s : State) : State :=
  flashShow { s.putTrust { s.trust with recovery := true, released := false, meas := 0, trialBoot := false, trialShut := false } with
    bmcOut := s.bmcOut ++ [.noImage]
    flash := { s.flash with reserved := reservePut s.flash.reserved .noImage } }
/-- lk_release: the chosen slot runs, on trial where it is the trial slot, or was when it was chosen and its commit window has passed since
(16 R305). -/
def lkRelease (s : State) : State :=
  let t := s.trust
  let late := t.trialBoot && t.trialShut && decide (t.cand = t.running) && !t.second
  let trial := decide (t.trial = some t.cand) || late
  s.putTrust { t with running := t.cand, released := true, recovery := false, meas := 0, trialBoot := trial, trialShut := late, trialCold := t.trialCold && !trial }
/-- The next ready signal of a measured start, cold or warm (16 R301, R303): rom_ok, or the warm marker; slot_chosen; sig_ok, or the failure
recorded and the other slot taken; meas_ok; lk_release. -/
def measureStep (s : State) (cold : Bool) : State :=
  let t := s.trust
  match t.meas with
  | 0 => ((if cold then ledgerExtend s 0 0x01 (sha384 (Config.measured 0x01 (fuseState s)))
      else ledgerExtend s 0 0x04 (sha384 (Config.measured 0x04 []))).modTrust fun t => { t with second := false }).measAt 1
  | 1 => let i := firstSlot t cold
    ((ledgerExtend s 0 0x02 (sha384 (Config.measured 0x02 [i]))).modTrust fun t => { t with cand := i }).measAt 2
  | 2 => if slotOk t t.cand then s.measAt 3
    else if t.second then enterRecovery s
    else (ledgerExtend s 0 0x02 (sha384 (Config.measured 0x02 [2 + t.cand]))).modTrust fun t => { t with cand := 1 - t.cand, second := true }
  | 3 => ((t.slot t.cand).comps.foldl (fun u c => ledgerExtend u c.1 0x03 c.2) s).measAt 4
  | _ => lkRelease (if cold then extendProvision s else s)

/-! ### Firmware images (16 R300, R304, R305) -/

/-- A little-endian field of an image. -/
def fwNat (img : List Byte) (o n : Nat) : Nat := leNat (sliceB img o n)
/-- The slot that an image's bytes give, with the outcome of its verification. -/
def parseImage (t : TrustSt) (img : List Byte) : FwSlot :=
  let w := fwNat img 0 8
  let len := fwNat img 0x10 4
  let sigOff := fwNat img 0x14 4
  let chOff := fwNat img 0x18 4
  let chLen := fwNat img 0x1C 4
  let c (k : Nat) : Nat × Nat × Nat × Nat := (fwNat img (0x40 + 32 * k) 1, fwNat img (0x41 + 32 * k) 1, fwNat img (0x48 + 32 * k) 8, fwNat img (0x50 + 32 * k) 8)
  let cs := ((List.range 8).map c).filter fun x => decide (x.1 ≠ 0)
  let chain := sliceB img chOff chLen
  let digest := sha384 (img.take sigOff)
  let ok := decide (nbits w 31 0 = 0x574D464B) && decide (nbits w 47 32 = 1) && decide (nbits w 63 57 = 0) && decide (len = img.length)
    && decide (len ≤ (flashSlot 0).len) && decide (sigOff + 96 ≤ len) && decide (chOff + chLen ≤ len) && decide (chLen ≤ 8192)
    && (cs.all fun x => decide (x.1 ≤ 4) && decide (1 ≤ x.2.1) && decide (x.2.1 ≤ 3) && decide (x.2.2.1 + x.2.2.2 ≤ len))
    && decide (lsum (cs.map fun x => x.2.2.2) ≤ 24 * 2 ^ 20)
    && Config.signerOk chain && Config.ecdsaVerify (Config.certKey chain) (img.take sigOff) (sliceB img sigOff 96) && decide (t.fusedSvn ≤ nbits w 55 48)
  { present := true, ok := ok, svn := nbits w 55 48, raise := nbit w 56, version := fwNat img 8 8, digest := digest, signer := sha384 chain,
    comps := cs.map fun x => (x.2.1, sha384 (sliceB img x.2.2.1 x.2.2.2)) }

/-- A PLDM transfer into the slot that does not run, or into either in recovery (16 R302, R304). During a trial boot one slot runs and the other
is its fallback, and neither is written, nor is one while a start measures (DESIGN CHOICE, log entry 16). -/
def pldmTransfer (s : State) (slot : Nat) (image : Option (List Byte)) : State :=
  let t := s.trust
  if s.isFatal ∨ t.trialBoot ∨ t.meas ≠ 0 ∨ (slot = t.running ∧ !t.recovery) then s
  else match image with
  | none =>
    let t1 := if t.trial = some slot then t.putBoot fun b => { b with trial := none } else t
    s.putTrust { t1 with slots := t.slots.set slot {}, receiving := some slot, staged := none }
  | some img =>
    if t.receiving ≠ some slot then s
    else
      let x := parseImage t img
      let s1 := s.putTrust { t with slots := t.slots.set slot x, receiving := none, staged := if x.ok then some slot else none }
      { s1 with bmcOut := s1.bmcOut ++ [.pldm x.ok] }

/-- ActivateFirmware: the staged slot becomes the trial slot (16 R304). After a fatal error the tollhouse only attests (14 R273). -/
def pldmActivate (s : State) (cold : Bool) : State :=
  match s.trust.staged with
  | some i => if s.isFatal then s else s.putTrust { s.trust.putBoot (fun b => { b with trial := some i }) with trialCold := cold }
  | none => s

/-- The commit: the trial slot becomes active, and may raise the fused svn, of which there are 64 fuses (16 R300, R305). -/
def pldmCommit (s : State) : State :=
  let t := s.trust
  if t.trialBoot ∧ !t.trialShut ∧ t.trial = some t.running then
    let x := t.slot t.running
    s.putTrust { t.putBoot (fun b => { b with active := t.running, trial := none }) with
      trialBoot := false, staged := none, fusedSvn := if x.raise then max t.fusedSvn (min 64 x.svn) else t.fusedSvn }
  else s

/-- The commit window passes: the trial slot is cleared, and the next reset boots the old slot (16 R305). -/
def commitExpiry (s : State) : State :=
  if s.trust.trialBoot ∧ !s.trust.trialShut then s.putTrust s.trust.trialOver else s

/-! ### Keys and reports (16 R306, R309) -/

/-- The device identity key: HKDF of the unique secret with a fixed label (16 R306). -/
def dikKey : List Byte := Config.hkdf Config.uniqueSecret Config.dikLabel 48
/-- The attestation key: of the unique secret, the firmware signer and the fused svn. -/
def dakKey (t : TrustSt) : List Byte := Config.hkdf Config.uniqueSecret ((t.slot t.running).signer ++ leBytes 1 t.fusedSvn) 48
/-- The certificate chain of the module, at most 8 KiB: its last certificate is the attestation key's, signed by the device identity key. -/
def certChain (t : TrustSt) : List Byte :=
  let dak := Config.publicKey (dakKey t)
  (Config.encodeChain (Config.publicKey dikKey) dak (Config.ecdsaSign dikKey dak)).take 8192

/-- The tiles in transition: of partitions starting or stopping, or all under the warm self-test (16 R309). -/
def tilesInTransition (s : State) : Nat :=
  lsum ((List.range 60).map fun n =>
    let p := s.tilePart n
    if s.trust.warm = some 2 ∨ (p.any fun q => decide (s.rd (fPartState q) = 1) || decide (s.rd (fPartState q) = 3)) then 2 ^ n else 0)

def pad (n : Nat) (l : List Byte) : List Byte := takePad n l
def le8 (v : Nat) : List Byte := leBytes 8 v
/-- A slot as the report gives it. -/
def slotReport (t : TrustSt) (i st : Nat) (verified : Bool) : List Byte :=
  let x := t.slot i
  le8 (i + st * 2 + x.svn * 2 ^ 8) ++ le8 x.version ++ pad 48 (if verified then x.digest else [])

/-- The report without its signature (16 R309). -/
def reportBody (s : State) (q : AttReq) (part : Nat) : List Byte :=
  let t := s.trust
  let n := t.log.length
  let len := 1536 + 64 * n + 96
  let who := match q.who with | .ring _ _ => 0 | .bmc => 1 | .hail _ => 2
  let caps := (s.reg 0x1070).toNat
  le8 (0x41544B4C + 2 ^ 32 + b2n t.warm.isSome * 2 ^ 48 + b2n t.dropped * 2 ^ 49 + b2n (s.flag fHostMismatch) * 2 ^ 50 + b2n (!t.released) * 2 ^ 51)
    ++ le8 (len + who * 2 ^ 32 + part * 2 ^ 40) ++ le8 s.mile ++ le8 (nbits (s.reg 0x600010).toNat 2 0) ++ pad 32 q.nonce ++ le8 t.serial
    ++ le8 (t.fusedSvn + t.debug * 2 ^ 8 + b2n (!t.root.isEmpty) * 2 ^ 10) ++ sha384 (certChain t)
    ++ pad 64 (if t.root.isEmpty then [] else sha384 t.root)
    ++ (List.range 8).flatMap (ledgerBytes s) ++ (List.range 8).flatMap (fun i => pad 48 (lget [] t.bases i))
    ++ pad 64 (slotReport t t.running t.activeState true) ++ pad 64 (slotReport t t.otherSlot t.otherState (decide (t.otherState ≠ 1) && (t.slot t.otherSlot).ok))
    ++ le8 (s.reg 0x1018).toNat ++ le8 (s.reg 0x1060).toNat ++ le8 (s.reg 0x1400).toNat ++ le8 (tilesInTransition s) ++ le8 (s.reg 0x1448).toNat
    ++ pad 24 []
    ++ (List.range 4).flatMap (fun p => pad 64 (le8 (s.rd (fPartAssign p)) ++ le8 (tget nat0 s.parts.clearMile p) ++ pad 48 (tget (fun _ => []) s.parts.clearDigest p)))
    ++ le8 (s.reg 0x1068).toNat ++ le8 caps ++ le8 (s.reg 0x1800).toNat ++ le8 (nbits caps 63 32 &&& (2 ^ 32 - 1 - s.rd ⟨0x1068, 31, 0⟩))
    ++ pad 88 [] ++ le8 n
    ++ (t.log.flatMap fun e => le8 (e.ledger + e.kind * 2 ^ 8) ++ le8 e.mile ++ pad 48 e.d)
/-- The signed report. -/
def signReport (s : State) (q : AttReq) (part : Nat) : List Byte :=
  let b := reportBody s q part
  b ++ pad 96 (Config.ecdsaSign (dakKey s.trust) b)

/-- An attestation report or chain delivered to a ring: too small a buffer gives 0x4E and the length (16 R309, 03 R53). -/
def deliverRing (s : State) (r count dpa room : Nat) (bytes : List Byte) : State × Work :=
  if room < bytes.length then (s, .judged 0x4E bytes.length none)
  else if touchesHost dpa bytes.length && (!s.dlActive || !busOk s (dpa - hostWindow) bytes.length) then (s, .judged 0x43 0 none)
  else match hbmPartUe s dpa (if dpa < hbmTop then bytes.length else 0) with
    | some ue => ringUe s r count ue.1 none
    | none => (dpaWrite s dpa bytes, .judged 0 bytes.length none)

/-- The requests of a partition's rings are discarded with the rings' halt (16 R310). -/
def dropAtts (s : State) (p : State → Nat → Bool) : State :=
  attServe (s.putTrust { s.trust with queue := s.trust.queue.filter fun q => match q.who with | .ring r _ => !p s r | _ => true })

/-- Is the scratchpad that a ring's report goes to out of its low form (15 R290)? -/
def attUp (s : State) (q : AttReq) : Bool := match q.who with | .ring _ _ => (dpaTiles s q.dpa q.room).all (tileReady s) | _ => true
/-- Signing is done: the report is delivered, and the place is free (16 R308 to R310). A partner's goes out as a hail message, to be repeated
until acknowledged, unless the attempt has ended (11 R223). A report waits while its buffer's scratchpad is in retention (15 R290). -/
def attSigned (s : State) : State :=
  match attNow s with
  | none => s
  | some q =>
    if !attUp s q then s else
    let s1 := s.putTrust { s.trust with queue := dropFirst (fun x => decide (x = q)) s.trust.queue, serving := none }
    attServe <| attFill (match q.who with
      | .ring r c =>
        let part := s1.rd (fRPart r)
        (match outOf s1 r c with
          | some d => if s1.rd (fPartState part) ≠ 2 ∨ d.work ≠ .attest then s1 else
              let x := deliverRing s1 r c q.dpa q.room (signReport s q part)
              setWork x.1 r c x.2
          | none => s1)
      | .bmc => { s1 with bmcOut := s1.bmcOut ++ [.report (signReport s q 0)] }
      | .hail p =>
        let m := withCrc (signReport s q 0)
        if s.rd (fPortState p) ≠ 2 ∨ (s.port p).backoff then s1 else
        { s1.modPort p fun g => { g with hailMsg := g.hailMsg ++ [m] } with hailOut := s1.hailOut ++ [(p, m)] })

/-- The body of an attestation descriptor (16 R308): malformed, faulted, queued, or outstanding until a place frees. -/
def attBody (r : Nat) (s : State) (f : Fetched) : State × Work :=
  let q := f.q
  if !dHiZero q 6 48 ∨ !dHiZero q 7 32 then (s, .judged 0x41 0 none)
  else if !dpaOk s (s.rd (fRPart r)) false (dq q 6) (dq q 7) then (s, .judged 0x42 0 none)
  else if attRoom s.trust false then (attPush s (attOfDesc r f.count q), .attest) else (s, .attest)
/-- The body of a certificate chain descriptor. -/
def chainBody (r : Nat) (s : State) (f : Fetched) : State × Work :=
  let q := f.q
  if !dHiZero q 6 48 ∨ !dHiZero q 7 32 then (s, .judged 0x41 0 none)
  else if !dpaOk s (s.rd (fRPart r)) false (dq q 6) (dq q 7) then (s, .judged 0x42 0 none)
  else deliverRing s r f.count (dq q 6) (dq q 7) (certChain s.trust)

/-! ### Provisioning (16 R307) -/

/-- The link identity key, made from the DRBG at the first request, and stored wrapped under a key of the unique secret (16 R306). -/
def withLik (s : State) : State :=
  if s.trust.lik.isEmpty then
    let x := (List.range 48).map (Config.freeByte s.free)
    { s.putTrust { s.trust with lik := x, likFlash := Config.wrapKey (Config.hkdf Config.uniqueSecret Config.wrapLabel 32) x } with free := s.free + 1 }
  else s
def provisionRequest (s : State) : State :=
  let s1 := withLik s
  let pub := Config.publicKey s1.trust.lik
  let req := Config.encodeRequest pub (Config.ecdsaSign dikKey pub)
  let s2 := { s1 with bmcOut := s1.bmcOut ++ [.linkRequest req] }
  if attRoom s2.trust false then attPush s2 ⟨.bmc, (sha384 req).take 32, false, 0, 0⟩ else { s2 with bmcOut := s2.bmcOut ++ [.busy] }
def provisionWrite (s : State) (root chain sig : List Byte) : State :=
  let t := s.trust
  if s.isFatal ∨ chain.length > 8192 ∨ root.isEmpty then s
  else if t.root.isEmpty ∨ Config.ecdsaVerify (Config.certKey t.root) (root ++ chain) sig then
    extendProvision (s.putTrust { t with root := root, chain := chain })
  else s

end Sys2Proof.Machine
end

