-- ==== Sys2Proof/Machine/NetOps.lean ====
section
/-! DEFINITION. What ports, routing, the milestone counter and the exchange share: registers of a port, events, routes, upstream
choice, groups, the halt of a bucket post (10 R189, R210; 11 R222, R227; 13 R251 to R259). -/

namespace Sys2Proof.Machine
open Sys2Proof

/-! ### Registers of a port (11 R227) -/
def fHailStep (p : Nat) : Fld := ⟨aLnk p 0x10, 59, 56⟩
def fHailFails (p : Nat) : Fld := ⟨aLnk p 0x10, 55, 48⟩
def fTxGroups (p : Nat) : Fld := ⟨aLnk p 0x10, 47, 32⟩
def fRxGroups (p : Nat) : Fld := ⟨aLnk p 0x10, 31, 16⟩
def fBackoffS (p : Nat) : Fld := ⟨aLnk p 0x10, 15, 8⟩
def fLnkCfgErr (p : Nat) : Fld := ⟨aLnk p 0x10, 2, 2⟩
def fRekeyPend (p : Nat) : Fld := ⟨aLnk p 0x10, 1, 1⟩
def fSwitchPend (p : Nat) : Fld := ⟨aLnk p 0x10, 0, 0⟩
def fPartnerMod (p : Nat) : Fld := ⟨aLnk p 0x18, 63, 40⟩
def fPartnerPort (p : Nat) : Fld := ⟨aLnk p 0x18, 39, 36⟩
def fIdDigest (p : Nat) : Fld := ⟨aLnk p 0x18, 31, 0⟩
def fKeyGen (p : Nat) : Fld := ⟨aLnk p 0x20, 63, 48⟩
def fTxFrames (p : Nat) : Fld := ⟨aLnk p 0x20, 47, 0⟩
def fReplays (p : Nat) : Fld := ⟨aLnk p 0x28, 63, 32⟩
def fCrcErrors (p : Nat) : Fld := ⟨aLnk p 0x28, 31, 0⟩
def fDropGroup (p : Nat) : Fld := ⟨aLnk p 0x30, 63, 32⟩
def fGcmFail (p : Nat) : Fld := ⟨aLnk p 0x30, 31, 16⟩
def fHailCount (p : Nat) : Fld := ⟨aLnk p 0x30, 15, 0⟩
def fDropRoute (p : Nat) : Fld := ⟨aLnk p 0x38, 63, 32⟩
def fLostMsgs (p : Nat) : Fld := ⟨aLnk p 0x38, 31, 0⟩
def fGrpFld (p g hi lo : Nat) : Fld := ⟨aLnk p (0x100 + 8 * g), hi, lo⟩
def fGrpState (p g : Nat) : Fld := fGrpFld p g 1 0
def fMinGroups (p : Nat) : Fld := ⟨aLnk p 0, 19, 16⟩
def fAttestReq (p : Nat) : Fld := ⟨aLnk p 0, 7, 7⟩
def fRekeyAccept (p : Nat) : Fld := ⟨aLnk p 0, 6, 6⟩
def fWakeEn (p : Nat) : Fld := ⟨aLnk p 0, 5, 5⟩
def fLnkEnable (p : Nat) : Fld := ⟨aLnk p 0, 0, 0⟩
def minGroups (s : State) (p : Nat) : Nat := max 8 (s.rd (fMinGroups p))
def switchLead (s : State) (p : Nat) : Nat := max 0x400 (s.rd ⟨aLnk p 0, 47, 32⟩)

/-- Do flits run on a port: Up, or past link start (hail step 6)? -/
def portLive (s : State) (p : Nat) : Bool :=
  portUp s p || (decide (s.rd (fPortState p) = 2) && decide (s.rd (fHailStep p) ≥ 7) && !(s.port p).backoff)
def portDark (s : State) (p : Nat) : Bool := decide (s.rd (fPortState p) = 1)

/-- LNK_EVENT (11 R227). -/
def lnkEvent (s : State) (p code group step : Nat) : State :=
  s.setReg (aLnk p 0x40) (BitVec.ofNat 64 (s.mile % 2 ^ 40 * 2 ^ 24 + code * 2 ^ 16 + group % 16 * 2 ^ 12 + step % 16 * 2 ^ 8))
/-- A port event without a port down: a corrected entry of cause 0x04 (11; 14 R272). -/
def portEvent (s : State) (p code group step : Nat) : State :=
  errRaise (lnkEvent s p code group step) { wharf := p / 2, cls := 0, cause := 0x04, kind := 6, part := s.wharfPart (p / 2), q2 := p + group % 16 * 16, detail := code }
/-- An optical event: OPT_EVENT and a corrected entry (12 R245, 14 R272). -/
def optEvent (s : State) (p code lane pos : Nat) : State :=
  errRaise (s.setReg (aOpt p 0x10) (BitVec.ofNat 64 (s.mile % 2 ^ 40 * 2 ^ 24 + code * 2 ^ 16 + lane % 32 * 2 ^ 11 + pos % 32 * 2 ^ 6)))
    { wharf := p / 2, cls := 0, cause := 0x04, kind := 6, part := s.wharfPart (p / 2), q2 := p + lane % 16 * 16, detail := 0x100 + code }

/-! ### Routes (13 R251 to R253) -/
def aRouteEx (n : Nat) : Nat := 0x500000 + 8 * n
def aRoutePf (n : Nat) : Nat := 0x508000 + 8 * n
def fLearnFull : Fld := ⟨0x509000, 63, 48⟩
def fNoRoute : Fld := ⟨0x509000, 47, 16⟩

/-- The egress of an entry: port, or alt_port. -/
def entryPort (ok : Nat → Bool) (w : Nat) : Option Nat :=
  if ok (nbits w 61 58) then some (nbits w 61 58) else if nbit w 53 && ok (nbits w 57 54) then some (nbits w 57 54) else none
/-- The exact match. -/
def routeExact (s : State) (ok : Nat → Bool) (m : Nat) : Option Nat :=
  (List.range 4096).findSome? fun n =>
    let w := (s.reg (aRouteEx n)).toNat
    if nbit w 63 && decide (nbits w 23 0 = m) then entryPort ok w else none
/-- Does a prefix entry match: its leading bits. -/
def pfLen (w : Nat) : Nat := min 24 (nbits w 52 48)
def pfMatch (w m : Nat) : Bool := nbit w 63 && decide (nbits w 23 0 / 2 ^ (24 - pfLen w) = m % 2 ^ 24 / 2 ^ (24 - pfLen w))
/-- The prefix match with the largest len, then the lowest number. -/
def routePrefix (s : State) (ok : Nat → Bool) (m : Nat) : Option Nat :=
  ((List.range 256).foldl (fun (b : Option (Nat × Nat)) n =>
    let w := (s.reg (aRoutePf n)).toNat
    match (if pfMatch w m then entryPort ok w else none), b with
    | some p, none => some (pfLen w, p)
    | some p, some x => if x.1 < pfLen w then some (pfLen w, p) else b
    | none, b => b) none).map fun x => x.2
def routeWith (s : State) (ok : Nat → Bool) (m : Nat) : Option Nat :=
  match routeExact s ok m with
  | some p => some p
  | none => routePrefix s ok m
/-- The egress port for a module: an Up port by R252; else a dark port, which sends the wake tone (11 R226; DEDUCED). -/
def routeOf (s : State) (m : Nat) : Option Nat :=
  match routeWith s (portUp s) m with
  | some p => some p
  | none => routeWith s (fun p => portUp s p || portDark s p) m

/-- The learned entries of a port are withdrawn (13 R253). -/
def withdraw (s : State) (p : Nat) : State :=
  (List.range 4096).foldl (fun t n =>
    let w := (t.reg (aRouteEx n)).toNat
    if nbit w 63 && nbit w 62 && decide (nbits w 61 58 = p) then t.setReg (aRouteEx n) 0#64 else t) s
/-- The partner of a port is learned, unless a valid entry names it (13 R253). -/
def learn (s : State) (p m : Nat) : State :=
  let w (n : Nat) : Nat := (s.reg (aRouteEx n)).toNat
  if (List.range 4096).any fun n => nbit (w n) 63 && decide (nbits (w n) 23 0 = m) then s
  else match (List.range 4096).find? fun n => !nbit (w n) 63 with
  | some n => s.setReg (aRouteEx n) (BitVec.ofNat 64 (2 ^ 63 + 2 ^ 62 + p * 2 ^ 58 + m % 2 ^ 24))
  | none => s.inc fLearnFull

/-! ### Upstream choice (13 R258, R259) -/
def fMileRef : Fld := ⟨0x600000, 0, 0⟩
def fRefModule : Fld := ⟨0x600010, 63, 40⟩
def fHops : Fld := ⟨0x600010, 39, 28⟩
def fUpstream : Fld := ⟨0x600010, 27, 24⟩
def fOffset : Fld := ⟨0x600010, 23, 8⟩
def fMileEvent : Fld := ⟨0x600010, 7, 4⟩
def fYielded : Fld := ⟨0x600010, 3, 3⟩
def fMileState : Fld := ⟨0x600010, 2, 0⟩

/-- MILE_STATUS.event and a corrected entry of cause 0x07 (13 R259, 14 R272). -/
def mileEvent (s : State) (code : Nat) : State :=
  errRaise (s.wr fMileEvent code) { wharf := 0, cls := 0, cause := 0x07, kind := 10, detail := code }

/-- Is a reachable reference better: lower reference module, then fewer hops, then lower port? -/
def bestPort (s : State) : Option Nat :=
  (List.range 16).foldl (fun (b : Option Nat) p =>
    let g := s.port p
    if !portLive s p ∨ g.refModule = 0xFFFFFF then b
    else match b with
    | none => some p
    | some q => let h := s.port q
                if g.refModule < h.refModule ∨ (g.refModule = h.refModule ∧ g.refHops < h.refHops) then some p else b) none

/-- The choice of upstream and what MILE_STATUS shows of it. A correction under way was towards the upstream before: a change of upstream
ends it. -/
def chooseUpstream (s : State) : State :=
  let own := s.rd fModuleId
  let isRef := s.flag fMileRef
  match (bestPort s).filter fun p => !isRef || decide ((s.port p).refModule < own) with
  | some p =>
    let g := s.port p
    let fresh := !s.mileSt.up || decide (s.rd fUpstream ≠ p)
    let s1 : State := { s with mileSt := if fresh then { up := true } else s.mileSt }
    let s2 := s1.wrAll [(fRefModule, g.refModule), (fHops, min 0xFFF (g.refHops + 1)), (fUpstream, p), (fMileState, if fresh then 1 else s.rd fMileState)]
    if isRef && !s.flag fYielded then s2.wrAll [(fYielded, 1), (fMileEvent, 4)] else s2
  | none =>
    let s1 : State := { s with mileSt := {} }
    if isRef then s1.wrAll [(fRefModule, own), (fHops, 0), (fMileState, 0), (fYielded, 0)]
    else if s.mileSt.up then mileEvent (s1.wrAll [(fRefModule, 0xFFFFFF), (fMileState, 3)]) 3
    else s1

/-! ### Ranks (10 R189, R198, R201) -/
/-- Module and partition of a rank, by the rank table; none where that lies outside the HBM of the entry's partition (01 R17; 10 R189). -/
def rankAddr (s : State) (n r : Nat) : Option (Nat × Nat) :=
  let a := s.rd (fRg n 0x18 47 0) + 4 * r
  let w := hbmNat s a 4
  if hbmOk s (rgPart s n) a 4 then some (nbits w 23 0, nbits w 25 24) else none
/-- The rank that decides (10 R207): the last of a chain, the owner otherwise. -/
def deciding (s : State) (n bucket : Nat) : Nat :=
  if rgAlg s n = 0 then rgN s n - 1 else if rgAlg s n = 1 then rgOwnerBase s n % rgN s n else (rgOwnerBase s n + bucket) % rgN s n
/-- Position in the broadcast tree of a root, and the children of this rank in it (10 R201). -/
def treePos (s : State) (n root : Nat) : Nat := (rgRank s n + rgN s n - root % rgN s n) % rgN s n
def treeKids (s : State) (n root : Nat) : List Nat :=
  ((List.range (rgFan s n)).map fun i => rgFan s n * treePos s n root + 1 + i).filterMap fun q => if q < rgN s n then some ((root + q) % rgN s n) else none
/-- The parent of this rank in the tree of a root. -/
def treeParent (s : State) (n root : Nat) : Nat := (root + (treePos s n root - 1) / rgFan s n) % rgN s n
/-- Where results go from this rank (10 R201). -/
def returnTo (s : State) (n bucket : Nat) : List (Nat × Nat) :=
  if rgTreeReturn s n then (treeKids s n (deciding s n bucket)).filterMap (rankAddr s n)
  else if rgRank s n = 0 then [] else [(s.rd (fRg n 0x10 37 14), s.rd (fRg n 0x10 13 12))]
/-- Where this rank's partials or contributions go. -/
def sendTo (s : State) (n bucket : Nat) : Option (Nat × Nat) :=
  if rgAlg s n = 0 then (if rgRank s n + 1 < rgN s n then some (s.rd (fRg n 0x10 63 40), s.rd (fRg n 0x10 39 38)) else none)
  else if rgRank s n = deciding s n bucket then none
  else rankAddr s n (if rgAlg s n = 1 then treeParent s n (deciding s n bucket) else deciding s n bucket)
/-- The modules with which a bucket of a group exchanges segments at this rank: upstream of its partials or contributions, downstream of
them, and the same for the return (10 R198, R201, R202). -/
def bucketPeers (s : State) (n bucket : Nat) : List Nat :=
  let d := deciding s n bucket
  let own := rgRank s n
  let module_ (r : Nat) : Option Nat := (rankAddr s n r).map fun x => x.1
  let from_ := if rgAlg s n = 0 then (if own = 0 then [] else [s.rd (fRg n 0x10 37 14)])
    else if rgAlg s n = 1 then (treeKids s n d).filterMap module_
    else if own = d then ((List.range (rgN s n)).filter (· ≠ own)).filterMap module_ else []
  let back := if rgTreeReturn s n && decide (own ≠ d) then (module_ (treeParent s n d)).toList else []
  (from_ ++ back ++ (match sendTo s n bucket with | some x => [x.1] | none => []) ++ (returnTo s n bucket).map fun x => x.1).filter (· ≠ s.rd fModuleId)
/-- Does a bucket number of a group use a port? -/
def numberUses (s : State) (p n bucket : Nat) : Bool := (bucketPeers s n bucket).any fun m => decide (routeOf s m = some p)
/-- Does a port carry traffic of a group at this module, of whichever bucket (10 R205, R210)? -/
def groupPort (s : State) (p n : Nat) : Bool := (List.range 256).any fun b => numberUses s p n b
/-- Does a bucket's traffic use a port? -/
def bucketUses (s : State) (p : Nat) (b : Bucket) : Bool := numberUses s p b.grp b.bucket

/-! ### Halts of posts (10 R210) -/

/-- The exchange wharf of a buffer (10 R192); of one in the host window, for which R192 names none, as of HBM at the same offset in 576 GiB
(DESIGN CHOICE, log entry 16). -/
def exchangeWharf (s : State) (dpa bucket : Nat) : Nat :=
  let q := match dpaLoc s dpa with
    | .spad t _ => tileQuad t
    | _ => dpa / quadBytes % 4
  let ws := (List.range 8).filter fun w => decide (wharfQuad w = q)
  if s.hbmWide && decide (dpa < hbmTop) then bucket % 8 else lget 0 ws (bucket % 2)
/-- A post halts with 0x44 or 0x4B: count of halts, entry, record (10 R210). `waits` is what its descriptor waits for. -/
def postHalt (s : State) (b : Bucket) (waits : Work) (status : Nat) (hw : Bool) : State :=
  match b.post with
  | none => s
  | some p =>
    let w := exchangeWharf s p.dpa b.bucket
    let e : ErrIn := { wharf := w, cls := 1, cause := 0x47, kind := 9, part := b.part, halted := true,
                       q2 := b.step + b.bucket * 2 ^ 32 + b.gid * 2 ^ 40, detail := status, addr := p.dpa }
    let x := ringErr (s.inc (fHalts b.grp)) p.ring hw e
    settleWork x.1 p.ring p.count waits (.judged status (postResult s b) (some x.2))
/-- The same, and its entry is freed. -/
def bucketHalt (s : State) (b : Bucket) (status : Nat) (hw : Bool) : State :=
  postHalt (bucketFree s b) b (.bucket b.grp b.bucket b.step) status hw

/-! ### Posts as descriptors (03 R49) -/

/-- The fields of a bucket post's descriptor. -/
def pqStep (q : List Nat) : Nat := nbits (dq q 2) 31 0
def pqBucket (q : List Nat) : Nat := nbits (dq q 2) 39 32
def pqGroup (q : List Nat) : Nat := nbits (dq q 2) 55 40
def pqDpa (q : List Nat) : Nat := nbits (dq q 3) 47 0
def pqElems (q : List Nat) : Nat := nbits (dq q 4) 31 0
def pqFormat (q : List Nat) : Nat := nbits (dq q 4) 35 32
def pqWharf (q : List Nat) : Bool := nbit (dq q 4) 36
def pqExponent (q : List Nat) : Nat := nbits (dq q 4) 47 40

/-- Has a deadline not passed at a milestone? All ones never passes (10 R206). -/
def beforeDeadline (t deadline : Nat) : Bool := decide (t < deadline) || decide (deadline = 2 ^ 64 - 1)
/-- What a post captures at its dispatch (10 R190), and whether that is on time (10 R206). -/
def capNow (s : State) (n : Nat) (q : List Nat) : PostCap where
  grp := n
  late := !beforeDeadline s.mile (dq q 5)
  ovfWrap := s.flag (fRg n 0 54 54)
  scaleStep := max 1 (s.rd (fRg n 0 53 51))
  resultTo := (let v := s.rd (fRg n 0x30 39 0); if v = 0 then 10000000 else v)
/-- What a post gives its bucket. -/
def newPost (c : PostCap) (r count t0 : Nat) (q : List Nat) : PostSt where
  ring := r
  count := count
  t0 := t0
  deadline := dq q 5
  dpa := pqDpa q
  elems := pqElems q
  format := pqFormat q
  wharfAdd := pqWharf q
  gate := dq q 6
  late := c.late
  ovfWrap := c.ovfWrap
  scaleStep := c.scaleStep
  resultTo := c.resultTo
/-- The bucket of a descriptor alone: a fresh entry. -/
def freshBucket (n part : Nat) (q : List Nat) : Bucket :=
  { grp := n, part := part, gid := pqGroup q, step := pqStep q, bucket := pqBucket q, elems := pqElems q, deadline := dq q 5,
    fmt := pqFormat q, exponent := if pqFormat q = 2 then pqExponent q else 0, rep := 0 }
/-- What a descriptor captured, when its post stands outside the bucket table (10 R191). -/
def Work.outside : Work → Option PostCap
  | .bucketWait c | .bucketGone c => some c
  | _ => none
/-- The posts outside the bucket table: ring, descriptor and what it captured. -/
def postsOutside (s : State) : List (Nat × Dispatched × PostCap) :=
  s.rings.flatMap fun x => x.2.out.filterMap fun d => d.work.outside.map fun c => (x.1, d, c)
/-- A post outside the bucket table halts (10 R205, R210). -/
def outsideHalt (s : State) (x : Nat × Dispatched × PostCap) (status : Nat) (hw : Bool) : State :=
  postHalt s { freshBucket x.2.2.grp (s.rd (fRPart x.1)) x.2.1.q with post := some (newPost x.2.2 x.1 x.2.1.count x.2.1.t0 x.2.1.q) }
    x.2.1.work status hw

end Sys2Proof.Machine
end

