-- ==== Sys2Proof/Machine/PortOps.lean ====
section
/-! DEFINITION. The link layer of a Tarlar port: keys, flits, frames, replay, messages, lane changes, port down and hail
(11 R211 to R227). -/

namespace Sys2Proof.Machine
open Sys2Proof

/-! ### Bits of a mask, lasers and lanes -/
def mset (m k : Nat) : Nat := m ||| 2 ^ k
def mclr (m k : Nat) : Nat := if nbit m k then m - 2 ^ k else m

def fLaser (p j hi lo : Nat) : Fld := ⟨aOpt p (0x100 + 8 * j), hi, lo⟩
def fLaserState (p j : Nat) : Fld := fLaser p j 63 62
def fBias (p j : Nat) : Fld := fLaser p j 47 36
def fBiasMax (p j : Nat) : Fld := fLaser p j 35 24
def fOptStat (p hi lo : Nat) : Fld := ⟨aOpt p 8, hi, lo⟩
def fSwapPhase (p : Nat) : Fld := fOptStat p 34 32
def fSwapGroup (p : Nat) : Fld := fOptStat p 31 28
def fXtState (p : Nat) : Fld := fOptStat p 27 24
def fSparesLeft (p : Nat) : Fld := fOptStat p 15 0
def fTxLane (p l hi lo : Nat) : Fld := ⟨aOpt p (0x200 + 8 * l), hi, lo⟩
def fRxLane (p l hi lo : Nat) : Fld := ⟨aOpt p (0x300 + 8 * l), hi, lo⟩
/-- The active laser of a wavelength. -/
def activeLaser (s : State) (p k : Nat) : Option Nat := [k, k + 16].find? fun j => decide (s.rd (fLaserState p j) = 1)
/-- The cold spare of a wavelength. -/
def coldSpare (s : State) (p k : Nat) : Option Nat := [k, k + 16].find? fun j => decide (s.rd (fLaserState p j) = 0)
/-- OPT_STATUS.spares_left from the lasers' states; the estimate of a laser that is not active reads 0xFF (12 R244, R246). -/
def sparesShow (s : State) (p : Nat) : State :=
  (s.wr (fSparesLeft p) (lsum ((List.range 16).map fun k => if (coldSpare s p k).isSome then 2 ^ k else 0))).wrAll
    (((List.range 32).filter fun j => decide (s.rd (fLaserState p j) ≠ 1)).map fun j => (fLaser p j 7 0, 0xFF))
/-- The wear record of every laser: OPT_LASER, 16 ports of 32 (17 R327). -/
def wearRecord (s : State) : List Word64 := (List.range 16).flatMap fun p => (List.range 32).map fun j => s.reg (aOpt p (0x100 + 8 * j))
/-- A swap has ended, well or not: the lasers as they now stand, and a wear record (17 R327). -/
def swapRecord (s : State) (p : Nat) : State :=
  let t := sparesShow s p
  { t with failBuf := t.failBuf ++ [.wear (wearRecord t) false] }
def biasOf (g : PortSt) (p j : Nat) : Nat := tget (fun j => Config.startBias (32 * p + j)) g.startBias j
/-- A laser lit at its own bias, unless it is lit already (12 R230), or dark with its bias remembered. -/
def laserOn (s : State) (p j : Nat) : State := if s.rd (fBias p j) ≠ 0 then s else s.wr (fBias p j) (min (biasOf (s.port p) p j) (s.rd (fBiasMax p j)))
def laserOff (s : State) (p j : Nat) : State :=
  let b := s.rd (fBias p j)
  let s1 := if b = 0 then s else s.modPort p fun g => { g with startBias := tset (fun j => Config.startBias (32 * p + j)) g.startBias j b }
  s1.wr (fBias p j) 0
/-- All active lasers and lanes of a port turned on or off. -/
def portLight (s : State) (p : Nat) (on : Bool) : State :=
  let s1 := (List.range 32).foldl (fun t j => if t.rd (fLaserState p j) = 1 then (if on then laserOn t p j else laserOff t p j) else t) s
  (List.range 32).foldl (fun t l => t.wrAll [(fTxLane p l 1 0, if on then 1 else 3), (fRxLane p l 1 0, if on then 1 else 3)]) s1

/-! ### Keys (11 R218) -/

/-- Is this end the lower one: its identity key's digest is the smaller? -/
def lowerEnd (g : PortSt) : Bool :=
  decide (beNat (sha384 g.myKey) < beNat (sha384 (Config.certKey g.hisCert)))
/-- Keys of sending and receiving from a shared secret and a salt. -/
def deriveKeys (low : Bool) (secret salt : List Byte) : LinkKey × LinkKey :=
  let o := Config.hkdf secret salt 72
  let a : LinkKey := ⟨sliceB o 0 32, sliceB o 32 4⟩
  let b : LinkKey := ⟨sliceB o 36 32, sliceB o 68 4⟩
  if low then (a, b) else (b, a)
/-- Fresh bytes of the DRBG. -/
def fresh (s : State) (n : Nat) : List Byte × State := ((List.range n).map (Config.freeByte s.free), { s with free := s.free + 1 })

/-! ### Flits (11 R212, R213, R216) -/

def flitHeader (typ vc som len seq : Nat) : List Byte := leBytes 4 (typ * 2 ^ 30 + vc % 8 * 2 ^ 27 + som % 2 * 2 ^ 26 + len % 256 * 2 ^ 15 + seq % 2 ^ 15)
/-- Kind and payload of a management message (11 R217, 12 R231). -/
def CtlMsg.kind : CtlMsg → Nat
  | .retire _ _ => 0x01
  | .restore _ _ => 0x02
  | .testReport _ _ => 0x03
  | .offer _ _ => 0x10
  | .accept _ => 0x11
  | .decline => 0x12
  | .stamp _ _ _ _ _ => 0x20
  | .power _ => 0x30
  | .dark _ => 0x40
def CtlMsg.fields : CtlMsg → List Nat
  | .retire g l => [g, l]
  | .restore g l => [g, l]
  | .testReport g c => [g, b2n c]
  | .offer k f => [leNat k, f]
  | .accept k => [leNat k]
  | .decline => []
  | .stamp a b c d e => [a, b, c, d, e]
  | .power l => l.map (·.toNat)
  | .dark a => [b2n a]
def CtlMsg.bytes (c : CtlMsg) : List Byte :=
  match c with
  | .power l => l
  | c => BitVec.ofNat 8 c.kind :: Config.ctlBody c.kind c.fields

/-- Has a line count reached a line (11 R220)? -/
def lineAt (count line : Nat) : Bool := decide (sint 32 (count + 2 ^ 32 - line) ≥ 0)
/-- Groups in service at a line count: a pending line that it has reached is in force. -/
def maskAt (mask count : Nat) : Option LaneLine → Nat
  | some x => if lineAt count x.line then (if x.retire then mclr mask x.group else mset mask x.group) else mask
  | none => mask
def txMask (s : State) (p : Nat) : Nat := maskAt (s.rd (fTxGroups p)) (s.port p).lineTx (s.port p).txLine
def rxMask (s : State) (p : Nat) : Nat := maskAt (s.rd (fRxGroups p)) (s.port p).lineRx (s.port p).rxLine
/-- The group after a turn in the order of the active groups (11 R211). -/
def turnAfter (mask t : Nat) : Nat := (((List.range 16).map fun i => (t + 1 + i) % 16).find? fun k => nbit mask k).getD ((t + 1) % 16)
/-- The next active group in the turn order (11 R211). -/
def nextGroup (s : State) (p : Nat) : Nat := turnAfter (txMask s p) (s.port p).turn
/-- A flit put on the next line. -/
def putLine (s : State) (p : Nat) (bytes : List Byte) : State :=
  let k := nextGroup s p
  { s with flitOut := s.flitOut ++ [(p, k, bytes)] }.modPort p fun g => { g with turn := k, lineTx := (g.lineTx + 1) % 2 ^ 32 }

/-- The link control word (11 R216). -/
def controlWord (g : PortSt) : Nat :=
  g.rxNext + b2n g.nak * 2 ^ 15 + lsum ((List.range 8).map fun v => min 63 (lget 0 g.giveBack v) * 2 ^ (16 + 6 * v))
def frameIv (k : LinkKey) (frame : Nat) : List Byte := k.salt ++ leBytes 8 frame

/-- A new sequenced flit is built, encrypted, kept for replay and sent; the sixteenth of a frame carries control word and tag. -/
def sendFlit (s : State) (p typ vc som len : Nat) (payload : List Byte) : State :=
  let g := s.port p
  let fr := s.rd (fTxFrames p)
  let head := flitHeader typ vc som len g.txSeq
  let last := decide (g.txSeq % 16 = 15)
  let plain := if last then takePad 224 payload ++ leBytes 8 (controlWord g) else takePad 248 payload
  let all := g.txBody ++ plain
  let heads := g.txHeads ++ [head]
  let ct := sliceB (Config.aeadSeal g.txKey.key (frameIv g.txKey fr) all) g.txBody.length plain.length
  let tag := takePad 16 (Config.aeadTag g.txKey.key (frameIv g.txKey fr) heads.flatten all)
  let bytes := withCrc (head ++ ct ++ if last then tag else [])
  let s1 := putLine s p bytes
  let s2 := s1.modPort p fun g => { g with
    replayBuf := g.replayBuf ++ [⟨g.txSeq, bytes, s.mile, 0⟩]
    txSeq := (g.txSeq + 1) % 2 ^ 15
    sent := g.sent + 1
    ctlSent := (g.ctlSent ++ if typ = 2 then [g.sent] else []).filter fun n => decide (g.sent < n + 1024)
    txHeads := if last then [] else heads
    txBody := if last then [] else all
    nak := if last then false else g.nak
    room := if last then g.room.zipWith (fun r b => r + min 63 b) g.giveBack else g.room
    giveBack := if last then g.giveBack.map (· - 63) else g.giveBack }
  if last then s2.wr (fTxFrames p) (fr + 1) else s2

/-- The next data flit's message: round-robin over the virtual channels that have credit and data. -/
def pickData (g : PortSt) : Option OutMsg :=
  ((List.range 8).map fun i => (g.vcLast + 1 + i) % 8).findSome? fun v =>
    if lget 0 g.credits v = 0 then none else g.outq.find? fun m => decide (m.vc = v)
/-- May a control flit go: at most 1 in 64 of the last 1,024? -/
def ctlRoom (g : PortSt) : Bool := decide ((g.ctlSent.filter fun n => decide (g.sent ≤ n + 1024)).length < 16)

/-- A replay is due: the oldest unacknowledged flit is replayed once more, unless it has been replayed replay_limit times already (11 R215). -/
def replayDue (s : State) (p : Nat) : Bool × Bool :=
  let lim := s.rd ⟨aLnk p 0, 23, 20⟩
  match (s.port p).replayBuf with
  | f :: _ => (true, decide (f.times ≥ (if lim = 0 then 8 else lim)))
  | [] => (false, false)

/-- A flit of a replay sent again: the same bytes on a new line. -/
def resend (s : State) (p i : Nat) : State :=
  let g := s.port p
  match g.replayBuf[i]? with
  | none => s.putPort p { g with replay := none }
  | some f =>
    (putLine s p f.bytes).modPort p fun g => { g with
      replayBuf := g.replayBuf.set i { f with t0 := s.mile, times := f.times + 1 }
      replay := if i + 1 < g.replayBuf.length then some (i + 1) else none }

/-! ### Lane changes (11 R220) -/

/-- A swap request that min_groups refuses is kept for the next bias period (12 R235). -/
def swapKeep (g : PortSt) (k : Nat) : PortSt := { g with swapQ := g.swapQ.filter (· ≠ k), swapKept := g.swapKept.filter (· ≠ k) ++ [k] }
/-- A swap whose retirement is refused. -/
def swapRefused (s : State) (p k : Nat) : State :=
  match (s.port p).swap with
  | some w => if w.k = k ∧ s.rd (fSwapPhase p) = 1 then
      (s.wr (fSwapPhase p) 0).modPort p fun g => let g1 : PortSt := { g with swap := none }; if w.lamp then swapKeep g1 k else g1 else s
  | none => s

/-- The next waiting lane change is announced once no line is pending: a retirement below min_groups is refused (event 0x0C). -/
def announceNext : Nat → State → Nat → State
  | 0, s, _ => s
  | n + 1, s, p =>
    let g := s.port p
    match g.txLine, g.lineQ with
    | none, (k, retire) :: r =>
      let active := popcount 16 (s.rd (fTxGroups p))
      let s1 := s.putPort p { g with lineQ := r }
      if nbit (s.rd (fTxGroups p)) k ≠ retire then announceNext n s1 p
      else if retire ∧ active - 1 < minGroups s p then announceNext n (swapRefused (portEvent s1 p 0x0C k 0) p k) p
      else
        let x := (g.lineTx + switchLead s p) % 2 ^ 32
        let g1 := s1.port p
        (s1.putPort p { g1 with
          txLine := some ⟨k, x, retire⟩
          ctlq := g1.ctlq ++ [if retire then .retire k x else .restore k x] }).wr (fSwitchPend p) 1
    | _, _ => s
/-- A retirement or restoration asked for. -/
def laneAsk (s : State) (p k : Nat) (retire : Bool) : State :=
  if !portLive s p ∨ (s.port p).lineQ.contains (k, retire) then s
  else announceNext 17 (s.modPort p fun g => { g with lineQ := g.lineQ ++ [(k, retire)] }) p

/-! ### Port down (11 R222) -/

/-- The session's contents are gone: what the optics, their calibration and the partner's reports left stays. -/
def sessionClear (g : PortSt) : PortSt :=
  { rekey := .none, ref := g.ref, startBias := g.startBias, target := g.target, off := g.off, farLost := g.farLost, calib := g.calib,
    oma := g.oma, avg := g.avg, rxOffset := g.rxOffset, slicers := g.slicers, eye := g.eye, farOma := g.farOma, swapQ := g.swapQ, swapKept := g.swapKept,
    xtWait := g.xtWait, xtBefore := g.xtBefore, lastReport := g.lastReport }

/-- A running recalibration ends with its port and keeps the matrices before it (12 R235, 17 R329). -/
def xtPortDown (s : State) (p : Nat) : State := if s.rd (fXtState p) = 1 then s.wr (fXtState p) (s.port p).xtBefore else s
/-- A swap ends with its port: once the spare is warming it is the laser that hail trains (12 R235). -/
def swapPortDown (s0 : State) (p : Nat) : State :=
  let s := xtPortDown s0 p
  match (s.port p).swap with
  | none => s
  | some w =>
    let ph := s.rd (fSwapPhase p)
    let s1 := if w.lamp && !w.back && decide (ph ≥ 2) then s.wrAll [(fLaserState p w.new, 1), (fLaserState p w.old, 2)] else s
    let s2 := (s1.wr (fSwapPhase p) 0).modPort p fun g => { g with swap := none }
    if w.lamp then swapRecord s2 p else s2

/-- Does an entry of a partition lead out of a port? -/
def entryUses (s : State) (p part e : Nat) : Bool := decide (routeOf s (remEntry s part e).2.2.1 = some p)
/-- Does a standing barge of a flight send through a port? -/
def standingUses (s : State) (p tile ix : Nat) (st : Standing) : Bool :=
  (List.range (nbits (lget 0#64 st.entry 0).toNat 63 56)).any fun i => ((firing s tile ix i st).entries s).any (entryUses s p st.part)
/-- The launches outstanding on rings whose flights send through a port halt their rings; the flights themselves run on (DESIGN CHOICE, log
entry 16). -/
def haltLaunches (s : State) (p : Nat) (hw : Nat → Bool) : State :=
  let uses (f : Flight) : Bool := !f.orphan && f.tiles.any fun n => (s.tile n).standing.any fun x => x.2.any fun st =>
    st.of f.part f.fid && standingUses s p n x.1 st
  (s.flights.filter uses).foldl (fun t f =>
    if (t.ring f.ring).out.any fun d => decide (d.count = f.count) && decide (d.work = .launch) then
      let x := ringErr t f.ring (hw f.ring) (ringErrIn t f.ring f.count 0x4B 0 [])
      settleWork x.1 f.ring f.count .launch (.judged 0x4B f.ts (some x.2))
    else t) s
/-- Rings whose outstanding descriptors use the port halt with 0x4B; bucket posts halt under R210. It is one error, however many descriptors of
a ring it meets: as a hardware error it is fatal to a ring that was halting before it (14 R274). -/
def haltUsers (s : State) (p : Nat) (hw : Bool) : State :=
  let uses (b : Barge) : Bool := !b.failed && !b.complete && (match b.origin with | .ring _ _ => true | _ => false)
    && (b.entries s).any (entryUses s p b.part)
  let again (r : Nat) : Bool := hw && (ringHandled s r).isSome
  let ringOf (b : Barge) : Nat := match b.origin with | .ring r _ => r | _ => 0
  let s1 := (s.barges.filter uses).foldl (fun t b => bargeHalt t b (engineQueue b.engine) 0x44 0x4B b.dst 0x4B (again (ringOf b)) none false) s
  let s2 := (s.buckets.filter fun b => b.post.isSome && groupPort s p b.grp).foldl (fun t b => bucketHalt t b 0x4B (b.post.any fun q => again q.ring))
    (haltLaunches s1 p again)
  ((postsOutside s).filter fun x => groupPort s p x.2.2.grp).foldl (fun t x => outsideHalt t x 0x4B (again x.1)) s2

/-- Messages of a virtual channel that a port holds for sending: those in its queue and those with data flits in its replay buffer; the
last of the buffer is the first of the queue when that one has been sent in part. -/
def heldMsgs (g : PortSt) (vc : Nat) : Nat :=
  let heads := (g.replayBuf.map fun f => leNat (sliceB f.bytes 0 4)).filter fun h => decide (nbits h 31 30 = 0) && decide (nbits h 29 27 = vc)
  let queued := g.outq.filter fun m => decide (m.vc = vc)
  let begun := (heads.filter fun h => nbit h 26).length + (match heads with | h :: _ => b2n (!nbit h 26) | [] => 0)
  begun + queued.length - (match heads, queued with | _ :: _, m :: _ => b2n (decide (m.sent > 0)) | _, _ => 0)
/-- What a port discards: queues, replay and receive buffers, messages not yet taken by their wharf die. -/
def portDiscard (s : State) (p : Nat) : State :=
  let g := s.port p
  let mineS := s.segIn.filter fun m => decide (m.port = some p)
  let mineR := s.remoteIn.filter fun m => decide (m.port = some p)
  let lost := lsum ((List.range 8).map (heldMsgs g)) + g.inbox.length + g.partialMsgs.length + mineS.length + mineR.length
  ({ s with
    segIn := s.segIn.filter fun m => decide (m.port ≠ some p)
    remoteIn := s.remoteIn.filter fun m => decide (m.port ≠ some p) }.putPort p (sessionClear g)).incBy (fLostMsgs p) lost

/-- What LNK_STATUS shows of a port that leaves Up. -/
def portShow (s : State) (p st step : Nat) : State :=
  s.wrAll [(fPortState p, st), (fHailStep p, step), (fBackoffS p, 0), (fTxGroups p, 0), (fRxGroups p, 0), (fRekeyPend p, 0), (fSwitchPend p, 0)]

/-- A port goes down by a cause: users halt, routes are withdrawn, event and entry are made, and hail begins, or the port is Off. -/
def portDown (s : State) (p code group : Nat) (off : Bool) : State :=
  if !portLive s p then s
  else
    let s1 := haltUsers s p (decide (code ≠ 0))
    let s2 := portDiscard (swapPortDown s1 p) p
    let s3 := withdraw s2 p
    let s4 := errRaise (lnkEvent s3 p code group 0) { wharf := p / 2, cls := 1, cause := 0x45, kind := 6, part := s.wharfPart (p / 2),
                                                      halted := true, q2 := p + group % 16 * 16, detail := code, escalated := decide (code = 2 ∨ code = 3) }
    chooseUpstream (portLight (portShow s4 p (if off then 0 else 2) (if off then s.rd (fHailStep p) else 1)) p (!off))

/-- A port Off without a port down: its lasers are dark (13 R262, 14 R273). -/
def portOff (s : State) (p : Nat) : State :=
  portLight (portShow (portDiscard (swapPortDown s p) p) p 0 (s.rd (fHailStep p))) p false

/-- A port that is not live enters hail at step 1 (11 R223). -/
def hailBegin (s : State) (p : Nat) : State :=
  if s.isFatal then s
  else portLight ((portShow s p 2 1).modPort p fun g => { g with backoff := false, tone := false, darkAsked := false, voted := false, hailMsg := [] }) p true

/-! ### Receiving (11 R213 to R216) -/

/-- A port's LNK_SLICE bit of a slice (13 R255). -/
def sliceAdmitted (s : State) (p slice : Nat) : Bool := (s.reg (aLnk p (0x400 + 8 * (slice / 64)))).getLsbD (slice % 64)
/-- A message whose route word has arrived is admitted or not, and no later change of the bitmap recalls that (13 R252, R255). -/
def InMsg.judge (s : State) (p : Nat) (m : InMsg) : InMsg :=
  if m.ok.isNone ∧ m.bytes.length ≥ 16 then { m with ok := some (sliceAdmitted s p (nbits (leNat (sliceB m.bytes 0 8)) 37 26)) } else m
/-- A data flit takes a credit of its virtual channel, and its payload joins the channel's message; a complete message goes to the inbox. -/
def feedData (s : State) (p vc : Nat) (som : Bool) (payload : List Byte) : State :=
  let g0 := s.port p
  let g : PortSt := { g0 with room := g0.room.set vc (lget 0 g0.room vc - 1) }
  let cur := g.partialMsgs.find? fun m => decide (m.vc = vc)
  let m : Option InMsg := if som then some { vc := vc, bytes := payload, flits := 1 }
    else cur.map fun m => { m with bytes := m.bytes ++ payload, flits := m.flits + 1 }
  let rest := g.partialMsgs.filter fun m => decide (m.vc ≠ vc)
  match m.map (InMsg.judge s p) with
  | none => s.putPort p g
  | some m =>
    let need := 16 + leNat (sliceB m.bytes 12 4)
    if m.bytes.length ≥ 16 ∧ m.bytes.length ≥ need then
      { s.putPort p { g with partialMsgs := rest, inbox := g.inbox ++ [{ m with bytes := m.bytes.take need, no := s.arrivals }] } with arrivals := s.arrivals + 1 }
    else s.putPort p { g with partialMsgs := rest ++ [m] }

/-- The kinds of management messages. -/
def ctlKinds : List Nat := [0x01, 0x02, 0x03, 0x10, 0x11, 0x12, 0x20, 0x30, 0x40]

/-- One flit of a verified frame delivered: header, plaintext. -/
def deliverFlit (s : State) (p : Nat) (head plain : List Byte) : State :=
  let h := leNat head
  let len := min (nbits h 22 15) (if nbits h 14 0 % 16 = 15 then 224 else 248)
  match nbits h 31 30 with
  | 0 => feedData s p (nbits h 29 27) (nbit h 26) (plain.take len)
  | 2 =>
    let k := (sliceB plain 0 1).headD 0#8 |>.toNat
    if ctlKinds.contains k then s.modPort p fun g => { g with ctlIn := g.ctlIn ++ [k] } else s.inc (fDropRoute p)
  | _ => s

/-- A link control word: acknowledged flits leave the replay buffer, credits return; whether a replay is asked for. -/
def takeControl (s : State) (p w : Nat) : State :=
  s.modPort p fun g =>
    let gone (f : SentFlit) : Bool := decide ((nbits w 14 0 + 2 ^ 15 - f.seq - 1) % 2 ^ 15 < 2 ^ 14)
    let n := (g.replayBuf.filter gone).length
    { g with
      replayBuf := g.replayBuf.filter fun f => !gone f
      replay := match g.replay with | some i => if i < n then some 0 else if i - n < g.replayBuf.length - n then some (i - n) else none | none => none
      credits := (List.range 8).map fun v => lget 0 g.credits v + nbits w (16 + 6 * v + 5) (16 + 6 * v) }

/-- A replay starts, or its limit takes the port down (11 R215). -/
def startReplay (s : State) (p : Nat) : State :=
  match replayDue s p with
  | (true, true) => portDown s p 0x02 0 false
  | (true, false) => (s.inc (fReplays p)).modPort p fun g => { g with replay := some 0 }
  | _ => s

/-- The switch of a direction to the keys agreed, between two frames, at frame F or, where the agreement came later, at the next frame
(11 R219). -/
def rekeySwitch (s : State) (p : Nat) : State :=
  let g := s.port p
  match g.rekey with
  | .agreed tx rx =>
    let s1 : State := match tx with
      | (k, f) :: r => if g.txHeads.isEmpty ∧ s.rd (fTxFrames p) ≥ f then
          portEvent ((s.modPort p fun g => { g with txKey := k, rekey := .agreed r rx }).wrAll [(fTxFrames p, 0), (fRekeyPend p, b2n !r.isEmpty)]) p 0x0D 0 0
        else s
      | [] => s
    let s2 : State := match rx with
      | (k, f) :: r => if (s1.port p).rxFlits.isEmpty ∧ (s1.port p).rxFrame ≥ f then s1.modPort p fun g => { g with
          rxKey := k
          rxFrame := 0
          rekey := match g.rekey with | .agreed tx _ => .agreed tx r | x => x } else s1
      | [] => s1
    if (s2.port p).rekey = .agreed [] [] then s2.modPort p fun g => { g with rekey := .none } else s2
  | _ => s

/-- A completed frame: its tag is verified; a first failure asks for replay, a second takes the port down (11 R213). -/
def frameDone (s : State) (p : Nat) : State :=
  let g := s.port p
  let heads := g.rxFlits.map fun f => sliceB f 0 4
  let body (i : Nat) (f : List Byte) : List Byte := sliceB f 4 (if i = 15 then 232 else 248)
  let ct := (g.rxFlits.mapIdx body).flatten
  let plain := Config.aeadSeal g.rxKey.key (frameIv g.rxKey g.rxFrame) ct
  let tag := sliceB (g.rxFlits.getLastD []) 236 16
  if takePad 16 (Config.aeadTag g.rxKey.key (frameIv g.rxKey g.rxFrame) heads.flatten plain) = tag then
    let s1 := if g.badFrame.isSome then errRaise s { wharf := p / 2, cls := 0, cause := 0x03, kind := 6, part := s.wharfPart (p / 2), q2 := p } else s
    let s2 := s1.modPort p fun g => { g with rxFlits := [], badFrame := none, rxFrame := g.rxFrame + 1 }
    let s3 := (List.range 16).foldl (fun t i => deliverFlit t p (lget [] heads i) (sliceB plain (248 * i) (if i = 15 then 224 else 248))) s2
    let w := leNat (sliceB plain (248 * 15 + 224) 8)
    let s4 := rekeySwitch (takeControl s3 p w) p
    if nbit w 15 then startReplay s4 p else s4
  else if g.badFrame.isSome then portDown (s.inc (fGcmFail p)) p 0x03 0 false
  else
    let first := nbits (leNat (lget [] heads 0)) 14 0
    (s.inc (fGcmFail p)).putPort p { g with rxFlits := [], rxNext := first, nak := true, badFrame := some first }

/-- A flit in the order of the lines: its CRC and seq (11 R212, R215). -/
def flitTake (s : State) (p : Nat) (bytes : List Byte) : State :=
  let s2 := s.modPort p fun g => { g with lineRx := (g.lineRx + 1) % 2 ^ 32 }
  let g := s2.port p
  if leNat (sliceB bytes 252 4) ≠ crc32 (sliceB bytes 0 252) then (s2.inc (fCrcErrors p)).putPort p { g with nak := true }
  else
    let h := leNat (sliceB bytes 0 4)
    if nbits h 31 30 = 3 then s2
    else if nbits h 14 0 ≠ g.rxNext then s2.putPort p { g with nak := true }
    else
      let s3 := s2.putPort p { g with rxNext := (g.rxNext + 1) % 2 ^ 15, rxFlits := g.rxFlits ++ [bytes] }
      if g.rxNext % 16 = 15 then frameDone s3 p else s3

/-- The groups are deskewed and merged in turn order: every waiting flit whose turn has come is taken (11 R211). -/
def mergeFlits : Nat → State → Nat → State
  | 0, s, _ => s
  | n + 1, s, p =>
    let g := s.port p
    let k := turnAfter (rxMask s p) g.rxTurn
    match g.rxWait.find? fun f => decide (f.1 = k) with
    | some f => if !portLive s p then s else
        mergeFlits n (flitTake (s.putPort p { g with rxTurn := k, rxWait := dropFirst (fun f => decide (f.1 = k)) g.rxWait }) p f.2) p
    | none => s

/-- The codeword that ended on a group: up to 15 symbols are corrected, more are one uncorrectable codeword (11 R211). -/
def fecCount (s : State) (p group fecCorr : Nat) (fecBad : Bool) : State :=
  if fecBad ∨ fecCorr > 15 then
    (s.inc (fGrpFld p group 39 24)).modPort p fun g => { g with uncorr := tset nat0 g.uncorr group (tget nat0 g.uncorr group + 1) }
  else s.incBy (fGrpFld p group 63 40) fecCorr

/-- A flit arrives on a group: FEC counts, then its turn among the groups. A group out of service carries no flit (11 R220). -/
def flitArrives (s : State) (p group fecCorr : Nat) (fecBad : Bool) (bytes : List Byte) : State :=
  if !portLive s p ∨ s.isFatal then s
  else
    let s1 := fecCount s p group fecCorr fecBad
    if !nbit (rxMask s p) group ∧ !((s.port p).rxLine.any fun x => decide (x.group = group) && !x.retire) then s1
    else
      let s2 := s1.modPort p fun g => { g with rxWait := g.rxWait ++ [(group, bytes)] }
      mergeFlits (s2.port p).rxWait.length s2 p

/-! ### Rekeying (11 R219) -/

/-- An offer is made: a fresh ephemeral key and a frame at least 1,024 ahead. One that falls due, or is to be repeated, while a rekey is offered or
agreed is not sent: the rekey under way takes its place (DESIGN CHOICE, log entry 16). -/
def rekeyOffer (s : State) (p : Nat) : State :=
  let g := s.port p
  if g.rekey ≠ .none ∨ !portUp s p then s
  else
    let x := fresh s 48
    let f := s.rd (fTxFrames p) + 1024 + Config.freeNat s.free
    x.2.putPort p { g with rekey := .offered x.1 f, declined := false, ctlq := g.ctlq ++ [.offer (Config.publicKey x.1) f] }
/-- The keys of a rekey: the old shared secret is the salt. A rekey agreed before another one has reached its frame follows it. -/
def rekeyAgree (s : State) (p : Nat) (priv his : List Byte) (frame : Nat) : State :=
  let g := s.port p
  let secret := Config.ecdh priv his
  let k := deriveKeys (lowerEnd g) secret g.secret
  let next := match g.rekey with
    | .agreed tx rx => RekeySt.agreed (tx ++ [(k.1, frame)]) (rx ++ [(k.2, frame)])
    | _ => .agreed [(k.1, frame)] [(k.2, frame)]
  rekeySwitch (((s.putPort p { g with secret := secret, rekey := next }).inc (fKeyGen p)).wr (fRekeyPend p) 1) p

/-! ### Sending (11 R216) -/

/-- The port becomes dark: a swap ends (12 R235), receivers and lasers are off, keys gone (11 R226); its partner is no upstream any more
(13 R259). -/
def goDark (s0 : State) (p : Nat) : State :=
  let s := swapPortDown s0 p
  chooseUpstream (portLight (portShow (s.putPort p (sessionClear (s.port p))) p 1 (s.rd (fHailStep p))) p false)

/-- After a frame: the switch to new keys, the offer at 2^47 unless a declined one waits for its second, the limit at 2^48 − 1 (11 R219). -/
def afterFrame (s : State) (p : Nat) : State :=
  let s1 := rekeySwitch s p
  let f := s1.rd (fTxFrames p)
  if f ≥ 2 ^ 48 - 1 then portDown s1 p 0x04 0 false
  else if f ≥ 2 ^ 47 ∧ !(s1.port p).declined then rekeyOffer s1 p else s1

/-- Has a port no message queued or outstanding (11 R226)? -/
def portIdle (s : State) (p : Nat) : Bool :=
  let g := s.port p
  g.outq.isEmpty && g.inbox.isEmpty && g.partialMsgs.isEmpty && g.replayBuf.all fun f => decide (nbits (leNat (sliceB f.bytes 0 4)) 31 30 ≠ 0)

/-- The flit of the next line: a replay's, fill while the replay buffer is full, control, data, or idle. A dark acknowledgement overtaken by
a message is withdrawn. Messages wait until the port is Up (11 R223, R226). -/
def flitSend (s0 : State) (p : Nat) : State :=
  if !portLive s0 p ∨ s0.isFatal ∨ txMask s0 p = 0 then s0
  else
    let s := if portIdle s0 p then s0 else s0.modPort p fun g => { g with ctlq := g.ctlq.filter fun c => decide (c ≠ .dark true) }
    let g := s.port p
    match g.replay with
    | some i => resend s p i
    | none =>
      if g.replayBuf.length ≥ 8192 then putLine s p (withCrc (flitHeader 3 0 0 0 0 ++ List.replicate 248 0#8))
      else
        let room := if g.txSeq % 16 = 15 then 224 else 248
        match g.ctlq, ctlRoom g, (if portUp s p then pickData g else none) with
        | c :: r, true, _ =>
          let c' := match c with | .stamp _ b d m h => CtlMsg.stamp s.mile b d m h | x => x
          let g1 : PortSt := { g with ctlq := r, darkSent := g.darkSent || decide (c = .dark true) }
          afterFrame (sendFlit (s.putPort p g1) p 2 0 0 (min room c'.bytes.length) c'.bytes) p
        | _, _, some m =>
          let n := min room (m.bytes.length - m.sent)
          let m' : OutMsg := { m with sent := m.sent + n }
          let g1 : PortSt := { g with
            vcLast := m.vc
            credits := g.credits.set m.vc (lget 0 g.credits m.vc - 1)
            outq := if m'.sent ≥ m.bytes.length then dropFirst (fun x => decide (x.vc = m.vc)) g.outq
                    else replaceFirst (fun x => decide (x.vc = m.vc)) (fun _ => m') g.outq }
          afterFrame (sendFlit (s.putPort p g1) p 0 m.vc (b2n (decide (m.sent = 0))) n (m.bytes.drop m.sent)) p
        | _, _, none => afterFrame (sendFlit s p 1 0 0 0 []) p

/-- Credits of a message that leaves the receive buffer (11 R216). -/
def creditBack (s : State) (p vc n : Nat) : State :=
  s.modPort p fun g => { g with giveBack := g.giveBack.set vc (lget 0 g.giveBack vc + n) }

/-- A delivered management message of a kind is taken. -/
def takeCtl (s : State) (p kind : Nat) : Option State :=
  let g := s.port p
  if g.ctlIn.contains kind ∧ !s.isFatal then some (s.putPort p { g with ctlIn := dropFirst (fun k => decide (k = kind)) g.ctlIn }) else none

end Sys2Proof.Machine
end

