-- ==== Sys2Proof/Machine/OptOps.lean ====
section
/-! DEFINITION. Lasers, rings and receivers of a port: swaps, lock loops, matrices, reports (12 R228 to R248). -/

namespace Sys2Proof.Machine
open Sys2Proof

def fXtalk (p g i j : Nat) : Fld := ⟨aOpt p (0x800 + 0x200 * g + 0x20 * i + 8 * (j / 4)), 16 * (j % 4) + 15, 16 * (j % 4)⟩
def fAutoSwap (p : Nat) : Fld := ⟨aOpt p 0, 2, 2⟩
def fSwapSel (p : Nat) : Fld := ⟨aOpt p 0, 7, 4⟩
def swapPct (s : State) (p : Nat) : Nat := min 0x63 (s.rd ⟨aOpt p 0, 63, 56⟩)
def swapMargin (s : State) (p : Nat) : Nat := s.rd ⟨aOpt p 0, 55, 48⟩
def lockWindow (s : State) (p : Nat) : Nat := max 1 (s.rd ⟨aOpt p 0, 23, 16⟩)
def chipTemp (s : State) (p : Nat) : Nat := s.rd (fOptStat p 55 48)
/-- A signed value as w bits, clamped. -/
def sclamp (w : Nat) (i : Int) : Nat := uint w (clampInt w i)
/-- The margin of a transmit lane in 0.1 dB: the OMA that the partner reports, less −11.0 dBm; 0 before the first report (12 R231). -/
def laneMargin (s : State) (p l : Nat) : Int := tget (fun _ => -110) (s.port p).farOma l + 110
/-- The margin of laser k: the smaller of its two lanes (12 R231). -/
def laserMargin (s : State) (p k : Nat) : Int := min (laneMargin s p k) (laneMargin s p (k + 16))
def int0 : Nat → Int := fun _ => 0
/-- The lock field of a ring: modulators 0 to 31, demultiplexer rings 32 to 63. -/
def fLock (p ring : Nat) : Fld := if ring < 32 then fTxLane p ring 1 0 else fRxLane p (ring - 32) 1 0
def fHeater (p ring : Nat) : Fld := if ring < 32 then fTxLane p ring 63 48 else fRxLane p (ring - 32) 63 48

/-- Rings that search anew or have locked are out of range no longer (12 R238). -/
def inRange (s : State) (p : Nat) (rings : List Nat) : State := s.modPort p fun g => { g with range := g.range.filter fun r => !rings.contains r }

/-! ### Swaps (12 R233 to R236) -/

/-- The lasers change hands at step 3: the old one dark, the new one at its starting bias; a mere relock begins at step 4a. -/
def swapWarm (s : State) (p : Nat) (w : SwapSt) : State :=
  if w.lamp then
    inRange (([w.k, w.k + 16].foldl (fun t l => t.wr (fTxLane p l 1 0) 1) (laserOn (laserOff s p w.old) p w.new)).wr (fSwapPhase p) 2) p [w.k, w.k + 16]
  else s.wr (fSwapPhase p) 3

/-- A running recalibration stops, keeps the previous matrices, and starts again when the swap has ended (12 R235). -/
def xtStop (s : State) (p : Nat) : State :=
  if s.rd (fXtState p) = 1 then (s.wr (fXtState p) (s.port p).xtBefore).modPort p fun g => { g with xtWait := true } else s
/-- A recalibration starts, or waits while an announcement or swap is pending (12 R240). -/
def xtStart (s : State) (p : Nat) : State :=
  let g := s.port p
  if !portUp s p ∨ s.rd (fXtState p) = 1 then s
  else if g.swap.isSome ∨ g.txLine.isSome ∨ g.rxLine.isSome then s.putPort p { g with xtWait := true }
  else (s.putPort p { g with xtWait := false, xtBefore := s.rd (fXtState p) }).wr (fXtState p) 1

/-- A recalibration that waits starts once no swap and no announcement stands in its way (12 R235, R240). -/
def xtResume (s : State) (p : Nat) : State := if (s.port p).xtWait then xtStart s p else s
/-- A swap or relock of a wavelength begins: at step 1, or at step 3 where the group is already retired, once no announcement is pending. -/
def swapBegin (s : State) (p : Nat) (w : SwapSt) : State :=
  let s1 := ((xtStop s p).modPort p fun g => { g with swap := some w, lineQ := g.lineQ.filter fun q => decide (q ≠ (w.k, false)) }).wr (fSwapGroup p) w.k
  if nbit (s.rd (fTxGroups p)) w.k then xtResume (laneAsk (s1.wr (fSwapPhase p) 1) p w.k true) p
  else if (s.port p).txLine.isSome then s1.wr (fSwapPhase p) 1
  else swapWarm s1 p w

/-- A swap of wavelength k asked for: it waits for another swap, is kept while min_groups forbids it, and needs a cold spare. Without one
the request is over, with event 0x07 (12 R236). -/
def swapAsk (s : State) (p k : Nat) : State :=
  let g := s.port p
  let g1 : PortSt := { g with swapQ := g.swapQ.filter (· ≠ k), swapKept := g.swapKept.filter (· ≠ k) }
  if !portUp s p ∨ g.swapQ.contains k ∧ g.swap.isSome ∨ (g.swap.any fun w => w.lamp && decide (w.k = k)) then s
  else match activeLaser s p k, coldSpare s p k with
  | some a, some b =>
    if g.swap.isSome then s.putPort p { g1 with swapQ := g1.swapQ ++ [k] }
    else if nbit (s.rd (fTxGroups p)) k ∧ popcount 16 (s.rd (fTxGroups p)) - 1 < minGroups s p then
      (portEvent s p 0x0C k 0).modPort p fun g => swapKeep g k
    else swapBegin (s.putPort p g1) p ⟨k, a, b, false, true⟩
  | some a, none => optEvent (s.putPort p g1) p 0x07 k a
  | none, none => optEvent (s.putPort p g1) p 0x07 k k
  | none, some _ => s.putPort p g1

/-- Of several wavelengths the lower margin goes first, then the lower number (12 R235). -/
def byMargin (s : State) (p : Nat) (l : List Nat) : List Nat :=
  let before (j k : Nat) : Bool := decide (laserMargin s p j < laserMargin s p k) || (decide (laserMargin s p j = laserMargin s p k) && decide (j ≤ k))
  l.foldl (fun acc k => (acc.takeWhile fun j => before j k) ++ k :: acc.dropWhile fun j => before j k) []
def swapAskAll (s : State) (p : Nat) (l : List Nat) : State := (byMargin s p l).foldl (fun t k => swapAsk t p k) s

/-- A relock of a retired group with a ring out of lock, at this end or at the partner (12 R238). -/
def relockNext (s : State) (p : Nat) : State :=
  let g := s.port p
  let out (k : Nat) : Bool := [k, k + 16].any fun l => decide (s.rd (fTxLane p l 1 0) = 1) || nbit g.farLost l
  if g.swap.isSome ∨ !portUp s p then s
  else match (List.range 16).find? fun k => !nbit (s.rd (fTxGroups p)) k && out k && (activeLaser s p k).isSome
      && !(g.range.any fun r => decide (r < 32) && decide (r % 16 = k)) with
  | some k => match activeLaser s p k with
    | some a => swapBegin s p ⟨k, a, a, false, false⟩
    | none => s
  | none => s

/-- After a swap: the next request, a relock, the recalibration that waits. -/
def swapNext (s : State) (p : Nat) : State :=
  let s1 := swapAskAll s p (s.port p).swapQ
  xtResume (relockNext s1 p) p

/-- The group is back (step 5): the new laser is active with its reference recorded, the old one retired, unless it failed. -/
def swapDone (s : State) (p : Nat) (w : SwapSt) : State :=
  let s0 := (s.wr (fSwapPhase p) 0).modPort p fun g => { g with swap := none, farLost := mclr (mclr g.farLost w.k) (w.k + 16), low := tset nat0 g.low w.k 0 }
  if w.lamp then
    let s1 := if w.back then s0.wr (fLaserState p w.new) 1 else s0.wrAll [(fLaserState p w.new, 1), (fLaserState p w.old, 2)]
    let s2 := s1.modPort p fun g => { g with ref := tset (fun j => Config.monitorRef (32 * p + j)) g.ref w.new (Config.freeNat s.free) }
    let s3 := optEvent (swapRecord s2 p) p 0x02 w.k w.new
    swapNext { s3 with free := s3.free + 1 } p
  else swapNext (optEvent s0 p 0x08 w.k w.new) p

/-- A swap step is done (12 R234): warm; rings locked; receivers calibrated, and the test pattern runs. -/
def swapStep (s : State) (p : Nat) : State :=
  match (s.port p).swap with
  | none => s
  | some w =>
    match s.rd (fSwapPhase p) with
    | 2 => s.wr (fSwapPhase p) 3
    | 3 => if [w.k, w.k + 16].all fun l => decide (s.rd (fTxLane p l 1 0) = 0) then s.wr (fSwapPhase p) 4
           else inRange ([w.k, w.k + 16].foldl (fun t l => t.wr (fTxLane p l 1 0) 0) s) p [w.k, w.k + 16]
    | _ => s

/-- A ring's search fails: it is out of range, with event 0x03 (12 R238). -/
def ringRange (s : State) (p ring : Nat) : State :=
  (optEvent (s.wr (fLock p ring) 2) p 0x03 (ring % 32) ((activeLaser s p (ring % 16)).getD (ring % 16))).modPort p fun g =>
    { g with range := g.range.filter (· ≠ ring) ++ [ring] }
/-- The lock or the test fails (12 R235, R238). Rings still searching are out of range. -/
def swapFails (s : State) (p : Nat) : State :=
  match (s.port p).swap with
  | none => s
  | some w =>
    let ph := s.rd (fSwapPhase p)
    if ph ≠ 3 ∧ ph ≠ 4 then s
    else
      let finish (t : State) : State := swapNext ((t.wr (fSwapPhase p) 0).modPort p fun g =>
        { g with swap := none, farLost := mclr (mclr g.farLost w.k) (w.k + 16) }) p
      if !w.lamp then finish (([w.k, w.k + 16].filter fun l => decide (s.rd (fTxLane p l 1 0) = 1)).foldl (fun t l => ringRange t p l) s)
      else
        let s1 := optEvent (sparesShow ((laserOff s p w.new).wr (fLaserState p w.new) 3) p) p 0x06 w.k w.new
        if w.back then finish (swapRecord s1 p)
        else
          let w' : SwapSt := ⟨w.k, w.new, w.old, true, true⟩
          swapWarm (s1.modPort p fun g => { g with swap := some w' }) p w'

/-! ### Lines (11 R220) with what the optics do at them -/

/-- The line count reaches an announced line of the transmit direction; a swap at step 1 goes on (12 R235). -/
def txLinePass (s : State) (p : Nat) : State :=
  let g := s.port p
  match g.txLine with
  | none => s
  | some x =>
    if sint 32 (g.lineTx + 2 ^ 32 - x.line) < 0 then s
    else
      let s1 := (s.putPort p { g with txLine := none }).wr (fSwitchPend p) (b2n g.rxLine.isSome)
      let s2 := if x.retire then
          portEvent (((s1.wr (fTxGroups p) (mclr (s.rd (fTxGroups p)) x.group)).wr (fGrpState p x.group) 1).inc (fGrpFld p x.group 15 8)) p 0x0A x.group 0
        else portEvent ((s1.wr (fTxGroups p) (mset (s.rd (fTxGroups p)) x.group)).wr (fGrpState p x.group) 0) p 0x0B x.group 0
      let s3 := match g.swap with
        | some w =>
          if s.rd (fSwapPhase p) = 1 then (if nbit (s2.rd (fTxGroups p)) w.k then laneAsk s2 p w.k true else swapWarm s2 p w)
          else if w.k = x.group ∧ !x.retire ∧ s.rd (fSwapPhase p) = 5 then swapDone s2 p w else s2
        | none => if x.retire then relockNext s2 p else s2
      xtResume (announceNext 17 s3 p) p

/-- The same of the receive direction: fewer than min_groups groups take the port down (11 R222). -/
def rxLinePass (s : State) (p : Nat) : State :=
  let g := s.port p
  match g.rxLine with
  | none => s
  | some x =>
    if sint 32 (g.lineRx + 2 ^ 32 - x.line) < 0 then s
    else
      let m := if x.retire then mclr (s.rd (fRxGroups p)) x.group else mset (s.rd (fRxGroups p)) x.group
      let s1 := ((s.putPort p { g with rxLine := none, rxTest := if x.retire then mset g.rxTest x.group else mclr g.rxTest x.group }).wr (fRxGroups p) m).wr
        (fSwitchPend p) (b2n g.txLine.isSome)
      if popcount 16 m < minGroups s p then portDown s1 p 0x05 x.group false else xtResume s1 p

/-! ### Reports (12 R231) -/

/-- The received-power report of a port: payload bytes. -/
def reportBytes (s : State) (p : Nat) : List Byte :=
  let g := s.port p
  [0x30#8] ++ List.replicate 7 0#8 ++ (List.range 32).flatMap (fun l => leBytes 2 (sclamp 16 (tget int0 g.oma l)))
    ++ (List.range 32).flatMap (fun l => leBytes 2 (sclamp 16 (tget int0 g.avg l)))
    ++ (List.range 16).flatMap (fun k => leBytes 2 (min 0xFFFF (tget nat0 g.uncorr k)))
    ++ leBytes 4 (lsum ((List.range 32).map fun l => if s.rd (fRxLane p l 1 0) ≠ 0 then 2 ^ l else 0)) ++ List.replicate 76 0#8

/-- A report from the partner: margins, lost locks, bursts of uncorrectable codewords, low margins. The lanes of a wavelength whose own
swap has them dark count no low margin. -/
def reportArrives (s : State) (p : Nat) (pl : List Byte) : State :=
  let oma (l : Nat) : Int := sint 16 (leNat (sliceB pl (8 + 2 * l) 2))
  let lost := leNat (sliceB pl 168 4)
  let s1 := (List.range 32).foldl (fun t l =>
    t.wrAll [(fTxLane p l 39 32, sclamp 8 (oma l + 100)), (fTxLane p l 31 24, sclamp 8 (oma l + 110))]) s
  let lo := (List.range 32).foldl (fun b l => if oma l < oma b then l else b) 0
  let s2 := (s1.wrAll [(fOptStat p 47 40, sclamp 8 (oma lo + 110)), (fOptStat p 39 35, lo)]).modPort p fun g =>
    { g with lastReport := s.mile, farLost := lost, farOma := (List.range 32).map fun l => (l, oma l) }
  let s3 := (List.range 16).foldl (fun t k =>
    let unlocked := nbit lost k || nbit lost (k + 16)
    if (unlocked || decide (leNat (sliceB pl (136 + 2 * k) 2) ≥ 16)) && nbit (t.rd (fTxGroups p)) k then laneAsk t p k true else t) s2
  let own (k : Nat) : Bool := (s3.port p).swap.any fun w => w.lamp && decide (w.k = k)
  let s4 := s3.modPort p fun g => { g with low := (List.range 16).foldl (fun m k =>
    tset nat0 m k (if laserMargin s3 p k < swapMargin s3 p ∧ !own k then tget nat0 g.low k + 1 else 0)) g.low }
  let due := (List.range 16).filter fun k => decide (tget nat0 (s4.port p).low k ≥ 10)
  let s5 := relockNext s4 p
  if s5.flag (fAutoSwap p) then
    swapAskAll (s5.modPort p fun g => { g with low := due.foldl (fun m k => tset nat0 m k 0) g.low }) p due
  else s5

/-! ### Bias (12 R230, R233, R236) -/

/-- The bias of every active laser restored toward its reference: by at most 0.5 mA, never beyond bias_max; `need` is the change in
0.1 mA that the monitor current calls for, by position. -/
def biasAdjust (s : State) (p : Nat) (need : List Int) : State :=
  let st := s.rd (fPortState p)
  if st = 0 ∨ st = 1 ∨ s.isFatal then s
  else
    let busy (k : Nat) : Bool := ((s.port p).swap.any fun w => w.lamp && decide (w.k = k))
    let one (t : State) (j : Nat) : State :=
      if s.rd (fLaserState p j) ≠ 1 ∨ busy (j % 16) then t
      else
        let want : Int := (s.rd (fBias p j) : Int) + max (-5) (min 5 (lget 0 need j))
        let mx := s.rd (fBiasMax p j)
        if want > mx then optEvent (t.wr (fBias p j) mx) p 0x01 (j % 16) j else t.wr (fBias p j) want.toNat
    let s1 := (List.range 32).foldl one s
    let due := (List.range 16).filter fun k => !busy k && match activeLaser s1 p k with
      | some j => decide (s1.rd (fBias p j) * 100 ≥ swapPct s1 p * s1.rd (fBiasMax p j))
      | none => false
    let ask := (if s1.flag (fAutoSwap p) then due else []) ++ (s1.port p).swapKept.filter fun k => !(s1.flag (fAutoSwap p) && due.contains k)
    swapAskAll s1 p ask

/-- A write of swap_now (12 R233, R235). -/
def swapNow (s : State) (p : Nat) : State :=
  let k := s.rd (fSwapSel p)
  if (s.port p).swap.any fun w => w.lamp then optEvent s p 0x0A k 0 else swapAsk s p k

/-! ### Ring locks (12 R237, R238) -/

/-- Gauss elimination of one column. -/
def gaussCol (m : List (List Rat)) (c : Nat) : List (List Rat) :=
  match ((List.range m.length).drop c).find? fun r => decide (lget 0 (lget [] m r) c ≠ 0) with
  | none => m
  | some r =>
    let piv := lget [] m r
    let m1 := (m.set r (lget [] m c)).set c (piv.map fun x => x / lget 0 piv c)
    let top := lget [] m1 c
    m1.mapIdx fun i row => if i = c then row else row.zipWith (fun x y => x - lget 0 row c * y) top
/-- The solution h of M h = t, none where M is singular. -/
def solve (m : List (List Rat)) (t : List Rat) : Option (List Rat) :=
  let n := m.length
  let r := (List.range n).foldl gaussCol (m.zipWith (fun row x => row ++ [x]) t)
  if (List.range n).all fun i => decide (lget 0 (lget [] r i) i = 1) then some (r.map fun row => lget 0 row n) else none

/-- The matrix of a fibre group in GHz per mW. -/
def matrixOf (s : State) (p g : Nat) : List (List Rat) :=
  (List.range 16).map fun i => (List.range 16).map fun j => ((s.rd (fXtalk p g i j) : Nat) : Rat) / 1024
/-- The heater drives of a fibre group in µW, clamped; none where the matrix has no inverse. -/
def drives (s : State) (p g : Nat) : Option (List Nat) :=
  let t := (List.range 16).map fun i => ((tget int0 (s.port p).target (16 * g + i) : Int) : Rat) / 1000
  (solve (matrixOf s p g) t).map fun h => h.map fun x => min 30000 (x * 1000).floor.toNat
def driveGroup (s : State) (p g : Nat) : State :=
  match drives s p g with
  | some h => (List.range 16).foldl (fun t i => t.wr (fHeater p (16 * g + i)) (lget 0 h i)) s
  | none => s
/-- The smallest heater headroom in 0.1 mW, among the 64 rings that have a heater register (12 R247; DEDUCED, log entry 16). -/
def headroom (s : State) (p : Nat) : State :=
  s.wr (fOptStat p 23 16) (min 0xFF ((List.range 64).foldl (fun m r => let h := s.rd (fHeater p r); min m (min h (30000 - h) / 100)) 0xFF))

/-- A ring leaves lock: a modulator's group retires; a demultiplexer ring shows in the next report. -/
def ringLost (s : State) (p ring : Nat) : State :=
  let s1 := (s.wr (fLock p ring) 1).modPort p fun g => { g with off := tset nat0 g.off ring 0 }
  let s2 := if s.rd (fHeater p ring) = 0 ∧ chipTemp s p > 80 ∧ !s.power.chipHot.contains p then
    { s1 with power := { s1.power with chipHot := s1.power.chipHot ++ [p] } } else s1
  if ring < 32 then laneAsk (s2.inc (fTxLane p ring 23 16)) p (ring % 16) true else s2

/-- One update of a ring's loop: its target moves by the error, at most 1.0 GHz; `err` in MHz. A ring that left lock is locked again only
by its search and calibration (12 R238). -/
def ringLoop (s : State) (p ring : Nat) (err : Int) : State :=
  let g := s.port p
  let lock := s.rd (fLock p ring)
  if lock ≥ 2 then s
  else
    let mv := max (-1000) (min 1000 err)
    let n := if err.natAbs > 1000 * lockWindow s p then tget nat0 g.off ring + 1 else 0
    let s1 := s.putPort p { g with target := tset int0 g.target ring (tget int0 g.target ring + mv), off := tset nat0 g.off ring n }
    let s2 := if ring < 32 then s1.wr (fTxLane p ring 47 40) (sclamp 8 (err / 100)) else s1
    if lock = 0 ∧ n ≥ 10 then ringLost s2 p ring else s2
/-- Rings whose heater is clamped while the loop calls for more (12 R238). -/
def ringClamp (s : State) (p ring : Nat) (err : Int) : State :=
  let h := s.rd (fHeater p ring)
  if s.rd (fLock p ring) = 0 ∧ ((h = 0 ∧ err < 0) ∨ (h = 30000 ∧ err > 0)) then ringLost s p ring else s
/-- One update of every loop of a port, and all heaters at once. -/
def lockUpdate (s : State) (p : Nat) (errs : List Int) : State :=
  let st := s.rd (fPortState p)
  if st = 0 ∨ st = 1 ∨ s.isFatal then s
  else
    let s1 := (List.range 64).foldl (fun t r => ringLoop t p r (lget 0 errs r)) s
    let s2 := [0, 1, 2, 3].foldl (fun t g => driveGroup t p g) s1
    headroom ((List.range 64).foldl (fun t r => ringClamp t p r (lget 0 errs r)) s2) p

/-- 1 s later a ring out of range searches again, over its whole range, while its port is lit (12 R238, 17 R329); its group's relock waits for a swap that runs. -/
def rangeRetry (s : State) (p ring : Nat) : State :=
  let g := s.port p
  if !g.range.contains ring ∨ s.rd (fLock p ring) ≠ 2 ∨ s.isFatal then s
  else relockNext ((inRange s p [ring]).wr (fLock p ring) 1) p

/-! ### Matrices (12 R240) -/

/-- Is a new matrix of a fibre group accepted? `first` when there is no previous one to differ from. -/
def matrixOk (s : State) (p g : Nat) (first : Bool) (m : Nat → Nat → Nat) : Bool :=
  (List.range 16).all fun i => decide (20 * 1024 ≤ m i i) && decide (m i i ≤ 60 * 1024)
    && (List.range 16).all fun j =>
      let old := s.rd (fXtalk p g i j)
      (decide (i = j) || decide (4 * m i j < m i i)) && (first || (decide (4 * (m i j - old) ≤ old) && decide (4 * (old - m i j) ≤ old)))
/-- Matrices of all four groups written. -/
def matrixPut (s : State) (p g : Nat) (m : Nat → Nat → Nat) : State :=
  (List.range 256).foldl (fun t k => t.wr (fXtalk p g (k / 16) (k % 16)) (m (k / 16) (k % 16))) s
/-- Entry i, j of a fibre group's matrix, of the shift in MHz of ring i for a step of 2.0 mW on heater j, in units of 1/1,024 GHz per mW
(12 R239). -/
def stepEntry (steps : List Nat) (g i j : Nat) : Nat := lget 0 steps (256 * g + 16 * i + j) * 1024 / 2000
/-- The same of a column measured under traffic: M_ij = −M_ii × Δh_i / 0.02 mW, M_jj from ring j's own slope (12 R240). -/
def columnEntry (c : List Nat × List Int) (g i j : Nat) : Nat :=
  let own : Nat := lget 0 c.1 (16 * g + i)
  if i = j then own else (-(own : Int) * lget 0 c.2 (256 * g + 16 * i + j) / 20000).toNat
/-- Matrices of a port are rejected: xt_state 2, and an event 0x04 for each (12 R240). -/
def matricesRejected (s : State) (p : Nat) (bad : List Nat) : State := bad.foldl (fun t _ => optEvent (t.wr (fXtState p) 2) p 0x04 0 0) s
/-- A recalibration ends: each group's matrix is accepted, or discarded with event 0x04. -/
def xtEnd (s : State) (p : Nat) (c : List Nat × List Int) : State :=
  if s.rd (fXtState p) ≠ 1 then s
  else
    let bad := [0, 1, 2, 3].filter fun g => !matrixOk s p g false (columnEntry c g)
    let s1 := [0, 1, 2, 3].foldl (fun t g => if bad.contains g then t else driveGroup (matrixPut t p g (columnEntry c g)) p g) s
    matricesRejected (s1.wr (fXtState p) 0) p bad

/-! ### Receivers (12 R242) -/

/-- Midpoints between neighbouring level means: the thresholds of the three slicers. -/
def midpoints (l : List Int) : List Int := l.zipWith (fun a b => (a + b) / 2) l.tail
/-- Power and OMA of a lane, and its thresholds at the midpoints of its levels. -/
def laneLevels (s : State) (p l : Nat) (r : LaneRead) : State :=
  (s.modPort p fun g => { g with
    slicers := tset (fun _ => []) g.slicers l (midpoints r.levels)
    oma := tset int0 g.oma l r.oma
    avg := tset int0 g.avg l r.avg }).wrAll [(fRxLane p l 47 40, sclamp 8 (r.oma + 100)), (fRxLane p l 39 32, sclamp 8 (r.avg + 100))]
/-- Receiver calibration of a lane: offset within ±64 codes, gain, phase, thresholds; its opening is kept (12 R242). -/
def laneCalib (s : State) (p l : Nat) (r : LaneRead) : State :=
  ((laneLevels s p l r).modPort p fun g => { g with
    rxOffset := tset int0 g.rxOffset l (max (-64) (min 64 r.offset))
    eye := tset nat0 g.eye l r.opening }).wrAll [(fRxLane p l 25 18, r.gain), (fRxLane p l 31 26, r.phase)]
/-- Adaptation of a lane: thresholds re-centred, phase moved by at most 1/64 UI. -/
def adaptLane (s : State) (p l : Nat) (r : LaneRead) : State :=
  let ph := s.rd (fRxLane p l 31 26)
  (laneLevels s p l r).wr (fRxLane p l 31 26) (if ph < r.phase then ph + 1 else if r.phase < ph then ph - 1 else ph)
/-- Every 1 ms: lanes adapt, the bit error rates are renewed, and the report goes to the partner (R231), with the outcome of the
test pattern on every group that carries it (11 R220): `clean` lists the groups without a bit error. A lane whose opening is below a
quarter of its calibrated one makes its group report the uncorrectable codewords in `bad`, and at least the 16 on which R220 acts
(DESIGN CHOICE, log entry 16). Lanes adapt whenever they carry light (17 R326), which they do on a port neither Off nor Dark; rates and
uncorrectable codewords need the FEC of hail step 5 (11 R223), reports the link of step 6. -/
def adapt (s : State) (p : Nat) (lanes : List LaneRead) (bers bad clean : List Nat) : State :=
  let st := s.rd (fPortState p)
  if st = 0 ∨ st = 1 ∨ s.isFatal then s
  else
    let s1 := (List.range 32).foldl (fun t l => adaptLane t p l (lget {} lanes l)) s
    if !(portLive s p || decide (st = 2) && !(s.port p).backoff && decide (s.rd (fHailStep p) ≥ 5)) then s1 else
    let s2 := (List.range 16).foldl (fun t k => t.wr (fGrpFld p k 23 16) (lget 0 bers k)) s1
    let shut (k : Nat) : Bool := [k, k + 16].any fun l => decide (4 * (lget {} lanes l).opening < tget nat0 (s.port p).eye l)
    let s3 := (List.range 16).foldl (fun t k => if shut k then
      let n := max 16 (lget 0 bad k)
      (t.incBy (fGrpFld p k 39 24) n).modPort p fun g => { g with uncorr := tset nat0 g.uncorr k (tget nat0 g.uncorr k + n) }
      else t) s2
    let tests := ((List.range 16).filter fun k => nbit (s3.port p).rxTest k).map fun k => CtlMsg.testReport k (clean.contains k)
    if !portLive s p then s3
    else s3.modPort p fun g => { g with ctlq := g.ctlq ++ [.power (reportBytes s3 p)] ++ tests, uncorr := [] }

/-- The partner's swap or relock of wavelength k: this end's demultiplexer rings lock to the light and its two receivers are calibrated
(12 R234, R242); a ring that finds no light is out of range (R238). -/
def partnerSwap (s : State) (p k : Nat) (l : List (Option LaneRead)) : State :=
  [0, 1].foldl (fun t i => match lget none l i with
    | some r => laneCalib (inRange (t.wr (fRxLane p (k + 16 * i) 1 0) 0) p [32 + k + 16 * i]) p (k + 16 * i) r
    | none => ringRange t p (32 + k + 16 * i)) s

end Sys2Proof.Machine
end

