-- ==== Sys2Proof/Machine/MileOps.lean ====
section
/-! DEFINITION. The discipline of the milestone counter, its reference, and its wrap (13 R258 to R261). -/

namespace Sys2Proof.Machine
open Sys2Proof

def fEpoch : Fld := ⟨0x600008, 63, 0⟩

/-- The counter wraps to 0: every deadline, MWAIT and start_mile set before reads as reached, of a descriptor fetched or dispatched too,
and elapsed times that are held against a stored milestone count from the wrap (13 R261; these: DESIGN CHOICE, log entry 8). -/
def mileWrap (s : State) : State :=
  let core (c : CoreSt) : CoreSt := { c with
    wait := c.wait.map fun w => match w.1 with | .mile _ => (.mile 0, 0) | a => (a, 0) }
  let desc (q : List Nat) : List Nat := match dClass q with
    | some .bucket => if dq q 5 = 2 ^ 64 - 1 then q else q.set 5 0
    | some .launchEnd | some .launchStart | some .dumpMile => q.set 3 0
    | _ => q
  { s with
    mile := 0
    flights := s.flights.map fun f => { f with startMile := 0 }
    cores := tmap core0 (fun _ c => core c) s.cores
    dumps := s.dumps.map fun d => if d.atMile then { d with n := 0 } else d
    power := { s.power with
      hot := tmap (fun _ => none) (fun _ x => x.map fun y => (0, y.2)) s.power.hot
      cool := tmap (fun _ => none) (fun _ x => x.map fun _ => 0) s.power.cool
      stretch := tmap (fun _ => none) (fun _ x => x.map fun _ => 0) s.power.stretch
      stretches := []
      dom := tmap dom0 (fun _ d => match d with | .entering _ => .entering 0 | d => d) s.power.dom }
    back := { s.back with passStart := [], trimming := [], winStart := 0 }
    buckets := s.buckets.map fun b => { b with
      deadline := if b.deadline = 2 ^ 64 - 1 then b.deadline else 0
      post := b.post.map fun q => { q with t0 := 0, deadline := if q.deadline = 2 ^ 64 - 1 then q.deadline else 0 } }
    rings := tmap ring0 (fun _ g => { g with
      waiting := g.waiting.map fun f => { f with q := desc f.q }
      out := g.out.map fun d => { d with q := desc d.q, t0 := 0 } }) s.rings }
/-- A timestamp queued at every Up port (13 R258). -/
def stampAll (s : State) : State :=
  (List.range 16).foldl (fun t p => if portUp t p then
    t.modPort p fun g => { g with ctlq := g.ctlq ++ [.stamp 0 g.stampT1 g.stampAt (t.rd fRefModule) (t.rd fHops)] } else t) s
/-- The counter goes forward by n: across 2^64 it wraps to 0, and across a multiple of 100,000, 0 among them, each Up port sends a timestamp
(13 R258, R261). -/
def mileJump (s : State) (n : Nat) : State :=
  let m := s.mile + n
  let s1 : State := if m < 2 ^ 64 then { s with mile := m } else { mileWrap s with mile := m % 2 ^ 64 }
  if (s.mile / 100000 < m / 100000 ∨ m ≥ 2 ^ 64) ∧ !s1.isFatal then stampAll s1 else s1

/-- What the ports have measured of their partners' counters, after the counter has moved by n against them: the correction is no part of
what is measured afterwards (13 R259). -/
def offsetsMoved (s : State) (n : Int) : State := { s with ports := tmap port0 (fun _ g => { g with offsets := g.offsets.map (· + n) }) s.ports }
/-- The correction that an offset of the local counter from upstream calls for (13 R259): within ±1 µs a slew of at most 10 ns for each
timestamp, behind by more a step forward, ahead by more half rate for as many ticks as swallow what is above 1 µs. -/
def mileCorrect (s : State) (off : Int) : State :=
  if off < -1000 then
    mileEvent ((mileJump (offsetsMoved { s with mileSt := { s.mileSt with half := false, skip := 0 } } off.natAbs) off.natAbs).wr fMileState 1) 1
  else if off > 1000 then
    (if s.mileSt.half then s
     else mileEvent { s with mileSt := { s.mileSt with half := true, odd := false, skip := 0, excess := off.natAbs - 1000 } } 2)
  else if off < 0 then
    (mileJump (offsetsMoved { s with mileSt := { s.mileSt with half := false, skip := 0 } } (min 10 off.natAbs)) (min 10 off.natAbs)).wr fMileState 2
  else
    (offsetsMoved { s with mileSt := { s.mileSt with half := false, skip := min 10 off.natAbs } } (-min 10 off.natAbs)).wr fMileState 2

/-- The mean of the last sixteen offsets. -/
def meanOffset (l : List Int) : Int := if l.isEmpty then 0 else (l.foldl (· + ·) 0) / (l.length : Int)
/-- The offset of a port's partner taken as upstream's, shown and corrected. -/
def mileFollow (s : State) (p : Nat) : State :=
  if s.mileSt.up ∧ s.rd fUpstream = p ∧ !(s.port p).offsets.isEmpty then
    let o := meanOffset (s.port p).offsets
    let s1 := mileCorrect (s.wr fOffset (sclamp 16 o)) o
    -- after a step the offsets measured before it say nothing
    if o < -1000 then s1.modPort p fun g => { g with offsets := [] } else s1
  else s

/-- A timestamp arrives (13 R258): the partner's transmit time, the echo of this end's last timestamp with the time the partner
received it, the partner's reference and hops. -/
def stampArrives (s : State) (p t1 : Nat) (back : Option (Nat × Nat)) (refModule hops : Nat) : State :=
  match takeCtl s p 0x20 with
  | none => s
  | some t =>
    let one : List Int := match back with
      | some (t3, t4) => [(sint 64 (t.mile + 2 ^ 64 - t1 % 2 ^ 64) - sint 64 (t4 % 2 ^ 64 + 2 ^ 64 - t3 % 2 ^ 64)) / 2]
      | none => []
    let t1' := t.modPort p fun g => { g with
      stampT1 := t1 % 2 ^ 64
      stampAt := t.mile
      refModule := refModule % 2 ^ 24
      refHops := hops % 2 ^ 12
      offsets := (one ++ g.offsets).take 16 }
    mileFollow (chooseUpstream t1') p
/-- The MILE_ block at a timestamp boundary: pending writes apply, and a ref that becomes 1 takes the epoch unless it lies below the
counter (13 R260, 18 R336). -/
def mileApply (s : State) : State :=
  if s.mile % 100000 ≠ 0 then s
  else
    let s1 := applyPending s fun off => decide (off = 0x600000 ∨ off = 0x600008)
    if s1.flag fMileRef ∧ !s.flag fMileRef then chooseUpstream (mileJump s1 (s1.rd fEpoch - s1.mile))
    else if s.flag fMileRef ∧ !s1.flag fMileRef then
      chooseUpstream (if s1.mileSt.up then s1.wr fYielded 0 else s1.wrAll [(fYielded, 0), (fRefModule, 0xFFFFFF), (fHops, 0), (fMileState, 0)])
    else s1
/-- Is a pending write about to set ref? -/
def refPending (s : State) : Bool := !s.flag fMileRef && s.pendingSt.any fun p => decide (p.1 = 0x600000) && p.2.getLsbD 0

end Sys2Proof.Machine
end

