-- ==== Sys2Proof/Machine/HailOps.lean ====
section
/-! DEFINITION. Control messages of a port, hail, dark ports, enabling and rehail (11 R219 to R227, 12 R239). -/

namespace Sys2Proof.Machine
open Sys2Proof

/-! ### Acknowledgement timeout (11 R215) -/
def ackTicks (s : State) (p : Nat) : Nat := 1000 * max 1 (s.rd ⟨aLnk p 0, 31, 24⟩)
/-- The oldest unacknowledged flit older than ack_to is replayed; its age is the counter's difference modulo 2^64 (13 R261). -/
def ackTimeout (s : State) (p : Nat) : State :=
  let g := s.port p
  match g.replayBuf, g.replay with
  | f :: _, none => if portLive s p ∧ !s.isFatal ∧ (s.mile + 2 ^ 64 - f.t0) % 2 ^ 64 > ackTicks s p then startReplay s p else s
  | _, _ => s

/-! ### Lane changes announced by the partner (11 R220, R222) -/
/-- A line announced: too late if it has been seen already, else it is pending. -/
def announced (s : State) (p kind group line : Nat) : State :=
  match takeCtl s p kind with
  | none => s
  | some t =>
    let g := t.port p
    if sint 32 (g.lineRx + 2 ^ 32 - line % 2 ^ 32) > 0 then portDown t p 0x06 group false
    else (t.putPort p { g with rxLine := some ⟨group, line % 2 ^ 32, decide (kind = 1)⟩ }).wr (fSwitchPend p) 1
/-- The partner's report on the test pattern of a retired transmit group: a clean one restores it, in step 5 of a swap. -/
def testReported (s : State) (p group : Nat) (clean : Bool) : State :=
  match takeCtl s p 0x03 with
  | none => s
  | some t =>
    if nbit (t.rd (fTxGroups p)) group ∨ !clean then t
    else match (t.port p).swap with
    | some w =>
      if w.k ≠ group then laneAsk t p group false
      else if t.rd (fSwapPhase p) = 4 then laneAsk (t.wr (fSwapPhase p) 5) p group false else t
    | none => laneAsk t p group false

/-! ### Rekeying (11 R219) -/
/-- An offer is accepted with a fresh key, or declined. Of two offers that cross the lower end's is taken, unless that one is declined. -/
def rekeyOffered (s : State) (p : Nat) (key : List Byte) (frame : Nat) : State :=
  match takeCtl s p 0x10 with
  | none => s
  | some t =>
    let g := t.port p
    let x := fresh t 48
    let accept (u : State) : State := u.modPort p fun g => { g with ctlq := g.ctlq ++ [.accept (Config.publicKey x.1)] }
    if t.flag (fRekeyAccept p) ∧ g.txLine.isNone ∧ g.rxLine.isNone then
      match g.rekey with
      | .none | .agreed _ _ => accept (rekeyAgree x.2 p x.1 key frame)
      | .offered priv f | .crossed priv f _ _ _ =>
        if lowerEnd g then accept (x.2.putPort p { g with rekey := .crossed priv f x.1 key frame }) else accept (rekeyAgree x.2 p x.1 key frame)
    else t.putPort p { g with ctlq := g.ctlq ++ [.decline] }
def rekeyAccepted (s : State) (p : Nat) (key : List Byte) : State :=
  match takeCtl s p 0x11 with
  | none => s
  | some t => match (t.port p).rekey with
    | .offered priv f | .crossed priv f _ _ _ => rekeyAgree t p priv key f
    | _ => t
def rekeyDeclined (s : State) (p : Nat) : State :=
  match takeCtl s p 0x12 with
  | none => s
  | some t => match (t.port p).rekey with
    | .offered _ _ => t.modPort p fun g => { g with rekey := .none, declined := true }
    | .crossed _ _ priv key frame => rekeyAgree t p priv key frame
    | _ => t
def rekeyDue (s : State) (p : Nat) : State :=
  if s.rd ⟨aLnk p 0, 63, 48⟩ = 0 ∨ s.isFatal then s else rekeyOffer s p
def rekeyAgain (s : State) (p : Nat) : State :=
  if (s.port p).declined ∧ !s.isFatal then rekeyOffer s p else s

/-! ### Dark ports (11 R226) -/

/-- A dark request is acknowledged when this end agrees: idle, no vote for the port, and all else in its low form; an acknowledgement takes a
port dark that asked and still may. -/
def darkMessage (s : State) (p : Nat) (ack voted : Bool) : State :=
  match takeCtl s p 0x40 with
  | none => s
  | some t =>
    let g := t.port p
    if ack then (if g.darkAsked && portIdle t p && !voted then goDark t p else t.putPort p { g with darkAsked := false })
    else if voted || !portIdle t p || !portUp t p then t
    else t.putPort p { g with ctlq := g.ctlq ++ [.dark true] }

/-! ### Hail (11 R223 to R225) -/

/-- An attempt fails: event 0x07 with its step, and a backoff of 1 s that doubles with each consecutive failure up to 64 s. -/
def hailFail (s : State) (p : Nat) (refused : Bool) : State :=
  let n := satAdd 8 (s.rd (fHailFails p)) 1
  let s1 := s.modPort p fun g => { sessionClear g with outq := g.outq, backoff := true }
  let s2 := s1.wrAll [(fPortState p, if refused then 4 else 2), (fHailFails p, n), (fBackoffS p, 2 ^ min 6 (n - 1)),
    (fTxGroups p, 0), (fRxGroups p, 0), (fRekeyPend p, 0), (fSwitchPend p, 0)]
  chooseUpstream (portEvent s2 p 0x07 0 (s.rd (fHailStep p)))

/-- A hail message goes out on both lanes with its CRC-32, and is repeated until it is acknowledged (11 R223). -/
def hailSay (s : State) (p step : Nat) (parts : List (List Byte)) : State :=
  let m := withCrc (Config.hailBody step parts)
  { s.modPort p fun g => { g with hailMsg := [m] } with hailOut := s.hailOut ++ [(p, m)] }
/-- Step 2 begins: this end's hello, with a fresh nonce, its capability and a fresh ephemeral key. -/
def helloSay (s : State) (p : Nat) : State :=
  let a := fresh s 32
  let b := fresh a.2 48
  hailSay (b.2.modPort p fun g => { g with nonce := a.1, priv := b.1 }) p 2 [a.1, Config.capability, Config.publicKey b.1]
/-- Step 3 begins: this end's certificate chain and its signature over the hello transcript. -/
def authSay (s : State) (p : Nat) : State :=
  let g := s.port p
  let transcript := Config.hailBody 2 [g.nonce, Config.capability, Config.publicKey g.priv, g.hisNonce, g.hisCap, g.hisKey]
  hailSay (s.putPort p { g with myKey := Config.publicKey s.trust.lik }) p 3 [s.trust.chain, Config.ecdsaSign s.trust.lik transcript]

/-- Light appears: step 1 ends with light_ok and the attempt begins; a dark port enters hail, whether it sends the wake tone or not (15 R291). -/
def lightSeen (s : State) (p : Nat) : State :=
  let st := s.rd (fPortState p)
  let go (t : State) : State := helloSay ((t.wr (fHailStep p) 2).inc (fHailCount p)) p
  if s.isFatal then s
  else if st = 2 ∧ s.rd (fHailStep p) = 1 ∧ !(s.port p).backoff then go s
  else if st = 1 then go (hailBegin s p)
  else s

/-- Is this end's report to the partner still to be signed? -/
def reportOwed (s : State) (p : Nat) : Bool := (s.port p).owed.isSome || s.trust.queue.any fun q => decide (q.who = .hail p)
/-- A report that this end owes is queued once there is room for it. -/
def reportTry (s : State) (p : Nat) : State :=
  match (s.port p).owed with
  | some n => if attRoom s.trust true ∧ hailOpen s then attPush (s.modPort p fun g => { g with owed := none }) ⟨.hail p, n, false, 0, 0⟩ else s
  | none => s
/-- Step 2 ends: the partner's nonce, capability and ephemeral key are kept; this end's authentication goes out. A report is owed when the
partner asks for one, or when attest_req = 1 has reports exchanged; then its nonce is the partner's hello nonce. -/
def hailHello (s : State) (p : Nat) (h : HailInfo) : State :=
  let s1 := authSay ((s.modPort p fun g => { g with hisNonce := h.nonce, hisCap := h.cap, hisKey := h.key }).wr (fHailStep p) 3) p
  reportTry (s1.modPort p fun g => { g with owed := h.attest <|> (if s.flag (fAttestReq p) then some h.nonce else none) }) p
/-- Step 3: authentication against the installation root; a failure refuses the partner at once. With attest_req = 1 the step is not done
before both reports have been exchanged. -/
def hailAuth (s0 : State) (p : Nat) (h : HailInfo) : State :=
  let s := reportTry s0 p
  if s.trust.root.isEmpty ∨ !h.auth then hailFail s p true
  else if s.flag (fAttestReq p) ∧ (!h.report || reportOwed s p) then s
  else (s.modPort p fun g => { g with hisCert := h.cert, hailMsg := [] }).wr (fHailStep p) 4
/-- Step 4: keys; training of every group begins. -/
def hailKeys (s : State) (p : Nat) : State :=
  let g := s.port p
  let low := lowerEnd g
  let secret := Config.ecdh g.priv g.hisKey
  let salt := if low then g.nonce ++ g.hisNonce else g.hisNonce ++ g.nonce
  let k := deriveKeys low secret salt
  let s1 := s.putPort p { g with secret := secret, txKey := k.1, rxKey := k.2, rxFrame := 0 }
  let s2 := (s1.inc (fKeyGen p)).wrAll [(fTxFrames p, 0), (fHailStep p, 5)]
  let s3 := if g.calib = 15 then s2 else s2.wr (fXtState p) 3
  (List.range 16).foldl (fun t k => t.wr (fGrpState p k) 2) s3
/-- Step 5: rings, matrices and receivers calibrated; the groups that trained are in service, the others retired as failed. A ring that was
not found fails its group, a matrix that is not accepted every group of its direction (12 R239). -/
def hailLanes (s : State) (p : Nat) (h : HailInfo) : State :=
  let m (g i j : Nat) : Nat := stepEntry h.steps g i j
  let g0 := s.port p
  let ok (g : Nat) : Bool := matrixOk s p g (!nbit g0.calib g) (m g)
  let lost (dir k : Nat) : Bool := [k, k + 16].any fun l => (lget none h.found (32 * dir + l)).isNone
  let keep (dir mask : Nat) : Nat := (List.range 16).foldl (fun x k => if lost dir k then mclr x k else x) (mask % 2 ^ 16)
  let tx := if ok 0 && ok 1 then keep 0 h.txGroups else 0
  let rx := if ok 2 && ok 3 then keep 1 h.rxGroups else 0
  let s1 := [0, 1, 2, 3].foldl (fun t g => if ok g then matrixPut t p g (m g) else t) s
  let s2 := s1.modPort p fun g => { g with
    crossed := h.crossed
    calib := [0, 1, 2, 3].foldl (fun x g => if ok g then mset x g else x) g.calib
    target := (List.range 64).foldl (fun t r => tset int0 t r (((lget none h.found r).getD 0 : Nat) : Int)) g.target
    off := []
    range := []
    farLost := 0
    rxTest := (2 ^ 16 - 1) - rx }
  let s3 := [0, 1, 2, 3].foldl (fun t g => driveGroup t p g) s2
  let s4 := (List.range 32).foldl (fun t l => laneCalib (t.wrAll
    [(fTxLane p l 1 0, if (lget none h.found l).isSome then 0 else 2), (fRxLane p l 1 0, if (lget none h.found (32 + l)).isSome then 0 else 2)]) p l (lget {} h.rx l)) s3
  let s5 := (List.range 16).foldl (fun t k => t.wr (fGrpState p k) (if nbit tx k then 0 else 3)) s4
  let bad := [0, 1, 2, 3].filter fun g => !ok g
  let s6 := matricesRejected (s5.wr (fXtState p) 0) p bad
  headroom (s6.wrAll [(fTxGroups p, tx), (fRxGroups p, rx), (fHailStep p, 6)]) p
/-- Has link start come: lanes_ok, with at least min_groups groups each way? -/
def linkReady (s : State) (p : Nat) : Bool :=
  decide (s.rd (fPortState p) = 2) && !(s.port p).backoff && decide (s.rd (fHailStep p) = 6) && !s.isFatal
    && decide (minGroups s p ≤ popcount 16 (s.rd (fTxGroups p))) && decide (minGroups s p ≤ popcount 16 (s.rd (fRxGroups p)))
/-- Step 6: link start, with at least min_groups groups each way; ST fields apply; this end grants the credits of LNK_VC_CREDIT in flits and
takes those of the partner. -/
def hailStart (s : State) (p : Nat) (h : HailInfo) (app : State → State) : State :=
  let s1 := app s
  if !linkReady s p then s
  else if s1.rd (fPortState p) ≠ 2 then s1
  else
    let sum := lsum ((List.range 8).map fun v => s1.rd ⟨aLnk p 8, 8 * v + 7, 8 * v⟩)
    let s2 := if sum > 1024 then (s1.setReg (aLnk p 8) 0x8080808080808080#64).wr (fLnkCfgErr p) 1 else s1
    let grant := (List.range 8).map fun v => 16 * s2.rd ⟨aLnk p 8, 8 * v + 7, 8 * v⟩
    let s3 := hailSay s2 p 6 [grant.flatMap (leBytes 2)]
    (s3.modPort p fun g => { g with
      lineTx := 0, lineRx := 0, turn := 15, rxTurn := 15, rxWait := [], room := grant, hailMsg := [], uncorr := [], txSeq := 0, sent := 0, ctlSent := [], replayBuf := [], replay := none, txHeads := [], txBody := []
      rxNext := 0, nak := false, rxFlits := [], rxFrame := 0, badFrame := none, giveBack := [0, 0, 0, 0, 0, 0, 0, 0], vcLast := 7
      credits := (List.range 8).map fun v => lget 0 h.credits v }).wrAll [(fTxFrames p, 0), (fHailStep p, 7)]
/-- Step 7: milestone synchronisation; a port that becomes upstream corrects the counter first. Step 8 begins: module ID and LNK_SLICE bitmap go
to the partner (13 R253). -/
def hailMile (s : State) (p : Nat) (h : HailInfo) : State :=
  let s1 := s.modPort p fun g => { g with offsets := [h.offset], refModule := h.refModule % 2 ^ 24, refHops := h.refHops % 2 ^ 12 }
  let s2 := (mileFollow (chooseUpstream s1) p).wr (fHailStep p) 8
  hailSay s2 p 8 [leBytes 3 (s2.rd fModuleId), (List.range 64).flatMap fun q => leBytes 8 (s2.reg (aLnk p (0x400 + 8 * q))).toNat]
/-- Step 8: routing admission; a module without an ID fails it; a new partner is logged; its bitmap is kept; the port is Up, and a recalibration
that waited starts (12 R235, R240). -/
def hailAdmit (s : State) (p : Nat) (h : HailInfo) : State :=
  if s.rd fModuleId = 0xFFFFFF then hailFail s p false
  else
    let dig := beNat ((sha384 (s.port p).hisCert).take 4)
    let same := decide (s.rd (fIdDigest p) = dig) && decide (s.rd (fPartnerMod p) = h.module % 2 ^ 24)
    let s1 := s.wrAll [(fPartnerMod p, h.module), (fPartnerPort p, h.port), (fIdDigest p, dig)]
    let s2 := if same then s1 else portEvent s1 p 0x08 0 0
    xtResume (((learn { s2 with power := { s2.power with wasUp := s2.power.wasUp ++ [p] } } p (h.module % 2 ^ 24)).modPort p fun g => { g with lastReport := s.mile, hisSlices := h.slices, hailMsg := [] }).wrAll
      [(fPortState p, 3), (fHailFails p, 0), (fBackoffS p, 0)]) p

/-- A hail step raises its ready signal (11 R223). -/
def hailStep (s : State) (p : Nat) (h : HailInfo) (app : State → State) : State :=
  if s.rd (fPortState p) ≠ 2 ∨ (s.port p).backoff ∨ s.isFatal then s
  else match s.rd (fHailStep p) with
  | 2 => hailHello s p h
  | 3 => hailAuth s p h
  | 4 => hailKeys s p
  | 5 => hailLanes s p h
  | 6 => hailStart s p h app
  | 7 => hailMile s p h
  | 8 => hailAdmit s p h
  | _ => s
/-- 100 ms have passed since the attempt began (11 R224). -/
def hailTimeout (s : State) (p : Nat) : State :=
  if s.rd (fPortState p) = 2 ∧ !(s.port p).backoff ∧ s.rd (fHailStep p) ≥ 2 ∧ !s.isFatal then hailFail s p false else s
/-- The backoff ends. -/
def backoffOver (s : State) (p : Nat) : State :=
  if (s.port p).backoff ∧ !s.isFatal then ((s.modPort p fun g => { g with backoff := false }).wrAll [(fPortState p, 2), (fHailStep p, 1), (fBackoffS p, 0)]) else s

/-! ### Wake tone (11 R226) -/
def toneHeard (s : State) (p : Nat) : State := if portDark s p ∧ s.flag (fWakeEn p) then hailBegin s p else s
def toneOver (s : State) (p : Nat) : State :=
  if portDark s p ∧ (s.port p).tone then portEvent (s.modPort p fun g => { g with tone := false }) p 0x09 0 0 else s

/-! ### Enable and rehail (11 R227) -/
/-- Are the compute partitions and ports released (15 R281: step 9 starts at tiles_ready)? -/
def portsOut (s : State) : Bool := (s.power.step.any fun n => decide (n ≥ 8)) && !s.isFatal
def lnkEnable (s : State) (p : Nat) (on : Bool) : State :=
  let s1 := s.wr (fLnkEnable p) (b2n on)
  if !portsOut s then s1
  else if on then (if s.rd (fPortState p) = 0 then hailBegin s1 p else s1)
  else if portLive s p then portDown s1 p 0 0 true else portOff s1 p
def lnkRehail (s : State) (p : Nat) : State :=
  if !portsOut s ∨ s.rd (fPortState p) = 0 then s
  else if portLive s p then portDown s p 0 0 false
  else hailBegin s p

end Sys2Proof.Machine
end

