-- ==== Sys2Proof/Machine/RouteOps.lean ====
section
/-! DEFINITION. Messages at a wharf die: admission, routes, local delivery, remote writes and gate adds (11 R214; 13 R250 to R257). -/

namespace Sys2Proof.Machine
open Sys2Proof

/-- May a message of a slice be delivered to a partition of this module (13 R252)? -/
def deliverable (s : State) (part slice : Nat) : Bool :=
  decide (s.rd (fPartState part) = 2) && s.flag (fSliceValid part) && decide (s.rd (fSlice part) = slice)
/-- A message that arrived is dropped: counted at its ingress port, and its buffer is free (13 R252, 11 R216). -/
def routeDrop (s : State) (p vc flits : Nat) : State := (creditBack s p vc flits).inc (fDropRoute p)
/-- A message queued at its egress port; a dark port sends the wake tone (11 R226). -/
def egress (s : State) (e vc : Nat) (bytes : List Byte) (wharf : Option Nat := none) : State :=
  let dark := portDark s e
  s.modPort e fun g => { g with outq := g.outq ++ [⟨vc, bytes, 0, wharf⟩], tone := g.tone || dark }
/-- The group identifier of a segment (10 R195). -/
def segGid (body : List Byte) : Nat := nbits (leNat (sliceB body 0 8)) 31 16

/-- Local delivery: a segment to the exchange wharf, unless its group is unknown (11 R214), another class to the ingress wharf die. -/
def deliver (s : State) (port : Option Nat) (home vc part cls srcModule srcPart flits : Nat) (body : List Byte) : State :=
  if cls = 0 then
    if (groupOf s part (segGid body)).isNone ∨ nbits (leNat (sliceB body 0 8)) 7 4 > 5 then
      match port with
      | some p => (if (groupOf s part (segGid body)).isNone then (creditBack s p vc flits).inc (fDropGroup p) else creditBack s p vc flits)
      | none => s
    else { s with segIn := s.segIn ++ [⟨port, vc, part, srcModule, srcPart, body, flits⟩] }
  else { s with remoteIn := s.remoteIn ++ [{ port := port, vc := vc, part := part, cls := cls, bytes := body, flits := flits, wharf := home }] }

/-- The egress that an arrived message takes if it is forwarded (13 R252). -/
def arrivedEgress (s : State) (p : Nat) (m : InMsg) : Option Nat :=
  let q0 := leNat (sliceB m.bytes 0 8)
  if m.ok ≠ some true ∨ nbits q0 39 38 = 3 ∨ nbits q0 23 0 = s.rd fModuleId then none else (routeOf s (nbits q0 23 0)).filter (· ≠ p)
/-- The egress of a message of this module. -/
def localEgress (s : State) (m : RemoteMsg) : Option Nat :=
  if s.flag (fSliceValid m.part) ∧ m.dstModule % 2 ^ 24 ≠ s.rd fModuleId then routeOf s (m.dstModule % 2 ^ 24) else none
/-- Does a segment wait for a barge place of its exchange wharf (10 R192)? -/
def placeWaits (s : State) (m : RemoteMsg) : Bool := m.wharf.any fun w => !placeFree s (0x80 + w)
/-- Has another message of a virtual channel, earlier at the same wharf die, the same egress? Then that one goes first (13 R254). -/
def overtakes (s : State) (w vc no : Nat) (e : Option Nat) : Bool :=
  e.isSome && (([2 * w, 2 * w + 1].any fun p => (s.port p).inbox.any fun m => decide (m.vc = vc) && decide (m.no < no) && decide (arrivedEgress s p m = e))
    || s.remotes.any fun m => decide (m.home = w) && decide (m.vc = vc) && decide (m.no < no) && decide (localEgress s m = e) && !placeWaits s m)

/-- The oldest message of a virtual channel that arrived on a port is admitted and delivered, forwarded or dropped (13 R252). -/
def routeArrived (s : State) (p vc : Nat) : State :=
  match (s.port p).inbox.find? fun m => decide (m.vc = vc) with
  | none => s
  | some m =>
    let s1 := s.modPort p fun g => { g with inbox := dropFirst (fun x => decide (x.vc = vc)) g.inbox }
    let q0 := leNat (sliceB m.bytes 0 8)
    let q1 := leNat (sliceB m.bytes 8 8)
    let dst := nbits q0 23 0
    let slice := nbits q0 37 26
    let cls := nbits q0 39 38
    if overtakes s (p / 2) vc m.no (arrivedEgress s p m) then s
    else if m.ok ≠ some true ∨ cls = 3 then routeDrop s1 p vc m.flits
    else if dst = s.rd fModuleId then
      if deliverable s (nbits q0 25 24) slice then
        deliver s1 (some p) (p / 2) vc (nbits q0 25 24) cls (nbits q1 23 0) (nbits q1 25 24) m.flits (m.bytes.drop 16)
      else routeDrop s1 p vc m.flits
    else match routeOf s dst with
      | some e => if e = p then routeDrop s1 p vc m.flits else egress (creditBack s1 p vc m.flits) e vc m.bytes
      | none => routeDrop s1 p vc m.flits

/-- The route word of a message of this module (11 R214, 13 R250). -/
def routeWord (s : State) (m : RemoteMsg) : List Byte :=
  leBytes 8 (m.dstModule % 2 ^ 24 + m.dstPart % 4 * 2 ^ 24 + s.rd (fSlice m.part) * 2 ^ 26 + m.cls % 4 * 2 ^ 38)
    ++ leBytes 8 (s.rd fModuleId + m.part % 4 * 2 ^ 24 + m.body.length * 2 ^ 32)
/-- A message of this module that cannot be sent: its barge halts as contained with status 0x4B (13 R250, R252). -/
def originFail (s : State) (m : RemoteMsg) : State :=
  match m.barge with
  | none => s
  | some (id, _) =>
    let s1 := s.modBarge id fun x => { x with written := x.written + 1 }
    match s1.barge id with
    | some b => bargeHalt s1 b (engineQueue b.engine) 0x44 0x4B b.dst 0x4B false none false
    | none => s1
/-- The oldest message of a virtual channel that originated in this module. A segment waits until its exchange wharf has a barge place for
it (10 R192). -/
def routeLocal (s : State) (vc : Nat) : State :=
  match s.remotes.find? fun m => decide (m.vc = vc) with
  | none => s
  | some m =>
    let s1 := { s with remotes := dropFirst (fun x => decide (x.vc = vc)) s.remotes }
    let sent (t : State) : State := match m.barge with | some (id, n) => pieceWritten t id n | none => t
    if placeWaits s m ∨ overtakes s m.home vc m.no (localEgress s m) then s
    else if !s.flag (fSliceValid m.part) then originFail s1 m
    else if m.dstModule % 2 ^ 24 = s.rd fModuleId then
      if deliverable s m.dstPart (s.rd (fSlice m.part)) then
        sent (deliver s1 none m.home vc m.dstPart m.cls (s.rd fModuleId) m.part 0 m.body)
      else sent s1
    else match routeOf s (m.dstModule % 2 ^ 24) with
      | some e => sent (egress s1 e vc (routeWord s m ++ m.body) m.wharf)
      | none => originFail (s1.inc fNoRoute) m
/-- A message is routed: from a port 0 to 15, or of this module. -/
def messageRoute (s : State) (src vc : Nat) : State :=
  if s.isFatal then s else if src < 16 then routeArrived s src vc else routeLocal s vc

/-! ### Remote messages at the ingress wharf die (13 R257) -/

/-- Is a message the oldest of its virtual channel and port? -/
def remoteFirst (s : State) (i : Nat) (m : RemoteIn) : Bool :=
  (s.remoteIn.take i).all fun x => decide (x.vc ≠ m.vc) || decide (x.port ≠ m.port)
/-- A message leaves the ingress wharf die; its buffer is free. -/
def remoteTake (s : State) (i : Nat) (m : RemoteIn) : State :=
  let s1 := { s with remoteIn := s.remoteIn.eraseIdx i }
  match m.port with
  | some p => creditBack s1 p m.vc m.flits
  | none => s1
/-- A message that fails its check is dropped, counted at its ingress port and logged; the sender is not told. -/
def remoteDrop (s : State) (m : RemoteIn) (addr : Nat) : State :=
  let s1 := match m.port with | some p => s.inc (fDropRoute p) | none => s
  errRaise s1 { wharf := m.wharf, cls := 1, cause := 0x48, kind := 6, part := m.part, q2 := m.port.getD (2 * m.wharf), detail := m.cls, addr := addr }
/-- A partial write that meets an uncorrectable codeword or lane-line is not performed, and its entry halts nothing (14 R267). -/
def remoteUe (s : State) (m : RemoteIn) (ue : Nat × Nat) (esc : Option Nat) : State :=
  errRaise s { wharf := hbmStack s ue.1 / 3, cls := 1, cause := 0x43, kind := 5, part := m.part, q2 := hbmStack s ue.1, detail := ue.2,
               addr := ue.1 / 64 * 64, q4 := match esc with | some l => [l] | none => [], escalated := esc.isSome }
def remoteSpadUe (s : State) (m : RemoteIn) (tile ll : Nat) (esc : Option Nat) : State :=
  errRaise (noteUe s tile ll) { wharf := tileWharf tile, cls := 1, cause := 0x42, kind := 4, part := m.part, q2 := spadQ2 tile ll, addr := laneOff ll,
                                q4 := match esc with | some l => [l] | none => [], escalated := esc.isSome }

/-- A check-bit event under a message's write, and whether the write goes on. -/
def remoteEvent (s : State) (m : RemoteIn) (loc : Loc) (u : Upset) : Bool × State :=
  match loc with
  | .spad t _ => match spadEcc s t u.at_ u.syn u.bad with
    | (s1, .bad esc) => (false, remoteSpadUe s1 m t u.at_ esc)
    | (s1, .corrected) => (true, s1)
  | .hbm => match hbmEcc s m.part u.at_ u.syn u.bad with
    | (s1, .bad esc) => (false, remoteUe s1 m (u.at_, if u.bad then max 1 u.syn else 2) esc)
    | (s1, .corrected) => (true, s1)
  | _ => (true, s)
/-- An uncorrectable codeword or lane-line that a write would cover in part: its entry. -/
def remoteBad (s : State) (m : RemoteIn) (dpa n : Nat) : Option State :=
  (rangeParts dpa n).findSome? fun p => match dpaLoc s p.1 with
    | .spad t o => (((partLanes o p.2).map laneLine).find? fun l => tget falseAt (s.tile t).ue l).map fun ll => remoteSpadUe s m t ll none
    | .hbm => (hbmPartUe s p.1 p.2).map fun ue => remoteUe s m ue none
    | _ => none
/-- Parts of a message's bytes written one after another, as many as one command lands: a scratchpad takes one in a tile cycle, of at most
4 KiB, once it has its lanes (05 R94, R96). Answers how many have landed and whether the message has ended. -/
def remoteLand (m : RemoteIn) : List Posted → Option Upset → State → Nat × Bool × State
  | [], _, s => (0, true, s)
  | x :: r, ecc, s =>
    let loc := dpaLoc s x.addr
    let p : Bool × State := match loc with | .spad t o => writePresent s t .remote o x.data.length | _ => (true, s)
    let e : Bool × State := match ecc with | some u => remoteEvent p.2 m loc u | none => (true, p.2)
    if !p.1 then (0, false, p.2)
    else if !e.1 then (0, true, e.2)
    else match remoteBad e.2 m x.addr (lsum ((x :: r).map fun y => y.data.length)), loc with
      | some s1, _ => (0, true, s1)
      | none, .spad t o =>
        let s1 := spadWrite e.2 t o x.data
        (1, r.isEmpty, match r with
          | y :: _ => (match dpaLoc s1 y.addr with | .spad t2 o2 => writeQueue s1 t2 .remote o2 y.data.length | _ => s1)
          | [] => s1)
      | none, _ => let q := remoteLand m r none (dpaPut e.2 (x.addr, x.data)); (q.1 + 1, q.2)
/-- Can the link carry what a range puts into the host window (02 R25, R27, R33)? -/
def hostFits (s : State) (dpa n : Nat) : Bool :=
  (rangeParts dpa n).all fun p => match dpaLoc s p.1 with | .host b => s.dlActive && busOk s b p.2 | _ => true

/-- A remote write (13 R257): checked against the ranges of its partition, and visible when it leaves the wharf die. One that the host link
cannot carry is dropped as one that fails its check (DESIGN CHOICE, log entry 16). -/
def remoteWriteAt (s : State) (i : Nat) (ecc : Option Upset) : State :=
  match s.remoteIn[i]? with
  | none => s
  | some m =>
    let dpa := nbits (leNat (sliceB m.bytes 0 8)) 47 0
    let bytes := m.bytes.drop 16
    if m.cls ≠ 1 ∨ !remoteFirst s i m ∨ s.isFatal then s
    else if !(dpaOk s m.part false dpa bytes.length && hostFits s dpa bytes.length) then remoteDrop (remoteTake s i m) m dpa
    else if !((rangeParts dpa bytes.length).all fun p => locReady s p.1) then s
    else
      let r := remoteLand m ((cutAt 4096 (bytes.length / 4096 + 2) dpa bytes).drop m.got) ecc s
      if r.2.1 then remoteTake r.2.2 i m else { r.2.2 with remoteIn := r.2.2.remoteIn.set i { m with got := m.got + r.1 } }
/-- A remote gate add (13 R257): after every earlier write of its virtual channel and port. -/
def remoteAddAt (s : State) (i : Nat) : State :=
  match s.remoteIn[i]? with
  | none => s
  | some m =>
    if m.cls ≠ 2 ∨ !remoteFirst s i m ∨ s.isFatal then s
    else
      let s1 := remoteTake s i m
      match decRef (leNat (sliceB m.bytes 0 8)) with
      | .gate t g => if !ownsTile s m.part t then remoteDrop s1 m 0 else if tileReady s t then gateAddNow s1 t g (leNat (sliceB m.bytes 8 4)) else s
      | _ => remoteDrop s1 m 0

end Sys2Proof.Machine
end

