-- ==== Sys2Proof/Machine/SegOps.lean ====
section
/-! DEFINITION. Segments and trailers of the gradient exchange: layouts, what the adders compute, and sending (10 R193, R195 to R203;
08 R160). -/

namespace Sys2Proof.Machine
open Sys2Proof

/-! ### Layout (10 R195, R196) -/

/-- Width of an element on the wire. -/
def wireW (fmt : Nat) : Nat := if fmt = 0 then 4 else 2
/-- Elements per segment, segments of a bucket, elements of segment i. -/
def segPer (s : State) (n fmt : Nat) : Nat := rgSegBytes s n / wireW fmt
def segCount (s : State) (n fmt elems : Nat) : Nat := cdiv (elems * wireW fmt) (rgSegBytes s n)
def segElems (s : State) (n fmt elems i : Nat) : Nat := min (segPer s n fmt) (elems - i * segPer s n fmt)

/-- The first 40 bytes of a header. -/
def segHead (b : Bucket) (g : Seg) : List Byte :=
  leBytes 8 (b.step * 2 ^ 32 + b.gid % 2 ^ 16 * 2 ^ 16 + b.bucket % 256 * 2 ^ 8 + g.kind % 16 * 16 + b2n g.last * 8 + b2n g.empty * 4 + b2n g.fused * 2
      + b2n g.fault)
    ++ leBytes 8 (g.fmt % 4 * 2 ^ 62 + g.rep % 4 * 2 ^ 60 + g.prefixRank % 2 ^ 20 * 2 ^ 20 + g.srcRank % 2 ^ 20)
    ++ leBytes 8 (g.count % 2 ^ 16 * 2 ^ 48 + g.index % 2 ^ 16 * 2 ^ 32 + g.elem % 2 ^ 32)
    ++ leBytes 8 (g.exponent % 256 * 2 ^ 56 + g.maxExp % 256 * 2 ^ 48 + g.payload.length % 2 ^ 17)
    ++ leBytes 8 (g.missing % 2 ^ 21)
/-- A segment on the wire: bytes 40 to 63 are zero. -/
def segWire (b : Bucket) (g : Seg) : List Byte := segHead b g ++ List.replicate 24 0#8 ++ g.payload
/-- Key of a segment: step, bucket. -/
def segStep (bytes : List Byte) : Nat := nbits (leNat (sliceB bytes 0 8)) 63 32
def segBucket (bytes : List Byte) : Nat := nbits (leNat (sliceB bytes 0 8)) 15 8
def segKind (bytes : List Byte) : Nat := nbits (leNat (sliceB bytes 0 8)) 7 4
/-- A segment as received. -/
def segRead (bytes : List Byte) : Seg :=
  let q (i : Nat) : Nat := leNat (sliceB bytes (8 * i) 8)
  { kind := nbits (q 0) 7 4, last := nbit (q 0) 3, empty := nbit (q 0) 2, fused := nbit (q 0) 1, fault := nbit (q 0) 0,
    fmt := nbits (q 1) 63 62, rep := nbits (q 1) 61 60, prefixRank := nbits (q 1) 39 20, srcRank := nbits (q 1) 19 0,
    count := nbits (q 2) 63 48, index := nbits (q 2) 47 32, elem := nbits (q 2) 31 0,
    exponent := nbits (q 3) 63 56, maxExp := nbits (q 3) 55 48, missing := nbits (q 4) 20 0,
    payload := takePad (nbits (q 3) 16 0) (bytes.drop 64) }

/-- The payload of a trailer of a group of N ranks. -/
def trailerBytes (n : Nat) (t : Trailer) : List Byte :=
  leBytes 8 ((n - t.count) + t.count * 2 ^ 21 + t.leaves.length % 16 * 2 ^ 42 + b2n t.overflow * 2 ^ 46)
    ++ leBytes 8 (t.lagRank % 2 ^ 20 + min (2 ^ 32 - 1) t.lagNs * 2 ^ 32)
    ++ takePad 8 (t.leaves.map fun l => BitVec.ofNat 8 l.1)
    ++ leBytes 8 t.lastAdd ++ leBytes 32 t.top ++ t.leaves.flatMap fun l => leBytes 512 l.2
/-- A rank's bit set: count, top mask, and the leaf of its block while at most eight blocks hold missing ranks. -/
def Trailer.mark (t : Trailer) (r : Nat) : Trailer :=
  let blk := r / 4096
  let bit := r % 4096
  let ins := if t.leaves.any fun l => decide (l.1 = blk) then t.leaves.map fun l => if l.1 = blk then (blk, mset l.2 bit) else l
    else (t.leaves.takeWhile fun l => decide (l.1 < blk)) ++ (blk, 2 ^ bit) :: t.leaves.dropWhile fun l => decide (l.1 < blk)
  { t with count := t.count + 1, top := mset t.top blk, leaves := ins.take 8, overflow := t.overflow || decide (ins.length > 8) }
/-- The lag pair replaced by a rank's own when that is larger. -/
def Trailer.lag (t : Trailer) (r ns : Nat) : Trailer := if ns > t.lagNs then { t with lagRank := r, lagNs := min (2 ^ 32 - 1) ns } else t

/-! ### The adders (08 R160) -/

/-- The largest unbiased exponent of FP32 values, −128 as 0x80 where there is none: from the exponent field, capped at 127. -/
def maxExpOf (l : List Nat) : Nat :=
  uint 8 (l.foldl (fun m w => if w % 2 ^ 31 = 0 then m else max m (min 127 ((nbits w 30 23 : Int) - 127))) (-128))
def maxExp2 (a b : Nat) : Nat := if sint 8 a < sint 8 b then b else a
/-- An FP32 contribution quantised to BQ16 under an exponent, to nearest even, and whether it saturates: its magnitude reaches 2^E, or it
rounds to 2^15 (08 R160). The rounding, and 0 without a fault for a NaN, are DESIGN CHOICE (log entry 16). -/
def quantBQ (e w : Nat) : Nat × Bool :=
  match fFP32.decode w with
  | .inf neg => (if neg then 0x8000 else 0x7FFF, true)
  | v =>
    let x := v.scale2 (15 - sint 8 e)
    let i := toInt .rne 0 x
    (uint 16 (clampInt 16 i), decide (clampInt 16 i ≠ i) || decide ((toInt .rtz 0 x).natAbs ≥ 2 ^ 15))
/-- A ⊕ B of a format, and whether it saturates. -/
def exchAdd (fmt a b : Nat) : Nat × Bool :=
  match fmt with
  | 0 => (addF32 a b, false)
  | 1 => (toNarrow fBF16 .rne 0 (fFP32.decode (toF32 .rne 0 false ((fBF16.decode a).add (fBF16.decode b)))), false)
  | _ => let i := sint 16 a + sint 16 b; (uint 16 (clampInt 16 i), decide (clampInt 16 i ≠ i))

/-- Little-endian words of w bytes. -/
def wordsW (w n : Nat) (bs : List Byte) : List Nat := (List.range n).map fun i => leNat (sliceB bs (w * i) w)
def bytesW (w : Nat) (l : List Nat) : List Byte := l.flatMap (leBytes w)

/-- Where the local contribution and the out area of a post hold element e (10 R193). -/
def contribAt (p : PostSt) (e : Nat) : Nat := if p.format = 1 then p.dpa + 2 * e else p.dpa + 4 * e
def outAt (p : PostSt) (fmt e : Nat) : Nat := if fmt = 0 then p.dpa + 4 * e else if fmt = 1 then p.dpa + 2 * e else p.dpa + 4 * p.elems + 2 * e
/-- Does a range hold an uncorrectable datum? -/
def rangeBad (s : State) (a n : Nat) : Bool :=
  (rangeParts a n).any fun p => match dpaLoc s p.1 with
    | .spad t o => (firstUe s t [(o, p.2)]).isSome
    | _ => (hbmFirstUe s p.1 p.2).isSome
/-! ### Buffers (10 R193, R194); one in the host window is read by requests (01 R18) -/

/-- A byte of a post's buffer: of the host window, as the wharf has read or written it. -/
def bufByte (s : State) (p : PostSt) (a : Nat) : Byte :=
  match dpaLoc s a with
  | .host b => (tget noByte p.host b).getD 0#8
  | _ => dpaByte s a
def bufRead (s : State) (p : PostSt) (a n : Nat) : List Byte := (List.range n).map fun i => bufByte s p (a + i)
/-- Are the bytes of a range of the buffer at hand? -/
def bufHas (s : State) (p : PostSt) (a n : Nat) : Bool :=
  (rangeParts a n).all fun q => match dpaLoc s q.1 with
    | .host b => (upFrom b q.2).all fun x => (tget noByte p.host x).isSome
    | _ => true
/-- Bytes written into the buffer. -/
def bufWrite (s : State) (p : PostSt) (a : Nat) (bs : List Byte) : State × PostSt :=
  (dpaWrite s a bs, match dpaLoc s a with | .host b => p.know b bs | _ => p)
/-- Bytes of the local contribution of n elements. -/
def contribLen (p : PostSt) (n : Nat) : Nat := (if p.format = 1 then 2 else 4) * n
/-- The local contribution of n elements, from its bytes, in the wire format; saturation; its largest exponent. -/
def localWire (b : Bucket) (p : PostSt) (bs : List Byte) (n : Nat) : List Nat × Bool × Nat :=
  if p.format = 1 then
    let l := wordsW 2 n bs
    (l, false, maxExpOf (l.map (· * 2 ^ 16)))
  else
    let l := wordsW 4 n bs
    if b.fmt = 2 then
      let q := l.map (quantBQ b.exponent)
      (q.map fun x => x.1, q.any fun x => x.2, maxExpOf l)
    else (l, false, maxExpOf l)

/-- Two values added element by element, an absent one being the identity. -/
def mixWords (fmt : Nat) (a b : Option (List Nat)) : List Nat × Bool :=
  match a, b with
  | some x, some y => let z := x.zipWith (exchAdd fmt) y; (z.map fun v => v.1, z.any fun v => v.2)
  | some x, none => (x, false)
  | none, some y => (y, false)
  | none, none => ([], false)

/-! ### Sending -/

/-- The exchange wharf of a bucket: by its post's buffer, or, while it has none, by the hold area of its group (10 R192; DESIGN CHOICE, log
entry 16). -/
def bucketWharf (s : State) (b : Bucket) : Nat :=
  exchangeWharf s (match b.post with | some p => p.dpa | none => rgHold s b.grp) b.bucket
/-- A message of a group leaves its exchange wharf, of which it holds a barge place until it has left its port (09 R176; 10 R192). -/
def sendBody (s : State) (n : Nat) (dst : Nat × Nat) (body : List Byte) (wharf : Nat) : State :=
  originate s { barge := none, part := rgPart s n, dstModule := dst.1, dstPart := dst.2, vc := rgVc s n, cls := 0, body := body,
                wharf := some wharf, home := wharf }
def sendSeg (s : State) (b : Bucket) (g : Seg) (dst : Nat × Nat) : State :=
  sendBody s b.grp dst (segWire b g) (bucketWharf s b)
/-- The header fields that every segment of a bucket's pass shares. -/
def segBase (s : State) (b : Bucket) (kind index : Nat) (payload : List Byte) : Seg :=
  let cnt := segCount s b.grp b.fmt b.elems
  { kind := kind, last := decide (index + 1 = cnt), empty := false, fused := b.fusedAt.contains index, fault := b.fault, fmt := b.fmt, rep := b.rep,
    prefixRank := rgRank s b.grp, srcRank := rgRank s b.grp, count := cnt, index := index, elem := index * segPer s b.grp b.fmt,
    exponent := b.exponent, maxExp := b.maxExp, missing := 0, payload := payload }
/-- A header-only segment. -/
def segNote (s : State) (b : Bucket) (kind : Nat) : Seg := { segBase s b kind 0 [] with last := true, empty := true }
/-- A trailer segment (10 R196); it says fused where every segment of the result is (10 R204). -/
def segTrailer (s : State) (b : Bucket) (t : Trailer) (fault : Bool) : Seg :=
  { segBase s b 5 0 (trailerBytes (rgN s b.grp) t) with
    last := true, fused := (List.range (segCount s b.grp b.fmt b.elems)).all fun i => b.fusedAt.contains i, fault := fault, missing := t.count }

def State.bucketOf (s : State) (grp step bucket : Nat) : Option Bucket :=
  s.buckets.find? fun x => decide (x.grp = grp) && decide (x.step = step) && decide (x.bucket = bucket)
/-- A segment held by its bucket. -/
def holdSeg (s : State) (b : Bucket) (g : Seg) : State := s.putBucket { b with held := b.held ++ [g] }

end Sys2Proof.Machine
end

