-- ==== Sys2Proof/Machine/ExchOps.lean ====
section
/-! DEFINITION. The bucket state machine of the exchange wharves (10 R191 to R210). -/

namespace Sys2Proof.Machine
open Sys2Proof

def isChain (s : State) (b : Bucket) : Bool := decide (rgAlg s b.grp = 0)
def isDecider (s : State) (b : Bucket) : Bool := decide (rgRank s b.grp = deciding s b.grp b.bucket)
def isOwner (s : State) (b : Bucket) : Bool := !isChain s b && isDecider s b
/-- Segments of the present pass. -/
def Bucket.count (s : State) (b : Bucket) : Nat := segCount s b.grp b.fmt b.elems
def sendAll (s : State) (b : Bucket) (g : Seg) (dsts : List (Nat × Nat)) : State := dsts.foldl (fun t d => sendSeg t b g d) s
/-- Where the result and the repeat notices go from this rank. -/
def onward (s : State) (b : Bucket) : List (Nat × Nat) := returnTo s b.grp b.bucket
/-- Is a segment one of the present pass: its repeat and its format, which a fall-back alone changes (10 R207)? -/
def Bucket.samePass (b : Bucket) (g : Seg) : Bool := decide (g.rep = b.rep) && decide (g.fmt = b.fmt)
/-- Does a segment's header agree with the group at this rank (10 R198): segments of the bucket, and bytes of this one? -/
def segAgrees (s : State) (b : Bucket) (g : Seg) : Bool :=
  decide (g.count = b.count s) && (g.empty || decide (g.payload.length = segElems s b.grp b.fmt b.elems g.index * wireW b.fmt))
/-- A segment sent on with this rank as its source. -/
def Seg.byRank (g : Seg) (r : Nat) : Seg := { g with srcRank := r, prefixRank := r }

/-- How long this rank held the prefix (10 R196). -/
def holdTime (b : Bucket) : Nat :=
  match b.firstLand, b.post, b.missedSelf with
  | some m, _, true => b.deadline - m
  | some m, some p, false => p.t0 - m
  | _, _, _ => 0
/-- The trailer with this rank's part; its milestone is that of the last addition (10 R196). -/
def ownTrailer (s : State) (b : Bucket) : Trailer :=
  let r := rgRank s b.grp
  let base := if isChain s b then b.trailer.getD {} else b.notices.foldl (fun t r => t.mark r) {}
  let t := (if b.missedSelf then base.mark r else base).lag r (holdTime b)
  if b.missedSelf && isChain s b then t else { t with lastAdd := b.lastAdd }

/-! ### Results and completion (10 R197, R201, R208) -/

/-- A result's payload written to this rank's out area; none where the write would merge into an uncorrectable datum and is not performed
(14 R267), or the host link does not carry it (02 R25). -/
def writeResult (s : State) (b : Bucket) (g : Seg) : Option State :=
  match b.post with
  | none => some s
  | some p =>
    let n := segElems s b.grp g.fmt b.elems g.index * wireW g.fmt
    let a := outAt p g.fmt (g.index * segPer s b.grp g.fmt)
    if dpaPartUe s a n || !hostFits s a n then none
    else some (dpaWrite s a (if g.empty then List.replicate n 0#8 else takePad n g.payload))
/-- The payloads of several results. -/
def writeAll (s : State) (b : Bucket) (l : List Seg) : Option State := l.foldl (fun o g => o.bind fun t => writeResult t b g) (some s)
/-- Does the host link carry a post's whole buffer (02 R25)? -/
def bufferFits (s : State) (p : PostSt) : Bool := hostFits s p.dpa ((if p.format = 0 then 4 else if p.format = 1 then 2 else 6) * p.elems)
/-- A result could not be written: a host-window fault (02 R25), or an uncorrectable datum, with which the post goes on to its result timeout
(14 R267). -/
def resultStuck (s : State) (b : Bucket) : State :=
  if b.post.any fun p => !bufferFits s p then bufferHalt s b 0x43 else s.putBucket { b with stuck := true }
/-- Where a bucket's trailer record lies. -/
def recordAt (s : State) (b : Bucket) : Nat := rgHold s b.grp + b.step % 2 * 0x108000 + b.bucket * 0x1080
/-- The completion status of a post (10 R206, R207). -/
def postStatus (b : Bucket) (p : PostSt) (fault : Bool) : Nat :=
  if p.late then 1 else if p.format = 2 ∧ b.fmt = 0 then 3 else if b.rep > 0 then 2 else if fault then 4 else 0
/-- Is the result here whole: every segment's payload and the trailer (10 R205)? Where no post has told the number of segments the trailer's
header does. -/
def Bucket.whole (s : State) (b : Bucket) : Bool :=
  match b.final with
  | some g => decide ((if b.elems = 0 then g.count else b.count s) ≤ b.results)
  | none => false
/-- Is the tile or the memory of a post's buffer up (15 R290)? -/
def bufferUp (s : State) (b : Bucket) : Bool := b.post.all fun p => locReady s p.dpa
/-- The whole result and its trailer are here: trailer record, consumer gate, completion, in that order; or held until the post comes. While the
record's memory or the consumer gate's tile is down they wait (15 R290), and SEGMENT_FORWARD takes them up. -/
def finish (s : State) (b : Bucket) : State :=
  if !b.whole s then s
  else match b.final, b.post with
  | none, _ => s
  | some _, none => s.putBucket { b with phase := .resultHeld }
  | some g, some p =>
    if !hbmOk s (rgPart s b.grp) (recordAt s b) 0x1080 then bufferHalt s b 0x42
    else if b.stuck ∨ !locReady s (recordAt s b) ∨ !tileReady s (refTile p.gate) then s
    else if (hbmPartUe s (recordAt s b) 0x1080).isSome then s.putBucket { b with stuck := true }
    else
      let s1 := hbmWrite s (recordAt s b) (takePad 0x1080 (segWire b g))
      let s2 := gateAddNow s1 (refTile p.gate) (refGate p.gate) 1
      let s3 := if p.late then s2.inc (fLatePosts b.grp) else s2
      settleWork (bucketFree s3 b) p.ring p.count (.bucket b.grp b.bucket b.step) (.judged (postStatus b p g.fault) (postResult s b) none)

/-! ### A missing rank (10 R206) -/

/-- A partial passes a rank that missed: forwarded unchanged but for its header, or kept as the result by the last rank. -/
def missOne (s : State) (b : Bucket) (g : Seg) : State × Bucket :=
  let g1 := { g.byRank (rgRank s b.grp) with missing := g.missing + 1, fused := false }
  let b1 := { b with nextFwd := b.nextFwd + 1, fault := b.fault || g.fault, maxExp := maxExp2 b.maxExp g.maxExp }
  if isDecider s b then (s, { b1 with resultSegs := b1.resultSegs ++ [{ g1 with kind := 3 }] })
  else match sendTo s b.grp b.bucket with
  | some d => (sendSeg s b g1 d, b1)
  | none => (s, b1)
/-- Held partials of the pass leave a rank that missed, from the hold area first. -/
def missFlush (s : State) (b : Bucket) : State :=
  let mine (g : Seg) : Bool := decide (g.kind = 0) && b.samePass g
  let r := (b.held.filter mine).foldl (fun (x : State × Bucket) g => missOne x.1 x.2 g) (s, { b with held := b.held.filter fun g => !mine g })
  r.1.putBucket r.2
/-- Rank 0 that missed sends empty partials and its trailer; the only rank of a group keeps them as the result. -/
def missStart (s : State) (b : Bucket) : State :=
  let segs := (List.range (b.count s)).map fun i => { segBase s b 0 i [] with empty := true, missing := 1 }
  match sendTo s b.grp b.bucket with
  | some d =>
    let s1 := segs.foldl (fun t g => sendSeg t b g d) s
    (sendSeg s1 b (segTrailer s b (ownTrailer s b) false) d).putBucket { b with phase := .passed, nextFwd := b.count s }
  | none => s.putBucket { b with trailer := some {}, nextFwd := b.count s, resultSegs := segs.map fun g => { g with kind := 3 } }

/-! ### Passes (10 R205, R207) -/

/-- A pass begins with adopted fields: missing status is kept, and what arrived early for it stays held. -/
def passStart (s : State) (b : Bucket) (fmt exponent rep : Nat) : State :=
  let mine (g : Seg) : Bool := decide (g.kind = 5) && decide (g.rep = rep) && decide (g.fmt = fmt)
  let b1 : Bucket := { b with
    fmt := fmt, exponent := exponent, rep := rep, landed := [], nextLand := 0, nextFwd := 0, fault := false, maxExp := 0x80, fusedAt := []
    results := 0, resultSegs := [], final := none, lastAdd := 0, stuck := false, phase := if b.missedSelf then .missed else .posted
    held := b.held.filter fun g => !mine g
    trailer := (b.held.find? mine).map fun g => trailerRead g.payload }
  let s1 := s.putBucket b1
  if !b.missedSelf then s1
  else if isChain s b then (if rgRank s b.grp = 0 then missStart s1 b1 else missFlush s1 b1)
  else if isOwner s b then s1 else s1.putBucket { b1 with phase := .passed }

/-- The rank position that an owner lands next: segment index × N + rank, past the ranks that are missing (10 R202). -/
def ownerNext (s : State) (b : Bucket) : Option Nat :=
  let n := rgN s b.grp
  let skip (r : Nat) : Bool := b.notices.contains r || (b.missedSelf && decide (r = rgRank s b.grp))
  let p := b.nextLand
  ((upFrom p (n - p % n)) ++ upFrom ((p / n + 1) * n) n).find? fun q => decide (q / n < b.count s) && !skip (q % n)

/-- The segments of the result at the deciding rank; none while a datum of the out area cannot be read. -/
def resultOf (s : State) (b : Bucket) (missing : Nat) : Option (List Seg) :=
  let fix (g : Seg) : Seg := { g.byRank (rgRank s b.grp) with kind := 3, missing := missing }
  match b.missedSelf, b.post with
  | false, some p =>
    let at_ (i : Nat) : Nat × Nat := (outAt p b.fmt (i * segPer s b.grp b.fmt), segElems s b.grp b.fmt b.elems i * wireW b.fmt)
    if (List.range (b.count s)).any fun i => rangeBad s (at_ i).1 (at_ i).2 then none
    else some ((List.range (b.count s)).map fun i => fix (segBase s b 3 i (bufRead s p (at_ i).1 (at_ i).2)))
  | _, _ =>
    some ((List.range (b.count s)).map fun i => match b.resultSegs.find? fun g => decide (g.index = i) with
      | some g => fix g
      | none => fix { segBase s b 3 i [] with empty := true })
def ovfWrap (s : State) (b : Bucket) : Bool := match b.post with | some p => p.ovfWrap | none => s.flag (fRg b.grp 0 54 54)
def scaleStep (s : State) (b : Bucket) : Nat := match b.post with | some p => p.scaleStep | none => max 1 (s.rd (fRg b.grp 0 53 51))

/-- The decision at the end of a pass (10 R207): the result returns, or a repeat at a larger exponent, or in FP32. -/
def passDecide (s : State) (b : Bucket) : State :=
  let t := ownTrailer s b
  if !b.fault || ovfWrap s b || decide (b.fmt ≠ 2) then
    match if bufferUp s b then resultOf s b t.count else none with
    | none => s
    | some segs =>
      let s0 := match b.missedSelf, b.post with
        | false, some p => dpaTurn s (outAt p b.fmt 0) (b.elems * wireW b.fmt)
        | _, _ => s
      let s1 := segs.foldl (fun u g => sendAll u b g (onward s b)) s0
      let last := segTrailer s b t b.fault
      let s2 := sendAll s1 b last (onward s b)
      let b1 : Bucket := { b with phase := .passed, final := some last, results := b.count s, resultSegs := if b.post.isNone then segs else [] }
      match if b.missedSelf then writeAll s2 b segs else some s2 with
      | some s3 => finish (s3.putBucket b1) b1
      | none => resultStuck s2 b1
  else
    let e := sint 8 b.exponent + scaleStep s b
    let fall := decide (b.rep ≥ 3) || decide (e > 127)
    let fmt := if fall then 0 else 2
    let ex := if fall then b.exponent else uint 8 e
    let note : Seg := { segNote s b 4 with fmt := fmt, exponent := ex, rep := min 3 (b.rep + 1) }
    let s1 := sendAll (s.inc (if fall then fFallbacks b.grp else fRepeats2 b.grp)) b note (onward s b)
    passStart s1 b fmt ex (min 3 (b.rep + 1))

/-- Whether a pass has ended at this rank, and what it then does. -/
def passEnd (s : State) (b : Bucket) : State :=
  let pass (t : State) : State := match sendTo s b.grp b.bucket with
    | some d => (sendSeg t b (segTrailer s b (ownTrailer s b) b.fault) d).putBucket { b with phase := .passed }
    | none => t
  if isChain s b then
    match b.phase with
    | .posted =>
      if b.nextFwd < b.count s ∨ (rgRank s b.grp ≠ 0 ∧ b.trailer.isNone) then s else if isDecider s b then passDecide s b else pass s
    | .missed => if b.nextFwd < b.count s ∨ b.trailer.isNone then s else if isDecider s b then passDecide s b else pass s
    | _ => s
  else if isOwner s b then
    if (decide (b.phase = .posted) || decide (b.phase = .missed)) && (ownerNext s b).isNone && b.landed.isEmpty then passDecide s b else s
  else s

/-- A pass that another rank begins anew: at a rank that missed it may be over with what was held. -/
def passAnew (s : State) (b : Bucket) (fmt exponent rep : Nat) : State :=
  let t := passStart s b fmt exponent rep
  match t.bucketOf b.grp b.step b.bucket with
  | some b1 => if b1.phase = .missed then passEnd t b1 else t
  | none => t

/-- The deadline has passed without a post (10 R206). -/
def missDo (s : State) (b : Bucket) : State :=
  let b1 := { b with missedSelf := true, phase := .missed }
  if isChain s b then
    let s1 := if rgRank s b.grp = 0 then missStart s b1 else missFlush s b1
    match s1.bucketOf b.grp b.step b.bucket with
    | some b2 => passEnd s1 b2
    | none => s1
  else if isOwner s b then passEnd (s.putBucket b1) b1
  else match sendTo s b.grp b.bucket with
  | some d => (sendSeg s b1 { segNote s b1 2 with missing := 1 } d).putBucket { b1 with phase := .passed }
  | none => s.putBucket b1

/-! ### Landing (10 R190, R199, R200, R203) -/

/-- The tile that holds a post's buffer. -/
def postTile (s : State) (p : PostSt) : Option Nat := match dpaLoc s p.dpa with | .spad t _ => some t | _ => none
def slotBytes (s : State) (n : Nat) : Nat := 1024 + rgSegBytes s n
def slotOff (s : State) (n k : Nat) : Nat := rgLandOff s n + k % rgSlots s n * slotBytes s n
/-- The next slot number of a tile. -/
def slotNext (s : State) (n t : Nat) : Nat := tget nat0 s.slots (64 * n + t)
/-- Has a tile's added gate passed slot k? -/
def slotAdded (s : State) (n t k : Nat) : Bool := gateReached (s.gate t (rgAdded s n)) (BitVec.ofNat 32 (k + 1))
/-- Is a slot free: has the stage added what it held (10 R199)? -/
def slotFree (s : State) (n t k : Nat) : Bool :=
  gateReached (s.gate t (rgAdded s n) + BitVec.ofNat 32 (rgSlots s n)) (BitVec.ofNat 32 (k + 1))
/-- What the exchange stage, or the adders, wrote about a landed segment: saturation, fused, largest exponent. -/
def stageOut (s : State) (b : Bucket) (l : Landed) : Bool × Bool × Nat :=
  match l.out, l.tile with
  | some o, _ => o
  | none, some t => let w := leNat (spadRead s t (slotOff s b.grp l.slot + 56) 8); (nbit w 0, nbit w 1, nbits w 15 8)
  | none, none => (false, false, 0x80)
/-- What stands in the slot that number k takes over is read before: its segment may still have to be forwarded. -/
def slotTaken (s : State) (n t k : Nat) : State :=
  let same (b : Bucket) (l : Landed) : Bool := decide (b.grp = n) && decide (l.tile = some t) && decide (l.slot % rgSlots s n = k % rgSlots s n)
  let take (b : Bucket) : Bucket := { b with landed := b.landed.map fun l => if same b l then { l with out := some (stageOut s b l) } else l }
  { s with buckets := s.buckets.map take }

/-- The segment that a bucket lands next: operation, whether it is the first of its index, the segment, and the bucket after it. -/
def landNext (s : State) (b : Bucket) : Option (Nat × Bool × Seg × Bucket) :=
  let take (p : Seg → Bool) (op : Nat) (first : Bool) (pos : Nat) : Option (Nat × Bool × Seg × Bucket) :=
    (b.held.find? p).map fun g => (op, first, g, { b with held := dropFirst p b.held, nextLand := pos })
  if isChain s b then
    if b.phase ≠ .posted ∨ b.nextLand ≥ b.count s then none
    else if rgRank s b.grp = 0 then some (0, false, { segBase s b 0 b.nextLand [] with empty := true }, { b with nextLand := b.nextLand + 1 })
    else take (fun g => decide (g.kind = 0) && decide (g.index = b.nextLand) && b.samePass g && segAgrees s b g) 0 false (b.nextLand + 1)
  else if isOwner s b ∧ (b.phase = .posted ∨ b.phase = .missed) then
    match ownerNext s b with
    | none => none
    | some q =>
      let n := rgN s b.grp
      let first := (List.range (q % n)).all fun r => b.notices.contains r || (b.missedSelf && decide (r = rgRank s b.grp))
      let missing := b.notices.length + b2n b.missedSelf
      if q % n = rgRank s b.grp then some (2, first, { segBase s b 1 (q / n) [] with empty := true, missing := missing }, { b with nextLand := q + 1 })
      else (take (fun g => decide (g.kind = 1) && decide (g.srcRank = q % n) && decide (g.index = q / n) && b.samePass g && segAgrees s b g) 1 first (q + 1)).map
        fun x => (x.1, x.2.1, { x.2.2.1 with missing := missing }, x.2.2.2)
  else none

/-- The payload of a landed segment: read back from its slot (10 R203); none where that cannot be read. -/
def landedWords (s : State) (b : Bucket) (l : Landed) (w n : Nat) : Option (Option (List Nat)) :=
  match l.tile with
  | none => some (if l.seg.empty then none else some (wordsW w n l.seg.payload))
  | some t =>
    let o := slotOff s b.grp l.slot
    if (firstUe s t [(o, 64), (o + 1024, if l.seg.empty then 0 else w * n)]).isSome then none
    else some (if l.seg.empty then none else some (wordsW w n (spadRead s t (o + 1024) (w * n))))
/-- Does the out area of an op 1 of the owner lie on its own contribution, whose turn is still to come: the adders then keep the contribution (10 R160,
R200)? What an exchange stage has overwritten before they took over is gone (DESIGN CHOICE, log entry 16). -/
def Landed.keeps (s : State) (b : Bucket) (p : PostSt) (l : Landed) : Bool :=
  decide (l.op = 1) && decide (b.fmt ≠ 2) && !b.missedSelf && decide (l.seg.srcRank < rgRank s b.grp) && (p.kept.lookup l.seg.index).isNone
/-- What an operation on a landed segment reads of the buffer: the contribution but for op 1, the out area but for op 0 and the first (10 R200). -/
def Landed.reads (s : State) (b : Bucket) (p : PostSt) (l : Landed) : List (Nat × Nat) :=
  let e := l.seg.index * segPer s b.grp b.fmt
  let n := segElems s b.grp b.fmt b.elems l.seg.index
  (if (l.op ≠ 1 ∧ (p.kept.lookup l.seg.index).isNone) ∨ l.keeps s b p then [(contribAt p e, contribLen p n)] else [])
    ++ if l.op ≠ 0 ∧ !l.first then [(outAt p b.fmt e, wireW b.fmt * n)] else []
/-- The wharf asks the host for the first of some ranges of a buffer whose bytes it lacks, one request at a time (01 R18); where the link does not
carry the buffer the post halts (02 R25). -/
def bufAsk (s : State) (b : Bucket) (p : PostSt) (rs : List (Nat × Nat)) : State :=
  if !bufferFits s p then bufferHalt s b 0x43
  else match rs.find? fun r => !bufHas s p r.1 r.2 with
  | none => s
  | some r =>
    if asked s (fun k => decide (k = .buffer p.ring p.count)) ∨ !mayAsk s then s
    else hostAsk s (.buffer p.ring p.count) (r.1 - hostWindow) r.2
/-- What the wharf adders make of a landed segment, whose header they mark wharf = 1 (10 R203), and what they know of the buffer then: operands
that cannot be read, or an out area that cannot be merged into, stop it (14 R267). -/
def adderDo (s : State) (b : Bucket) (p : PostSt) (l : Landed) : Option (State × PostSt × Landed) :=
  let e := l.seg.index * segPer s b.grp b.fmt
  let n := segElems s b.grp b.fmt b.elems l.seg.index
  let w := wireW b.fmt
  let useL := decide (l.op ≠ 1)
  let useO := decide (l.op ≠ 0) && !l.first
  let rs := l.reads s b p
  if (rs.any fun r => rangeBad s r.1 r.2 || !bufHas s p r.1 r.2) || dpaPartUe s (outAt p b.fmt e) (w * n) || !hostFits s (outAt p b.fmt e) (w * n) then none
  else (landedWords s b l w n).map fun pl =>
    let own := (p.kept.lookup l.seg.index).getD (bufRead s p (contribAt p e) (contribLen p n))
    let p := if l.keeps s b p then { p with kept := p.kept ++ [(l.seg.index, own)] } else p
    let loc := localWire b p own n
    let o := if useO then some (wordsW w n (bufRead s p (outAt p b.fmt e) (w * n))) else none
    let r := if l.op = 0 then mixWords b.fmt pl (some loc.1) else if l.op = 1 then mixWords b.fmt o pl else mixWords b.fmt o (some loc.1)
    let fault := r.2 || (useL && loc.2.1)
    let mx := if useL then loc.2.2 else 0x80
    let l1 : Landed := { l with done := true, out := some (fault, false, mx), addedAt := some s.mile }
    let s0 := match l.tile with | some t => endpointTurn s t (slotOff s b.grp l.slot) (slotBytes s b.grp) false | none => s
    let x := bufWrite (rs.foldl (fun u r => dpaTurn u r.1 r.2) s0) p (outAt p b.fmt e) (bytesW w r.1)
    (match l.tile with
      | none => x.1
      | some t =>
        let at_ := slotOff s b.grp l.slot
        let own := leNat (spadRead x.1 t (at_ + 40) 8)
        spadWrite (spadWrite (endpointTurn x.1 t (at_ + 40) 24 true) t (at_ + 40) (leBytes 8 (nsetBits own 61 61 1))) t (at_ + 56)
          (leBytes 8 (b2n fault + mx * 2 ^ 8)), x.2, l1)
/-- A landed segment changed in its bucket. -/
def setLanded (s : State) (b : Bucket) (l : Landed) : State :=
  s.putBucket { b with landed := b.landed.map fun x => if x.slot = l.slot ∧ x.tile = l.tile ∧ x.seg.index = l.seg.index then l else x }
/-- A landed segment whose turn it is, which the adders process: its tile fenced, or its post's wharf_add; every earlier slot added
(10 R200, R203). -/
def adderNext (s : State) (t : Nat) : Option (Bucket × Landed) :=
  s.buckets.findSome? fun b => (b.landed.find? fun l => decide (l.tile = some t) && !l.done && (l.wharf || s.fenced.contains t)
    && !slotAdded s b.grp t l.slot && gateReached (s.gate t (rgAdded s b.grp)) (BitVec.ofNat 32 l.slot)).map fun l => (b, l)
/-- A group whose next slot on a tile was landed for a bucket that has left the table, and that the adders process: its tile is fenced, or
its header says so. -/
def leftSlot (s : State) (t : Nat) : Option Nat :=
  (s.slots.find? fun x =>
    let n := x.1 / 64
    let k := (s.gate t (rgAdded s n)).toNat
    decide (x.1 % 64 = t) && decide (k < x.2)
      && !(s.buckets.any fun b => decide (b.grp = n) && b.landed.any fun l => decide (l.tile = some t) && decide (l.slot = k))
      && (s.fenced.contains t || nbit (leNat (spadRead s t (slotOff s n k + 40) 8)) 61)).map fun x => x.1 / 64
/-- The wharf adders process the landed slots of a tile that are theirs, in slot order, and raise added after each (10 R200, R203). Of a slot
whose post has halted nothing is added: added rises past it (DESIGN CHOICE, log entry 16). At a tile that is down they wait (15 R290). -/
def adderRun : Nat → State → Nat → State
  | 0, s, _ => s
  | k + 1, s, t =>
    if s.isFatal ∨ !tileReady s t then s
    else match adderNext s t, leftSlot s t with
    | none, none => s
    | none, some n => adderRun k (gateAddNow s t (rgAdded s n) 1) t
    | some (b, l), _ => match b.post.bind fun p => adderDo s b p l with
      | none => s
      | some (s1, p1, l1) => adderRun k (gateAddNow (setLanded s1 { b with post := some p1 } l1) t (rgAdded s b.grp) 1) t
/-- How many slots may be landed and not yet added: land_slots of each group. -/
def slotsOpen (s : State) : Nat := lsum (s.buckets.map fun b => b.landed.length) + 255 * s.slots.length
/-- The wharf adders of a tile run. -/
def addersOf (s : State) (t : Nat) : State := adderRun (slotsOpen s) s t

/-- The landed header: bytes 40 to 63 are the landing wharf's (10 R195). -/
def landHeader (s : State) (b : Bucket) (p : PostSt) (op : Nat) (first wharf : Bool) (g : Seg) : List Byte :=
  let e := g.index * segPer s b.grp b.fmt
  let off (a : Nat) : Nat := match dpaLoc s a with | .spad _ o => o | _ => 0
  segHead b g ++ leBytes 8 (off (contribAt p e) + off (outAt p b.fmt e) * 2 ^ 32 + op * 2 ^ 58 + b2n first * 2 ^ 60 + b2n wharf * 2 ^ 61)
    ++ leBytes 8 s.mile ++ leBytes 8 0

/-- An owner that missed has no buffer: its wharf adds in the hold area. -/
def landHeld (s : State) (b : Bucket) (g : Seg) : State :=
  let n := segElems s b.grp b.fmt b.elems g.index
  let w := wireW b.fmt
  let old := b.resultSegs.find? fun x => decide (x.index = g.index)
  let r := mixWords b.fmt (old.map fun x => wordsW w n x.payload) (some (wordsW w n g.payload))
  let x : Seg := { segBase s b 3 g.index (bytesW w r.1) with fused := false }
  let b1 : Bucket := { b with
    resultSegs := b.resultSegs.filter (fun y => decide (y.index ≠ g.index)) ++ [x]
    fault := b.fault || g.fault || r.2, maxExp := maxExp2 b.maxExp g.maxExp, lastAdd := s.mile }
  passEnd (s.putBucket b1) b1

/-- A bucket's next segment lands in a free slot of its tile, or at the wharf adders (10 R199, R203). -/
def landOne (s : State) (b : Bucket) (p : PostSt) (op : Nat) (first : Bool) (g : Seg) (b1 : Bucket) : State :=
  match postTile s p with
  | none =>
    let l : Landed := ⟨0, none, op, first, g, true, false, none, none⟩
    match adderDo s b1 p l with
    | some (s1, p1, l1) => s1.putBucket { b1 with post := some p1, landed := b1.landed ++ [l1] }
    | none => bufAsk s b p (l.reads s b1 p)
  | some t =>
    let k := slotNext s b.grp t
    let wharf := p.wharfAdd || s.fenced.contains t
    if !slotFree s b.grp t k ∨ s.isFatal then s
    else
      let s1 := slotTaken s b.grp t k
      let b2 : Bucket := { b1 with landed := ((s1.bucketOf b.grp b.step b.bucket).getD b1).landed ++ [⟨k, some t, op, first, g, wharf, false, none, none⟩] }
      let bytes := landHeader s b1 p op first wharf g ++ List.replicate 960 0#8 ++ g.payload
      let s2 := spadWrite (endpointTurn (s1.putBucket b2) t (slotOff s b.grp k) bytes.length true) t (slotOff s b.grp k) bytes
      addersOf (gateAddNow { s2 with slots := tset nat0 s2.slots (64 * b.grp + t) (k + 1) } t (rgArrive s b.grp) 1) t
/-- A check-bit event met as the exchange reads the tile or the memory of a bucket's buffer: a correction is entered and queued, an uncorrectable
datum entered, and nothing halts at once (05 R98; 14 R267). -/
def exchEcc (s : State) (i : Nat) (ecc : Option Upset) : State :=
  match ecc, (s.buckets[i]?).bind fun b => b.post.map fun p => (b, p) with
  | some u, some (b, p) => match postTile s p with
    | some t => match spadEcc s t u.at_ u.syn u.bad with
      | (s1, .bad esc) => spadUeAlone s1 t u.at_ esc
      | (s1, .corrected) => s1
    | none => if dpaLoc s p.dpa ≠ .hbm then s else match hbmEcc s b.part u.at_ u.syn u.bad with
      | (s1, .bad esc) => hbmUeAlone s1 b.part (u.at_ / 64 * 64) (if u.bad then max 1 u.syn else 2) esc
      | (s1, .corrected) => s1
  | _, _ => s
/-- The same of a segment that arrives, for its bucket; and of the slots that a tile's adders take over when a halt notice fences it. -/
def segEcc (s : State) (t : SegTurn) : State :=
  match t.ecc, s.segIn[t.index]? with
  | some u, some m => match s.buckets.findIdx? fun b =>
      decide (b.gid = segGid m.bytes) && decide (b.step = segStep m.bytes) && decide (b.bucket = segBucket m.bytes) && decide (b.part = m.part) with
    | some i => exchEcc s i (some u)
    | none => s
  | _, _ => s
def slotEcc (s : State) (t : TileTurn) : State :=
  match t.ecc, adderNext s t.tile with
  | some u, some _ => match spadEcc s t.tile u.at_ u.syn u.bad with
    | (s1, .bad esc) => spadUeAlone s1 t.tile u.at_ esc
    | (s1, .corrected) => s1
  | _, _ => s
/-- While no segment can land at a rank of the chain, the wharf asks for the contribution of the next one (01 R18; 10 R194). -/
def bufNext (s : State) (b : Bucket) (p : PostSt) : State :=
  if b.phase ≠ .posted ∨ !isChain s b ∨ b.nextLand ≥ b.count s then s
  else bufAsk s b p [(contribAt p (b.nextLand * segPer s b.grp b.fmt), contribLen p (segElems s b.grp b.fmt b.elems b.nextLand))]
/-- SLOT_LANDING: first the adders take what is theirs of the tile. -/
def slotLand (s : State) (i : Nat) : State :=
  match s.buckets[i]? with
  | none => s
  | some b0 =>
    if !bufferUp s b0 then s else
    let s0 := match b0.post.bind (postTile s) with | some t => addersOf s t | none => s
    match s0.buckets[i]? with
    | none => s0
    | some b =>
      match landNext s0 b, b.post with
      | none, some p => bufNext s0 b p
      | none, none => s0
      | some (op, first, g, b1), some p => if b.missedSelf then landHeld s0 b1 g else landOne s0 b p op first g b1
      | some (_, _, g, b1), none => if b.missedSelf then landHeld s0 b1 g else s0

/-! ### Forwarding (10 R195, R199, R202) -/

/-- May a landed segment be forwarded: it has been added, and its slot and out area can be read? -/
def forwardReady (s : State) (b : Bucket) (p : PostSt) (l : Landed) : Bool :=
  (match l.tile with
    | some t => slotAdded s b.grp t l.slot && (l.out.isSome || (firstUe s t [(slotOff s b.grp l.slot, 64)]).isNone)
    | none => l.done)
    && !rangeBad s (outAt p b.fmt (l.seg.index * segPer s b.grp b.fmt)) (segElems s b.grp b.fmt b.elems l.seg.index * wireW b.fmt)

/-- A contribution sent toward the owner (10 R202); a rank table outside the partition's HBM is an address fault (01 R17). -/
def contribute (s : State) (b : Bucket) (p : PostSt) : State :=
  let i := b.nextFwd
  let e := i * segPer s b.grp b.fmt
  let n := segElems s b.grp b.fmt b.elems i
  if i ≥ b.count s ∨ rangeBad s (contribAt p e) (contribLen p n) then s
  else if !bufHas s p (contribAt p e) (contribLen p n) then bufAsk s b p [(contribAt p e, contribLen p n)]
  else
    let loc := localWire b p (bufRead s p (contribAt p e) (contribLen p n)) n
    let b1 : Bucket := { b with nextFwd := i + 1, phase := if i + 1 ≥ b.count s then .passed else .posted }
    match sendTo s b.grp b.bucket with
    | some d => (sendSeg (dpaTurn s (contribAt p e) (contribLen p n)) b
        { segBase s b 1 i (bytesW (wireW b.fmt) loc.1) with fault := loc.2.1, maxExp := loc.2.2 } d).putBucket b1
    | none => bufferHalt s b 0x42

/-- The oldest landed segment of a bucket is forwarded, or finished at the deciding rank (10 R199, R201). -/
def forwardOne (s : State) (b : Bucket) (p : PostSt) (l : Landed) (rest : List Landed) : State :=
  let o := stageOut s b l
  let mx := maxExp2 l.seg.maxExp o.2.2
  let b1 : Bucket := { b with
    landed := rest, nextFwd := b.nextFwd + 1, fault := b.fault || l.seg.fault || o.1, maxExp := maxExp2 b.maxExp mx
    fusedAt := (b.fusedAt.filter (· ≠ l.seg.index)) ++ (if o.2.1 then [l.seg.index] else [])
    lastAdd := max b.lastAdd (l.addedAt.getD s.mile) }
  let e := outAt p b.fmt (l.seg.index * segPer s b.grp b.fmt)
  let g : Seg := { segBase s b 0 l.seg.index (bufRead s p e (segElems s b.grp b.fmt b.elems l.seg.index * wireW b.fmt)) with
    fault := l.seg.fault || o.1, fused := o.2.1, maxExp := mx, missing := l.seg.missing }
  let s0 := dpaTurn (match l.tile with | some t => endpointTurn s t (slotOff s b.grp l.slot) 64 false | none => s) e
    (segElems s b.grp b.fmt b.elems l.seg.index * wireW b.fmt)
  let s1 := match isDecider s b, sendTo s b.grp b.bucket with | false, some d => sendSeg s0 b g d | _, _ => s0
  passEnd (s1.putBucket b1) b1
/-- SEGMENT_FORWARD: first the adders take what is theirs of the tile; a result that waits for its record's memory or its gate's tile is
finished. -/
def segForward (s : State) (i : Nat) : State :=
  let s0 := match (s.buckets[i]?).bind fun b => b.post.bind (postTile s) with | some t => addersOf s t | none => s
  match s0.buckets[i]? with
  | none => s0
  | some b =>
    if s.isFatal ∨ !bufferUp s b then s
    else match b.post, b.landed with
    | some p, l :: rest => if b.phase ≠ .posted ∨ !forwardReady s0 b p l then s0 else forwardOne s0 b p l rest
    | some p, [] => if b.phase = .posted ∧ !isChain s b ∧ !isOwner s b then contribute s0 b p
      else if b.final.isSome then finish s0 b else passEnd s0 b
    | none, _ => passEnd s0 b

/-! ### Segments arriving (10 R191, R195, R198, R202) -/

/-- A segment of an unknown group, or from the wrong rank, is dropped and counted at its port. -/
def segDrop (s : State) (m : SegIn) : State := match m.port with | some p => s.inc (fDropGroup p) | none => s
/-- A segment is taken in the order of its virtual channel and port; `f` answers none while it has to wait at ingress. -/
def segTake (s : State) (i kind : Nat) (f : State → Nat → SegIn → Seg → Option State) : State :=
  match s.segIn[i]? with
  | none => s
  | some m =>
    if segKind m.bytes ≠ kind ∨ s.isFatal ∨ ((s.segIn.take i).any fun x => decide (x.vc = m.vc) && decide (x.port = m.port)) then s
    else
      let s0 := { s with segIn := s.segIn.eraseIdx i }
      let s1 := match m.port with | some p => creditBack s0 p m.vc m.flits | none => s0
      match groupOf s m.part (segGid m.bytes) with
      | none => segDrop s1 m
      | some n => (f s1 n m (segRead m.bytes)).getD s
/-- The entry of a segment's key: the one there is, or a new one while the table has room. -/
def entryFor (s : State) (n : Nat) (m : SegIn) (g : Seg) : Option (Bucket × State) :=
  match s.bucketOf n (segStep m.bytes) (segBucket m.bytes) with
  | some b => some (b, s)
  | none =>
    if s.buckets.length ≥ 1024 then none
    else
      let b : Bucket := { grp := n, part := m.part, gid := segGid m.bytes, step := segStep m.bytes, bucket := segBucket m.bytes,
                          fmt := g.fmt, exponent := g.exponent, rep := g.rep }
      some (b, { s with buckets := s.buckets ++ [b] })
/-- A segment held while the hold area has room. -/
def holdOr (s : State) (b : Bucket) (g : Seg) : Option State := if holdRoom s b.grp g then some (holdSeg s b g) else none

/-- Can a segment land now: the buffer's tile or memory up, and a free slot, or adders that can read their operands? -/
def landRoom (s : State) (b1 : Bucket) (p : PostSt) (op : Nat) (first : Bool) (g : Seg) : Bool :=
  locReady s p.dpa && match postTile s p with
  | none => (adderDo s b1 p ⟨0, none, op, first, g, true, false, none, none⟩).isSome
  | some t => slotFree s b1.grp t (slotNext s b1.grp t)
/-- A segment that arrives is landed where it is the next one and finds room, and held otherwise (10 R205). -/
def landOr (s : State) (b : Bucket) (g : Seg) : Option State :=
  match b.post, landNext s { b with held := b.held ++ [g] } with
  | some p, some (op, first, g1, b1) =>
    if b1.held = b.held ∧ !b.missedSelf ∧ landRoom s b1 p op first g1 then some (landOne s b p op first g1 b1) else holdOr s b g
  | _, _ => holdOr s b g

/-- Does a segment come from this rank's predecessor in the chain (10 R198)? -/
def fromPrev (s : State) (n : Nat) (m : SegIn) (g : Seg) : Bool :=
  decide (g.srcRank + 1 = rgRank s n) && decide (m.srcModule = s.rd (fRg n 0x10 37 14)) && decide (m.srcPart = s.rd (fRg n 0x10 13 12))
def onPartial (s : State) (n : Nat) (m : SegIn) (g : Seg) : Option State :=
  if rgAlg s n ≠ 0 ∨ !fromPrev s n m g then some (segDrop s m)
  else (entryFor s n m g).bind fun x =>
    let b := { x.1 with firstLand := some (x.1.firstLand.getD s.mile), before := max x.1.before g.missing }
    if b.phase = .missed ∧ b.samePass g then
      if isDecider x.2 b ∧ !holdRoom x.2 b.grp g then none
      else
        let r := missOne x.2 b g
        some (passEnd (r.1.putBucket r.2) r.2)
    else landOr x.2 b g
/-- A relay sends a contribution or notice on to its parent unchanged (10 R202). -/
def relayUp (s : State) (n : Nat) (m : SegIn) (x : Bucket × State) : Option State :=
  some (match sendTo s n x.1.bucket with
    | some d => sendBody x.2 n d m.bytes (bucketWharf s x.1)
    | none => x.2)
def onContribution (s : State) (n : Nat) (m : SegIn) (g : Seg) : Option State :=
  if rgAlg s n = 0 then some (segDrop s m)
  else (entryFor s n m g).bind fun x =>
    if isOwner s x.1 then landOr x.2 { x.1 with firstLand := some (x.1.firstLand.getD s.mile) } g
    else if rgAlg s n = 1 then relayUp s n m x else some (segDrop s m)
def onNotice (s : State) (n : Nat) (m : SegIn) (g : Seg) : Option State :=
  if rgAlg s n = 0 then some (segDrop s m)
  else (entryFor s n m g).bind fun x =>
    if isOwner s x.1 then
      let b := { x.1 with notices := if x.1.notices.contains g.srcRank then x.1.notices else x.1.notices ++ [g.srcRank] }
      some (passEnd (x.2.putBucket b) b)
    else if rgAlg s n = 1 then relayUp s n m x else some (segDrop s m)
/-- A result of the pass that ended here is written and sent on, in whatever order its segments and trailer come (13 R254); while the buffer's
tile or memory is down it waits at ingress (15 R290). -/
def onResult (s : State) (n : Nat) (m : SegIn) (g : Seg) : Option State :=
  (entryFor s n m g).bind fun x =>
    let b := x.1
    if b.phase ≠ .passed ∨ !b.samePass g then holdOr x.2 b g
    else if (b.post.isNone ∧ !holdRoom x.2 b.grp g) ∨ !bufferUp x.2 b then none
    else
      let b1 : Bucket := { b with results := b.results + 1, told := max b.told g.missing, resultSegs := if b.post.isNone then b.resultSegs ++ [g] else [] }
      some (match writeResult x.2 b g with
        | some t => finish ((sendAll t b (g.byRank (rgRank s n)) (onward s b)).putBucket b1) b1
        | none => resultStuck x.2 b1)
def onRepeat (s : State) (n : Nat) (m : SegIn) (g : Seg) : Option State :=
  (entryFor s n m g).bind fun x =>
    let b := x.1
    if b.phase ≠ .passed then holdOr x.2 b g
    else
      let s1 := sendAll x.2 b (g.byRank (rgRank s n)) (onward s b)
      some (passAnew (if g.fmt = 0 then s1.inc (fFallbacks n) else s1) b g.fmt g.exponent g.rep)
/-- A trailer ends a pass, or is the final one (10 R196, R201, R205): of the present pass, after this rank has passed it on it is the final
one; before, in the chain, the predecessor's ends the pass. Any other is held. -/
def onTrailer (s : State) (n : Nat) (m : SegIn) (g : Seg) : Option State :=
  (entryFor s n m g).bind fun x =>
    let b := x.1
    if b.phase = .passed ∧ b.samePass g then
      if b.post.isNone ∧ !holdRoom x.2 b.grp g then none
      else
        let b1 : Bucket := { b with final := some g }
        some (finish ((sendAll x.2 b (g.byRank (rgRank s n)) (onward s b)).putBucket b1) b1)
    else if isChain s b ∧ b.phase ≠ .passed ∧ b.phase ≠ .resultHeld ∧ b.samePass g ∧ fromPrev s n m g then
      let b1 : Bucket := { b with trailer := some (trailerRead g.payload), before := max b.before (trailerRead g.payload).count }
      some (passEnd (x.2.putBucket b1) b1)
    else holdOr x.2 b g

/-! ### Posts (10 R191, R193, R205, R206; 03 R49) -/

/-- The extent of a post's buffer. -/
def bufferBytes (q : List Nat) : Nat := (if pqFormat q = 0 then 4 else if pqFormat q = 1 then 2 else 6) * pqElems q

/-- Does a group find ranks by its rank table (10 R201, R202)? -/
def rgByTable (s : State) (n : Nat) : Bool := decide (rgAlg s n ≠ 0) || rgTreeReturn s n
/-- Is a post with the key of a descriptor outstanding on this module: on a ring, not judged to halt it, or in the bucket table
(10 R191, R193)? -/
def postOut (s : State) (q : List Nat) : Bool :=
  (s.buckets.any fun b => decide (b.gid = pqGroup q) && decide (b.step = pqStep q) && decide (b.bucket = pqBucket q) && b.post.isSome)
    || s.rings.any fun x => x.2.out.any fun d => decide (dClass d.q = some .bucket) && !d.work.halts && decide (pqGroup d.q = pqGroup q)
      && decide (pqStep d.q = pqStep q) && decide (pqBucket d.q = pqBucket q)
/-- Why a post does not enter: 0x41, 0x42, 0x43 (02 R25), or 0 (10 R193). The hold area and the rank table, where the group uses one, are judged
under R17 with the buffer (DESIGN CHOICE, log entry 16). -/
def postCheck (s : State) (part : Nat) (q : List Nat) : Nat :=
  if !dHiZero q 2 56 ∨ !dHiZero q 3 48 ∨ !dHiZero q 4 48 ∨ nbits (dq q 4) 39 37 ≠ 0 ∨ !dHiZero q 6 32 ∨ !dZeroFrom q 7 then 0x41
  else match groupOf s part (pqGroup q) with
  | none => 0x41
  | some n =>
    let inTile := (match dpaLoc s (pqDpa q), dpaLoc s (pqDpa q + bufferBytes q - 1) with | .spad t _, .spad u _ => decide (t = u) | _, _ => false)
    if rgAlg s n = 3 ∨ pqFormat q ≥ 3 ∨ pqElems q = 0 ∨ segCount s n (pqFormat q) (pqElems q) > 65535 ∨ (!pqWharf q && !inTile)
        ∨ rgLandOff s n + rgSlots s n * slotBytes s n > spadBytes ∨ rgHoldMib s n < 3
        ∨ postOut s q then 0x41
    else if gateStatus s part (dq q 6) ≠ 0 then gateStatus s part (dq q 6)
    else if !dpaOk s part false (pqDpa q) (bufferBytes q) ∨ !hbmOk s part (rgHold s n) (rgHoldMib s n * 2 ^ 20)
        ∨ (rgByTable s n && !hbmOk s part (s.rd (fRg n 0x18 47 0)) (4 * rgN s n)) then 0x42
    else if touchesHost (pqDpa q) (bufferBytes q) && (!s.dlActive || !busOk s (pqDpa q - hostWindow) (bufferBytes q)) then 0x43
    else 0

/-- Entries two or more steps old are discarded with what they hold; their posts end at their result timeout (10 R191). -/
def stepDiscard (s : State) (n step : Nat) : State :=
  (s.buckets.filter fun b => decide (b.grp = n) && decide (sint 32 (step + 2 ^ 32 - b.step) ≥ 2)).foldl (fun t b =>
    match b.post with
    | some p => settleWork (bucketFree t b) p.ring p.count (.bucket b.grp b.bucket b.step) (.bucketGone ⟨n, p.ovfWrap, p.scaleStep, p.resultTo, p.late⟩)
    | none => bucketFree t b) s
/-- The bucket of a descriptor: the entry there is, with what the descriptor tells, or a new one. -/
def descBucket (s : State) (n part : Nat) (q : List Nat) : Bucket :=
  match s.bucketOf n (pqStep q) (pqBucket q) with
  | some b =>
    let b1 : Bucket := { b with elems := pqElems q, deadline := dq q 5 }
    if b.rep = 0 ∧ b.phase = .early then { b1 with fmt := pqFormat q, exponent := if pqFormat q = 2 then pqExponent q else 0 } else b1
  | none => freshBucket n part q
/-- A bucket put into the table. -/
def addBucket (s : State) (b : Bucket) : State :=
  if (s.bucketOf b.grp b.step b.bucket).isSome then s.putBucket b else { s with buckets := s.buckets ++ [b] }

/-- A post enters the state machine; none while the table has no room, or a result waits for a buffer whose tile or memory is down (10 R191,
R205; 15 R290). -/
def postEnter (s : State) (c : PostCap) (r count t0 : Nat) (q : List Nat) : Option State :=
  let n := c.grp
  if (s.bucketOf n (pqStep q) (pqBucket q)).isNone ∧ s.buckets.length ≥ 1024 then none
  else
    let b := descBucket s n (rgPart s n) q
    let s1 := addBucket s b
    if b.phase = .early ∧ !c.late then some (s1.putBucket { b with phase := .posted, post := some (newPost c r count t0 q) })
    else
      let s2 := if b.phase = .early then missDo s1 b else s1
      match s2.bucketOf n (pqStep q) (pqBucket q) with
      | none => some s2
      | some b2 =>
        let b3 := { b2 with post := some (newPost { c with late := true } r count t0 q) }
        let s3 := s2.putBucket b3
        let writes := decide (b2.phase = .resultHeld) || (decide (b2.phase = .passed) && !isDecider s b)
        if writes && !locReady s (pqDpa q) then none
        else if writes then
          let b4 := { b3 with resultSegs := [] }
          match writeAll s3 b3 b2.resultSegs with
          | some s4 => some (finish (s4.putBucket b4) b4)
          | none => some (resultStuck s3 b4)
        else some s3

/-- A bucket post dispatched: checked, and older entries of its group discarded. -/
def postBody (r : Nat) (s : State) (f : Fetched) : State × Work :=
  let part := s.rd (fRPart r)
  match postCheck s part f.q, groupOf s part (pqGroup f.q) with
  | 0, some n => (stepDiscard s n (pqStep f.q), .bucketWait (capNow s n f.q))
  | st, _ => (s, judgeAs st 0)
/-- The posts of a ring that wait for a place in the table, oldest first, and what they captured. -/
def waitingPosts (s : State) (r : Nat) : List (Dispatched × PostCap) :=
  (s.ring r).out.filterMap fun d => match d.work with | .bucketWait c => some (d, c) | _ => none
/-- The rank is marked missing in a bucket whose post was not dispatched in time (10 R206). -/
def missNow (s : State) (n : Nat) (q : List Nat) : State :=
  if (s.bucketOf n (pqStep q) (pqBucket q)).isNone ∧ s.buckets.length ≥ 1024 then s
  else
    let b := descBucket s n (rgPart s n) q
    if b.phase ≠ .early then s else missDo (addBucket s b) b
/-- A dispatched post takes its place in the table when there is one. -/
def postPlace (s : State) (r : Nat) (x : Dispatched × PostCap) : State :=
  (postEnter (setWork s r x.1.count (.bucket x.2.grp (pqBucket x.1.q) (pqStep x.1.q))) x.2 r x.1.count x.1.t0 x.1.q).getD
    (if x.2.late then missNow s x.2.grp x.1.q else s)
/-- The ring's next descriptor is dispatched if it is a post, and the ring's waiting posts take their places (10 R191). -/
def postRun (s : State) (r : Nat) : State :=
  if s.isFatal then s
  else
    let s1 := ringExec s r .bucket (postBody r)
    (waitingPosts s1 r).foldl (fun t x => postPlace t r x) s1

/-- deadline_mile passes while the post's descriptor is fetched and not dispatched (10 R206). -/
def deadlinePass (s : State) (r count : Nat) : State :=
  match (s.ring r).waiting.find? fun f => decide (f.count = count) with
  | none => s
  | some f =>
    let part := s.rd (fRPart r)
    if f.bad.isSome ∨ dClass f.q ≠ some .bucket ∨ dq f.q 5 = 2 ^ 64 - 1 ∨ s.mile < dq f.q 5 ∨ s.isFatal ∨ postCheck s part f.q ≠ 0 then s
    else match groupOf s part (pqGroup f.q) with
    | none => s
    | some n => missNow s n f.q

/-- The result has not completed result_to after the later of dispatch and deadline (10 R210). -/
def resultTimeout (s : State) (r count : Nat) : State :=
  match outOf s r count with
  | none => s
  | some d =>
    if s.isFatal then s
    else match d.work with
    | .bucket g bk st => match s.bucketOf g st bk with
      | some b => match b.post with
        | some p => if s.mile ≥ max p.t0 p.deadline + p.resultTo then bucketHalt s b 0x44 false else s
        | none => s
      | none => s
    | .bucketWait c | .bucketGone c => if s.mile ≥ max d.t0 (dq d.q 5) + c.resultTo then outsideHalt s (r, d, c) 0x44 false else s
    | _ => s

end Sys2Proof.Machine
end

