-- ==== Sys2Proof/Machine/Votes.lean ====
section
/-! DEFINITION. Power domains and their votes (15 R288 to R291, R296; 11 R226; 02 R37). Domains: 0 to 59 the tile compute islands, 60 to 119
the tile clocks, 120 to 123 the HBM of a quadrant, 124 to 139 the ports, 140 the mesh routers and wharf logic. -/

namespace Sys2Proof.Machine
open Sys2Proof

def fStandbyEn : Fld := ⟨0x800010, 0, 0⟩
def fDormantEn : Fld := ⟨0x800010, 1, 1⟩
def fPwrState : Fld := ⟨0x800008, 21, 19⟩
def fVotes (k : Nat) : Fld := ⟨0x800018, 4 * k + 3, 4 * k⟩

/-! ### Who votes (15 R288) -/

/-- The tile of a gate reference. -/
def refTiles (w : Nat) : List Nat := match decRef w with | .gate t _ => [t] | _ => []
/-- The tiles that a barge names: its engine, its ends, its done gate. -/
def bargeTiles (s : State) (b : Barge) : List Nat :=
  (if b.engine < 60 then [b.engine] else [])
    ++ ((List.range b.rows).flatMap fun j => dpaTiles s (b.src + j * b.srcPitch) b.rowBytes)
    ++ ((List.range b.dstRows).flatMap fun j => dpaTiles s (b.dst + j * b.dstPitch) b.dstRowBytes)
    ++ (match b.done with | some k => [k / 4096] | none => [])
/-- The tiles that a descriptor names (03 R49). -/
def descTiles (s : State) (part count : Nat) (q : List Nat) : List Nat :=
  match dClass q with
  | some .barge => bargeTiles s (descBarge s 0 count q)
  | some .gateSet | some .gateAdd | some .gateWait => refTiles (dq q 2)
  | some .imageLoad | some .chain | some .telemetry | some .report => descSpads s q
  | some .launchEnd | some .launchStart => (match s.image part (nbits (dq q 2) 15 0) with | some m => imgTiles s m.dpa | none => [])
  | some .bucket => dpaTile s (pqDpa q) ++ refTiles (dq q 6)
  | _ => []

/-- The partitions whose wake vote holds their domains, those of rings with a property, and those with an active ring, which a partition counts
as having for 1 ms after its bitmap becomes valid or a ring of it is enabled (03 R45). D3hot withdraws what the rings vote (02 R37). -/
def started (s : State) (p : Nat) : Bool := decide (s.rd (fPartState p) ≠ 0)
def wakeParts (s : State) : List Nat := if s.power.wakeVote then [0, 1, 2, 3].filter (started s) else []
def ringParts (s : State) (f : RingSt → Bool) : List Nat := if s.link.d3hot then [] else (s.rings.filter fun x => f x.2).map fun x => s.rd (fRPart x.1)
def activeParts (s : State) : List Nat :=
  if s.link.d3hot then [] else ringParts s (ringActive s) ++ [0, 1, 2, 3].filter fun p => (s.polls.lookup p).any fun x => lately s x.freshAt
/-- The tiles of partitions. -/
def partTiles (s : State) (ps : List Nat) : List Nat := if ps.isEmpty then [] else (List.range 60).filter fun t => match s.tilePart t with | some p => ps.contains p | none => false
/-- The quadrants of partitions: all of them in module-wide interleave. -/
def partQuads (s : State) (ps : List Nat) : List Nat :=
  if ps.isEmpty then [] else [0, 1, 2, 3].filter fun q => ps.any fun p => started s p && (s.hbmWide || nbit (s.rd (fPartQuads p)) q)

/-- Host rings: flights that hold a tile and descriptors that name it, all of them withdrawn in D3hot (02 R37); and what a
wake has voted for (15 R291). -/
def hostTiles (s : State) : List Nat :=
  partTiles s (wakeParts s) ++ s.power.wakeTiles ++
  if s.link.d3hot then []
  else s.flights.flatMap (fun f => f.tiles) ++ s.rings.flatMap fun x =>
      (x.2.out.flatMap fun d => descTiles s (s.rd (fRPart x.1)) d.count d.q) ++ (x.2.waiting.flatMap fun d => descTiles s (s.rd (fRPart x.1)) d.count d.q)
/-- Lockkeepers: the buckets whose exchange stage is on a tile. -/
def keeperTiles (s : State) : List Nat := s.buckets.flatMap fun b => match b.post with | some p => (postTile s p).toList | none => []
/-- Background: the scratchpad clear program (16 R315). -/
def clearTiles (s : State) : List Nat :=
  (s.flights.filter fun f => let d := tget (fun _ => []) s.parts.clearDigest f.part
    decide (d ≠ []) && decide ((s.image f.part f.image).map (fun m => m.digest) = some d)).flatMap fun f => f.tiles
/-- Is a wipe of a partition outstanding? -/
def wipeRings (s : State) : List Nat := (s.rings.filter fun x => x.2.out.any fun d => match d.work with | .wipe _ _ => true | _ => false).map fun x => s.rd (fRPart x.1)
def quadsHost (s : State) : List Nat :=
  partQuads s (wakeParts s ++ if s.link.d3hot then [] else ringParts s fun g => decide (g.st ≠ 0))
/-- Lockkeepers: bucket-table entries and wipes. -/
def quadsKeeper (s : State) : List Nat := partQuads s (s.buckets.map (fun b => b.part) ++ wipeRings s)

/-- Does a ring's barge use a port? -/
def portBarge (s : State) (p : Nat) (b : Barge) : Bool :=
  (b.entries s).any fun e => decide (routeOf s (remEntry s b.part e).2.2.1 = some p)
/-- Is a learned route of a port in use: a valid remote-target entry names its module (DEDUCED, log entry 13)? -/
def routeUsed (s : State) (p : Nat) : Bool :=
  s.regs.any fun x =>
    decide (0x500000 ≤ x.1) && decide (x.1 < 0x508000) && nbit x.2.toNat 63 && nbit x.2.toNat 62 && decide (nbits x.2.toNat 61 58 = p)
      && s.regs.any fun y => decide (0x2000 ≤ y.1) && decide (y.1 < 0x3000) && decide (y.1 % 16 = 0) && nbit y.2.toNat 63 && decide (nbits y.2.toNat 23 0 = nbits x.2.toNat 23 0)
/-- Does an open reduction group use a port? -/
def groupUses (s : State) (p : Nat) : Bool :=
  (List.range 256).any fun n => rgValid s n && (List.range 256).any fun b => (bucketPeers s n b).any fun m => decide (routeOf s m = some p)
/-- The voters that keep a port up, but for its link partner. -/
def portVotes (s : State) (p : Nat) : Nat :=
  b2n ((!s.link.d3hot && (s.barges.any (portBarge s p) || s.buckets.any fun b => b.post.isSome && bucketUses s p b))
      || (wakeParts s).any fun q => decide (s.quadPart (portQuad p) = some q))
    + 2 * b2n (routeUsed s p || groupUses s p)

/-! ### The forms of the domains (15 R290) -/

/-- A domain after its votes are looked at: without a vote it starts to drop; a vote in the first 18 µs of the 20 abandons the entry, a
later one completes it. -/
def domNext (mile : Nat) (wanted : Bool) (d : DomForm) : DomForm :=
  match d, wanted with
  | .up, false => .entering mile
  | .entering m0, true => if mile < m0 + 18000 then .up else .late
  | .low, true => .leaving
  | x, _ => x
/-- The voters of the islands, clocks and HBM quadrants, by domain. -/
def domVotes (s : State) : List Nat :=
  let host := hostTiles s
  let keep := keeperTiles s
  let clear := clearTiles s
  let act := partTiles s (activeParts s ++ wakeParts s) ++ s.power.wakeTiles
  let qh := quadsHost s
  let qk := quadsKeeper s
  (List.range 60).map (fun t => b2n (host.contains t) + 2 * b2n (keep.contains t) + 8 * b2n (clear.contains t))
    ++ (List.range 60).map (fun t => b2n (act.contains t))
    ++ [0, 1, 2, 3].map (fun q => b2n (qh.contains q) + 2 * b2n (qk.contains q) + 8 * b2n (s.power.bgVote.contains q))

/-- The voters of a run of domains together. -/
def orVotes (l : List Nat) : Nat := l.foldl (· ||| ·) 0
/-- Are all tiles in retention and all HBM in self-refresh (15 R289)? -/
def allLow (t : Tbl DomForm) : Bool := (List.range 60 ++ [120, 121, 122, 123]).all fun d => decide (tget dom0 t d = DomForm.low)
/-- Are all tile clocks gated; is all HBM up? -/
def allGated (t : Tbl DomForm) : Bool := (List.range 60).all fun n => decide (tget dom0 t (60 + n) = DomForm.low)
def allHbmUp (t : Tbl DomForm) : Bool := [120, 121, 122, 123].all fun d => decide (tget dom0 t d = DomForm.up)
/-- PWR_STATUS.state (15 R289). A flight counts as running from launch_ok (09 R172), on the tiles that are up. Conditions that R289 names for no state show as 0 while a
tile clock runs, and otherwise as 4 (DESIGN CHOICE, log entry 13). -/
def moduleState (s : State) (votes : List Nat) : Nat :=
  let moving := s.power.dom.any fun x => match x.2 with | .entering _ | .late | .leaving => true | _ => false
  let ports := List.range 16
  if s.flights.any (fun f => decide (f.step ≠ .check) && f.tiles.any (tileReady s)) || s.barges.any (fun b => b.admitted && decide (b.engine < 60) && tileReady s b.engine) then 0
  else if moving then 4
  else if allLow s.power.dom then
    if ports.all (portDark s) && s.flag fDormantEn && !s.power.boardVote && votes.all (fun v => !nbit v 0) then 3
    else if ports.all (fun p => portUp s p || portDark s p) then 2
    else 4
  else if !allGated s.power.dom then 0
  else if allHbmUp s.power.dom && ports.all (portUp s) then 1
  else 4

/-- A port with no vote asks its partner to go dark once all else is in its low form; a vote cast for a dark port starts one wake tone
(11 R226, 15 R288). -/
def portVote (s : State) (low : Bool) (p : Nat) : State :=
  let v := portVotes s p
  if portUp s p ∧ v = 0 ∧ low ∧ portIdle s p ∧ !(s.port p).darkAsked then
    s.modPort p fun g => { g with darkAsked := true, ctlq := g.ctlq ++ [.dark false] }
  else if portDark s p ∧ v ≠ 0 ∧ !(s.port p).voted then s.modPort p fun g => { g with tone := true, voted := true }
  else if v = 0 ∧ (s.port p).voted then s.modPort p fun g => { g with voted := false }
  else s

/-- Does the model look at votes: the module runs, and no warm reset or fatal error is in progress? -/
def votesRun (s : State) : Bool := (s.power.step.any fun k => decide (k ≥ 8)) && !s.isFatal && s.trust.warm.isNone

/-- Every domain follows its votes (the clock of a tile that the scratchpad clear program runs on goes on without one: DESIGN CHOICE, log
entry 13), and PWR_VOTE and PWR_STATUS show them (15 R288 to R290, R296). -/
def voteRefresh (s : State) : State :=
  if !votesRun s then s
  else
    let votes := domVotes s
    let keepIdle := !s.flag fStandbyEn
    let busy := clearTiles s
    let pv := (List.range 16).map fun p => portVotes s p + 4 * b2n (!portDark s p && decide (s.rd (fPortState p) ≠ 0))
    let any := votes.any (· ≠ 0) || pv.any (· ≠ 0) || s.power.boardVote
    let dom1 := (List.range 124).foldl (fun t d =>
      tset dom0 t d (domNext s.mile (decide (lget 0 votes d ≠ 0) || (decide (60 ≤ d) && decide (d < 120) && busy.contains (d - 60)) || (keepIdle && (decide (d < 60) || decide (d ≥ 120)))) (tget dom0 t d))) s.power.dom
    let dom2 := tset dom0 dom1 140 (domNext s.mile any (tget dom0 dom1 140))
    let s1 := { s with power := { s.power with dom := dom2 } }
    let s2 := (List.range 16).foldl (fun t p => portVote t (allLow dom2) p) s1
    s2.wrAll [(fVotes 0, orVotes ((votes.drop 60).take 60)), (fVotes 1, orVotes (votes.take 60)), (fVotes 2, orVotes (votes.drop 120)),
      (fVotes 3, orVotes pv), (fPwrState, moduleState s2 (votes ++ pv))]

/-- The outcome of a command after which votes may stand differently. -/
def runV (c : Instr) (t : State) : Out := run c (voteRefresh t)
/-- The same from the condition alone: Lean compiles no term of a constructor whose number is above 243. -/
def runVIf (ok : Bool) (t : State) : Out := runIf ok (voteRefresh t)

/-! ### Transitions -/

/-- What enters retention, gating or self-refresh (15 R288; 17 R323, R328): cores are off; scratchpads, gates, stride programs and a core's
counters are held; the patrol of a self-refreshed stack holds. A core that a flight holds, which only D3hot leaves without a vote, keeps its
state and waits (DESIGN CHOICE, log entry 13). -/
def domLow (s : State) (d : Nat) : State :=
  if d < 60 then [0, 1, 2, 3].foldl (fun t k => t.modCore (4 * d + k) fun c => if c.phase = .idle then
    { progs := c.progs, cntData := c.cntData, cntWrite := c.cntWrite, cntEcc := c.cntEcc, cntShadow := c.cntShadow, cntWait := c.cntWait } else c) s
  else if 120 ≤ d ∧ d < 124 then (quadStacks (d - 120)).foldl (fun t st => t.wr ⟨0xA00100 + 8 * st, 6, 6⟩ 1) s
  else s
def domUpAgain (s : State) (d : Nat) : State :=
  if 120 ≤ d ∧ d < 124 then
    (quadStacks (d - 120)).foldl (fun t st => { t.wr ⟨0xA00100 + 8 * st, 6, 6⟩ 0 with
      back := { t.back with trained := (List.range 16).foldl (fun u c => tset nat0 u (16 * st + c) t.mile) t.back.trained } }) s
  else s
def setDom (s : State) (d : Nat) (f : DomForm) : State := { s with power := { s.power with dom := tset dom0 s.power.dom d f } }
/-- DOMAIN_TRANSITION_DONE: an entry is complete, and a late vote starts the exit at once; or the domain is up again (15 R290). -/
def domDone (s : State) (d : Nat) : State :=
  if !votesRun s then s
  else match tget dom0 s.power.dom d with
  | .entering _ => clockRefresh (domLow (setDom s d .low) d)
  | .late => domLow (setDom s d .leaving) d
  | .leaving => clockRefresh (domUpAgain (setDom s d .up) d)
  | _ => s

end Sys2Proof.Machine
end

