-- ==== Sys2Proof/Machine/PartOps.lean ====
section
/-! DEFINITION. Starting and stopping partitions (16 R311 to R314, R317) and warm resets (16 R303). -/

namespace Sys2Proof.Machine
open Sys2Proof

def fGo : Fld := ⟨0x1440, 0, 0⟩
def fPartFault : Fld := ⟨0x1440, 1, 1⟩
def fBusyReject : Fld := ⟨0x1440, 2, 2⟩

/-- Does the primary lockkeeper take requests: released, the tiles ready, no fatal error, no warm reset? -/
def keeperOn (s : State) : Bool := votesRun s && s.trust.released

/-- A write of go (16 R311, R312, R317): while a block is in progress, in a warm reset too, it is rejected as busy; else go reads 1 and the block
is read through the host window, and what the read brings waits while the lockkeeper takes no requests (log entry 16). -/
def partGo (s : State) (block : Nat) : State :=
  if s.isFatal then s
  else if s.flag fGo then s.wr fBusyReject 1
  else
    let a := block % 2 ^ 64 / 128 * 128
    let s1 := { s with parts := { s.parts with op := some {} } }.wrAll [(⟨0x1440, 63, 7⟩, a / 128), (fGo, 1)]
    if s1.dlActive && busOk s1 a 128 then hostAsk s1 .startBlock a 128 else startFault s1

/-- The completion record of a block (16 R311, 03 R51), after which go reads 0. -/
def partRecord (s : State) (op : PartOp) (status result : Nat) : State :=
  let rec_ := leBytes 8 (op.assign * 2 ^ 32 + status * 2 ^ 24 + (if op.start then 0x80 else 0x81) * 2 ^ 16 + 1)
    ++ leBytes 8 op.tag ++ leBytes 8 s.mile ++ leBytes 8 result
  let s1 := if s.dlActive then hostPost s op.cpl rec_ else s
  { s1 with parts := { s1.parts with op := none } }.wr fGo 0

/-- The fields of a block (16 R311). -/
def blockNat (b : List Byte) (o n : Nat) : Nat := leNat (sliceB b o n)
def blockOp (b : List Byte) : PartOp :=
  let w := blockNat b 0 8
  { part := nbits w 9 8, start := decide (nbits w 7 0 ≠ 2), quads := nbits w 15 12, assign := nbits w 63 32, priv := nbit w 16, force := nbit w 17,
    cpl := blockNat b 8 8, tag := blockNat b 16 8, digest := let d := sliceB b 0x20 48; if d.all (· = 0#8) then [] else d,
    measured := sliceB b 0 8 ++ sliceB b 0x20 48, step := 1 }
/-- Is a block malformed (16 R311, R312)? -/
def blockBad (b : List Byte) : Bool :=
  let w := blockNat b 0 8
  let op := nbits w 7 0
  (decide (op ≠ 1) && decide (op ≠ 2)) || decide (nbits w 11 10 ≠ 0) || decide (nbits w 31 18 ≠ 0) || decide (blockNat b 0x18 8 ≠ 0)
    || decide (blockNat b 0x50 48 ≠ 0) || (decide (op = 2) && decide (nbits w 15 12 ≠ 0))
/-- Would a start leave more than one partition started in module-wide interleave (16 R312, 01 R22)? -/
def wideClash (s : State) (op : PartOp) : Bool := op.start && s.flag fModuleWide && [0, 1, 2, 3].any fun p => decide (p ≠ op.part) && started s p
/-- Is a block refused (16 R312)? -/
def blockRefused (s : State) (b : List Byte) (op : PartOp) : Bool :=
  blockBad b || (if op.start then decide (op.quads = 0) || started s op.part
      || ([0, 1, 2, 3].any fun p => decide (p ≠ op.part) && started s p && decide (s.rd (fPartQuads p) &&& op.quads ≠ 0)) || wideClash s op
    else decide (s.rd (fPartState op.part) ≠ 2))

/-- The quadrants that a start scrubs (16 R313). -/
def scrubMask (s : State) (op : PartOp) : Nat :=
  lsum ([0, 1, 2, 3].map fun q =>
    if nbit op.quads q && (op.force || (match tget (fun _ => none) s.parts.last q with
      | none => true
      | some l => decide (l.assign ≠ op.assign) || decide (l.quads ≠ op.quads) || decide (l.wide ≠ s.flag fModuleWide))) then 2 ^ q else 0)

/-- Has no flight launched on the quadrants' tiles since the zeroing at cold reset (16 R315)? -/
def pristineOf (s : State) (quads : Nat) : Bool := [0, 1, 2, 3].all fun q => !nbit quads q || !s.parts.touched.contains q
/-- A start that passes its check: state 1 (16 R313). -/
def startBegin (s : State) (op : PartOp) : State :=
  let m := scrubMask s op
  let p := op.part
  let s1 := { s with parts := { s.parts with
    op := some { op with scrub := m, step := if m = 0 then 2 else 1 }
    clearMile := if m = 0 then s.parts.clearMile else tset nat0 s.parts.clearMile p 0 } }
  s1.wrAll ([(fPartState p, 1), (fPartQuads p, op.quads), (fPartScrubbed p, 0), (fPartPristine p, b2n (pristineOf s op.quads)),
      (fPartPriv p, b2n op.priv), (fPartAssign p, op.assign)]
    ++ if m = 0 then [] else [(fPartClear p, 0)])

/-- A stop begins (16 R314): flights stop, rings go out of service without records, bucket-table entries are freed, barges not admitted
are dropped. -/
def stopBegin (s : State) (op : PartOp) : State :=
  let p := op.part
  let s1 := stopFlights ({ s with parts := { s.parts with op := some { op with step := 1 } } }.wr (fPartState p) 3) p
  let s2 := (List.range 1024).foldl (fun t r =>
    if t.rd (fRPart r) = p ∧ ((t.ring r).st ≠ 0 ∨ t.flag (fEnable r)) then ringOff (t.wr (fEnable r) 0) r else t) s1
  let s3 := dropAtts s2 fun t r => decide (t.rd (fRPart r) = p)
  let s4 := (s3.buckets.filter fun b => decide (b.part = p)).foldl bucketFree s3
  { s4 with barges := s4.barges.filter fun b => decide (b.part ≠ p) || b.admitted }

/-- START_BLOCK_RETURN (16 R311 to R314). While the primary lockkeeper takes no requests the read stays outstanding (DESIGN CHOICE, log
entry 16). -/
def blockReturn (s : State) (status : CplStatus) (data : List Byte) : State :=
  let is (q : HostReq) : Bool := decide (q.kind = ReqFor.startBlock)
  if !(s.reqs.any is) ∨ !keeperOn s then s
  else
    let s1 := dropReq s is
    let b := takePad 128 data
    let op := blockOp b
    if s1.parts.op.isNone then s1
    else if status ≠ .ok ∨ op.cpl % 32 ≠ 0 then startFault s1
    else if blockRefused s1 b op then
      partRecord (if !blockBad b && wideClash s1 op then s1.wr fModeRejected 1 else s1) op 0x41 0
    else if op.start then startBegin s1 op else stopBegin s1 op

/-- Zeros and valid check bits in every codeword of a quadrant's stacks (16 R313). -/
def scrubQuad (s : State) (q : Nat) : State :=
  let inQ (k : Nat) : Bool := (quadStacks q).contains (k / stackBytes)
  let s1 := { s with
    hbm := s.hbm.filter fun x => !inQ x.1
    hbmUe := s.hbmUe.filter fun x => !inQ (64 * x.1)
    hbmCe := s.hbmCe.filter fun x => !inQ (64 * x.1)
    hbmCeEntry := s.hbmCeEntry.filter fun x => !inQ (64 * x.1)
    back := { s.back with passStart := (quadStacks q).foldl (fun t st => tset nat0 t st s.mile) s.back.passStart } }
  (quadStacks q).foldl (fun t st => (t.inc ⟨0xA00100 + 8 * st, 63, 48⟩).wrAll [(⟨0xA00100 + 8 * st, 31, 8⟩, 0), (⟨0xA00100 + 8 * st, 7, 7⟩, 0)]) s1
/-- scrub_done: the quadrants are zero, and the interleave mode takes effect (16 R313, 01 R22, 17 R323). When it changes, what every quadrant
held under the other mode is void: the next start of any of them scrubs. -/
def scrubDone (s : State) (op : PartOp) : State :=
  let s1 := ([0, 1, 2, 3].filter fun q => nbit op.scrub q).foldl scrubQuad s
  let wide := s1.flag fModuleWide
  { s1 with hbmWide := wide, parts := { s1.parts with op := some { op with step := 2 }, last := if wide = s.hbmWide then s1.parts.last else [] } }

/-- A domain is voted up for a moment. -/
def castUp (s : State) (d : Nat) : State := setDom s d (domNext s.mile true (tget dom0 s.power.dom d))
/-- Trap records of tiles reset (18 R338). -/
def trapsClear (s : State) (tiles : List Nat) : State :=
  tiles.foldl (fun t n => [0, 1, 2, 3].foldl (fun u k => [0, 1, 2].foldl (fun v i => v.setReg (aTrap (4 * n + k) i) 0#64) u) t) s
/-- The last step of a start, and of a restart under a warm reset, which keeps the trap records (16 R303, R313; 18 R338): gates zeroed, bucket-table
entries and trap records reset, ledger 6 extended, islands and ports voted up, state 2. -/
def partRelease (s : State) (p quads : Nat) (measured : List Byte) (warm : Bool) : State :=
  let tiles := (List.range 60).filter fun t => nbit quads (tileQuad t)
  let s1 := tiles.foldl (fun t n => t.modTile n fun ti => { ti with gates := [], gateOps := [] }) s
  let s2 := (s1.buckets.filter fun b => decide (b.part = p)).foldl bucketFree s1
  let s3 := { s2 with slots := s2.slots.filter fun x => decide (rgPart s2 (x.1 / 64) ≠ p) }
  let s4 := if warm then s3 else trapsClear s3 tiles
  let s5 := ledgerExtend s4 6 0x07 (sha384 measured)
  let s6 := ((tiles ++ tiles.map (60 + ·)) ++ ([0, 1, 2, 3].filter fun q => nbit quads q).map (120 + ·)).foldl castUp s5
  let s7 := ((List.range 16).filter fun x => nbit quads (portQuad x) && portDark s6 x).foldl (fun t x => t.modPort x fun g => { g with tone := true }) s6
  s7.wrAll [(fPartState p, 2), (fPartPristine p, b2n (pristineOf s7 quads))]

/-- PARTITION_START_STEP_DONE (16 R313). -/
def startStep (s : State) : State :=
  if !keeperOn s then s
  else match s.parts.op with
  | none => s
  | some op =>
    let p := op.part
    if !op.start ∨ s.rd (fPartState p) ≠ 1 then s
    else if op.step = 1 then scrubDone s op
    else
      let l : QuadLast := ⟨op.assign, op.quads, s.flag fModuleWide⟩
      let s1 := { s with parts := { s.parts with
        last := ([0, 1, 2, 3].filter fun q => nbit op.quads q).foldl (fun t q => tset (fun _ => none) t q (some l)) s.parts.last
        clearDigest := tset (fun _ => []) s.parts.clearDigest p op.digest
        measured := tset (fun _ => []) s.parts.measured p op.measured } }
      partRecord ((partRelease s1 p op.quads op.measured false).wr (fPartScrubbed p) (b2n (decide (op.scrub = op.quads)))) op 0 op.scrub

/-- PARTITION_STOP_DRAINED: every flight has stopped and every admitted barge has completed (16 R314). -/
def stopDrained (s : State) : State :=
  if !keeperOn s then s
  else match s.parts.op with
  | none => s
  | some op =>
    let p := op.part
    if op.start ∨ s.rd (fPartState p) ≠ 3 ∨ s.barges.any (fun b => decide (b.part = p)) ∨ s.flights.any (fun f => decide (f.part = p)) then s
    else
      let s1 := s.wrAll [(fPartState p, 0), (fPartQuads p, 0)]
      partRecord (ledgerExtend s1 6 0x08 (sha384 (Config.measured 0x08 [p]))) op 0 0

/-! ### Warm reset (16 R303) -/

/-- A warm reset is requested: rings out of service, their state 0 though a write may be pending (18 R338), flights stop without entries, barges not admitted are dropped, Up ports go down. -/
def warmRequest (s : State) : State :=
  if !keeperOn s then s
  else
    let ps := [0, 1, 2, 3].filter fun p => decide (s.rd (fPartState p) = 2)
    let s0 := { s with back := { s.back with gap := some s.back.latestAt } }
    let s1 := s0.putTrust { s0.trust with warm := some 0, warmParts := ps }
    let s2 := [0, 1, 2, 3].foldl stopFlights s1
    let s3 := (List.range 1024).foldl (fun t r => if (t.ring r).st = 0 ∧ !t.flag (fEnable r) then t else ringOff (t.wr (fEnable r) 0) r) s2
    let s4 := { (List.range 1024).foldl (fun t r => if t.rd (fRState r) = 0 then t else t.wr (fRState r) 0) (dropAtts s3 fun _ _ => true) with
      barges := s3.barges.filter fun b => b.admitted }
    (List.range 16).foldl (fun t p => if portLive t p then portDown t p 0 0 true else t) s4

/-- A write of TOLL_CTRL (16 R318): without the key it is ignored. -/
def warmWrite (s : State) (data : Nat) : State := if nbits data 15 8 = 0xA5 ∧ nbit data 0 then warmRequest s else s

/-- quiet: flights and barges are gone, HBM refreshes itself, the wear record is taken. -/
def warmQuiet (s : State) : State :=
  if !s.flights.isEmpty ∨ !s.barges.isEmpty then s
  else
    let s1 := [120, 121, 122, 123].foldl (fun t d => domLow (setDom t d .low) d) s
    let s2 := { s1 with failBuf := s1.failBuf ++ [FlashRec.wear (wearRecord s1) false] }
    s2.putTrust { s2.trust with warm := some 1, released := false }
/-- A step of the measured start with the warm marker; recovery when no slot is valid. -/
def warmMeasure (s : State) : State :=
  let s1 := measureStep s false
  if s1.trust.meas ≠ 0 then s1
  else s1.putTrust { s1.trust with warm := if s1.trust.released then some 2 else none }
/-- A site is condemned: its record goes to the failure log, and the next cold reset that finds it there processes it (01 R11; 17 R327). -/
def condemn (s : State) (site : Nat) : State :=
  if s.flash.condemned.contains site ∨ s.failBuf.contains (FlashRec.condemn site) then s
  else { s with failBuf := s.failBuf ++ [FlashRec.condemn site] }
/-- A tile failure: fatal, its condemnation written for the next cold reset (14 R272, R273; 01 R11). -/
def tileFails (s : State) (n : Nat) : State :=
  condemn (errFatal s (tileWharf n) 0x80 1 n 0 ((s.tilePart n).getD 0)) (s.tileSite n)
/-- The self-test of a warm reset. -/
def warmTest (s : State) (failed : List Nat) : State :=
  if failed.isEmpty then s.putTrust { s.trust with warm := some 3 } else failed.foldl tileFails s
/-- Every partition that was started restarts without scrub; ports hail. -/
def warmRestart (s : State) : State :=
  let s0 := [120, 121, 122, 123].foldl (fun t d => domUpAgain (setDom t d .up) d) s
  let s1 := s0.trust.warmParts.foldl (fun t p =>
    (partRelease t p (t.rd (fPartQuads p)) (tget (fun _ => []) t.parts.measured p) true).wr (fPartScrubbed p) 0) s0
  let s2 := (List.range 16).foldl (fun t p => if t.flag (fLnkEnable p) && decide (t.rd (fPortState p) = 0) then hailBegin t p else t) s1
  s2.putTrust { s2.trust with warm := none, warmParts := [] }
/-- WARM_RESET_STEP_DONE (16 R303). -/
def warmStep (s : State) (failed : List Nat) : State :=
  if s.isFatal then s
  else match s.trust.warm with
  | some 0 => warmQuiet s
  | some 1 => warmMeasure s
  | some 2 => warmTest s failed
  | some 3 => warmRestart s
  | _ => s

end Sys2Proof.Machine
end

