-- ==== Sys2Proof/Machine/PowerOps.lean ====
section
/-! DEFINITION. Power, clocks and heat: the cold start, the input, budgets, temperatures, the fatal sequence (01 R1, R11; 06 R111;
14 R273; 15; 19 R342, R343). -/

namespace Sys2Proof.Machine
open Sys2Proof

def fInputW : Fld := ⟨0x800008, 63, 48⟩
def fInputV : Fld := ⟨0x800008, 47, 36⟩
def fHotTemp : Fld := ⟨0x800008, 35, 28⟩
def fHotTile : Fld := ⟨0x800008, 27, 22⟩
def fSag : Fld := ⟨0x800008, 18, 18⟩
def fCapUnmet : Fld := ⟨0x800008, 17, 17⟩
def fCapLimited : Fld := ⟨0x800008, 16, 16⟩
def fInputHi : Fld := ⟨0x800008, 15, 15⟩

/-- A power or thermal limit applied: a corrected entry of cause 0x08 (14 R272, 15 R295), with the partition of the unit but for the module's
own limits. -/
def limitEvent (s : State) (w code : Nat) : State :=
  errRaise s { wharf := w, cls := 0, cause := 0x08, kind := 11, part := if code ≤ 2 then 0 else s.wharfPart w, detail := code }
/-- A shutdown: fatal, cause 0x85 (15 R295); after a fatal error an entry with further = 1 (14 R273). -/
def shutdown (s : State) (w code : Nat) : State := errFatal s w 0x85 11 0 code (if code = 3 ∨ code = 4 ∨ code = 5 then s.wharfPart w else 0)
def State.modPower (s : State) (f : PowerSt → PowerSt) : State := { s with power := f s.power }

/-! ### Cold start (15 R281) -/


/-- The rails of step 5 in its order; the host die's last (15 R281). -/
def railOrder : List Rail := [.whf, .mesh, .hbmVpp, .hbmVdd, .hbmVddq, .opt, .tsram, .tile, .host]
/-- The rails that `keep` does not keep fall, in the reverse of the order in which they rose; with the host die's its power good. -/
def railsFall (s : State) (keep : Rail → Bool) : State :=
  { s with
    power := { s.power with rails := s.power.rails.filter keep, fell := s.power.fell ++ (s.power.rails.filter fun r => !keep r).reverse }
    pins := { s.pins with hostPwrok := s.pins.hostPwrok && keep .host } }
/-- The module without power: fuses, flash and what has been sent remain (16 R299, 17 R327, 18 R338). -/
def unpowered (s : State) : State :=
  { State.reset with
    pending := s.pending
    free := s.free
    regs := s.regs.filter fun p => fuseReg p.1
    posted := s.posted
    bmcOut := s.bmcOut
    hailOut := s.hailOut
    flitOut := s.flitOut
    urSent := s.urSent
    flash := s.flash
    back := { daily := s.flash.daily }
    power := { mv := s.power.mv }
    pins := { addrSel := s.pins.addrSel }
    trust := { slots := match s.trust.receiving with | some i => s.trust.slots.set i {} | none => s.trust.slots
               bootA := s.trust.bootA
               bootB := s.trust.bootB
               trialCold := s.trust.trialCold
               staged := s.trust.staged
               fusedSvn := s.trust.fusedSvn
               serial := s.trust.serial
               debug := s.trust.debug
               lik := s.trust.lik
               likFlash := s.trust.likFlash
               root := s.trust.root
               chain := s.trust.chain } }
/-- The module without power, its rails fallen in the reverse of the order in which they rose. -/
def railsGone (s : State) : State := { unpowered s with power := { (unpowered s).power with fell := s.power.fell ++ s.power.rails.reverse } }
/-- Is an input voltage in the range that input_hi shows (15 R278)? -/
def inputIsHigh (mv : Nat) : Bool := decide (48000 < mv ∧ mv ≤ 52000)
/-- POWER_UP: the cold start begins (15 R281). -/
def powerUp (s : State) : State :=
  if s.power.mv ≤ 38000 then s
  else ((unpowered s).modPower fun p => { p with step := some 0 }).wrAll [(fInputV, s.power.mv / 100), (fInputHi, b2n (inputIsHigh s.power.mv))]

/-- The last wear record is restored: the registers, no laser being lit yet, and the bias at which each is lit again (17 R327). -/
def wearRestore (s : State) : State :=
  match s.flash.wear.getLast? with
  | some w =>
    let one (t : State) (i : Nat) : State :=
      let q := lget 0#64 w i
      let b := nbits q.toNat 47 36
      ((t.setReg (aOpt (i / 32) (0x100 + 8 * (i % 32))) q).wr (fBias (i / 32) (i % 32)) 0).modPort (i / 32) fun g =>
        if b = 0 then g else { g with startBias := tset (fun j => Config.startBias (32 * (i / 32) + j)) g.startBias (i % 32) b }
    (List.range 16).foldl sparesShow ((List.range 512).foldl one s)
  | none => s

/-- The row fused as mapped out in a core (06 R111). -/
def row0 : Nat → Nat := fun _ => 128
/-- A failing physical row found in a core (06 R111): mapped out and fused while the spare row is unused; one other than the fused one fails the
tile, a second one of the same self-test too (DESIGN CHOICE, log entry 16). -/
def rowFound (s : State) (uid row : Nat) : State × List Nat :=
  if s.rd (fRowState uid) = 0 then
    ({ s.wrAll [(fArrayMap uid, row), (fRowState uid, 2)] with flash := { s.flash with rowFuse := tset row0 s.flash.rowFuse uid row } }, [])
  else if tget row0 s.flash.rowFuse uid = row then (s.wr (fArrayMap uid) row, [])
  else (s, [uid / 4])
/-- The map of every core while no failing row is found in it: m = 128, row_state as before (06 R111). -/
def rowsNone (s : State) : State := (List.range 240).foldl (fun t u => if t.rd (fArrayMap u) = 0x80 then t else t.wr (fArrayMap u) 0x80) s
/-- The rows of a tile's four cores as they are before any is mapped out: another site now carries its ID (06 R111). -/
def rowsFresh (s : State) (tile : Nat) : State :=
  [0, 1, 2, 3].foldl (fun t c => { t.wrAll [(fArrayMap (4 * tile + c), 0x80), (fRowState (4 * tile + c), 0)] with
    flash := { t.flash with rowFuse := tset row0 t.flash.rowFuse (4 * tile + c) 128 } }) s
/-- The spare of a quadrant tested, and the lowest condemned site that carries a tile replaced (01 R11). The row maps are fuses of a site: the
spare's are unfused (DESIGN CHOICE, log entry 4). -/
def spareStep (s : State) (q : Nat) (ok : Bool) : State :=
  let st := s.rd (fSpareState q)
  if st = 1 ∨ st = 2 then s
  else match (quadSites q).find? fun x => s.flash.condemned.contains x && (s.siteTile x).isSome, ok with
  | _, false => s.wr (fSpareState q) 3
  | none, true => s.wr (fSpareState q) 0
  | some site, true =>
    let spare := lget 0 (quadSites q) (s.rd (fExcl q))
    let tile := (s.siteTile site).getD 0
    rowsFresh (s.wrAll [(fLtile tile, 0x40 + spare), (fSubst q, siteLocal spare), (fExcl q, siteLocal site), (fSpareState q, 2)]) tile
/-- Step 8: sites condemned before are replaced; rows are mapped out; tiles that fail now are condemned for the next cold reset; with fewer
than 60 working tiles the module is fatal, its entry's source that of power and clocks, kind 11 (DESIGN CHOICE, log entry 16); else
scratchpads are zero and ports enter hail (01 R1, R11; 05 R91; 06 R111; 14 R272). -/
def selfTest (s : State) (x : SelfTest) : State :=
  let s1 := [0, 1, 2, 3].foldl (fun t q => spareStep t q !(x.spareBad.contains q)) s
  let r := x.rows.foldl (fun (a : State × List Nat) p => let b := rowFound a.1 p.1 p.2; (b.1, a.2 ++ b.2)) (rowsNone s1, x.bad)
  let lost := (List.range 60).filter fun t => r.2.contains t || r.1.flash.condemned.contains (r.1.tileSite t)
  let s2 := lost.foldl (fun t n => condemn t (t.tileSite n)) r.1
  if !lost.isEmpty then errFatal s2 0 0x87 11 0 (60 - lost.length)
  else
    let s3 := { s2 with spad := [], tiles := [], cores := [], parts := { s2.parts with touched := [] } }.modPower fun p => { p with step := some 8 }
    (List.range 16).foldl (fun t p => if t.flag (fLnkEnable p) then hailBegin t p else t) s3

/-- A step raises its ready signal (15 R281). -/
def powerStep (s : State) (x : SelfTest) : State :=
  let to_ (n : Nat) (t : State) : State := t.modPower fun p => { p with step := some n }
  if s.isFatal then s
  else match s.power.step with
  | some 0 => to_ 1 ({ s with pins := { s.pins with stbyPg := true } }.modPower fun p => { p with rails := [.stby] })
  | some 1 => to_ 2 (tollShow s)
  | some 2 =>
    if s.trust.recovery then s
    else
    let s1 := measureStep s true
    if s1.trust.released then to_ 3 (flashShow (wearRestore s1)) else s1
  | some 3 => to_ 4 s
  | some 4 => to_ 5 ({ s with pins := { s.pins with hostPwrok := true } }.modPower fun p => { p with rails := p.rails ++ railOrder })
  | some 5 => clockRefresh (to_ 6 (s.wrAll ((List.range 60).map fun t => (fTileCeiling t, 1800))))
  | some 6 => to_ 7 { s with back := { s.back with passStart := (List.range 24).foldl (fun t st => tset nat0 t st s.mile) s.back.passStart } }
  | some 7 => selfTest s x
  | _ => s

/-- Have the steps 7a and 9 begun and not ended: UCIe training without dl_active, enabled ports that have not been Up (15 R281)? -/
def dlOpen (s : State) : Bool := s.power.dlBegun && !s.power.dlRose
def portsOpen (s : State) : Bool := (List.range 16).any fun p => s.flag (fLnkEnable p) && !s.power.wasUp.contains p
/-- A shutdown for which no code is stated (log entry 3). -/
def shutdownOpen (s : State) : State := { shutdown s 0 (Config.freeNat s.free % 2 ^ 16) with free := s.free + 1 }
/-- A step has not raised its ready signal in twice its time (15 R281): rail 0x06, oscillator or PLL 0x07, HBM training 0x05; a measured
start that does not end leaves the module in recovery; for UCIe training, which runs beside step 7 and has the shorter time, the self-test
and the ports no code is stated (log entry 3). -/
def powerTimeout (s : State) : State :=
  if s.isFatal then s
  else match s.power.step with
  | some 0 | some 3 | some 4 => shutdown s 0 6
  | some 1 | some 5 => shutdown s 0 7
  | some 2 => if s.trust.recovery then s else enterRecovery s
  | some 6 => if dlOpen s then shutdownOpen s else shutdown s 0 5
  | some 7 => shutdownOpen s
  | some _ => if dlOpen s || portsOpen s then shutdownOpen s else s
  | none => s

/-! ### The input (15 R278, R279) -/

/-- The input voltage crosses a threshold. STBY stays up while the input allows: below 36 V no value is stated (log entry 3). An input that
keeps STBY up no longer leaves the module without power: the rails fall in reverse, STBY last (15 R281; DEDUCED, log entry 16). -/
def inputChange (s : State) (mv : Nat) : State :=
  let s1 := s.modPower fun p => { p with mv := mv }
  if s.power.step.isNone then s1
  else
    let s2 := (s1.wr fInputV (min 0xFFF (mv / 100))).wr fInputHi (if inputIsHigh mv then 1 else s.rd fInputHi)
    if 36000 ≤ mv ∨ Config.stbyHolds mv then s2
    else railsGone s2
/-- Over-voltage for 10 ms between 48 and 52 V, or for 10 µs above. -/
def overVoltage (s : State) : State := if s.power.step.isSome ∧ s.power.mv > 48000 then shutdown s 0 2 else s
/-- Below 40 V for 2 ms, or below 36 V for 10 µs. -/
def underVoltage (s : State) : State := if s.power.step.isSome ∧ s.power.mv < 40000 then shutdown s 0 1 else s
/-- The sag limit is entered: every ceiling becomes 70 % of the running clock. -/
def sagEntry (s : State) : State :=
  if s.isFatal ∨ s.power.step.isNone ∨ s.flag fSag ∨ s.power.mv < 36000 ∨ s.power.mv ≥ 40000 then s
  else
    let s1 := (s.wrAll ((List.range 60).map fun t => (fTileCeiling t, s.rd (fTileClock t) * 7 / 10))).wr fSag 1
    limitEvent (clockRefresh (s1.modPower fun p => { p with rising := [] })) 0 2
/-- The sag limit ends: ceilings rise by the restore step. -/
def sagExit (s : State) : State :=
  if !s.flag fSag ∨ s.power.mv < 41000 then s else (s.wr fSag 0).modPower fun p => { p with rising := List.range 60 }

/-! ### Budgets (15 R282, R284, R285, R287) -/

/-- Voltage of an operating point in microvolts: linear between the points of R282. -/
def voltage (f : Nat) : Nat :=
  if f ≤ 400 then 550000
  else if f ≤ 800 then 550000 + (f - 400) * 125
  else if f ≤ 1200 then 600000 + (f - 800) * 150
  else if f ≤ 1600 then 660000 + (f - 1200) * 225
  else 750000 + (f - 1600) * 350
/-- Tile power at full activity, in milliwatts. -/
def fullPower (f : Nat) : Nat := 10000 + 65000 * f * voltage f * voltage f / (1600 * 750000 * 750000)
/-- The highest 25 MHz step within a budget, at least 0.40 GHz. -/
def stepWithin (mw : Nat) : Nat := ((List.range 57).map fun i => 400 + 25 * i).foldl (fun m f => if fullPower f ≤ mw then f else m) 400

/-- A limit of the cap as it acts: 3,600 W to 7,500 W. -/
def capLimit (v : Nat) : Nat := max 3600 (min 7500 v)
/-- The cap: sustained and peak limit, each the lower of its two values. -/
def moduleCap (s : State) : Nat :=
  let c (hi : Nat) : Nat := capLimit (s.rd ⟨0x800000, hi, hi - 15⟩)
  min (min (c 15) (c 47)) (min (c 31) (c 63))
/-- Does a tile take part in the exchange of budgets? One whose island is in retention, or on its way out of it, returns its budget; one whose
clock alone is gated keeps it (15 R285, R288). -/
def holdsBudget (s : State) (t : Nat) : Bool := match tget dom0 s.power.dom t with | .up | .entering _ => true | _ => false
def poolTiles (s : State) : List Nat := (List.range 60).filter fun t => holdsBudget s t
def demand (s : State) (t : Nat) : Nat := if holdsBudget s t then tget nat0 s.power.demand t else 0
def grant0 : Nat → Nat := fun _ => 75000

/-- The wharf dies that a site links to (01 R13). -/
def siteWharves (site : Nat) : List Nat :=
  let x := site % 8
  let y := site / 8
  (if y = 0 then [x / 4] else []) ++ (if x = 7 then [2 + y / 4] else []) ++ (if y = 7 then [4 + x / 4] else []) ++ (if x = 0 then [6 + y / 4] else [])
/-- What hot chiplets take from a tile's grant. -/
def tileCut (s : State) (t : Nat) : Nat := lsum ((siteWharves (s.tileSite t)).map fun w => tget nat0 s.power.chipCut w)

/-- POOL_EXCHANGE: the tile pool is formed and divided in proportion to demands; hot chiplets lower the grants of their neighbours by 10 W
more, or give them back. -/
def poolExchange (s : State) (eff other input : Nat) : State :=
  if !keeperOn s then s
  else
    let pool := min 1000 eff * moduleCap s - (other + other / 50)
    let qd (q : Nat) : Nat := lsum ((upFrom (15 * q) 15).map (demand s))
    let all := lsum ([0, 1, 2, 3].map qd)
    let share (q : Nat) : Nat := if all = 0 then pool / 4 else pool * qd q / all
    let cuts := (List.range 8).foldl (fun t w =>
      tset nat0 t w (if s.power.chipHot.any fun p => decide (p / 2 = w) then tget nat0 s.power.chipCut w + 10000 else 0)) s.power.chipCut
    let s1 := s.modPower fun p => { p with
      pool := [0, 1, 2, 3].map share
      capCut := false
      chipCut := cuts
      demand := p.demand.filter fun x => holdsBudget s x.1
      grant := (List.range 60).foldl (fun t n => if holdsBudget s n then t else tset grant0 t n 0) p.grant }
    let s2 := s1.wrAll [(fInputW, min 0xFFFF input), (fCapLimited, b2n s.power.capCut), (fCapUnmet, b2n (decide (pool < 19000 * (poolTiles s).length)))]
    s.power.chipHot.foldl (fun t p => limitEvent t (quadWharf (portQuad p)) 5) s2

/-- A tile's demand reaches its quadrant manager. -/
def tileDemand (s : State) (t mw : Nat) : State :=
  if !keeperOn s then s else s.modPower fun p => { p with demand := tset nat0 p.demand t mw }

/-- The grant of a tile: at most its demand; an equal share first, then the surplus in proportion to demand. -/
def grantOf (s : State) (t : Nat) : Nat :=
  let q := tileQuad t
  let ds := (upFrom (15 * q) 15).map (demand s)
  let pool := lget 0 s.power.pool q
  let e := pool / max 1 (ds.filter (· ≠ 0)).length
  let base := lsum (ds.map (min e))
  let d := demand s t
  min d (min d e + (pool - base) * d / max 1 (lsum ds)) - tileCut s t
/-- TILE_GRANT: the budget is set; a budget that allows a higher clock raises it. -/
def tileGrant (s : State) (t : Nat) : State :=
  if !keeperOn s ∨ !holdsBudget s t then s
  else
    let g := grantOf s t
    clockRefresh (s.modPower fun p => { p with
      grant := tset grant0 p.grant t g
      own := tset clock0 p.own t (max (tget clock0 p.own t) (stepWithin g)) })

/-- TILE_CLOCK_STEP: a tile over its grant lowers the clock it runs at by 25 MHz. -/
def clockStep (s : State) (t mw : Nat) : State :=
  if s.isFatal ∨ s.power.step.isNone then s
  else
    let s1 := s.wr (fTilePower t) (min 0xFF (mw / 1000))
    let f := s.rd (fTileClock t)
    if mw ≤ tget grant0 s.power.grant t ∨ f ≤ 400 then s1
    else limitEvent (clockRefresh ((s1.wr fCapLimited 1).modPower fun p => { p with own := tset clock0 p.own t (f - 25), capCut := true })) 0 1

/-! ### Droop (15 R283, 17 R325) -/

/-- Is a droop sensor being trimmed (17 R325)? -/
def droopTrimmed (s : State) (t sensor : Nat) : Bool := decide (s.mile < tget nat0 s.back.trimming (16 * t + sensor))
/-- The fall in millivolts at which a droop sensor trips: 40, or 30 beside a sensor that is being trimmed. Sensors are adjacent by number, the
last to the first, so that each has two (DESIGN CHOICE, log entry 16). -/
def droopPoint (s : State) (t sensor : Nat) : Nat :=
  if droopTrimmed s t ((sensor + 1) % 16) ∨ droopTrimmed s t ((sensor + 15) % 16) then 30 else 40
/-- A droop sensor's supply falls: at its trip point the tile stretches its cycles; a sensor being trimmed is masked. -/
def droopTrip (s : State) (t : Nat) (x : Droop) : State :=
  if s.isFatal ∨ s.power.step.isNone ∨ droopTrimmed s t x.sensor ∨ x.mv < droopPoint s t x.sensor then s
  else (s.inc (fTileDroop t)).modPower fun p => match tget (fun _ => none) p.stretch t with
    | some _ => p
    | none => { p with stretch := tset (fun _ => none) p.stretch t (some s.mile) }
/-- 64 cycles after the last sensor cleared the set period returns; more than 1 % of a 1 ms window stretched is a corrected entry. -/
def droopClear (s : State) (t : Nat) : State :=
  match tget (fun _ => none) s.power.stretch t with
  | none => s
  | some t0 =>
    let l := ((tget (fun _ => []) s.power.stretches t).filter fun x => decide (s.mile < x.2 + 1000000)) ++ [(t0, s.mile)]
    let sum := lsum (l.map fun x => x.2 - max x.1 (s.mile - 1000000))
    let s1 := s.modPower fun p => { p with stretch := tset (fun _ => none) p.stretch t none, stretches := tset (fun _ => []) p.stretches t l }
    if sum > 10000 then limitEvent s1 (tileWharf t) 6 else s1

/-! ### Temperatures (12 R229; 15 R286, R287) -/

def tThrottle (s : State) : Nat := min 100 (s.rd ⟨0x800020, 15, 8⟩)
def restoreMhz (s : State) : Nat := let v := s.rd ⟨0x800020, 23, 16⟩; if v = 0 then 25 else v
/-- The readings of a tile's sensors: one being trimmed, or not read, keeps its last (17 R325). -/
def sensors (s : State) (t : Nat) (l : List Nat) : Tbl Nat :=
  (List.range 8).foldl (fun a i => if s.mile < tget nat0 s.back.trimming (1024 + 8 * t + i) then a
    else tset nat0 a (8 * t + i) (l.getD i (tget nat0 a (8 * t + i)))) s.power.temps
def hottest (ts : Tbl Nat) (t : Nat) : Nat := lmax ((List.range 8).map fun i => tget nat0 ts (8 * t + i))
/-- What heat throttles: tile k, or the engine and adders of wharf die k − 60, whose set clock is the mesh's 2.0 GHz (DESIGN CHOICE, log entry
13). Its clock, its ceiling set, its reading, its wharf die and limit code. -/
def wharfClock0 : Nat → Nat := fun _ => 2000
def heatClock (s : State) (k : Nat) : Nat := if k < 60 then s.rd (fTileClock k) else tget wharfClock0 s.power.wharfCeil (k - 60)
def heatCeiling (s : State) (k c : Nat) : State :=
  if k < 60 then s.wr (fTileCeiling k) c else s.modPower fun p => { p with wharfCeil := tset wharfClock0 p.wharfCeil (k - 60) c }
def heatNow (s : State) (k : Nat) : Nat := if k < 60 then hottest s.power.temps k else tget nat0 s.power.wharfTemp (k - 60)
def heatWharf (k : Nat) : Nat := if k < 60 then tileWharf k else k - 60
def heatCode (k : Nat) : Nat := if k < 60 then 3 else 4
/-- A cut: the ceiling becomes 75 % of the present clock, a 25 MHz step, at least 0.40 GHz. -/
def thermalCut (s : State) (k : Nat) : State :=
  let s1 := (heatCeiling s k (max 400 (heatClock s k * 3 / 4 / 25 * 25))).modPower fun p => { p with
    cut := tset (fun _ => none) p.cut k (some s.mile)
    cool := tset (fun _ => none) p.cool k none
    rising := p.rising.filter (· ≠ k) }
  limitEvent (clockRefresh s1) (heatWharf k) (heatCode k)
/-- A unit at its reading: at t_throttle or above it is cut, unless a recheck is due; 3 °C below it is cool. -/
def heatAct (s : State) (k h : Nat) : State :=
  if h ≥ tThrottle s then
    (if (tget (fun _ => none) s.power.cut k).isNone then thermalCut s k else s.modPower fun p => { p with cool := tset (fun _ => none) p.cool k none })
  else s.modPower fun p => { p with
    cool := tset (fun _ => none) p.cool k (if h + 3 ≤ tThrottle s then some ((tget (fun _ => none) p.cool k).getD s.mile) else none) }
/-- A unit at its shutdown temperature for so many ticks shuts the module down, once for each time it reaches it. -/
def shutdownTemp (s : State) (key : Nat) (hot : Bool) (ticks w code : Nat) : State :=
  let put (x : Option (Nat × Bool)) (t : State) : State := t.modPower fun p => { p with hot := tset (fun _ => none) p.hot key x }
  let old := tget (fun _ => none) s.power.hot key
  let m0 := (old.map fun x => x.1).getD s.mile
  let seen := old.any fun x => x.2
  if !hot then put none s
  else if !seen ∧ s.mile ≥ m0 + ticks then shutdown (put (some (m0, true)) s) w code
  else put (some (m0, seen)) s
/-- PWR_STATUS shows the hottest tile. -/
def showHot (s : State) : State :=
  let m := lmax ((List.range 60).map fun t => s.rd (fTileTemp t))
  s.wrAll [(fHotTemp, m), (fHotTile, ((List.range 60).find? fun t => decide (s.rd (fTileTemp t) = m)).getD 0)]
def sampleTile (s : State) (t : Nat) (l : List Nat) : State :=
  let ts := sensors s t l
  let h := hottest ts t
  let s1 := showHot ((s.wr (fTileTemp t) (min 0xFF h)).modPower fun p => { p with temps := ts })
  let s2 := shutdownTemp s1 t (decide (h ≥ 105)) 10000 (tileWharf t) 3
  if s2.isFatal then s2 else heatAct s2 t h
def sampleWharf (s : State) (w temp : Nat) : State :=
  let s1 := shutdownTemp (s.modPower fun p => { p with wharfTemp := tset nat0 p.wharfTemp w temp }) (60 + w) (decide (temp ≥ 110)) 10000 w 4
  if s1.isFatal then s1 else heatAct s1 (60 + w) temp
def sampleStack (s : State) (st temp : Nat) : State :=
  let s1 := shutdownTemp s (100 + st) (decide (temp ≥ 105)) 0 (st / 3) 5
  if s1.isFatal then s1
  else if temp ≥ 95 then
    (if s1.power.stackHot.contains st then s1 else limitEvent (s1.modPower fun p => { p with stackHot := p.stackHot ++ [st] }) (st / 3) 4)
  else s1.modPower fun p => { p with stackHot := p.stackHot.filter (· ≠ st) }
/-- A chiplet over 80 °C with a ring clamped at 0 mW, one that its loop has lost or a search has not found (12 R238), is hot until it reads 78 °C
or lower. -/
def sampleChiplet (s : State) (p temp : Nat) : State :=
  let s1 := s.wr (fOptStat p 55 48) (min 0xFF temp)
  let clamped := (List.range 64).any fun r => decide (s1.rd (fHeater p r) = 0) && (decide (s1.rd (fLock p r) = 1) || decide (s1.rd (fLock p r) = 2))
  if temp > 80 ∧ clamped ∧ !s.power.chipHot.contains p then s1.modPower fun x => { x with chipHot := x.chipHot ++ [p] }
  else if temp ≤ 78 then s1.modPower fun x => { x with chipHot := x.chipHot.filter (· ≠ p) }
  else s1
/-- The bank's heater holds it at bank_setpoint while its port is not Off or Dark and the panel is between 25 and 65 °C; above that it is at
zero power and the bank follows the panel: event 0x05 (12 R229). -/
def sampleBank (s : State) (p panel temp : Nat) : State :=
  let off := decide (s.rd (fPortState p) = 0) || portDark s p
  let set := max 60 (min 80 (s.rd ⟨aOpt p 0, 47, 40⟩))
  let s1 := s.wr (fOptStat p 63 56) (if !off ∧ 25 ≤ panel ∧ panel ≤ 65 then set else min 0xFF temp)
  if panel > 65 ∧ !off then
    (if s.power.bankHot.contains p then s1 else optEvent (s1.modPower fun x => { x with bankHot := x.bankHot ++ [p] }) p 0x05 0 0)
  else s1.modPower fun x => { x with bankHot := x.bankHot.filter (· ≠ p) }
/-- THERMAL_SAMPLE. -/
def thermal (s : State) (x : Sample) : State :=
  if s.power.step.isNone then s
  else match x with
  | .tile t l => sampleTile s t l
  | .wharf w v => sampleWharf s w v
  | .stack st v => sampleStack s st v
  | .chiplet p v => if s.isFatal then s else sampleChiplet s p v
  | .bank p v b => if s.isFatal then s else sampleBank s p v b
/-- THROTTLE_RECHECK: 100 µs after a cut, a tile or wharf die still hot is cut again. -/
def recheck (s : State) (k : Nat) : State :=
  if s.isFatal ∨ (tget (fun _ => none) s.power.cut k).isNone then s
  else if heatNow s k ≥ tThrottle s then thermalCut s k
  else s.modPower fun p => { p with cut := tset (fun _ => none) p.cut k none }
/-- RESTORE_STEP: after 1 ms cool, or after a sag, the ceiling rises up to the tile's budget, a wharf die's to its set clock. -/
def restoreStep (s : State) (k : Nat) : State :=
  let cool := (tget (fun _ => none) s.power.cool k).any fun m => decide (s.mile ≥ m + 1000000)
  let sag := s.power.rising.contains k && decide (heatNow s k < tThrottle s)
  if s.isFatal ∨ (s.flag fSag ∧ k < 60) ∨ !(cool || sag) then s
  else
    let c := if k < 60 then s.rd (fTileCeiling k) else heatClock s k
    let own := if k < 60 then tget clock0 s.power.own k else 2000
    clockRefresh ((heatCeiling s k (max c (min (c + restoreMhz s) own))).modPower fun p => { p with
      rising := if c + restoreMhz s ≥ own then p.rising.filter (· ≠ k) else p.rising })

/-! ### Caps and wake (15 R284, R291, R296; 19 R343) -/

def capSet (s : State) (peak sustained : Nat) : State :=
  s.wrAll [(⟨0x800000, 63, 48⟩, min 0xFFFF peak), (⟨0x800000, 47, 32⟩, min 0xFFFF sustained)]
def wakeCast (s : State) : State := if s.link.d3hot then s else s.modPower fun p => { p with wakeVote := true }
def wakeEnds (s : State) : State := s.modPower fun p => { p with wakeVote := false, wakeTiles := [], boardVote := false }
def boardWake (s : State) : State := if s.power.step.isSome then s.modPower fun p => { p with boardVote := true } else s

/-! ### Fatal (14 R272, R273) -/

/-- Hardware fails in service. -/
def hwFails (s : State) (x : HwFail) : State :=
  match x with
  | .tile n => tileFails s n
  | .router site => errFatal s (quadWharf (siteQuad site)) 0x81 7 site 0 ((s.quadPart (siteQuad site)).getD 0)
  | .stack st ch => errFatal s (st / 3) 0x82 5 st ch (s.wharfPart (st / 3))
  | .tollhouse => errFatal s 0 0x84 12 0 0
  | .rail => errFatal s 0 0x85 11 0 6
  | .pll => errFatal s 0 0x85 11 0 7
  | .errq w => errFatal s w 0x88 13 0 0

/-- Step 4: every enabled ring halts at its first incomplete descriptor, last_status unchanged. -/
def fatalRings (s : State) : State :=
  dropReqs (s.rings.foldl (fun t x => if x.2.st = 1 then t.putRing x.1 { x.2 with st := 2, waiting := [], halting := [] } else t) s)
    fun k => match k with | .piece _ _ _ => false | _ => true
/-- The address that the I3C port answers: the dynamic one once it is assigned, before that the static one, 0x50 + ADDR_SEL, at which it also
accepts legacy I2C (19 R343, R344). -/
def i3cAddress (s : State) : Nat := s.pins.i3cAddr.getD (0x50 + s.pins.addrSel)
def i2cAccepts (s : State) (a : Nat) : Bool := s.pins.i3cAddr.isNone && decide (a = i3cAddress s)

/-- Step 5: the vector of every queue with irq_en, the alert to the board management controller on ALERT_N and as an in-band interrupt (19
R344); after a power or thermal shutdown the rails fall, and STBY stays up (15 R281). -/
def fatalAlert (s : State) : State :=
  let s1 := if s.dlActive then (List.range 8).foldl (fun t w => if t.flag (fErrIrqEn w) then msixRaise t (t.rd (fErrVec w)) else t) s else s
  let s2 := { s1 with
    pins := { s1.pins with alert := true, inBand := true }
    bmcOut := s1.bmcOut ++ [.alert (s1.reg 0x710000)] }
  if s1.rd ⟨0x710000, 59, 52⟩ = 0x85 then railsFall s2 fun r => decide (r = .stby) else s2
/-- A step of the fatal sequence completes: 1 logged, 2 compute stopped, 3 ports Off, 4 rings stopped, 5 alerted. -/
def fatalNext (s : State) : State :=
  match s.fatalStep with
  | some 0 => { s with fatalStep := some 1 }
  | some 1 => { s with fatalStep := some 2, cores := tmap core0 (fun _ c => if c.phase = .run then { c with phase := .stopped } else c) s.cores }
  | some 2 => { chooseUpstream ((List.range 16).foldl portOff s) with fatalStep := some 3 }
  | some 3 => { fatalRings s with fatalStep := some 4 }
  | some 4 => { fatalAlert s with fatalStep := some 5 }
  | _ => s

end Sys2Proof.Machine
end

