-- ==== Sys2Proof/Machine/Settings.lean ====
section
/-! DEFINITION. Settings applied at quiescent points, staged settings, and telemetry snapshots (03 R57; 16 R316; 17 R328; 18 R334 to R337). -/

namespace Sys2Proof.Machine
open Sys2Proof

/-! ### Staged settings and quiescent points -/

/-- What the command bits in a staged setting of a port's registers ask for (11 R227; 12 R233, R240). -/
def stagedAct (s : State) (off val mask : Nat) : State :=
  let hit (b : Nat) : Bool := nbit mask b && nbit val b
  if inBlk 0x400000 0x1000 16 off 0 then
    let p := (off - 0x400000) / 0x1000
    let s1 := if nbit mask 0 ∧ nbit val 0 ≠ s.flag (fLnkEnable p) then lnkEnable s p (nbit val 0) else s
    if hit 1 then lnkRehail s1 p else s1
  else if inBlk 0x410000 0x1000 16 off 0 then
    let p := (off - 0x410000) / 0x1000
    let s1 := if hit 0 then xtStart s p else s
    if hit 1 then swapNow s1 p else s1
  else s

/-- The body of a staged setting (03 R49, R57; 18 R335, R337): judged, written at once, or waiting for its block. -/
def stagedBody (r : Nat) (s : State) (f : Fetched) : State × Work :=
  let q := f.q
  let off := stOff q
  if !dHiZero q 2 26 ∨ off % 8 ≠ 0 ∨ !dHiZero q 5 40 ∨ !dZeroFrom q 6 then (s, judgeAs 0x41 (s.visible off))
  else match regInfo off, stagedCheck s (s.rd (fRPart r)) off (stVal q) (stMask q) with
  | some i, none => if i.st &&& stMask q = 0 then stagedLand stagedAct s r q
      else ({ s with stagedNext := s.stagedNext + 1 }, .staged (waitTicks (dq q 5)) s.stagedNext)
  | _, some st => (s, judgeAs st (s.visible off))
  | none, none => (s, judgeAs 0x41 0)

/-- Does a range reach an entry's apertures (13 R257)? -/
def reaches (s : State) (e a n : Nat) : Bool :=
  (dpaPoints a n).any fun x => match dpaLoc s x with
    | .remote e' _ | .remoteGate e' _ _ => decide (e' = e)
    | _ => false
/-- Has a barge of the partition a piece in flight to an entry's aperture (13 R256): on the mesh, or read and waiting for the host? -/
def remoteBusy (s : State) (p e : Nat) : Bool :=
  (s.mesh.any fun x => decide (x.tag = p) && match x.load with
    | .piece _ _ dpa bytes => reaches s e dpa bytes.length
    | _ => false)
  || s.barges.any fun b => decide (b.part = p) && !b.failed && b.awaiting.any fun k => reaches s e (b.pieceDst k).1 (b.pieceDst k).2

/-- A bitmap's register takes what waits for it; a bitmap made valid is polled as one with an active ring (03 R45). -/
def summaryApply (s : State) (p : Nat) : State :=
  let s1 := blkApply noAct s (.summary p)
  let changed := (s.pendingSt.any fun x => decide (x.1 = aSummary p)) || !(stagedWaiting s (.summary p)).isEmpty
  if changed && s1.flag (fSumValid p) then { s1 with polls := tset poll0 s1.polls p { backedOff := false, freshAt := some s.mile } } else s1
/-- A group entry takes what waits for it. Where that writes 1 to valid its counters clear, and the slots of the new group are numbered from
0, as its gates are zero (10 R189, R190; DEDUCED, log entry 16). -/
def groupApply (s : State) (n : Nat) : State :=
  let direct := s.groupSet.contains n && s.pendingSt.any fun x => decide (x.1 = aGrp n 0)
  let staged := (stagedWaiting s (.rgrp n)).any fun x => decide (stOff x.2.q = aGrp n 0) && nbit (stMask x.2.q) 63 && nbit (stVal x.2.q) 63
  let s1 := blkApply noAct s (.rgrp n)
  if (direct || staged) && rgValid s1 n then { s1 with slots := s1.slots.filter fun x => decide (x.1 / 64 ≠ n) }.setReg (aGrp n 0x38) 0#64 else s1
/-- Is a port's block at its quiescent point: the port not Up, before link start (18 R336; 11 R227)? Link start applies what waits at the
latest. -/
def portQuiet (s : State) (p : Nat) : Bool := !portLive s p && !s.isFatal
/-- A block applies what waits for its quiescent point, where that has come (18 R335, R336). A command comes between two polls of a
bitmap: what an earlier poll has read goes on with the address it was read from. -/
def stApply (s : State) (b : Blk) : State :=
  match b with
  | .ring r => if ringQuiet s r then ringApply s r else s
  | .summary p => summaryApply s p
  | .remote p e => if remoteBusy s p e then s else blkApply noAct s b
  | .rgrp n => if s.buckets.any fun x => decide (x.grp = n) then s else groupApply s n
  | .port p => if portQuiet s p then blkApply stagedAct s b else s
  | .mile => mileApply s

/-- STAGED_SETTING_TIMEOUT (03 R57): a descriptor whose block stands at its quiescent point writes; without one status 0x47 is given, and the
register is unchanged. -/
def stagedTimeout (s : State) (r count : Nat) : State :=
  match outOf s r count with
  | some ⟨_, q, t0, .staged lim _⟩ =>
    if s.mile < t0 + lim ∨ s.isFatal then s
    else
      let s1 := match regBlk (stOff q) with | some b => stApply s b | none => s
      match outOf s1 r count with
      | some ⟨_, _, _, .staged _ _⟩ => setWork s1 r count (.judged 0x47 (s1.visible (stOff q)) none)
      | _ => s1
  | _ => s

/-! ### Telemetry -/

/-- The registers that a telemetry frame gives: counters and readings of tiles, cores, ports, lasers and lanes, the exchange, the scrub,
power, the error queues, the host link and the set-up writes (02 R32, 04 R85, 06 R130, 08 R166, 11 R227, 12 R244 to R248, 14 R277, 15 R296,
18 R339). -/
def readingRegs : List Nat :=
  [0x800008, 0x1800, 0x1C00]
    ++ (List.range 60).flatMap (fun t => [aPwr (0x100 + 8 * t), aTile t 8, aTile t 0x10] ++ (List.range 4).flatMap (fun c => [aTile t (0x100 + 8 * c), aTile t (0x120 + 8 * c)])
        ++ (List.range 4).flatMap (fun c => (List.range 3).map fun i => aTrap (4 * t + c) i))
    ++ (List.range 16).flatMap (fun p => [0x10, 0x20, 0x28, 0x30, 0x38].map (aLnk p) ++ (List.range 16).map (fun g => aLnk p (0x100 + 8 * g))
        ++ [aOpt p 8] ++ (List.range 96).map (fun i => aOpt p (0x100 + 0x100 * (i / 32) + 8 * (i % 32))))
    ++ (List.range 256).map (fun n => aGrp n 0x38) ++ (List.range 24).map (fun st => 0xA00100 + 8 * st) ++ [0xA00200]
    ++ (List.range 8).map (fun w => aErrq w 8)
/-- The five counters of a core (04 R85), key 2^32 + 8 × uid + i; the mark of a tile in retention, key 2^33 + tile. -/
def coreReadings (s : State) : List (Nat × Nat) :=
  (List.range 240).flatMap fun u =>
    let c := s.core u
    let k := 2 ^ 32 + 8 * u
    [(k, c.cntData), (k + 1, c.cntWrite), (k + 2, c.cntEcc), (k + 3, c.cntShadow), (k + 4, c.cntWait)]
def heldMarks (s : State) : List (Nat × Nat) := (List.range 60).map fun t => (2 ^ 33 + t, b2n !(domUp s t))
/-- A frame of every counter and reading. -/
def readings (s : State) : List (Nat × Nat) := readingRegs.map (fun off => (off, (s.reg off).toNat)) ++ coreReadings s ++ heldMarks s
/-- State of the rings, which is not coarsened (16 R316). -/
def ringReadings (s : State) : List (Nat × Nat) := (List.range 1024).map fun r => (aRing r 0x20, (s.reg (aRing r 0x20)).toNat)

/-- The tile of a key, where it is a tile's. -/
def keyTile (k : Nat) : Option Nat :=
  if k ≥ 2 ^ 33 then some (k - 2 ^ 33)
  else if k ≥ 2 ^ 32 then some ((k - 2 ^ 32) / 32)
  else if 0x800100 ≤ k ∧ k < 0x8002E0 then some ((k - 0x800100) / 8)
  else none
/-- May an unprivileged partition see a reading (16 R316)? -/
def keyOwn (s : State) (part k : Nat) : Bool :=
  match keyTile k with
  | some t => decide (s.tilePart t = some part)
  | none => decide (regOwner s k = some part)
/-- Power read down to a multiple of 5 W: of a tile, and of the input (16 R316). -/
def coarse (k v : Nat) : Nat :=
  if 0x800100 ≤ k ∧ k < 0x8002E0 then nsetBits v 39 32 (nbits v 39 32 / 5 * 5)
  else if k = 0x800008 then nbits v 63 48 / 5 * 5 * 2 ^ 48
  else v
/-- What a reader is given: privileged all of the latest frame; any other its own share of the frame at the end of the last complete second,
with the rest withheld as zero, and marked so; of PWR_STATUS the input power is given and the rest withheld (16 R316, 17 R328). -/
def given (s : State) (part : Nat) : List (Nat × Nat × Bool) :=
  if s.flag (fPartPriv part) then (s.back.latest ++ ringReadings s).map fun x => (x.1, x.2, false)
  else (s.back.window ++ ringReadings s).map fun x =>
    if keyOwn s part x.1 then (x.1, coarse x.1 x.2, false)
    else if x.1 = 0x800008 then (x.1, coarse x.1 x.2, true)
    else (x.1, 0, true)
/-- The snapshot's bytes: selector; milestone of the frame, and of the last frame before a gap; readings. Its layout is not stated
(log entry 12). -/
def snapshotBytes (s : State) (part sel : Nat) : List Byte :=
  Config.snapshot sel [if s.flag (fPartPriv part) then s.back.latestAt else s.back.windowAt, s.back.gap.elim 0 (· + 1)] (given s part)
/-- The body of a telemetry snapshot (03 R49, R53; 16 R316). -/
def telemetryBody (r : Nat) (s : State) (f : Fetched) : State × Work :=
  let q := f.q
  if !dHiZero q 2 48 ∨ !dHiZero q 3 32 ∨ !dZeroFrom q 5 then (s, judgeAs 0x41 0)
  else if !dpaOk s (s.rd (fRPart r)) false (dq q 2) (dq q 3) then (s, judgeAs 0x42 0)
  else
    let x := deliverRing s r f.count (dq q 2) (dq q 3) (snapshotBytes s (s.rd (fRPart r)) (dq q 4))
    match x.2 with
    | .judged 0 _ _ => ({ x.1 with back := { x.1.back with gap := none } }, x.2)
    | _ => x

/-! ### Their commands -/

/-- ST_APPLY (18 R335, R336). -/
def execStApply (b : Blk) (s : State) : Out := runV (.stApply b) (if s.isFatal then s else stApply s b)
/-- STAGED_SETTING (03 R57). -/
def execStagedSetting (r : Nat) (s : State) : Out := runV (.stagedSetting r) (ringExec s r .staged (stagedBody r))
/-- STAGED_SETTING_TIMEOUT (03 R57). -/
def execStagedSettingTimeout (r count : Nat) (s : State) : Out := runV (.stagedSettingTimeout r count) (stagedTimeout s r count)
/-- TELEMETRY_SNAPSHOT (16 R316). -/
def execTelemetrySnapshot (r : Nat) (s : State) : Out := runV (.telemetrySnapshot r) (ringExec s r .telemetry (telemetryBody r))

end Sys2Proof.Machine
end

