-- ==== Sys2Proof/Machine/Background.lean ====
section
/-! DEFINITION. Background work: the HBM patrol scrub and training, sensor trims, laser wear, the flash log, telemetry sampling, and the
write-back of HBM corrections (14 R267; 17 R322 to R330). -/

namespace Sys2Proof.Machine
open Sys2Proof

/-! ### HBM patrol scrub (17 R322, R323) -/
def fScrub (st hi lo : Nat) : Fld := ⟨0xA00100 + 8 * st, hi, lo⟩
def burstsPerPass : Nat := 12582912
/-- scrub_hours as it acts. -/
def scrubHours (s : State) : Nat := let v := s.rd ⟨0xA00000, 7, 0⟩; if v = 0 then 0x18 else min 0xA8 v
/-- Length of a pass in ticks. -/
def passTicks (s : State) : Nat := scrubHours s * 3600000000000
def stackQuad (st : Nat) : Nat := wharfQuad (st / 3)
/-- Does a wipe hold the address, or a scrubbing start its stack? -/
def beingWiped (s : State) (st dpa : Nat) : Bool :=
  (s.rings.any fun x => x.2.out.any fun d => match d.work with
    | .wipe a n => (wipeParts s (s.rd (fRPart x.1)) a n).any fun p => decide (p.1 ≤ dpa) && decide (dpa < p.1 + p.2)
    | _ => false)
  || (s.parts.op.any fun o => o.start && decide (o.step = 1) && decide (s.rd (fPartState o.part) = 1) && nbit o.scrub (stackQuad st))
/-- The quadrants whose stacks still catch up keep the background vote. -/
def dropBgVote (s : State) : State :=
  s.modPower fun p => { p with bgVote := p.bgVote.filter fun q => (quadStacks q).any fun st => decide (s.rd (fScrub st 7 7) = 1) }
/-- The next burst of the pass; the last one completes the pass. Behind by more than 1 % of the deadline a stack catches up, until it is on
schedule again. -/
def scrubAdvance (s : State) (st : Nat) : State :=
  let n := s.rd (fScrub st 31 8) + 1
  if n ≥ burstsPerPass then
    dropBgVote { (s.inc (fScrub st 63 48)).wrAll [(fScrub st 31 8, 0), (fScrub st 7 7, 0)] with
      back := { s.back with passStart := tset nat0 s.back.passStart st s.mile } }
  else
    let done := n * passTicks s
    let due := (s.mile - tget nat0 s.back.passStart st) * burstsPerPass
    dropBgVote (s.wrAll [(fScrub st 31 8, n),
      (fScrub st 7 7, if 100 * due > 100 * done + burstsPerPass * passTicks s then 1 else if due ≤ done then 0 else s.rd (fScrub st 7 7))])
/-- The partition whose memory a stack's codewords are, 0 for none (16 R311; 01 R20: one partition owns all of HBM under module-wide
interleave). -/
def stackPart (s : State) (st : Nat) : Nat :=
  ((if s.hbmWide then (List.range 4).find? fun p => decide (s.rd (fPartState p) ≠ 0) else s.quadPart (stackQuad st))).getD 0
/-- An uncorrectable codeword found by the patrol: an entry that halts nothing (14 R272). -/
def scrubUe (s : State) (st dpa k : Nat) (esc : Option Nat) : State :=
  hbmUeAlone (s.inc (fScrub st 47 40)) (stackPart s st) dpa k esc
/-- What a codeword's check code says in the patrol's read; one that is known to be uncorrectable has been reported. -/
def scrubWord (known : List Nat) (s : State) (st w0 : Nat) (e : Upset) : State :=
  let w := w0 + e.at_ % 32
  let dpa := hbmUnmap s.hbmWide (64 * w)
  if known.contains w then s
  else
    let x := hbmEcc s (stackPart s st) dpa e.syn e.bad
    match x.2 with
    | .corrected => x.1.inc (fScrub st 39 32)
    | .bad esc => scrubUe x.1 st dpa (tget nat0 x.1.hbmUe w) esc
/-- A burst's reads: what its codewords' check codes say, each codeword once. -/
def scrubRead (s : State) (st : Nat) (ecc : List Upset) : State :=
  let w0 := (st * stackBytes + s.rd (fScrub st 31 8) * 2048) / 64
  let known := (upFrom w0 32).filter fun w => decide (tget nat0 s.hbmUe w ≠ 0)
  let s1 := known.foldl (fun t w => scrubUe t st (hbmUnmap t.hbmWide (64 * w)) (tget nat0 t.hbmUe w) none) s
  ((List.range 32).filterMap fun k => ecc.find? fun e => decide (e.at_ = k)).foldl (fun t e => scrubWord known t st w0 e) s1
/-- HBM_SCRUB_BURST: the patrol holds while the stack refreshes itself, and skips a range that is being wiped. -/
def scrubBurst (s : State) (st : Nat) (ecc : List Upset) : State :=
  if !keeperOn s ∨ !domUp s (120 + stackQuad st) then s
  else if beingWiped s st (hbmUnmap s.hbmWide (st * stackBytes + s.rd (fScrub st 31 8) * 2048)) then scrubAdvance s st
  else scrubAdvance (scrubRead s st ecc) st
/-- A self-refreshed stack past its deadline casts the background vote. -/
def scrubDeadline (s : State) (st : Nat) : State :=
  let q := stackQuad st
  if !keeperOn s ∨ domUp s (120 + q) ∨ s.mile < tget nat0 s.back.passStart st + passTicks s ∨ s.rd ⟨0xA00000, 8, 8⟩ = 0 then s
  else (s.wr (fScrub st 7 7) 1).modPower fun p => { p with bgVote := if p.bgVote.contains q then p.bgVote else p.bgVote ++ [q] }

/-- HBM_SCRUB_PASS_DEADLINE: every stack past its deadline. -/
def scrubDeadlines (s : State) : State := (List.range 24).foldl scrubDeadline s

/-! ### Training, trims, corrections -/

/-- HBM_PERIODIC_TRAINING: none in self-refresh (17 R324). -/
def hbmTrain (s : State) (st ch : Nat) : State :=
  if !(s.power.step.any fun k => k ≥ 7) ∨ s.isFatal ∨ !domUp s (120 + stackQuad st) then s
  else { s with back := { s.back with trained := tset nat0 s.back.trained (16 * st + ch) s.mile } }
/-- A sensor is trimmed for some ticks (17 R325); none on retained tiles (17 R329). -/
def sensorTrim (s : State) (tile key value ticks : Nat) : State :=
  if s.power.step.isNone ∨ s.isFatal ∨ !domUp s tile then s
  else { s with back := { s.back with
    trimming := tset nat0 s.back.trimming key (s.mile + ticks)
    trims := tset nat0 s.back.trims key value } }
/-- HBM_CORRECTION_WRITE_BACK: the corrected codeword is written, and handling ends (14 R267, R274). -/
def hbmWriteBack (s : State) (word : Nat) : State :=
  { s with
    hbmCe := tset nat0 s.hbmCe word 0
    hbmCeEntry := tset nat0 s.hbmCeEntry word 0 }

/-! ### Laser wear and the flash log (12 R230; 17 R327) -/

/-- One hour of every lit laser; a laser of a port that is Off or Dark accrues none (17 R326). -/
def litHour (s : State) : State :=
  (List.range 16).foldl (fun t p =>
    if t.rd (fPortState p) = 0 ∨ portDark t p then t
    else (List.range 32).foldl (fun u j => if u.rd (fBias p j) = 0 then u else u.inc (fLaser p j 23 8)) t) s
/-- Weeks until a bias reaches the swap threshold, by the least-squares line through the last seven daily records, oldest first; 0xFF
beyond 254 weeks, without a rise or before seven records (12 R230, R246; 17 R327). -/
def weeksLeft (biases : List Nat) (threshold : Nat) : Nat :=
  let slope : Int := (biases.mapIdx fun i y => ((i : Int) - 3) * (y : Int)).foldl (· + ·) 0
  let w := (4 * ((threshold : Int) - (biases.getLastD 0 : Nat)) / slope).toNat
  if biases.length < 7 ∨ slope ≤ 0 ∨ w > 254 then 0xFF else w
/-- eta_weeks of laser i = 32 × port + position, from the daily records, newest first. -/
def etaWeeks (s : State) (daily : List (List Word64)) (i : Nat) : Nat :=
  let p := i / 32
  let j := i % 32
  if s.rd (fLaserState p j) = 1 then
    weeksLeft (daily.reverse.map fun r => nbits (lget 0 r i).toNat 47 36) (swapPct s p * s.rd (fBiasMax p j) / 100)
  else 0xFF
/-- WEAR_ACCOUNTING: the hour; with the last of a day the daily record, the estimates from it, and the trim values. -/
def wearHour (s : State) (day : Bool) : State :=
  if !keeperOn s then s
  else
    let s1 := litHour s
    if !day then s1
    else
      let daily := (wearRecord s1 :: s1.back.daily).take 7
      let s2 := (List.range 512).foldl (fun t i => t.wr (fLaser (i / 32) (i % 32) 7 0) (etaWeeks s1 daily i)) s1
      { s2 with
        back := { s2.back with daily := daily }
        failBuf := s2.failBuf ++ [FlashRec.wear (wearRecord s2) true, FlashRec.trim s2.back.trims] }

/-- Is a record a reserved one: a condemnation, a fatal entry, the tollhouse's? -/
def isReserved : FlashRec → Bool
  | .condemn _ | .noImage => true
  | .entry q => decide (nbits (lget 0#64 q 0).toNat 31 30 = 2)
  | _ => false
/-- 64-byte records of the circular log that it takes. -/
def flashUnits : FlashRec → Nat
  | .wear _ _ => 64
  | .trim l => max 1 (cdiv l.length 8)
  | _ => 1

/-- The erase blocks of the circular log, of 64 KiB: 3,024. -/
def logBlocks : Nat := flashLog.len / 0x10000
/-- The head goes on to the next block, which is erased when it held records. -/
def nextBlock (f : FlashSt) : FlashSt :=
  let b := f.block + 1
  { f with
    block := b
    fill := 0
    erases := if b < logBlocks then f.erases else tset nat0 f.erases (b % logBlocks) (tget nat0 f.erases (b % logBlocks) + 1)
    log := f.log.filter fun x => decide (b < x.1 + logBlocks) }
/-- A record appended to the circular log; one that the present block has no room for begins the next. -/
def logPut (f : FlashSt) (r : FlashRec) : FlashSt :=
  let n := flashUnits r
  let g := if f.fill + n > 1024 then nextBlock f else f
  { g with
    fill := g.fill + n
    log := g.log ++ [(g.block, r)]
    wear := match r with | .wear w _ => (g.wear ++ [w]).drop (g.wear.length + 1 - 7) | _ => g.wear
    daily := match r with | .wear w true => (w :: g.daily).take 7 | _ => g.daily }
/-- The condemned sites with those of a record (01 R11). -/
def condemnedNow (l : List Nat) : FlashRec → List Nat
  | .condemn site => if l.contains site then l else l ++ [site]
  | _ => l
/-- FLASH_LOG_WRITE: reserved records go ahead of all others; nothing is written before lk_release or while the tollhouse holds the
flash. -/
def flashWrite (s : State) : State :=
  if !s.trust.released ∨ s.trust.receiving.isSome then s
  else match s.failBuf.find? isReserved with
  | some r => flashShow { s with
      failBuf := dropFirst isReserved s.failBuf
      flash := { s.flash with reserved := reservePut s.flash.reserved r, condemned := condemnedNow s.flash.condemned r } }
  | none => match s.failBuf with
    | r :: l => flashShow { s with
        failBuf := l
        flash := logPut s.flash r }
    | [] => s

/-! ### Telemetry sampling (17 R328) -/

/-- The power readings of a frame: tile n, and the input as 60. -/
def powerOf (s : State) (n : Nat) : Nat := if n < 60 then s.rd (fTilePower n) else s.rd fInputW
/-- A frame with its power readings replaced by the averages of a second. -/
def averaged (s : State) (l : List (Nat × Nat)) : List (Nat × Nat) :=
  let avg (n : Nat) : Nat := tget nat0 s.back.sums n / max 1 s.back.samples
  l.map fun x =>
    if 0x800100 ≤ x.1 ∧ x.1 < 0x8002E0 then (x.1, nsetBits x.2 39 32 (avg ((x.1 - 0x800100) / 8)))
    else if x.1 = 0x800008 then (x.1, nsetBits x.2 63 48 (avg 60))
    else x
/-- TELEMETRY_SAMPLE: at milestone multiples of 10⁶ a frame is taken, at multiples of 10⁹ a second is complete; none during a warm reset. -/
def telemetrySample (s : State) : State :=
  if s.mile % 1000000 ≠ 0 ∨ !s.trust.released ∨ s.trust.warm.isSome ∨ s.isFatal then s
  else
    let f := readings s
    -- sums of a second whose last sample was missed are dropped
    let sec := (s.mile + 999999999) / 1000000000
    let same := decide (sec = s.back.second)
    let s1 := { s with back := { s.back with
      latest := f
      latestAt := s.mile
      sums := (List.range 61).foldl (fun t n => tset nat0 t n (tget nat0 t n + powerOf s n)) (if same then s.back.sums else [])
      samples := (if same then s.back.samples else 0) + 1
      second := sec } }
    if s.mile % 1000000000 ≠ 0 then s1
    else { s1 with back := { s1.back with
      window := averaged s1 f
      windowAt := s.mile
      sums := []
      samples := 0 } }

/-! ### Their commands -/

/-- HBM_CORRECTION_WRITE_BACK (14 R267). -/
def execHbmCorrectionWriteBack (word : Nat) (s : State) : Out := runV (.hbmCorrectionWriteBack word) (hbmWriteBack s word)
/-- HBM_SCRUB_BURST (17 R322, R323). -/
def execHbmScrubBurst (st : Nat) (ecc : List Upset) (s : State) : Out := runV (.hbmScrubBurst st ecc) (scrubBurst s st ecc)
/-- HBM_SCRUB_PASS_DEADLINE (17 R323). -/
def execHbmScrubPassDeadline (s : State) : Out := runV .hbmScrubPassDeadline (scrubDeadlines s)
/-- HBM_PERIODIC_TRAINING (17 R324). -/
def execHbmPeriodicTraining (st channel : Nat) (s : State) : Out := runV (.hbmPeriodicTraining st channel) (hbmTrain s st channel)
/-- DROOP_SENSOR_TRIM: 10 µs (17 R319, R325). -/
def execDroopSensorTrim (tile sensor value : Nat) (s : State) : Out :=
  runV (.droopSensorTrim tile sensor value) (sensorTrim s tile (16 * tile + sensor) value 10000)
/-- THERMAL_SENSOR_TRIM: 5 µs (17 R319, R325). -/
def execThermalSensorTrim (tile sensor value : Nat) (s : State) : Out :=
  runVIf (okThermal tile sensor) (sensorTrim s tile (1024 + 8 * tile + sensor) value 5000)
/-- WEAR_ACCOUNTING (17 R327). -/
def execWearAccounting (day : Bool) (s : State) : Out := runV (.wearAccounting day) (wearHour s day)
/-- FLASH_LOG_WRITE (17 R327). -/
def execFlashLogWrite (s : State) : Out := runV .flashLogWrite (flashWrite s)
/-- TELEMETRY_SAMPLE (17 R328). -/
def execTelemetrySample (s : State) : Out := runV .telemetrySample (telemetrySample s)

end Sys2Proof.Machine
end

