-- ==== Sys2Proof/Machine/Exchange.lean ====
section
/-! DEFINITION. The commands of the gradient exchange (10), and the halt notice, which fences a tile (09 R184, 10 R203). -/

namespace Sys2Proof.Machine
open Sys2Proof

/-- REDUCTION_BUCKET_POST (10 R193, R205). -/
def execReductionBucketPost (r : Nat) (s : State) : Out := runV (.reductionBucketPost r) (postRun s r)
def execPartialSegment (turn : SegTurn) (s : State) : Out :=
  runV (.partialSegment turn) (segTake (segEcc s turn) turn.index 0 onPartial)
def execContributionSegment (turn : SegTurn) (s : State) : Out :=
  runV (.contributionSegment turn) (segTake (segEcc s turn) turn.index 1 onContribution)
def execMissingNotice (turn : SegTurn) (s : State) : Out :=
  runV (.missingNotice turn) (segTake (segEcc s turn) turn.index 2 onNotice)
def execResultSegment (index : Nat) (s : State) : Out := runV (.resultSegment index) (segTake s index 3 onResult)
def execRepeatNotice (index : Nat) (s : State) : Out := runV (.repeatNotice index) (segTake s index 4 onRepeat)
def execTrailerSegment (turn : SegTurn) (s : State) : Out :=
  runV (.trailerSegment turn) (segTake (segEcc s turn) turn.index 5 onTrailer)
def execSlotLanding (turn : BucketTurn) (s : State) : Out :=
  runV (.slotLanding turn) (if s.isFatal then s else slotLand (exchEcc s turn.bucket turn.ecc) turn.bucket)
def execSegmentForward (turn : BucketTurn) (s : State) : Out :=
  runV (.segmentForward turn) (if s.isFatal then s else segForward (exchEcc s turn.bucket turn.ecc) turn.bucket)
def execBucketDeadline (r count : Nat) (s : State) : Out := runV (.bucketDeadline r count) (deadlinePass s r count)
def execResultTimeout (r count : Nat) (s : State) : Out := runV (.resultTimeout r count) (resultTimeout s r count)

/-- HALT_NOTICE_ARRIVAL (09 R184); on a fenced tile the wharf adders take over (10 R203). -/
def execHaltNoticeArrival (part fid : Nat) (turn : TileTurn) (s : State) : Out :=
  runV (.haltNoticeArrival part fid turn) (addersOf (slotEcc (notice s part fid turn.tile) turn) turn.tile)

end Sys2Proof.Machine
end

