-- ==== Sys2Proof/Machine/LinkCmds.lean ====
section
/-! DEFINITION. The commands of the UCIe link, host reads, BAR accesses and the PCIe function (01, 02, 18). -/

namespace Sys2Proof.Machine
open Sys2Proof

/-- DL_ACTIVE_LOSS (02 R33). -/
def execDlActiveLoss (unacked : List (Nat × Nat)) (s : State) : Out := runV (.dlActiveLoss unacked) (dlLoss s unacked)
/-- HOST_RESET_N: a host die warm reset drops DL_Active (19 R343, 02 R33). -/
def execHostResetN (unacked : List (Nat × Nat)) (s : State) : Out := runV (.hostResetN unacked) (dlLoss s unacked)
/-- UCIE_TRAINING_ATTEMPT: an attempt starts where none runs; the host die advertises its mask at it, or at the one that this end has
started (02 R24, R28). -/
def execUcieTrainingAttempt (remoteMask : Nat) (s : State) : Out :=
  runV (.ucieTrainingAttempt remoteMask) (maskExchange (if s.link.step.isSome then s else attemptStart s s.dlActive) remoteMask)
/-- UCIE_RETRAIN: a write of retrain = 1 (02 R32). -/
def execUcieRetrain (s : State) : Out := runV .ucieRetrain (if s.link.d3hot then s else attemptStart s true)
/-- UCIE_RELEASE_HOLD: holds and counts are cleared, and an attempt starts (02 R29). -/
def execUcieReleaseHold (s : State) : Out :=
  runV .ucieReleaseHold (if s.link.d3hot then s else
    attemptStart (s.wrAll ([0, 1].flatMap fun m => [(fModFail m, 0), (fModState m, if s.rd (fModState m) = modHeld then modDown else s.rd (fModState m))])) true)
/-- UCIE_TRAINING_STEP_DONE (02 R24 to R28, R31; 16 R297). -/
def execUcieTrainingStepDone (profile : Nat) (repairs : List Nat) (s : State) : Out :=
  runV (.ucieTrainingStepDone profile repairs) (trainStep s profile repairs)
/-- UCIE_ATTEMPT_TIMEOUT (02 R29, R30). -/
def execUcieAttemptTimeout (failed : Nat) (s : State) : Out := runV (.ucieAttemptTimeout failed) (attemptFails s failed)
/-- UCIE_LANE_FAILURE (02 R31). -/
def execUcieLaneFailure (half : Nat) (s : State) : Out := runV (.ucieLaneFailure half) (laneFailure s half)
def execCplTimeoutExpiry (tag : Nat) (s : State) : Out := runV (.cplTimeoutExpiry tag) (cplTimeout s tag)
def execHostReadCompletion (tag : Nat) (status : CplStatus) (data : List Byte) (s : State) : Out :=
  runV (.hostReadCompletion tag status data) (readCompletion s tag status data)
/-- A BAR access of another size or alignment than R35's: a read is refused, a write is dropped and counted; in D3hot no BAR is decoded
(02 R35, R37). -/
def badAccess (s : State) (isWrite : Bool) : State :=
  if s.link.d3hot then s else if isWrite then s.inc fBadAccess else { s with urSent := s.urSent + 1 }
/-- BAR_BAD_ACCESS. -/
def execBarBadAccess (isWrite : Bool) (s : State) : Out :=
  runV (.barBadAccess isWrite) (badAccess s isWrite)
/-- A write of another size or alignment is dropped and counted (02 R35); no BAR is decoded in D3hot (02 R37). -/
def barWrite (s : State) (off size : Nat) (f : State → State) : State :=
  if s.link.d3hot then s else if okAccess off size then f s else badAccess s true
/-- A reference shows the module ID that PART_MODULE has been given, and judges the references that it hears by it (13 R249, R258, R260). -/
def moduleShow (s : State) (off : Nat) : State := if off / 8 = 0x1410 / 8 ∧ s.flag fMileRef then chooseUpstream s else s
/-- REGISTER_WRITE: performed, pending, ignored or counted (18 R332 to R334). -/
def execRegisterWrite (off size data : Nat) (s : State) : Out :=
  runV (.registerWrite off size data) (barWrite s off size fun t => moduleShow (regWrite t off size data) off)
/-- MSIX_TABLE_WRITE (02 R34, R35). -/
def execMsixTableWrite (off size data : Nat) (s : State) : Out :=
  runV (.msixTableWrite off size data) (barWrite s off size fun t => msixWrite t off size data)
/-- D3HOT_ENTRY (02 R37). -/
def execD3hotEntry (s : State) : Out := runV .d3hotEntry (d3hot s)
/-- D0_RETURN (02 R37). -/
def execD0Return (s : State) : Out := runV .d0Return (d0 s)
/-- ERRQ_ACK: the entries up to a sequence number are acknowledged and their slots are free (14 R276, R277). -/
def execErrqAck (w ack : Nat) (s : State) : Out :=
  runV (.errqAck w ack) (if s.link.d3hot then s else s.wr (fErrAck w) ack)
def execFunctionLevelReset (s : State) : Out := runV .functionLevelReset (flr s)

end Sys2Proof.Machine
end

