-- ==== Sys2Proof/Machine/Matrix.lean ====
section
/-! DEFINITION. The matrix, load, store and sync slots: one meaning per operation (04 R78 to R83; 05 R99 to R101; 06 R109 to R113). -/

namespace Sys2Proof.Machine
open Sys2Proof

/-- MNOP: no operation (04 R78). -/
def execMnop (s : State) : Out := run .mnop s

/-- MMUL: feeds the oldest FIFO entry; its drain writes the window row at t + 143 (04 R78, 06 R109, R119). -/
def execMmul (uid : Nat) (swap : Bool) (win : Bool) (acc : Nat) (row : Nat) (s : State) : Out :=
  run (.mmul uid swap win acc row) (issueOne s uid fun s => issueM s uid (.mul swap win acc row))

/-- MSWAP: exchanges feed and shadow banks for vectors fed at t + 1 and later (06 R113). -/
def execMswap (uid : Nat) (s : State) : Out :=
  run (.mswap uid) (issueOne s uid fun s => issueM s uid .swap)

/-- MSHADOW: starts ag3 loading 128 rows into the shadow bank (06 R112). -/
def execMshadow (uid : Nat) (part : Bool) (s : State) : Out :=
  run (.mshadow uid part) (issueOne s uid fun s => issueM s uid (.shadow part))

/-- LNOP: no operation (04 R79). -/
def execLnop (s : State) : Out := run .lnop s

/-- LFEED: one vector into the feeder FIFO, due at t + 14 (04 R79). -/
def execLfeed (uid : Nat) (half : Nat) (s : State) : Out :=
  run (.lfeed uid half) (issueOne s uid fun s => issueL s uid half .feed)

/-- LVEC: 256 elements into chunk (chunk + i) mod 16 of v (04 R79). -/
def execLvec (uid : Nat) (half : Nat) (v : Nat) (chunk : Nat) (s : State) : Out :=
  run (.lvec uid half v chunk) (issueOne s uid fun s => issueL s uid half (.vec v chunk))

/-- LSCL: 8 bytes into s (04 R79). -/
def execLscl (uid : Nat) (half : Nat) (r : Nat) (s : State) : Out :=
  run (.lscl uid half r) (issueOne s uid fun s => issueL s uid half (.scl r))

/-- LBIND: binds the half's generator to a stride program (04 R79, 05 R99). -/
def execLbind (uid : Nat) (half : Nat) (prog : Nat) (s : State) : Out :=
  run (.lbind uid half prog) (issueOne s uid fun s => issueL s uid half (.bind prog))

/-- LBASE: sets the half's generator base from s (04 R79, 05 R99). -/
def execLbase (uid : Nat) (half : Nat) (r : Nat) (s : State) : Out :=
  run (.lbase uid half r) (issueOne s uid fun s => issueL s uid half (.base r))

/-- LSKIP: advances the generator without loading (05 R101). -/
def execLskip (uid : Nat) (half : Nat) (s : State) : Out :=
  run (.lskip uid half) (issueOne s uid fun s => issueL s uid half .skip)

/-- LBIND3: as LBIND, on ag3; an occupancy overrun while MSHADOW holds it (04 R79). -/
def execLbind3 (uid : Nat) (half : Nat) (prog : Nat) (s : State) : Out :=
  run (.lbind3 uid half prog) (issueOne s uid fun s => issueL s uid half (.bind3 prog))

/-- LBASE3: as LBASE, on ag3 (04 R79). -/
def execLbase3 (uid : Nat) (half : Nat) (r : Nat) (s : State) : Out :=
  run (.lbase3 uid half r) (issueOne s uid fun s => issueL s uid half (.base3 r))

/-- TNOP: no operation (04 R80). -/
def execTnop (s : State) : Out := run .tnop s

/-- TVEC: stores 256 × 32 bits of chunk (chunk + i) mod 16 (04 R80). -/
def execTvec (uid : Nat) (v : Nat) (chunk : Nat) (s : State) : Out :=
  run (.tvec uid v chunk) (issueOne s uid fun s => issueT s uid (.vec v chunk))

/-- TVEC16: stores the low 16 bits of the elements (04 R80). -/
def execTvec16 (uid : Nat) (v : Nat) (chunk : Nat) (s : State) : Out :=
  run (.tvec16 uid v chunk) (issueOne s uid fun s => issueT s uid (.vec16 v chunk))

/-- TVEC8: stores the low 8 bits of the elements (04 R80). -/
def execTvec8 (uid : Nat) (v : Nat) (chunk : Nat) (s : State) : Out :=
  run (.tvec8 uid v chunk) (issueOne s uid fun s => issueT s uid (.vec8 v chunk))

/-- TSCL: stores the 8 bytes of s (04 R80). -/
def execTscl (uid : Nat) (r : Nat) (s : State) : Out :=
  run (.tscl uid r) (issueOne s uid fun s => issueT s uid (.scl r))

/-- TBIND: binds ag2 (04 R80). -/
def execTbind (uid : Nat) (prog : Nat) (s : State) : Out :=
  run (.tbind uid prog) (issueOne s uid fun s => issueT s uid (.bind prog))

/-- TBASE: sets ag2's base (04 R80). -/
def execTbase (uid : Nat) (r : Nat) (s : State) : Out :=
  run (.tbase uid r) (issueOne s uid fun s => issueT s uid (.base r))

/-- TSKIP: advances ag2 without storing (04 R80). -/
def execTskip (uid : Nat) (s : State) : Out :=
  run (.tskip uid) (issueOne s uid fun s => issueT s uid .skip)

/-- YNOP: no operation (04 R81). -/
def execYnop (s : State) : Out := run .ynop s

/-- GINC: gate ← gate + imm + 1 after every earlier data write of the core has landed (04 R81, R82). -/
def execGinc (uid : Nat) (tile : Nat) (gate : Nat) (imm : Nat) (s : State) : Out :=
  run (.ginc uid tile gate imm) (issueOne s uid fun s => issueY s uid (.inc tile gate imm))

/-- GADD: gate ← gate + s[31:0], ordered as GINC (04 R81, R82). -/
def execGadd (uid : Nat) (tile : Nat) (gate : Nat) (r : Nat) (s : State) : Out :=
  run (.gadd uid tile gate r) (issueOne s uid fun s => issueY s uid (.add tile gate r))

/-- GWAIT: holds the bundle until the own-tile gate reaches s[31:0] (04 R81, R83). -/
def execGwait (uid : Nat) (tile : Nat) (gate : Nat) (r : Nat) (s : State) : Out :=
  run (.gwait uid tile gate r) (issueOne s uid fun s => issueY s uid (.wait tile gate r))

/-- GREAD: s ← own-tile gate, landing at t + 4 (04 R81). -/
def execGread (uid : Nat) (tile : Nat) (gate : Nat) (r : Nat) (s : State) : Out :=
  run (.gread uid tile gate r) (issueOne s uid fun s => issueY s uid (.read tile gate r))

/-- MWAIT: holds the bundle until the milestone counter reaches s (04 R83). -/
def execMwait (uid : Nat) (r : Nat) (s : State) : Out :=
  run (.mwait uid r) (issueOne s uid fun s => issueY s uid (.mwait r))

/-- MREAD: s ← milestone counter, landing at t + 4 (04 R81). -/
def execMread (uid : Nat) (r : Nat) (s : State) : Out :=
  run (.mread uid r) (issueOne s uid fun s => issueY s uid (.mread r))

end Sys2Proof.Machine
end

