-- ==== Sys2Proof/Machine/Optics.lean ====
section
/-! DEFINITION. The commands of the optics under the ports (12). -/

namespace Sys2Proof.Machine
open Sys2Proof

def execReceivedPowerReport (p : Nat) (payload : List Byte) (s : State) : Out :=
  runV (.receivedPowerReport p payload) (match takeCtl s p 0x30 with | some t => reportArrives t p payload | none => s)
/-- Reports have not arrived for 10 ms while the port is Up (12 R231). -/
def execReportsAbsent (p : Nat) (s : State) : Out :=
  runV (.reportsAbsent p) (if portUp s p ∧ (s.mile + 2 ^ 64 - (s.port p).lastReport) % 2 ^ 64 ≥ 10000000 ∧ !s.isFatal then
    (optEvent s p 0x09 0 0).modPort p fun g => { g with lastReport := s.mile } else s)
def execBiasAdjust (p : Nat) (need : List Int) (s : State) : Out := runV (.biasAdjust p need) (biasAdjust s p need)
def execSwapNow (p : Nat) (s : State) : Out := runV (.swapNow p) (if s.isFatal || s.link.d3hot then s else swapNow s p)

def execLaserSwapStepDone (p : Nat) (partner : Option (Nat × List (Option LaneRead))) (s : State) : Out :=
  runV (.laserSwapStepDone p partner) (if s.isFatal then s else match partner with
    | none => swapStep s p
    | some (k, l) => if nbit (s.port p).rxTest k then partnerSwap s p k l else s)
def execSpareLockTimeout (p : Nat) (s : State) : Out := runV (.spareLockTimeout p) (if s.isFatal then s else swapFails s p)
def execRingLockUpdate (p : Nat) (errs : List Int) (s : State) : Out := runV (.ringLockUpdate p errs) (lockUpdate s p errs)
def execRingRangeRetry (p ring : Nat) (s : State) : Out := runV (.ringRangeRetry p ring) (rangeRetry s p ring)
def execXtalkRecalibration (p : Nat) (mats : Option (List Nat × List Int)) (s : State) : Out :=
  runV (.xtalkRecalibration p mats) (if s.isFatal then s else match mats with
    | none => if s.rd ⟨aOpt p 0, 39, 32⟩ = 0 then s else xtStart s p
    | some m => if portUp s p then xtEnd s p m else s)
def execXtalkNow (p : Nat) (s : State) : Out := runV (.xtalkNow p) (if s.isFatal || s.link.d3hot then s else xtStart s p)
def execReceiverAdapt (p : Nat) (lanes : List LaneRead) (bers bad clean : List Nat) (s : State) : Out :=
  runV (.receiverAdapt p lanes bers bad clean) (adapt s p lanes bers bad clean)

end Sys2Proof.Machine
end

