-- ==== Sys2Proof/Machine/Power.lean ====
section
/-! DEFINITION. The commands of power, clocks and heat, of the management pins and of the fatal sequence (14 R272, R273; 15; 19). -/

namespace Sys2Proof.Machine
open Sys2Proof

/-- POWER_UP (15 R281, 18 R338). -/
def execPowerUp (s : State) : Out := runV .powerUp (powerUp s)
/-- POWER_UP_STEP_DONE (15 R281; 16 R301, R302; 01 R11; 06 R111; 05 R91). -/
def execPowerUpStepDone (t : SelfTest) (s : State) : Out := runV (.powerUpStepDone t) (powerStep s t)
/-- POWER_UP_STEP_TIMEOUT (15 R281). -/
def execPowerUpStepTimeout (s : State) : Out := runV .powerUpStepTimeout (powerTimeout s)
/-- INPUT_VOLTAGE_CHANGE (15 R278). -/
def execInputVoltageChange (mv : Nat) (s : State) : Out := runV (.inputVoltageChange mv) (inputChange s mv)
/-- OVER_VOLTAGE_TIMEOUT (15 R278). -/
def execOverVoltageTimeout (s : State) : Out := runV .overVoltageTimeout (overVoltage s)
/-- INPUT_UNDER_VOLTAGE (15 R278). -/
def execInputUnderVoltage (s : State) : Out := runV .inputUnderVoltage (underVoltage s)
/-- SAG_LIMIT_ENTRY (15 R279). -/
def execSagLimitEntry (s : State) : Out := runV .sagLimitEntry (sagEntry s)
/-- SAG_LIMIT_EXIT (15 R279). -/
def execSagLimitExit (s : State) : Out := runV .sagLimitExit (sagExit s)
/-- PRESENT_N_HIGH: the power stage stops drawing and every rail falls, in the reverse of the order in which they rose (19 R342). -/
def execPresentNHigh (s : State) : Out :=
  let s1 := railsGone { s with power := { s.power with fell := [] } }
  runV .presentNHigh { s1 with pins := { s1.pins with present := false } }
/-- WAKE_N (15 R291, 19 R343). -/
def execWakeN (s : State) : Out := runV .wakeN (boardWake s)
/-- FATAL_SHUTDOWN_STEP_DONE (14 R273). -/
def execFatalShutdownStepDone (s : State) : Out := runV .fatalShutdownStepDone (fatalNext s)
/-- FATAL_HARDWARE_FAILURE (14 R272, R273). -/
def execFatalHardwareFailure (what : HwFail) (s : State) : Out := runV (.fatalHardwareFailure what) (hwFails s what)
/-- DROOP_TRIP (15 R283). -/
def execDroopTrip (tile : Nat) (x : Droop) (s : State) : Out := runV (.droopTrip tile x) (droopTrip s tile x)
/-- DROOP_CLEAR (15 R283). -/
def execDroopClear (tile : Nat) (s : State) : Out := runV (.droopClear tile) (droopClear s tile)
/-- POOL_EXCHANGE (15 R285, R287). -/
def execPoolExchange (eff other input : Nat) (s : State) : Out := runV (.poolExchange eff other input) (poolExchange s eff other input)
/-- TILE_DEMAND (15 R285). -/
def execTileDemand (tile mw : Nat) (s : State) : Out := runV (.tileDemand tile mw) (tileDemand s tile mw)
/-- TILE_GRANT (15 R285, 09 R183). -/
def execTileGrant (tile : Nat) (s : State) : Out := runV (.tileGrant tile) (tileGrant s tile)
/-- TILE_CLOCK_STEP (15 R285). -/
def execTileClockStep (tile mw : Nat) (s : State) : Out := runV (.tileClockStep tile mw) (clockStep s tile mw)
/-- THERMAL_SAMPLE (15 R286, R287; 12 R229). -/
def execThermalSample (what : Sample) (s : State) : Out := runV (.thermalSample what) (thermal s what)
/-- THROTTLE_RECHECK (15 R286). -/
def execThrottleRecheck (tile : Nat) (s : State) : Out := runV (.throttleRecheck tile) (recheck s tile)
/-- RESTORE_STEP (15 R279, R286). -/
def execRestoreStep (tile : Nat) (s : State) : Out := runV (.restoreStep tile) (restoreStep s tile)
/-- BMC_CAP_SET (15 R284). -/
def execBmcCapSet (peak sustained : Nat) (s : State) : Out := runV (.bmcCapSet peak sustained) (capSet s peak sustained)
/-- DOMAIN_TRANSITION_DONE (15 R290). -/
def execDomainTransitionDone (d : Nat) (s : State) : Out := runV (.domainTransitionDone d) (domDone s d)
/-- PWR_WAKE (15 R291, R296). -/
def execPwrWake (s : State) : Out := runV .pwrWake (wakeCast s)
/-- WAKE_VOTE_EXPIRY (15 R296). -/
def execWakeVoteExpiry (s : State) : Out := runV .wakeVoteExpiry (wakeEnds s)

end Sys2Proof.Machine
end

