-- ==== Sys2Proof/Machine/RingCmds.lean ====
section
/-! DEFINITION. The commands of images, flights, bisection, gates, fences, wipes, barges, the mesh and the rings (03, 09). -/

namespace Sys2Proof.Machine
open Sys2Proof

/-! ### Flights -/
/-- IMAGE_LOAD (09 R171). -/
def execImageLoad (r : Nat) (ecc : Option Upset) (s : State) : Out :=
  runV (.imageLoad r ecc) (ringExec s r .imageLoad (imageLoadBody r ecc))
/-- FLIGHT_LAUNCH_AT_END: subcode 0 (09 R172). -/
def execFlightLaunchAtEnd (r : Nat) (s : State) : Out := runV (.flightLaunchAtEnd r) (ringExec s r .launchEnd (launchBody r false))
/-- FLIGHT_LAUNCH_AT_START: subcode 1 (09 R172). -/
def execFlightLaunchAtStart (r : Nat) (s : State) : Out := runV (.flightLaunchAtStart r) (ringExec s r .launchStart (launchBody r true))
/-- LAUNCH_STEP_DONE (09 R172). -/
def execLaunchStepDone (r count : Nat) (ecc : Option Upset) (s : State) : Out := runV (.launchStepDone r count ecc) (launchStep s r count ecc)
/-- FLIGHT_RELEASE (09 R172, R186). -/
def execFlightRelease (r count : Nat) (s : State) : Out := runV (.flightRelease r count) (release s r count)
/-- FLIGHT_END (09 R173, 16 R315). -/
def execFlightEnd (part : Nat) (turn : FlightTurn) (s : State) : Out := runV (.flightEnd part turn) (flightEnd s part turn.fid turn.ecc)
/-- FLIGHT_STOP_AT_EOP: subcode 0 (09 R184). -/
def execFlightStopAtEop (r : Nat) (s : State) : Out := runV (.flightStopAtEop r) (ringExec s r .stopEop (stopBody r .atEop))
/-- FLIGHT_STOP_AT_BUNDLE: subcode 1 (09 R184). -/
def execFlightStopAtBundle (r : Nat) (s : State) : Out := runV (.flightStopAtBundle r) (ringExec s r .stopBundle (stopBody r .atBundle))
/-- HALT_AND_DUMP_AT_COUNT: subcode 0 (04 R87, 09 R186). -/
def execHaltAndDumpAtCount (r : Nat) (s : State) : Out := runV (.haltAndDumpAtCount r) (ringExec s r .dumpCount (dumpBody r false))
/-- HALT_AND_DUMP_AT_MILESTONE: subcode 1 (04 R87, 09 R186). -/
def execHaltAndDumpAtMilestone (r : Nat) (s : State) : Out := runV (.haltAndDumpAtMilestone r) (ringExec s r .dumpMile (dumpBody r true))

/-! ### Gates -/
/-- NO_OPERATION: completes with no work (03 R49). -/
def execNoOperation (r : Nat) (s : State) : Out :=
  runV (.noOperation r) (ringExec s r .nop fun s f => (s, if dZeroFrom f.q 2 then judgeAs 0 0 else judgeAs 0x41 0))
/-- GATE_SET (09 R174). -/
def execGateSet (r : Nat) (s : State) : Out := runV (.gateSet r) (ringExec s r .gateSet (gateSetBody r))
/-- GATE_ADD (09 R174). -/
def execGateAdd (r : Nat) (s : State) : Out := runV (.gateAdd r) (ringExec s r .gateAdd (gateAddBody r))
/-- GATE_WAIT (03 R50). -/
def execGateWait (r : Nat) (s : State) : Out := runV (.gateWait r) (ringExec s r .gateWait (gateWaitBody r))
/-- FENCE_THIS_RING: subcode 0 (03 R50). -/
def execFenceThisRing (r : Nat) (s : State) : Out := runV (.fenceThisRing r) (ringExec s r .fenceThis (fenceBody false))
/-- FENCE_OTHER_RING: subcode 1 (03 R50). -/
def execFenceOtherRing (r : Nat) (s : State) : Out := runV (.fenceOtherRing r) (ringExec s r .fenceOther (fenceBody true))
/-- WIPE_ALL: all HBM of the partition (03 R50). -/
def execWipeAll (r : Nat) (s : State) : Out :=
  runV (.wipeAll r) (ringExec s r .wipeAll fun s f =>
    (s, if !dHiZero f.q 2 48 ∨ !dHiZero f.q 3 48 ∨ !dZeroFrom f.q 4 then judgeAs 0x41 0 else .wipe 0 hbmTop))
/-- WIPE_RANGE: a range whose bounds are multiples of 2 KiB (03 R49, R50); for other bounds R49 states no status: malformed (DESIGN CHOICE,
log entry 15). -/
def execWipeRange (r : Nat) (s : State) : Out :=
  runV (.wipeRange r) (ringExec s r .wipeRange fun s f =>
    let a := dq f.q 2
    let n := dq f.q 3
    (s, if !dHiZero f.q 2 48 ∨ !dHiZero f.q 3 48 ∨ !dZeroFrom f.q 4 ∨ a % 2048 ≠ 0 ∨ n % 2048 ≠ 0 then judgeAs 0x41 0
        else if hbmOk s (s.rd (fRPart r)) a n then .wipe a n else judgeAs 0x42 0))

/-! ### Barges -/
/-- BARGE (09 R177). -/
def execBarge (r : Nat) (s : State) : Out := runV (.barge r) (ringExec s r .barge (bargeBody r))
/-- STANDING_BARGE_FIRING (09 R179). -/
def execStandingBargeFiring (tile entry : Nat) (s : State) : Out :=
  runV (.standingBargeFiring tile entry) (if mayFire s tile entry then standingFire s tile entry else s)
/-- BARGE_ADMISSION (09 R176). -/
def execBargeAdmission (id : Nat) (s : State) : Out := runV (.bargeAdmission id) (bargeAdmit s id)
/-- BARGE_PIECE_READ (09 R178, R181; 05 R96 to R98; 14 R267). -/
def execBargePieceRead (id : Nat) (ecc : Option Upset) (s : State) : Out := runV (.bargePieceRead id ecc) (pieceRead s id ecc)
/-- BARGE_COMPLETION (09 R177 to R179). -/
def execBargeCompletion (id : Nat) (s : State) : Out := runV (.bargeCompletion id) (bargeComplete s id)
/-- MESH_TRANSFER_DELIVERY (01 R15, 14 R356). -/
def execMeshTransferDelivery (index : Nat) (ecc : Option Upset) (s : State) : Out :=
  runV (.meshTransferDelivery index ecc) (meshDeliver s index ecc)

/-! ### Rings -/
def execDoorbellReadReturn (r : Nat) (status : CplStatus) (word : Nat) (s : State) : Out :=
  runV (.doorbellReadReturn r status word) (doorbellReturn s r status word)
def execRingEnable (r : Nat) (s : State) : Out := runV (.ringEnable r) (ringEnable s r)
def execRingDisable (r : Nat) (s : State) : Out := runV (.ringDisable r) (ringDisable s r)
def execSummaryPoll (p : Nat) (s : State) : Out := runV (.summaryPoll p) (summaryPoll s p)
def execSummaryBitmapReturn (p : Nat) (status : CplStatus) (words : List Nat) (s : State) : Out :=
  runV (.summaryBitmapReturn p status words) (bitmapReturn s p status words)
def execSummaryCasReturn (p word : Nat) (status : CplStatus) (s : State) : Out :=
  runV (.summaryCasReturn p word status) (casReturn s p word status)
def execPollBackoff (p : Nat) (s : State) : Out := runV (.pollBackoff p) (pollBackoff s p)
def execDescriptorFetch (s : State) : Out := runV .descriptorFetch (descFetch s)
def execDescriptorReadReturn (r : Nat) (status : CplStatus) (descs : List (List Nat)) (s : State) : Out :=
  runV (.descriptorReadReturn r status descs) (descReturn s r status descs)
def execDescriptorComplete (r count : Nat) (s : State) : Out := runV (.descriptorComplete r count) (descComplete s r count)
def execIrqHoldoffExpiry (r : Nat) (s : State) : Out := runV (.irqHoldoffExpiry r) (holdoffEnd s r)
def execDescriptorWaitTimeout (r count : Nat) (s : State) : Out := runV (.descriptorWaitTimeout r count) (descTimeout s r count)

end Sys2Proof.Machine
end

