-- ==== Sys2Proof/Machine/Routing.lean ====
section
/-! DEFINITION. The commands of routing and of the milestone counter (13). -/

namespace Sys2Proof.Machine
open Sys2Proof

def execMilestoneTimestamp (p t1 : Nat) (back : Option (Nat × Nat)) (refModule hops : Nat) (s : State) : Out :=
  runV (.milestoneTimestamp p t1 back refModule hops) (stampArrives s p t1 back refModule hops)
/-- The tick after 2^64 − 1. -/
def execMilestoneWrap (s : State) : Out := runV .milestoneWrap (if s.mile = 2 ^ 64 - 1 then mileJump s 1 else s)
def execMileRefSet (s : State) : Out := runV .mileRefSet (if refPending s ∧ !s.isFatal then mileApply s else s)
def execMessageRoute (src vc : Nat) (s : State) : Out := runV (.messageRoute src vc) (messageRoute s src vc)
def execRemoteWrite (index : Nat) (ecc : Option Upset) (s : State) : Out := runV (.remoteWrite index ecc) (remoteWriteAt s index ecc)
def execRemoteGateAdd (index : Nat) (s : State) : Out := runV (.remoteGateAdd index) (remoteAddAt s index)

end Sys2Proof.Machine
end

