-- ==== Sys2Proof/Machine/Scalar.lean ====
section
/-! DEFINITION. The scalar slot: one meaning per operation (04 R72 to R75). -/

namespace Sys2Proof.Machine
open Sys2Proof

/-- SNOP: no operation (04 R72). -/
def execSnop (s : State) : Out := run .snop s

/-- SADD: d ← a + b, landing at t + 1 (04 R72, R70). -/
def execSadd (uid d a b : Nat) (s : State) : Out :=
  run (.sadd uid d a b) (issueOne s uid fun s => issueS s uid (.alu .add d a b) true)

/-- SSUB: d ← a − b, landing at t + 1 (04 R72, R70). -/
def execSsub (uid d a b : Nat) (s : State) : Out :=
  run (.ssub uid d a b) (issueOne s uid fun s => issueS s uid (.alu .sub d a b) true)

/-- SAND: bitwise AND, landing at t + 1 (04 R72, R70). -/
def execSand (uid d a b : Nat) (s : State) : Out :=
  run (.sand uid d a b) (issueOne s uid fun s => issueS s uid (.alu .and d a b) true)

/-- SOR: bitwise OR, landing at t + 1 (04 R72, R70). -/
def execSor (uid d a b : Nat) (s : State) : Out :=
  run (.sor uid d a b) (issueOne s uid fun s => issueS s uid (.alu .or d a b) true)

/-- SXOR: bitwise XOR, landing at t + 1 (04 R72, R70). -/
def execSxor (uid d a b : Nat) (s : State) : Out :=
  run (.sxor uid d a b) (issueOne s uid fun s => issueS s uid (.alu .xor d a b) true)

/-- SSHL: a shifted left by b[5:0], landing at t + 1 (04 R72, R70). -/
def execSshl (uid d a b : Nat) (s : State) : Out :=
  run (.sshl uid d a b) (issueOne s uid fun s => issueS s uid (.alu .shl d a b) true)

/-- SSHR: a shifted right logically by b[5:0], landing at t + 1 (04 R72, R70). -/
def execSshr (uid d a b : Nat) (s : State) : Out :=
  run (.sshr uid d a b) (issueOne s uid fun s => issueS s uid (.alu .shr d a b) true)

/-- SSRA: a shifted right arithmetically by b[5:0], landing at t + 1 (04 R72, R70). -/
def execSsra (uid d a b : Nat) (s : State) : Out :=
  run (.ssra uid d a b) (issueOne s uid fun s => issueS s uid (.alu .sra d a b) true)

/-- SMIN: signed minimum, landing at t + 1 (04 R72, R70). -/
def execSmin (uid d a b : Nat) (s : State) : Out :=
  run (.smin uid d a b) (issueOne s uid fun s => issueS s uid (.alu .min d a b) true)

/-- SMAX: signed maximum, landing at t + 1 (04 R72, R70). -/
def execSmax (uid d a b : Nat) (s : State) : Out :=
  run (.smax uid d a b) (issueOne s uid fun s => issueS s uid (.alu .max d a b) true)

/-- SCMPEQ: 1 if a = b, else 0, landing at t + 1 (04 R72, R70). -/
def execScmpeq (uid d a b : Nat) (s : State) : Out :=
  run (.scmpeq uid d a b) (issueOne s uid fun s => issueS s uid (.alu .cmpeq d a b) true)

/-- SCMPLT: 1 if a < b signed, else 0, landing at t + 1 (04 R72, R70). -/
def execScmplt (uid d a b : Nat) (s : State) : Out :=
  run (.scmplt uid d a b) (issueOne s uid fun s => issueS s uid (.alu .cmplt d a b) true)

/-- SCMPLTU: 1 if a < b unsigned, else 0, landing at t + 1 (04 R72, R70). -/
def execScmpltu (uid d a b : Nat) (s : State) : Out :=
  run (.scmpltu uid d a b) (issueOne s uid fun s => issueS s uid (.alu .cmpltu d a b) true)

/-- SADDI: d ← a + b with b replaced by imm28 (04 R72). -/
def execSaddi (uid d a imm : Nat) (s : State) : Out :=
  run (.saddi uid d a imm) (issueOne s uid fun s => issueS s uid (.alui .add d a imm) true)

/-- SSUBI: d ← a − b with b replaced by imm28 (04 R72). -/
def execSsubi (uid d a imm : Nat) (s : State) : Out :=
  run (.ssubi uid d a imm) (issueOne s uid fun s => issueS s uid (.alui .sub d a imm) true)

/-- SANDI: bitwise AND with b replaced by imm28 (04 R72). -/
def execSandi (uid d a imm : Nat) (s : State) : Out :=
  run (.sandi uid d a imm) (issueOne s uid fun s => issueS s uid (.alui .and d a imm) true)

/-- SORI: bitwise OR with b replaced by imm28 (04 R72). -/
def execSori (uid d a imm : Nat) (s : State) : Out :=
  run (.sori uid d a imm) (issueOne s uid fun s => issueS s uid (.alui .or d a imm) true)

/-- SXORI: bitwise XOR with b replaced by imm28 (04 R72). -/
def execSxori (uid d a imm : Nat) (s : State) : Out :=
  run (.sxori uid d a imm) (issueOne s uid fun s => issueS s uid (.alui .xor d a imm) true)

/-- SSHLI: a shifted left by imm28[5:0] with b replaced by imm28 (04 R72). -/
def execSshli (uid d a imm : Nat) (s : State) : Out :=
  run (.sshli uid d a imm) (issueOne s uid fun s => issueS s uid (.alui .shl d a imm) true)

/-- SSHRI: a shifted right logically by imm28[5:0] with b replaced by imm28 (04 R72). -/
def execSshri (uid d a imm : Nat) (s : State) : Out :=
  run (.sshri uid d a imm) (issueOne s uid fun s => issueS s uid (.alui .shr d a imm) true)

/-- SSRAI: a shifted right arithmetically by imm28[5:0] with b replaced by imm28 (04 R72). -/
def execSsrai (uid d a imm : Nat) (s : State) : Out :=
  run (.ssrai uid d a imm) (issueOne s uid fun s => issueS s uid (.alui .sra d a imm) true)

/-- SMINI: signed minimum with b replaced by imm28 (04 R72). -/
def execSmini (uid d a imm : Nat) (s : State) : Out :=
  run (.smini uid d a imm) (issueOne s uid fun s => issueS s uid (.alui .min d a imm) true)

/-- SMAXI: signed maximum with b replaced by imm28 (04 R72). -/
def execSmaxi (uid d a imm : Nat) (s : State) : Out :=
  run (.smaxi uid d a imm) (issueOne s uid fun s => issueS s uid (.alui .max d a imm) true)

/-- SCMPEQI: 1 if a = b, else 0 with b replaced by imm28 (04 R72). -/
def execScmpeqi (uid d a imm : Nat) (s : State) : Out :=
  run (.scmpeqi uid d a imm) (issueOne s uid fun s => issueS s uid (.alui .cmpeq d a imm) true)

/-- SCMPLTI: 1 if a < b signed, else 0 with b replaced by imm28 (04 R72). -/
def execScmplti (uid d a imm : Nat) (s : State) : Out :=
  run (.scmplti uid d a imm) (issueOne s uid fun s => issueS s uid (.alui .cmplt d a imm) true)

/-- SCMPLTUI: 1 if a < b unsigned, else 0 with b replaced by imm28 (04 R72). -/
def execScmpltui (uid d a imm : Nat) (s : State) : Out :=
  run (.scmpltui uid d a imm) (issueOne s uid fun s => issueS s uid (.alui .cmpltu d a imm) true)

/-- SMUL: low 64 bits of a × b, landing at t + 3 (04 R72). -/
def execSmul (uid d a b : Nat) (s : State) : Out :=
  run (.smul uid d a b) (issueOne s uid fun s => issueS s uid (.mul d a b) true)

/-- SMULHU: high 64 bits of the unsigned product (04 R72). -/
def execSmulhu (uid d a b : Nat) (s : State) : Out :=
  run (.smulhu uid d a b) (issueOne s uid fun s => issueS s uid (.mulhu d a b) true)

/-- SMULHS: high 64 bits of the signed product (04 R72). -/
def execSmulhs (uid d a b : Nat) (s : State) : Out :=
  run (.smulhs uid d a b) (issueOne s uid fun s => issueS s uid (.mulhs d a b) true)

/-- SLD: 8 bytes at scratchpad offset a + sext(imm28), landing at t + 14; an unaligned or outside offset is an address fault (04 R72). -/
def execSld (uid d a imm : Nat) (s : State) : Out :=
  run (.sld uid d a imm) (issueOne s uid fun s => issueS s uid (.ld d a imm) true)

/-- SST: 8 bytes of d at a + sext(imm28), written at t + 3 (04 R72, R70). -/
def execSst (uid d a imm : Nat) (s : State) : Out :=
  run (.sst uid d a imm) (issueOne s uid fun s => issueS s uid (.st d a imm) true)

/-- SCSRR: d ← csr; an unlisted number gives zero and sets bad_csr (04 R75). -/
def execScsrr (uid d csr : Nat) (s : State) : Out :=
  run (.scsrr uid d csr) (issueOne s uid fun s => issueS s uid (.csrr d csr) true)

/-- SCSRW: csr ← a, for operations issued at t + 1 or later; an illegal write is ignored and sets bad_csr (04 R75). -/
def execScsrw (uid a csr : Nat) (s : State) : Out :=
  run (.scsrw uid a csr) (issueOne s uid fun s => issueS s uid (.csrw a csr) true)

/-- BR: the fourth bundle after this one comes from target (04 R73). -/
def execBr (uid target : Nat) (s : State) : Out :=
  run (.br uid target) (issueOne s uid fun s => issueS s uid (.br target) true)

/-- BRZ: as BR if a = 0 (04 R73). -/
def execBrz (uid a target : Nat) (s : State) : Out :=
  run (.brz uid a target) (issueOne s uid fun s => issueS s uid (.brz a target) true)

/-- BRNZ: as BR if a ≠ 0 (04 R73). -/
def execBrnz (uid a target : Nat) (s : State) : Out :=
  run (.brnz uid a target) (issueOne s uid fun s => issueS s uid (.brnz a target) true)

/-- BRI: branch to a[12:0] (04 R72, R73). -/
def execBri (uid a : Nat) (s : State) : Out :=
  run (.bri uid a) (issueOne s uid fun s => issueS s uid (.bri a) true)

/-- BRL: branch, and d ← branch address + 4 (04 R72, R73). -/
def execBrl (uid d target : Nat) (s : State) : Out :=
  run (.brl uid d target) (issueOne s uid fun s => issueS s uid (.brl d target) true)

end Sys2Proof.Machine
end

