-- ==== Sys2Proof/Machine/Tarlar.lean ====
section
/-! DEFINITION. The commands of the Tarlar ports (11). -/

namespace Sys2Proof.Machine
open Sys2Proof

/-- The frame that carries a dark acknowledgement is complete: the port goes dark if it is still idle, without a vote, and all else is in its low
form (11 R226). -/
def darkAfter (s : State) (p : Nat) : State :=
  let g := s.port p
  if g.darkSent ∧ g.txHeads.isEmpty then
    let t := s.putPort p { g with darkSent := false }
    if portUp t p ∧ portIdle t p ∧ portVotes t p = 0 ∧ allLow t.power.dom then goDark t p else t
  else s
/-- FLIT_TRANSMIT (11 R212 to R216). -/
def execFlitTransmit (p : Nat) (s : State) : Out := runV (.flitTransmit p) (darkAfter (flitSend s p) p)
def execLineSwitch (p : Nat) (rx : Bool) (s : State) : Out := runV (.lineSwitch p rx) (if rx then rxLinePass s p else txLinePass s p)
def execFlitReceive (p group fecCorr : Nat) (fecBad : Bool) (bytes : List Byte) (s : State) : Out :=
  runV (.flitReceive p group fecCorr fecBad bytes) (flitArrives s p group fecCorr fecBad bytes)
def execAckTimeout (p : Nat) (s : State) : Out := runV (.ackTimeout p) (ackTimeout s p)
def execRetireAnnouncement (p group line : Nat) (s : State) : Out := runV (.retireAnnouncement p group line) (announced s p 1 group line)
def execRestoreAnnouncement (p group line : Nat) (s : State) : Out := runV (.restoreAnnouncement p group line) (announced s p 2 group line)
def execTestPatternReport (p group : Nat) (clean : Bool) (s : State) : Out := runV (.testPatternReport p group clean) (testReported s p group clean)
def execRekeyOffer (p : Nat) (key : List Byte) (frame : Nat) (s : State) : Out := runV (.rekeyOffer p key frame) (rekeyOffered s p key frame)
def execRekeyAccept (p : Nat) (key : List Byte) (s : State) : Out := runV (.rekeyAccept p key) (rekeyAccepted s p key)
def execRekeyDecline (p : Nat) (s : State) : Out := runV (.rekeyDecline p) (rekeyDeclined s p)
def execRekeyPeriodExpiry (p : Nat) (s : State) : Out := runV (.rekeyPeriodExpiry p) (rekeyDue s p)
def execRekeyOfferRepeat (p : Nat) (s : State) : Out := runV (.rekeyOfferRepeat p) (rekeyAgain s p)
def execLossOfLight (p : Nat) (s : State) : Out := runV (.lossOfLight p) (if s.isFatal then s else portDown s p 0x01 0 false)
/-- A darkness shorter than 10 µs leaves nothing but the counters that the replays raise (11 R221). -/
def execLaneRelock (s : State) : Out := runV .laneRelock s
def execLightDetected (p : Nat) (s : State) : Out := runV (.lightDetected p) (lightSeen s p)
def execHailStepDone (p : Nat) (h : HailInfo) (s : State) : Out := runV (.hailStepDone p h) (hailStep s p h fun t => blkApply stagedAct t (.port p))
def execHailAttemptTimeout (p : Nat) (s : State) : Out := runV (.hailAttemptTimeout p) (hailTimeout s p)
def execHailBackoffExpiry (p : Nat) (s : State) : Out := runV (.hailBackoffExpiry p) (backoffOver s p)
/-- DARK_REQUEST (11 R226). -/
def execDarkRequest (p : Nat) (ack : Bool) (s : State) : Out :=
  runV (.darkRequest p ack) (darkMessage s p ack (decide (portVotes s p ≠ 0) || !allLow s.power.dom))
/-- WAKE_TONE_DETECTED (11 R226). -/
def execWakeToneDetected (p : Nat) (s : State) : Out := runV (.wakeToneDetected p) (toneHeard s p)
def execWakeToneTimeout (p : Nat) (s : State) : Out := runV (.wakeToneTimeout p) (toneOver s p)
def execLnkEnable (p : Nat) (on : Bool) (s : State) : Out := runV (.lnkEnable p on) (if s.link.d3hot then s else lnkEnable s p on)
def execLnkRehail (p : Nat) (s : State) : Out := runV (.lnkRehail p) (if s.link.d3hot then s else lnkRehail s p)

end Sys2Proof.Machine
end

