-- ==== Sys2Proof/Machine/Trust.lean ====
section
/-! DEFINITION. The commands of the tollhouse, of partitions and of warm resets (16). -/

namespace Sys2Proof.Machine
open Sys2Proof

/-- ATTESTATION_REPORT_REQUEST (16 R308). -/
def execAttestationReportRequest (r : Nat) (s : State) : Out := runV (.attestationReportRequest r) (ringExec s r .report (attBody r))
/-- CERTIFICATE_CHAIN_REQUEST (16 R308). -/
def execCertificateChainRequest (r : Nat) (s : State) : Out := runV (.certificateChainRequest r) (ringExec s r .chain (chainBody r))
/-- ATTESTATION_SIGNED (16 R308 to R310). -/
def execAttestationSigned (s : State) : Out := runV .attestationSigned (attSigned s)
/-- A report requested by the board management controller: queued, or busy (16 R308). -/
def bmcReport (s : State) (nonce : List Byte) : State :=
  if attRoom s.trust false then attPush s ⟨.bmc, takePad 32 nonce, false, 0, 0⟩ else { s with bmcOut := s.bmcOut ++ [.busy] }
/-- BMC_ATTESTATION_REPORT (16 R308; 02 R26). -/
def execBmcAttestationReport (nonce : List Byte) (s : State) : Out := runV (.bmcAttestationReport nonce) (bmcReport s nonce)
/-- BMC_CERTIFICATE_CHAIN (16 R308). -/
def execBmcCertificateChain (s : State) : Out := runV .bmcCertificateChain { s with bmcOut := s.bmcOut ++ [.chain (certChain s.trust)] }
/-- PLDM_FIRMWARE_TRANSFER (16 R302, R304). -/
def execPldmFirmwareTransfer (slot : Nat) (image : Option (List Byte)) (s : State) : Out :=
  runV (.pldmFirmwareTransfer slot image) (pldmTransfer s slot image)
/-- PLDM_ACTIVATE (16 R304). -/
def execPldmActivate (cold : Bool) (s : State) : Out := runV (.pldmActivate cold) (pldmActivate s cold)
/-- PLDM_COMMIT (16 R305). -/
def execPldmCommit (s : State) : Out := runV .pldmCommit (pldmCommit s)
/-- COMMIT_WINDOW_EXPIRY (16 R305). -/
def execCommitWindowExpiry (s : State) : Out := runV .commitWindowExpiry (commitExpiry s)
/-- PROVISION_REQUEST (16 R307). -/
def execProvisionRequest (s : State) : Out := runV .provisionRequest (if s.isFatal then s else provisionRequest s)
/-- PROVISION_WRITE (16 R307, R297). -/
def execProvisionWrite (root chain sig : List Byte) (s : State) : Out := runV (.provisionWrite root chain sig) (provisionWrite s root chain sig)
/-- BMC_FACTORY_RESET: the link identity key, the root and the chain are discarded (16 R307). -/
def execBmcFactoryReset (s : State) : Out := runV .bmcFactoryReset
  (if s.isFatal then s else s.putTrust { s.trust with lik := [], likFlash := [], root := [], chain := [] })
/-- WARM_RESET: a write of TOLL_CTRL (16 R303, R318). -/
def execWarmReset (data : Nat) (s : State) : Out := runV (.warmReset data) (if s.link.d3hot then s else warmWrite s data)
/-- BMC_WARM_RESET_REQUEST (16 R303). -/
def execBmcWarmResetRequest (s : State) : Out := runV .bmcWarmResetRequest (warmRequest s)
/-- WARM_RESET_STEP_DONE (16 R303). -/
def execWarmResetStepDone (failed : List Nat) (s : State) : Out := runV (.warmResetStepDone failed) (warmStep s failed)
/-- PARTITION_START: a write of go whose block says start (16 R311, R317). -/
def execPartitionStart (block : Nat) (s : State) : Out := runV (.partitionStart block) (if s.link.d3hot then s else partGo s block)
/-- PARTITION_STOP: a write of go whose block says stop (16 R311, R317). -/
def execPartitionStop (block : Nat) (s : State) : Out := runV (.partitionStop block) (if s.link.d3hot then s else partGo s block)
/-- START_BLOCK_RETURN (16 R311 to R314). -/
def execStartBlockReturn (status : CplStatus) (data : List Byte) (s : State) : Out :=
  runV (.startBlockReturn status data) (blockReturn s status data)
/-- PARTITION_START_STEP_DONE (16 R313). -/
def execPartitionStartStepDone (s : State) : Out := runV .partitionStartStepDone (startStep s)
/-- PARTITION_STOP_DRAINED (16 R314). -/
def execPartitionStopDrained (s : State) : Out := runV .partitionStopDrained (stopDrained s)

end Sys2Proof.Machine
end

