-- ==== Sys2Proof/Machine/Vector.lean ====
section
/-! DEFINITION. The vector slot: one meaning per operation (04 R76, R77; 07). -/

namespace Sys2Proof.Machine
open Sys2Proof

/-- VNOP: no operation (04 R76). -/
def execVnop (s : State) : Out := run .vnop s

/-- VADD: va + vb in FP32 (07 R135, R136). -/
def execVadd (uid : Nat) (f : VArg) (s : State) : Out :=
  run (.vadd uid f) (issueOne s uid fun s => issueV s uid .vadd f)

/-- VSUB: va − vb in FP32 (07 R135, R136). -/
def execVsub (uid : Nat) (f : VArg) (s : State) : Out :=
  run (.vsub uid f) (issueOne s uid fun s => issueV s uid .vsub f)

/-- VMUL: va × vb in FP32 (07 R135, R136). -/
def execVmul (uid : Nat) (f : VArg) (s : State) : Out :=
  run (.vmul uid f) (issueOne s uid fun s => issueV s uid .vmul f)

/-- VFMA: va × vb + vc with one rounding (07 R136). -/
def execVfma (uid : Nat) (f : VArg) (s : State) : Out :=
  run (.vfma uid f) (issueOne s uid fun s => issueV s uid .vfma f)

/-- VMAX: maximum, FP32 or INT32 (07 R136). -/
def execVmax (uid : Nat) (f : VArg) (s : State) : Out :=
  run (.vmax uid f) (issueOne s uid fun s => issueV s uid .vmax f)

/-- VMIN: minimum, FP32 or INT32 (07 R136). -/
def execVmin (uid : Nat) (f : VArg) (s : State) : Out :=
  run (.vmin uid f) (issueOne s uid fun s => issueV s uid .vmin f)

/-- VABS: sign bit cleared (07 R136). -/
def execVabs (uid : Nat) (f : VArg) (s : State) : Out :=
  run (.vabs uid f) (issueOne s uid fun s => issueV s uid .vabs f)

/-- VNEG: sign bit inverted (07 R136). -/
def execVneg (uid : Nat) (f : VArg) (s : State) : Out :=
  run (.vneg uid f) (issueOne s uid fun s => issueV s uid .vneg f)

/-- VSEL: p ? va : vb (07 R134). -/
def execVsel (uid : Nat) (f : VArg) (s : State) : Out :=
  run (.vsel uid f) (issueOne s uid fun s => issueV s uid .vsel f)

/-- VMOV: va moved (07 R136). -/
def execVmov (uid : Nat) (f : VArg) (s : State) : Out :=
  run (.vmov uid f) (issueOne s uid fun s => issueV s uid .vmov f)

/-- VSCALE: va × 2^vb (07 R136). -/
def execVscale (uid : Nat) (f : VArg) (s : State) : Out :=
  run (.vscale uid f) (issueOne s uid fun s => issueV s uid .vscale f)

/-- VCVT: conversion by fmt and vc[0] (07 R137 to R139). -/
def execVcvt (uid : Nat) (f : VArg) (s : State) : Out :=
  run (.vcvt uid f) (issueOne s uid fun s => issueV s uid .vcvt f)

/-- VCMPLT: predicate va < vb (07 R134, R136). -/
def execVcmplt (uid : Nat) (f : VArg) (s : State) : Out :=
  run (.vcmplt uid f) (issueOne s uid fun s => issueV s uid .vcmplt f)

/-- VCMPEQ: predicate va = vb (07 R134, R136). -/
def execVcmpeq (uid : Nat) (f : VArg) (s : State) : Out :=
  run (.vcmpeq uid f) (issueOne s uid fun s => issueV s uid .vcmpeq f)

/-- VIADD: INT32 sum, wrapping (07 R136). -/
def execViadd (uid : Nat) (f : VArg) (s : State) : Out :=
  run (.viadd uid f) (issueOne s uid fun s => issueV s uid .viadd f)

/-- VISUB: INT32 difference, wrapping (07 R136). -/
def execVisub (uid : Nat) (f : VArg) (s : State) : Out :=
  run (.visub uid f) (issueOne s uid fun s => issueV s uid .visub f)

/-- VIMUL: low 32 bits of the INT32 product (07 R136). -/
def execVimul (uid : Nat) (f : VArg) (s : State) : Out :=
  run (.vimul uid f) (issueOne s uid fun s => issueV s uid .vimul f)

/-- VAND: bitwise AND (07 R136). -/
def execVand (uid : Nat) (f : VArg) (s : State) : Out :=
  run (.vand uid f) (issueOne s uid fun s => issueV s uid .vand f)

/-- VOR: bitwise OR (07 R136). -/
def execVor (uid : Nat) (f : VArg) (s : State) : Out :=
  run (.vor uid f) (issueOne s uid fun s => issueV s uid .vor f)

/-- VXOR: bitwise XOR (07 R136). -/
def execVxor (uid : Nat) (f : VArg) (s : State) : Out :=
  run (.vxor uid f) (issueOne s uid fun s => issueV s uid .vxor f)

/-- VSHL: va shifted left by vb[4:0] (07 R136). -/
def execVshl (uid : Nat) (f : VArg) (s : State) : Out :=
  run (.vshl uid f) (issueOne s uid fun s => issueV s uid .vshl f)

/-- VSHR: va shifted right logically by vb[4:0] (07 R136). -/
def execVshr (uid : Nat) (f : VArg) (s : State) : Out :=
  run (.vshr uid f) (issueOne s uid fun s => issueV s uid .vshr f)

/-- VBCAST: one element broadcast (07 R136). -/
def execVbcast (uid : Nat) (f : VArg) (s : State) : Out :=
  run (.vbcast uid f) (issueOne s uid fun s => issueV s uid .vbcast f)

/-- VEXP: e^va within 2 ulp (07 R140). -/
def execVexp (uid : Nat) (f : VArg) (s : State) : Out :=
  run (.vexp uid f) (issueOne s uid fun s => issueV s uid .vexp f)

/-- VLOG: ln va within 2 ulp (07 R140). -/
def execVlog (uid : Nat) (f : VArg) (s : State) : Out :=
  run (.vlog uid f) (issueOne s uid fun s => issueV s uid .vlog f)

/-- VRCP: 1 / va within 1 ulp (07 R140). -/
def execVrcp (uid : Nat) (f : VArg) (s : State) : Out :=
  run (.vrcp uid f) (issueOne s uid fun s => issueV s uid .vrcp f)

/-- VRSQRT: 1 / √va within 1 ulp (07 R140). -/
def execVrsqrt (uid : Nat) (f : VArg) (s : State) : Out :=
  run (.vrsqrt uid f) (issueOne s uid fun s => issueV s uid .vrsqrt f)

/-- VTANH: tanh va within 2 ulp (07 R140). -/
def execVtanh (uid : Nat) (f : VArg) (s : State) : Out :=
  run (.vtanh uid f) (issueOne s uid fun s => issueV s uid .vtanh f)

/-- VEXPSUB: exp (x − m) with the rows of R141. -/
def execVexpsub (uid : Nat) (f : VArg) (s : State) : Out :=
  run (.vexpsub uid f) (issueOne s uid fun s => issueV s uid .vexpsub f)

/-- VNORM: va / vb within 2 ulp, a zero divisor giving +0 (07 R142). -/
def execVnorm (uid : Nat) (f : VArg) (s : State) : Out :=
  run (.vnorm uid f) (issueOne s uid fun s => issueV s uid .vnorm f)

/-- VRSUM: sum in the fixed tree order to s (07 R143). -/
def execVrsum (uid : Nat) (f : VArg) (s : State) : Out :=
  run (.vrsum uid f) (issueOne s uid fun s => issueV s uid .vrsum f)

/-- VRMAX: maximum to s and its index to s + 1 mod 64 (07 R144). -/
def execVrmax (uid : Nat) (f : VArg) (s : State) : Out :=
  run (.vrmax uid f) (issueOne s uid fun s => issueV s uid .vrmax f)

/-- VRMIN: minimum to s and its index to s + 1 mod 64 (07 R144). -/
def execVrmin (uid : Nat) (f : VArg) (s : State) : Out :=
  run (.vrmin uid f) (issueOne s uid fun s => issueV s uid .vrmin f)

/-- VRSEGSUM: each segment's sum to its elements (07 R143). -/
def execVrsegsum (uid : Nat) (f : VArg) (s : State) : Out :=
  run (.vrsegsum uid f) (issueOne s uid fun s => issueV s uid .vrsegsum f)

/-- VRSEGMAX: each segment's maximum to its elements (07 R144). -/
def execVrsegmax (uid : Nat) (f : VArg) (s : State) : Out :=
  run (.vrsegmax uid f) (issueOne s uid fun s => issueV s uid .vrsegmax f)

/-- VRSEGMIN: each segment's minimum to its elements (07 R144). -/
def execVrsegmin (uid : Nat) (f : VArg) (s : State) : Out :=
  run (.vrsegmin uid f) (issueOne s uid fun s => issueV s uid .vrsegmin f)

/-- VCOMPRESS: selected elements packed, count to s (07 R145). -/
def execVcompress (uid : Nat) (f : VArg) (s : State) : Out :=
  run (.vcompress uid f) (issueOne s uid fun s => issueV s uid .vcompress f)

/-- VEXPAND: packed elements spread, count to s (07 R145). -/
def execVexpand (uid : Nat) (f : VArg) (s : State) : Out :=
  run (.vexpand uid f) (issueOne s uid fun s => issueV s uid .vexpand f)

/-- VOPT0: lo × vb + hi × va (07 R146). -/
def execVopt0 (uid : Nat) (f : VArg) (s : State) : Out :=
  run (.vopt0 uid f) (issueOne s uid fun s => issueV s uid .vopt0 f)

/-- VOPT1: lo × vb + hi × va² (07 R146). -/
def execVopt1 (uid : Nat) (f : VArg) (s : State) : Out :=
  run (.vopt1 uid f) (issueOne s uid fun s => issueV s uid .vopt1 f)

/-- VOPT2: hi × va / (√vb + lo) within 3 ulp (07 R146). -/
def execVopt2 (uid : Nat) (f : VArg) (s : State) : Out :=
  run (.vopt2 uid f) (issueOne s uid fun s => issueV s uid .vopt2 f)

/-- VOPT3: lo × vb − va and its working copy in vc (07 R146). -/
def execVopt3 (uid : Nat) (f : VArg) (s : State) : Out :=
  run (.vopt3 uid f) (issueOne s uid fun s => issueV s uid .vopt3 f)

end Sys2Proof.Machine
end

