-- ==== Sys2Proof/Machine/Dispatch.lean ====
section
/-! DEFINITION. One arm per command: the meaning it calls. -/

namespace Sys2Proof.Machine
open Sys2Proof

/-- The effect of a command on everything but the queue. -/
def exec (i : Instr) (s : State) : Host.Outcome State Fault Refusal :=
  match i with
  | .sadd a0 a1 a2 a3 => Sys2Proof.Machine.execSadd a0 a1 a2 a3 s
  | .ssub a0 a1 a2 a3 => Sys2Proof.Machine.execSsub a0 a1 a2 a3 s
  | .sand a0 a1 a2 a3 => Sys2Proof.Machine.execSand a0 a1 a2 a3 s
  | .sor a0 a1 a2 a3 => Sys2Proof.Machine.execSor a0 a1 a2 a3 s
  | .sxor a0 a1 a2 a3 => Sys2Proof.Machine.execSxor a0 a1 a2 a3 s
  | .sshl a0 a1 a2 a3 => Sys2Proof.Machine.execSshl a0 a1 a2 a3 s
  | .sshr a0 a1 a2 a3 => Sys2Proof.Machine.execSshr a0 a1 a2 a3 s
  | .ssra a0 a1 a2 a3 => Sys2Proof.Machine.execSsra a0 a1 a2 a3 s
  | .smin a0 a1 a2 a3 => Sys2Proof.Machine.execSmin a0 a1 a2 a3 s
  | .smax a0 a1 a2 a3 => Sys2Proof.Machine.execSmax a0 a1 a2 a3 s
  | .scmpeq a0 a1 a2 a3 => Sys2Proof.Machine.execScmpeq a0 a1 a2 a3 s
  | .scmplt a0 a1 a2 a3 => Sys2Proof.Machine.execScmplt a0 a1 a2 a3 s
  | .scmpltu a0 a1 a2 a3 => Sys2Proof.Machine.execScmpltu a0 a1 a2 a3 s
  | .saddi a0 a1 a2 a3 => Sys2Proof.Machine.execSaddi a0 a1 a2 a3 s
  | .ssubi a0 a1 a2 a3 => Sys2Proof.Machine.execSsubi a0 a1 a2 a3 s
  | .sandi a0 a1 a2 a3 => Sys2Proof.Machine.execSandi a0 a1 a2 a3 s
  | .sori a0 a1 a2 a3 => Sys2Proof.Machine.execSori a0 a1 a2 a3 s
  | .sxori a0 a1 a2 a3 => Sys2Proof.Machine.execSxori a0 a1 a2 a3 s
  | .sshli a0 a1 a2 a3 => Sys2Proof.Machine.execSshli a0 a1 a2 a3 s
  | .sshri a0 a1 a2 a3 => Sys2Proof.Machine.execSshri a0 a1 a2 a3 s
  | .ssrai a0 a1 a2 a3 => Sys2Proof.Machine.execSsrai a0 a1 a2 a3 s
  | .smini a0 a1 a2 a3 => Sys2Proof.Machine.execSmini a0 a1 a2 a3 s
  | .smaxi a0 a1 a2 a3 => Sys2Proof.Machine.execSmaxi a0 a1 a2 a3 s
  | .scmpeqi a0 a1 a2 a3 => Sys2Proof.Machine.execScmpeqi a0 a1 a2 a3 s
  | .scmplti a0 a1 a2 a3 => Sys2Proof.Machine.execScmplti a0 a1 a2 a3 s
  | .scmpltui a0 a1 a2 a3 => Sys2Proof.Machine.execScmpltui a0 a1 a2 a3 s
  | .smul a0 a1 a2 a3 => Sys2Proof.Machine.execSmul a0 a1 a2 a3 s
  | .smulhu a0 a1 a2 a3 => Sys2Proof.Machine.execSmulhu a0 a1 a2 a3 s
  | .smulhs a0 a1 a2 a3 => Sys2Proof.Machine.execSmulhs a0 a1 a2 a3 s
  | .sld a0 a1 a2 a3 => Sys2Proof.Machine.execSld a0 a1 a2 a3 s
  | .sst a0 a1 a2 a3 => Sys2Proof.Machine.execSst a0 a1 a2 a3 s
  | .scsrr a0 a1 a2 => Sys2Proof.Machine.execScsrr a0 a1 a2 s
  | .scsrw a0 a1 a2 => Sys2Proof.Machine.execScsrw a0 a1 a2 s
  | .br a0 a1 => Sys2Proof.Machine.execBr a0 a1 s
  | .brz a0 a1 a2 => Sys2Proof.Machine.execBrz a0 a1 a2 s
  | .brnz a0 a1 a2 => Sys2Proof.Machine.execBrnz a0 a1 a2 s
  | .bri a0 a1 => Sys2Proof.Machine.execBri a0 a1 s
  | .brl a0 a1 a2 => Sys2Proof.Machine.execBrl a0 a1 a2 s
  | .vadd a0 a1 => Sys2Proof.Machine.execVadd a0 a1 s
  | .vsub a0 a1 => Sys2Proof.Machine.execVsub a0 a1 s
  | .vmul a0 a1 => Sys2Proof.Machine.execVmul a0 a1 s
  | .vfma a0 a1 => Sys2Proof.Machine.execVfma a0 a1 s
  | .vmax a0 a1 => Sys2Proof.Machine.execVmax a0 a1 s
  | .vmin a0 a1 => Sys2Proof.Machine.execVmin a0 a1 s
  | .vabs a0 a1 => Sys2Proof.Machine.execVabs a0 a1 s
  | .vneg a0 a1 => Sys2Proof.Machine.execVneg a0 a1 s
  | .vsel a0 a1 => Sys2Proof.Machine.execVsel a0 a1 s
  | .vmov a0 a1 => Sys2Proof.Machine.execVmov a0 a1 s
  | .vscale a0 a1 => Sys2Proof.Machine.execVscale a0 a1 s
  | .vcvt a0 a1 => Sys2Proof.Machine.execVcvt a0 a1 s
  | .vcmplt a0 a1 => Sys2Proof.Machine.execVcmplt a0 a1 s
  | .vcmpeq a0 a1 => Sys2Proof.Machine.execVcmpeq a0 a1 s
  | .viadd a0 a1 => Sys2Proof.Machine.execViadd a0 a1 s
  | .visub a0 a1 => Sys2Proof.Machine.execVisub a0 a1 s
  | .vimul a0 a1 => Sys2Proof.Machine.execVimul a0 a1 s
  | .vand a0 a1 => Sys2Proof.Machine.execVand a0 a1 s
  | .vor a0 a1 => Sys2Proof.Machine.execVor a0 a1 s
  | .vxor a0 a1 => Sys2Proof.Machine.execVxor a0 a1 s
  | .vshl a0 a1 => Sys2Proof.Machine.execVshl a0 a1 s
  | .vshr a0 a1 => Sys2Proof.Machine.execVshr a0 a1 s
  | .vbcast a0 a1 => Sys2Proof.Machine.execVbcast a0 a1 s
  | .vexp a0 a1 => Sys2Proof.Machine.execVexp a0 a1 s
  | .vlog a0 a1 => Sys2Proof.Machine.execVlog a0 a1 s
  | .vrcp a0 a1 => Sys2Proof.Machine.execVrcp a0 a1 s
  | .vrsqrt a0 a1 => Sys2Proof.Machine.execVrsqrt a0 a1 s
  | .vtanh a0 a1 => Sys2Proof.Machine.execVtanh a0 a1 s
  | .vexpsub a0 a1 => Sys2Proof.Machine.execVexpsub a0 a1 s
  | .vnorm a0 a1 => Sys2Proof.Machine.execVnorm a0 a1 s
  | .vrsum a0 a1 => Sys2Proof.Machine.execVrsum a0 a1 s
  | .vrmax a0 a1 => Sys2Proof.Machine.execVrmax a0 a1 s
  | .vrmin a0 a1 => Sys2Proof.Machine.execVrmin a0 a1 s
  | .vrsegsum a0 a1 => Sys2Proof.Machine.execVrsegsum a0 a1 s
  | .vrsegmax a0 a1 => Sys2Proof.Machine.execVrsegmax a0 a1 s
  | .vrsegmin a0 a1 => Sys2Proof.Machine.execVrsegmin a0 a1 s
  | .vcompress a0 a1 => Sys2Proof.Machine.execVcompress a0 a1 s
  | .vexpand a0 a1 => Sys2Proof.Machine.execVexpand a0 a1 s
  | .vopt0 a0 a1 => Sys2Proof.Machine.execVopt0 a0 a1 s
  | .vopt1 a0 a1 => Sys2Proof.Machine.execVopt1 a0 a1 s
  | .vopt2 a0 a1 => Sys2Proof.Machine.execVopt2 a0 a1 s
  | .vopt3 a0 a1 => Sys2Proof.Machine.execVopt3 a0 a1 s
  | .mmul a0 a1 a2 a3 a4 => Sys2Proof.Machine.execMmul a0 a1 a2 a3 a4 s
  | .mswap a0 => Sys2Proof.Machine.execMswap a0 s
  | .mshadow a0 a1 => Sys2Proof.Machine.execMshadow a0 a1 s
  | .lfeed a0 a1 => Sys2Proof.Machine.execLfeed a0 a1 s
  | .lvec a0 a1 a2 a3 => Sys2Proof.Machine.execLvec a0 a1 a2 a3 s
  | .lscl a0 a1 a2 => Sys2Proof.Machine.execLscl a0 a1 a2 s
  | .lbind a0 a1 a2 => Sys2Proof.Machine.execLbind a0 a1 a2 s
  | .lbase a0 a1 a2 => Sys2Proof.Machine.execLbase a0 a1 a2 s
  | .lskip a0 a1 => Sys2Proof.Machine.execLskip a0 a1 s
  | .lbind3 a0 a1 a2 => Sys2Proof.Machine.execLbind3 a0 a1 a2 s
  | .lbase3 a0 a1 a2 => Sys2Proof.Machine.execLbase3 a0 a1 a2 s
  | .tvec a0 a1 a2 => Sys2Proof.Machine.execTvec a0 a1 a2 s
  | .tvec16 a0 a1 a2 => Sys2Proof.Machine.execTvec16 a0 a1 a2 s
  | .tvec8 a0 a1 a2 => Sys2Proof.Machine.execTvec8 a0 a1 a2 s
  | .tscl a0 a1 => Sys2Proof.Machine.execTscl a0 a1 s
  | .tbind a0 a1 => Sys2Proof.Machine.execTbind a0 a1 s
  | .tbase a0 a1 => Sys2Proof.Machine.execTbase a0 a1 s
  | .tskip a0 => Sys2Proof.Machine.execTskip a0 s
  | .ginc a0 a1 a2 a3 => Sys2Proof.Machine.execGinc a0 a1 a2 a3 s
  | .gadd a0 a1 a2 a3 => Sys2Proof.Machine.execGadd a0 a1 a2 a3 s
  | .gwait a0 a1 a2 a3 => Sys2Proof.Machine.execGwait a0 a1 a2 a3 s
  | .gread a0 a1 a2 a3 => Sys2Proof.Machine.execGread a0 a1 a2 a3 s
  | .mwait a0 a1 => Sys2Proof.Machine.execMwait a0 a1 s
  | .mread a0 a1 => Sys2Proof.Machine.execMread a0 a1 s
  | .bundleIssue a0 => Sys2Proof.Machine.execBundleIssue a0 s
  | .operationLanding a0 a1 => Sys2Proof.Machine.execOperationLanding a0 a1 s
  | .freezeEnd a0 => Sys2Proof.Machine.execFreezeEnd a0 s
  | .rescaleFreezeEnd a0 => Sys2Proof.Machine.execRescaleFreezeEnd a0 s
  | .coreWaitTimeout a0 => Sys2Proof.Machine.execCoreWaitTimeout a0 s
  | .requestGrant a0 a1 a2 => Sys2Proof.Machine.execRequestGrant a0 a1 a2 s
  | .patrolScrubClaim a0 a1 a2 => Sys2Proof.Machine.execPatrolScrubClaim a0 a1 a2 s
  | .indexGroupArrival a0 a1 => Sys2Proof.Machine.execIndexGroupArrival a0 a1 s
  | .imageLoad a0 a1 => Sys2Proof.Machine.execImageLoad a0 a1 s
  | .flightLaunchAtEnd a0 => Sys2Proof.Machine.execFlightLaunchAtEnd a0 s
  | .flightLaunchAtStart a0 => Sys2Proof.Machine.execFlightLaunchAtStart a0 s
  | .flightStopAtEop a0 => Sys2Proof.Machine.execFlightStopAtEop a0 s
  | .flightStopAtBundle a0 => Sys2Proof.Machine.execFlightStopAtBundle a0 s
  | .barge a0 => Sys2Proof.Machine.execBarge a0 s
  | .gateSet a0 => Sys2Proof.Machine.execGateSet a0 s
  | .gateAdd a0 => Sys2Proof.Machine.execGateAdd a0 s
  | .gateWait a0 => Sys2Proof.Machine.execGateWait a0 s
  | .fenceThisRing a0 => Sys2Proof.Machine.execFenceThisRing a0 s
  | .fenceOtherRing a0 => Sys2Proof.Machine.execFenceOtherRing a0 s
  | .haltAndDumpAtCount a0 => Sys2Proof.Machine.execHaltAndDumpAtCount a0 s
  | .haltAndDumpAtMilestone a0 => Sys2Proof.Machine.execHaltAndDumpAtMilestone a0 s
  | .noOperation a0 => Sys2Proof.Machine.execNoOperation a0 s
  | .wipeAll a0 => Sys2Proof.Machine.execWipeAll a0 s
  | .wipeRange a0 => Sys2Proof.Machine.execWipeRange a0 s
  | .launchStepDone a0 a1 a2 => Sys2Proof.Machine.execLaunchStepDone a0 a1 a2 s
  | .flightRelease a0 a1 => Sys2Proof.Machine.execFlightRelease a0 a1 s
  | .flightEnd a0 a1 => Sys2Proof.Machine.execFlightEnd a0 a1 s
  | .gateUnitApply a0 => Sys2Proof.Machine.execGateUnitApply a0 s
  | .standingBargeFiring a0 a1 => Sys2Proof.Machine.execStandingBargeFiring a0 a1 s
  | .bargeAdmission a0 => Sys2Proof.Machine.execBargeAdmission a0 s
  | .bargePieceRead a0 a1 => Sys2Proof.Machine.execBargePieceRead a0 a1 s
  | .bargeCompletion a0 => Sys2Proof.Machine.execBargeCompletion a0 s
  | .meshTransferDelivery a0 a1 => Sys2Proof.Machine.execMeshTransferDelivery a0 a1 s
  | .haltNoticeArrival a0 a1 a2 => Sys2Proof.Machine.execHaltNoticeArrival a0 a1 a2 s
  | .ucieTrainingAttempt a0 => Sys2Proof.Machine.execUcieTrainingAttempt a0 s
  | .ucieTrainingStepDone a0 a1 => Sys2Proof.Machine.execUcieTrainingStepDone a0 a1 s
  | .ucieAttemptTimeout a0 => Sys2Proof.Machine.execUcieAttemptTimeout a0 s
  | .ucieLaneFailure a0 => Sys2Proof.Machine.execUcieLaneFailure a0 s
  | .dlActiveLoss a0 => Sys2Proof.Machine.execDlActiveLoss a0 s
  | .hostResetN a0 => Sys2Proof.Machine.execHostResetN a0 s
  | .cplTimeoutExpiry a0 => Sys2Proof.Machine.execCplTimeoutExpiry a0 s
  | .hostReadCompletion a0 a1 a2 => Sys2Proof.Machine.execHostReadCompletion a0 a1 a2 s
  | .barBadAccess a0 => Sys2Proof.Machine.execBarBadAccess a0 s
  | .registerWrite a0 a1 a2 => Sys2Proof.Machine.execRegisterWrite a0 a1 a2 s
  | .msixTableWrite a0 a1 a2 => Sys2Proof.Machine.execMsixTableWrite a0 a1 a2 s
  | .ringEnable a0 => Sys2Proof.Machine.execRingEnable a0 s
  | .ringDisable a0 => Sys2Proof.Machine.execRingDisable a0 s
  | .summaryPoll a0 => Sys2Proof.Machine.execSummaryPoll a0 s
  | .pollBackoff a0 => Sys2Proof.Machine.execPollBackoff a0 s
  | .summaryBitmapReturn a0 a1 a2 => Sys2Proof.Machine.execSummaryBitmapReturn a0 a1 a2 s
  | .summaryCasReturn a0 a1 a2 => Sys2Proof.Machine.execSummaryCasReturn a0 a1 a2 s
  | .doorbellReadReturn a0 a1 a2 => Sys2Proof.Machine.execDoorbellReadReturn a0 a1 a2 s
  | .descriptorReadReturn a0 a1 a2 => Sys2Proof.Machine.execDescriptorReadReturn a0 a1 a2 s
  | .descriptorComplete a0 a1 => Sys2Proof.Machine.execDescriptorComplete a0 a1 s
  | .irqHoldoffExpiry a0 => Sys2Proof.Machine.execIrqHoldoffExpiry a0 s
  | .descriptorWaitTimeout a0 a1 => Sys2Proof.Machine.execDescriptorWaitTimeout a0 a1 s
  | .stagedSettingTimeout a0 a1 => Sys2Proof.Machine.execStagedSettingTimeout a0 a1 s
  | .attestationReportRequest a0 => Sys2Proof.Machine.execAttestationReportRequest a0 s
  | .certificateChainRequest a0 => Sys2Proof.Machine.execCertificateChainRequest a0 s
  | .bmcAttestationReport a0 => Sys2Proof.Machine.execBmcAttestationReport a0 s
  | .pldmFirmwareTransfer a0 a1 => Sys2Proof.Machine.execPldmFirmwareTransfer a0 a1 s
  | .pldmActivate a0 => Sys2Proof.Machine.execPldmActivate a0 s
  | .provisionWrite a0 a1 a2 => Sys2Proof.Machine.execProvisionWrite a0 a1 a2 s
  | .warmReset a0 => Sys2Proof.Machine.execWarmReset a0 s
  | .warmResetStepDone a0 => Sys2Proof.Machine.execWarmResetStepDone a0 s
  | .partitionStart a0 => Sys2Proof.Machine.execPartitionStart a0 s
  | .partitionStop a0 => Sys2Proof.Machine.execPartitionStop a0 s
  | .startBlockReturn a0 a1 => Sys2Proof.Machine.execStartBlockReturn a0 a1 s
  | .flitTransmit a0 => Sys2Proof.Machine.execFlitTransmit a0 s
  | .lineSwitch a0 a1 => Sys2Proof.Machine.execLineSwitch a0 a1 s
  | .flitReceive a0 a1 a2 a3 a4 => Sys2Proof.Machine.execFlitReceive a0 a1 a2 a3 a4 s
  | .ackTimeout a0 => Sys2Proof.Machine.execAckTimeout a0 s
  | .retireAnnouncement a0 a1 a2 => Sys2Proof.Machine.execRetireAnnouncement a0 a1 a2 s
  | .restoreAnnouncement a0 a1 a2 => Sys2Proof.Machine.execRestoreAnnouncement a0 a1 a2 s
  | .testPatternReport a0 a1 a2 => Sys2Proof.Machine.execTestPatternReport a0 a1 a2 s
  | .rekeyOffer a0 a1 a2 => Sys2Proof.Machine.execRekeyOffer a0 a1 a2 s
  | .rekeyAccept a0 a1 => Sys2Proof.Machine.execRekeyAccept a0 a1 s
  | .rekeyDecline a0 => Sys2Proof.Machine.execRekeyDecline a0 s
  | .rekeyPeriodExpiry a0 => Sys2Proof.Machine.execRekeyPeriodExpiry a0 s
  | .rekeyOfferRepeat a0 => Sys2Proof.Machine.execRekeyOfferRepeat a0 s
  | .darkRequest a0 a1 => Sys2Proof.Machine.execDarkRequest a0 a1 s
  | .lossOfLight a0 => Sys2Proof.Machine.execLossOfLight a0 s
  | .lightDetected a0 => Sys2Proof.Machine.execLightDetected a0 s
  | .hailStepDone a0 a1 => Sys2Proof.Machine.execHailStepDone a0 a1 s
  | .hailAttemptTimeout a0 => Sys2Proof.Machine.execHailAttemptTimeout a0 s
  | .hailBackoffExpiry a0 => Sys2Proof.Machine.execHailBackoffExpiry a0 s
  | .wakeToneDetected a0 => Sys2Proof.Machine.execWakeToneDetected a0 s
  | .wakeToneTimeout a0 => Sys2Proof.Machine.execWakeToneTimeout a0 s
  | .lnkEnable a0 a1 => Sys2Proof.Machine.execLnkEnable a0 a1 s
  | .lnkRehail a0 => Sys2Proof.Machine.execLnkRehail a0 s
  | .receivedPowerReport a0 a1 => Sys2Proof.Machine.execReceivedPowerReport a0 a1 s
  | .reportsAbsent a0 => Sys2Proof.Machine.execReportsAbsent a0 s
  | .biasAdjust a0 a1 => Sys2Proof.Machine.execBiasAdjust a0 a1 s
  | .swapNow a0 => Sys2Proof.Machine.execSwapNow a0 s
  | .laserSwapStepDone a0 a1 => Sys2Proof.Machine.execLaserSwapStepDone a0 a1 s
  | .spareLockTimeout a0 => Sys2Proof.Machine.execSpareLockTimeout a0 s
  | .ringLockUpdate a0 a1 => Sys2Proof.Machine.execRingLockUpdate a0 a1 s
  | .ringRangeRetry a0 a1 => Sys2Proof.Machine.execRingRangeRetry a0 a1 s
  | .xtalkRecalibration a0 a1 => Sys2Proof.Machine.execXtalkRecalibration a0 a1 s
  | .xtalkNow a0 => Sys2Proof.Machine.execXtalkNow a0 s
  | .receiverAdapt a0 a1 a2 a3 a4 => Sys2Proof.Machine.execReceiverAdapt a0 a1 a2 a3 a4 s
  | .milestoneTimestamp a0 a1 a2 a3 a4 => Sys2Proof.Machine.execMilestoneTimestamp a0 a1 a2 a3 a4 s
  | .messageRoute a0 a1 => Sys2Proof.Machine.execMessageRoute a0 a1 s
  | .remoteWrite a0 a1 => Sys2Proof.Machine.execRemoteWrite a0 a1 s
  | .remoteGateAdd a0 => Sys2Proof.Machine.execRemoteGateAdd a0 s
  | .reductionBucketPost a0 => Sys2Proof.Machine.execReductionBucketPost a0 s
  | .partialSegment a0 => Sys2Proof.Machine.execPartialSegment a0 s
  | .contributionSegment a0 => Sys2Proof.Machine.execContributionSegment a0 s
  | .missingNotice a0 => Sys2Proof.Machine.execMissingNotice a0 s
  | .resultSegment a0 => Sys2Proof.Machine.execResultSegment a0 s
  | .repeatNotice a0 => Sys2Proof.Machine.execRepeatNotice a0 s
  | .trailerSegment a0 => Sys2Proof.Machine.execTrailerSegment a0 s
  | .slotLanding a0 => Sys2Proof.Machine.execSlotLanding a0 s
  | .segmentForward a0 => Sys2Proof.Machine.execSegmentForward a0 s
  | .bucketDeadline a0 a1 => Sys2Proof.Machine.execBucketDeadline a0 a1 s
  | .resultTimeout a0 a1 => Sys2Proof.Machine.execResultTimeout a0 a1 s
  | .powerUpStepDone a0 => Sys2Proof.Machine.execPowerUpStepDone a0 s
  | .inputVoltageChange a0 => Sys2Proof.Machine.execInputVoltageChange a0 s
  | .fatalHardwareFailure a0 => Sys2Proof.Machine.execFatalHardwareFailure a0 s
  | .droopTrip a0 a1 => Sys2Proof.Machine.execDroopTrip a0 a1 s
  | .droopClear a0 => Sys2Proof.Machine.execDroopClear a0 s
  | .poolExchange a0 a1 a2 => Sys2Proof.Machine.execPoolExchange a0 a1 a2 s
  | .tileDemand a0 a1 => Sys2Proof.Machine.execTileDemand a0 a1 s
  | .tileGrant a0 => Sys2Proof.Machine.execTileGrant a0 s
  | .tileClockStep a0 a1 => Sys2Proof.Machine.execTileClockStep a0 a1 s
  | .thermalSample a0 => Sys2Proof.Machine.execThermalSample a0 s
  | .throttleRecheck a0 => Sys2Proof.Machine.execThrottleRecheck a0 s
  | .restoreStep a0 => Sys2Proof.Machine.execRestoreStep a0 s
  | .bmcCapSet a0 a1 => Sys2Proof.Machine.execBmcCapSet a0 a1 s
  | .domainTransitionDone a0 => Sys2Proof.Machine.execDomainTransitionDone a0 s
  | .stApply a0 => Sys2Proof.Machine.execStApply a0 s
  | .stagedSetting a0 => Sys2Proof.Machine.execStagedSetting a0 s
  | .telemetrySnapshot a0 => Sys2Proof.Machine.execTelemetrySnapshot a0 s
  | .errqAck a0 a1 => Sys2Proof.Machine.execErrqAck a0 a1 s
  | .hbmCorrectionWriteBack a0 => Sys2Proof.Machine.execHbmCorrectionWriteBack a0 s
  | .hbmScrubBurst a0 a1 => Sys2Proof.Machine.execHbmScrubBurst a0 a1 s
  | .hbmPeriodicTraining a0 a1 => Sys2Proof.Machine.execHbmPeriodicTraining a0 a1 s
  | .droopSensorTrim a0 a1 a2 => Sys2Proof.Machine.execDroopSensorTrim a0 a1 a2 s
  | .thermalSensorTrim a0 a1 a2 => Sys2Proof.Machine.execThermalSensorTrim a0 a1 a2 s
  | .wearAccounting a0 => Sys2Proof.Machine.execWearAccounting a0 s
  | .snop => Sys2Proof.Machine.execSnop s
  | .vnop => Sys2Proof.Machine.execVnop s
  | .mnop => Sys2Proof.Machine.execMnop s
  | .lnop => Sys2Proof.Machine.execLnop s
  | .tnop => Sys2Proof.Machine.execTnop s
  | .ynop => Sys2Proof.Machine.execYnop s
  | .ucieRetrain => Sys2Proof.Machine.execUcieRetrain s
  | .ucieReleaseHold => Sys2Proof.Machine.execUcieReleaseHold s
  | .functionLevelReset => Sys2Proof.Machine.execFunctionLevelReset s
  | .d3hotEntry => Sys2Proof.Machine.execD3hotEntry s
  | .d0Return => Sys2Proof.Machine.execD0Return s
  | .descriptorFetch => Sys2Proof.Machine.execDescriptorFetch s
  | .attestationSigned => Sys2Proof.Machine.execAttestationSigned s
  | .bmcCertificateChain => Sys2Proof.Machine.execBmcCertificateChain s
  | .pldmCommit => Sys2Proof.Machine.execPldmCommit s
  | .commitWindowExpiry => Sys2Proof.Machine.execCommitWindowExpiry s
  | .provisionRequest => Sys2Proof.Machine.execProvisionRequest s
  | .bmcFactoryReset => Sys2Proof.Machine.execBmcFactoryReset s
  | .bmcWarmResetRequest => Sys2Proof.Machine.execBmcWarmResetRequest s
  | .partitionStartStepDone => Sys2Proof.Machine.execPartitionStartStepDone s
  | .partitionStopDrained => Sys2Proof.Machine.execPartitionStopDrained s
  | .laneRelock => Sys2Proof.Machine.execLaneRelock s
  | .milestoneWrap => Sys2Proof.Machine.execMilestoneWrap s
  | .mileRefSet => Sys2Proof.Machine.execMileRefSet s
  | .powerUp => Sys2Proof.Machine.execPowerUp s
  | .powerUpStepTimeout => Sys2Proof.Machine.execPowerUpStepTimeout s
  | .overVoltageTimeout => Sys2Proof.Machine.execOverVoltageTimeout s
  | .inputUnderVoltage => Sys2Proof.Machine.execInputUnderVoltage s
  | .sagLimitEntry => Sys2Proof.Machine.execSagLimitEntry s
  | .sagLimitExit => Sys2Proof.Machine.execSagLimitExit s
  | .presentNHigh => Sys2Proof.Machine.execPresentNHigh s
  | .wakeN => Sys2Proof.Machine.execWakeN s
  | .fatalShutdownStepDone => Sys2Proof.Machine.execFatalShutdownStepDone s
  | .pwrWake => Sys2Proof.Machine.execPwrWake s
  | .wakeVoteExpiry => Sys2Proof.Machine.execWakeVoteExpiry s
  | .flashLogWrite => Sys2Proof.Machine.execFlashLogWrite s
  | .telemetrySample => Sys2Proof.Machine.execTelemetrySample s
  | .hbmScrubPassDeadline => Sys2Proof.Machine.execHbmScrubPassDeadline s

end Sys2Proof.Machine
end

