-- ==== Sys2Proof/Machine/Tick.lean ====
section
/-! DEFINITION. What passing time does: the milestone counter counts, and timestamps are sent (13 R258, R259; log entry 2). -/

namespace Sys2Proof.Machine
open Sys2Proof

/-- Does the MILE oscillator run: pll_lock has risen and the rails feed it (15 R281)? -/
def mileRuns (s : State) : Bool := (s.power.step.any fun k => decide (k ≥ 6)) && s.power.rails.contains .whf

/-- Half rate swallows a tick; the counter is within 1 µs when it has swallowed the excess, and the offsets measured before say nothing
(13 R259). -/
def tickSwallow (s : State) : State :=
  if s.mileSt.excess ≤ 1 then
    { s with mileSt := { s.mileSt with half := false, excess := 0 }, ports := tmap port0 (fun _ g => { g with offsets := [] }) s.ports }
  else { s with mileSt := { s.mileSt with odd := true, excess := s.mileSt.excess - 1 } }
/-- One nanosecond: nothing without the oscillator; at half rate every second one counts; a slew swallows some. -/
def tick (s : State) : State :=
  if !mileRuns s then s
  else if s.mileSt.half && !s.mileSt.odd then tickSwallow s
  else if s.mileSt.half then mileJump { s with mileSt := { s.mileSt with odd := false } } 1
  else if s.mileSt.skip > 0 then { s with mileSt := { s.mileSt with skip := s.mileSt.skip - 1 } }
  else mileJump s 1

end Sys2Proof.Machine
end

