-- ==== Sys2Proof/Safety.lean ====
section
/-! DEFINITION. What counts as a safe state and a safe run, in the terms that the statements use. -/

namespace Sys2Proof.Machine
open Sys2Proof

/-- The canonical form of the two memories (05 R89, 01 R17): scratchpad and HBM bytes. -/
def State.memWf (s : State) : Bool := twf byte0 s.spad && twf byte0 s.hbm

/-- The canonical form of every sparse table of the module. -/
structure State.Canonical (s : State) : Prop where
  spad : twf byte0 s.spad = true
  hbm : twf byte0 s.hbm = true
  regs : twf regReset s.regs = true
  cores : twf core0 s.cores = true
  tiles : twf tile0 s.tiles = true
  rings : twf ring0 s.rings = true
  ports : twf port0 s.ports = true
  polls : twf poll0 s.polls = true
  msix : twf msixInit s.msix = true
  msixPend : twf falseAt s.msixPend = true
  hbmUe : twf nat0 s.hbmUe = true
  hbmCe : twf nat0 s.hbmCe = true
  hbmCeEntry : twf nat0 s.hbmCeEntry = true
  routerDrops : twf nat0 s.routerDrops = true
  slots : twf nat0 s.slots = true
  holdUse : twf nat0 s.holdUse = true

/-- What every step keeps: tables in canonical form, the milestone counter within its 64 bits (13 R258). -/
def State.Sound (s : State) : Prop := s.Canonical ∧ s.mile < 2 ^ 64

/-- Every waiting command can occur on the module. -/
def State.QueueOk (s : State) : Prop := ∀ c ∈ s.pending, c.wf = true

/-- May a core issue: it runs, no freeze cause is in force, its tile is up, and the module is not fatal (04 R65, R84; 14 R273; 15 R290)? -/
def Issuing (s : State) (uid : Nat) : Prop :=
  (s.core uid).phase = .run ∧ (s.core uid).freezes = [] ∧ s.isFatal = false ∧ tileReady s (uid / 4) = true

/-! ### Shapes of next states, for the statements -/

/-- The state in which a core has issued one operation that will land the writes `ws` after `lat` cycles, and nothing else has
changed (04 R66). -/
def Issued (s : State) (uid : Nat) (sl : Slot) (lat : Nat) (ws : List Wr) : State :=
  { s with cores := tset core0 s.cores uid { s.core uid with
      flies := (s.core uid).flies ++ [{ due := (s.core uid).cyc + lat, slot := sl, seq := (s.core uid).seq,
                                        bundle := (s.core uid).pc, rep := (s.core uid).rep, writes := ws }]
      seq := (s.core uid).seq + 1 } }

/-- The state in which a core has one more pending redirect, and nothing else has changed (04 R73). -/
def Redirected (s : State) (uid target : Nat) : State :=
  { s with cores := tset core0 s.cores uid { s.core uid with redirects := (s.core uid).redirects ++ [((s.core uid).pos + 4, target)] } }

/-- The state in which a core's record is another, and nothing else has changed. -/
def WithCore (s : State) (uid : Nat) (c : CoreSt) : State := { s with cores := tset core0 s.cores uid c }

/-- The record of a core that has halted as contained, at the state's milestone (04 R86, R88). -/
def HaltedCore (s : State) (c : CoreSt) : CoreSt := { c with phase := .stopped, wait := none, stopMile := s.mile, stopState := 5 }

/-- A core has nothing under way but issues: no operation in flight, no vector or matrix operation, no shadow load, no index read, no
held increment. -/
def Quiet (c : CoreSt) : Prop :=
  c.flies = [] ∧ c.vjobs = [] ∧ c.mms = [] ∧ c.shadows = [] ∧ c.held = [] ∧ (∀ p ∈ c.gens, p.2.reads = [])

/-- The lanes of a tile's scratchpad are free, no request waits for them, and none of its lane-lines holds an uncorrectable error (05 R94,
R96, R98). -/
def LanesIdle (s : State) (tile : Nat) : Prop := (s.tile tile).claims = [] ∧ (s.tile tile).denied = [] ∧ (s.tile tile).ue = []

/-- The command of a vector operation (04 R77). -/
def vCmd (uid : Nat) (f : VArg) : VOpc → Instr
  | .vadd => .vadd uid f | .vsub => .vsub uid f | .vmul => .vmul uid f | .vfma => .vfma uid f | .vmax => .vmax uid f
  | .vmin => .vmin uid f | .vabs => .vabs uid f | .vneg => .vneg uid f | .vsel => .vsel uid f | .vmov => .vmov uid f
  | .vscale => .vscale uid f | .vcvt => .vcvt uid f | .vcmplt => .vcmplt uid f | .vcmpeq => .vcmpeq uid f
  | .viadd => .viadd uid f | .visub => .visub uid f | .vimul => .vimul uid f | .vand => .vand uid f | .vor => .vor uid f
  | .vxor => .vxor uid f | .vshl => .vshl uid f | .vshr => .vshr uid f | .vbcast => .vbcast uid f | .vexp => .vexp uid f
  | .vlog => .vlog uid f | .vrcp => .vrcp uid f | .vrsqrt => .vrsqrt uid f | .vtanh => .vtanh uid f
  | .vexpsub => .vexpsub uid f | .vnorm => .vnorm uid f | .vrsum => .vrsum uid f | .vrmax => .vrmax uid f
  | .vrmin => .vrmin uid f | .vrsegsum => .vrsegsum uid f | .vrsegmax => .vrsegmax uid f | .vrsegmin => .vrsegmin uid f
  | .vcompress => .vcompress uid f | .vexpand => .vexpand uid f | .vopt0 => .vopt0 uid f | .vopt1 => .vopt1 uid f
  | .vopt2 => .vopt2 uid f | .vopt3 => .vopt3 uid f

/-- The fields that a vector operation may carry (04 R76, R77; 07 R134, R136, R137, R145, R146; 08 R151): predicate registers are named
8 to 15, none is 0; the operations that read fmt accept the codes of their rows; a compare's destination is a predicate register; a third
source that an operation does not have is 0 (R352). -/
def VFieldsLegal (op : VOpc) (f : VArg) : Prop :=
  (f.pm = 0 ∨ 8 ≤ f.pm)
  ∧ (op ∈ [.vmax, .vmin, .vcmplt, .vcmpeq, .vrsum, .vrmax, .vrmin, .vrsegsum, .vrsegmax, .vrsegmin] → f.fmt ≤ 1)
  ∧ (op = .vcvt → 1 ≤ f.fmt ∧ f.fmt ≤ 12 ∧ f.vc < 2)
  ∧ (op = .vopt3 → 2 ≤ f.fmt ∧ f.fmt ≤ 5)
  ∧ (op ∈ [.vcmplt, .vcmpeq] → f.vd < 8)
  ∧ (op ∈ [.vsel, .vcompress, .vexpand] → f.pm ≠ 0)
  ∧ (op ∈ [.vcompress, .vexpand] → f.src = 0 → f.va ≠ f.vd)
  ∧ (op ∉ [.vfma, .vcvt, .vopt3] → f.vc = 0)

/-- The widths of the fields of a V slot (04 R76): n counts from 1 to 4,096. -/
def VFieldsFit (f : VArg) : Prop :=
  f.vd < 16 ∧ f.va < 16 ∧ f.vb < 16 ∧ f.vc < 16 ∧ f.pm < 16 ∧ 1 ≤ f.n ∧ f.n ≤ 4096 ∧ f.rnd < 4 ∧ f.fmt < 16 ∧ f.s < 64 ∧ f.src < 4

/-- The result of an integer, bitwise or move operation on one element's 32-bit operands (07 R136); none for any other operation. -/
def vIntResult (op : VOpc) (a b : Word32) : Option Word32 :=
  match op with
  | .viadd => some (a + b)
  | .visub => some (a - b)
  | .vimul => some (a * b)
  | .vand => some (a &&& b)
  | .vor => some (a ||| b)
  | .vxor => some (a ^^^ b)
  | .vshl => some (BitVec.ofNat 32 (a.toNat * 2 ^ (b.toNat % 32)))
  | .vshr => some (BitVec.ofNat 32 (a.toNat / 2 ^ (b.toNat % 32)))
  | .vabs => some (a &&& 0x7FFFFFFF#32)
  | .vneg => some (a ^^^ 0x80000000#32)
  | .vmov => some a
  | _ => none

/-- The next access of generator g is a linear one of `len` bytes at offset a, and legal (05 R100 to R102): the program is bound, not
ended, not empty, without indirection; the address is the base and the strides times the counters; it lies within the scratchpad and is
aligned. -/
def LinearAccess (c : CoreSt) (g len a : Nat) : Prop :=
  let st := c.gen g
  let p := c.stride st.prog
  st.bound = true ∧ st.ended = false ∧ 1 ≤ p.nlev ∧ p.nlev ≤ 6 ∧ p.mode = 0 ∧ p.indEn = false
    ∧ (a : Int) = (st.base : Int) + ((List.range p.nlev).map fun k => ((st.i.getD k 0 : Nat) : Int) * (p.levels.getD k ⟨0, 0, 0⟩).stride).sum
    ∧ a + len ≤ 0x4000000 ∧ (256 ≤ len → a % 64 = 0) ∧ (len = 8 → a % 8 = 0)

/-- A core in which one operation is in flight, due now with its data there, and nothing else is under way. -/
def Alone (c : CoreSt) (f : Fly) : Prop :=
  Quiet { c with flies := [] } ∧ c.flies = [f] ∧ f.due = c.cyc ∧ f.wait = false ∧ f.late = 0 ∧ f.load = none ∧ f.nan = none ∧ f.ue = none
    ∧ f.sticky = 0

/-- Of every group, the slot of the tile that its added gate stands at is still landed for a bucket, or all have been added; and no added
gate is the arrive gate of group n (10 R199, R203). -/
def NoSlotLeft (s : State) (n tile : Nat) : Prop :=
  rgAdded s n ≠ rgArrive s n ∧ ∀ x ∈ s.slots, x.1 % 64 = tile → rgAdded s (x.1 / 64) ≠ rgArrive s n
    ∧ let k := (s.gate tile (rgAdded s (x.1 / 64))).toNat
      (x.2 ≤ k ∨ ∃ b ∈ s.buckets, b.grp = x.1 / 64 ∧ ∃ l ∈ b.landed, l.tile = some tile ∧ l.slot = k)

/-- A ring's next descriptor may be dispatched now, is well formed at its header, is of the class, and its memory is awake (03 R49, R55). -/
def DueNow (s : State) (r : Nat) (k : DClass) (f : Fetched) : Prop :=
  r < 1024 ∧ ringNext s r = some f ∧ f.bad = none ∧ dClass f.q = some k ∧ classReady s r k f.q = true

/-- The state in which a ring has dispatched a descriptor that then waits for w: it is outstanding, with the milestone of its dispatch;
descriptors behind it that are judged without executing are judged, and the power domains look at their votes (03 R50, R55; 15 R288). -/
def Began (s : State) (r : Nat) (f : Fetched) (w : Work) : State := voteRefresh (ringJudge 64 (ringStart s r f w) r)

/-- A request to the host is put at once, or waits for a tag (02 R25, R32): the case in which nothing else that waits is put with it. -/
def Asks (s : State) : Prop := mayAsk s = true ∨ tagFree s = false
/-- The state in which a request has been put to the host: issued with the next tag and the timeout in force, or waiting for a tag (02 R25,
R32, R357). -/
def Asked (s : State) (k : ReqFor) (addr len : Nat) : State :=
  if mayAsk s then { s with reqs := s.reqs ++ [⟨s.nextTag, addr, len, cplMs s, k⟩], nextTag := s.nextTag + 1 }
  else { s with reqWait := s.reqWait ++ [(k, addr, len)] }

/-- A request stands among those issued, or among those that wait for a tag. -/
def Stands (t : State) (k : ReqFor) (addr len : Nat) : Prop :=
  (∃ q ∈ t.reqs, q.kind = k ∧ q.addr = addr ∧ q.len = len) ∨ (k, addr, len) ∈ t.reqWait

/-- The command of a descriptor class (03 R49). -/
def descCmd (r : Nat) : DClass → Instr
  | .nop => .noOperation r | .imageLoad => .imageLoad r none | .launchEnd => .flightLaunchAtEnd r | .launchStart => .flightLaunchAtStart r
  | .stopEop => .flightStopAtEop r | .stopBundle => .flightStopAtBundle r | .barge => .barge r | .gateSet => .gateSet r
  | .gateAdd => .gateAdd r | .gateWait => .gateWait r | .fenceThis => .fenceThisRing r | .fenceOther => .fenceOtherRing r
  | .bucket => .reductionBucketPost r | .wipeAll => .wipeAll r | .wipeRange => .wipeRange r | .report => .attestationReportRequest r
  | .chain => .certificateChainRequest r | .telemetry => .telemetrySnapshot r | .staged => .stagedSetting r
  | .dumpCount => .haltAndDumpAtCount r | .dumpMile => .haltAndDumpAtMilestone r

/-- The state in which a port has taken a delivered management message of a kind (11 R217). -/
def Took (s : State) (p kind : Nat) : State :=
  s.putPort p { s.port p with ctlIn := dropFirst (fun k => decide (k = kind)) (s.port p).ctlIn }

/-- A port with its session gone: nothing queued, kept for replay, or received; hail is at its first step, or the port is Off (11 R222, R223). -/
def PortDropped (t : State) (p state : Nat) : Prop :=
  t.rd (fPortState p) = state ∧ t.rd (fTxGroups p) = 0 ∧ t.rd (fRxGroups p) = 0 ∧ (t.port p).outq = [] ∧ (t.port p).inbox = []
    ∧ (t.port p).replayBuf = [] ∧ (t.port p).rekey = .none

/-- The i-th segment at its exchange wharf is of a kind, is the oldest of its virtual channel and port, and names a group of which its
partition is a member (10 R195, R198). -/
def SegDue (s : State) (i kind : Nat) (m : SegIn) (n : Nat) : Prop :=
  s.isFatal = false ∧ s.segIn[i]? = some m ∧ segKind m.bytes = kind ∧ (∀ x ∈ s.segIn.take i, x.vc ≠ m.vc ∨ x.port ≠ m.port)
    ∧ groupOf s m.part (segGid m.bytes) = some n

/-- The state in which the i-th segment has left its buffer, with its credits returned (11 R216). -/
def SegTaken (s : State) (i : Nat) (m : SegIn) : State :=
  match m.port with
  | some p => creditBack { s with segIn := s.segIn.eraseIdx i } p m.vc m.flits
  | none => { s with segIn := s.segIn.eraseIdx i }

/-- The state has gone fatal, with this entry of wharf die w named in WHF_ERR_FATAL, and the sequence about to begin (14 R269, R273). -/
def WentFatal (s t : State) (w cause : Nat) : Prop :=
  t.isFatal = true ∧ t.fatalStep = some 0 ∧ t.reg 0x710000 = BitVec.ofNat 64 (2 ^ 63 + w * 2 ^ 60 + cause * 2 ^ 52 + s.rd (fErrNext w))
    ∧ t.rd (fErrNext w) = (s.rd (fErrNext w) + 1) % 2 ^ 32

/-- A power domain that a command leaves in a form; the votes are looked at after it (15 R288, R290). -/
def DomainBecomes (s : State) (d : Nat) (f : DomForm) (P : State → Prop) : Prop :=
  ∃ u, exec (.domainTransitionDone d) s = .next (voteRefresh u) ∧ tget dom0 u.power.dom d = f
    ∧ (∀ e, e ≠ d → tget dom0 u.power.dom e = tget dom0 s.power.dom e) ∧ u.spad = s.spad ∧ u.hbm = s.hbm ∧ P u

/-- The block's quiescent point has come (18 R336): a ring disabled, halted or drained; any
moment between a bitmap's polls, each request keeping the addresses it was issued with; no barge sending to the entry; no
bucket of the group; the port not Up, before link start; a timestamp boundary. -/
def BlockQuiet (s : State) (b : Blk) : Prop :=
  match b with
  | .ring r => ringQuiet s r = true
  | .summary _ => True
  | .remote p e => remoteBusy s p e = false
  | .rgrp n => ∀ x ∈ s.buckets, x.grp ≠ n
  | .port p => portQuiet s p = true
  | .mile => s.mile % 100000 = 0

end Sys2Proof.Machine
end

