-- ==== Sys2Proof/Certificates/Slice0/Obligations.lean ====
section
/-! DEFINITION. What is to be proved of the model: one definition a statement, the rules of spec/ it rests on in its docstring. -/

open Sys2Proof Sys2Proof.Machine

/-- The queue (log entry 1): a step takes the command at the front and is its execution with the queue's rest. The queue is the model's own
(log entry 1), so is what a step does on it. -/
def Obligations.StepRunsFrontCommand : Prop :=
  ∀ (s : State) (c : Instr) (rest : List Instr), s.pending = c :: rest → step s = exec c { s with pending := rest }

/-- Every command that can occur answers a next state, with the queue as it was; one that names a unit the module does not have faults. The
queue and the fault are the model's own (log entries 1 and 7). -/
def Obligations.EveryCommandAnswers : Prop :=
  ∀ (c : Instr) (s : State),
    (c.wf = true → ∃ t, exec c s = .next t ∧ t.pending = s.pending) ∧ (c.wf = false → exec c s = .fault .noSuchUnit)

/-- 18 R338 and the reset columns: what reset leaves. The fuse fields of TOLL_STATUS are zero by the model's choice (log entry 4). -/
def Obligations.ResetState : Prop :=
  State.reset.Sound ∧ State.reset.pending = []
    ∧ (State.reset.reg 0x1000).toNat = 0x00081810403C0404 ∧ (State.reset.reg 0x1410).toNat = 0xFFFFFF ∧ (State.reset.reg 0x1C00).toNat = 0
    ∧ (∀ r, r < 1024 → (State.reset.reg (aRing r 0x18)).toNat = 0x6002) ∧ (∀ n, n < 60 → (State.reset.reg (aTile n 0)).toNat = 8)
    ∧ (State.reset.reg 0x800000).toNat = 0x1D4C1C201D4C1C20 ∧ (State.reset.reg 0x800010).toNat = 1 ∧ (State.reset.reg 0x900000).toNat = 0x20000000000
    ∧ (∀ w, w < 8 → (State.reset.reg (aErrq w 0)).toNat = 0x8000 ∧ (State.reset.reg (aErrq w 8)).toNat = 0)
    ∧ (∀ p q, p < 16 → q < 64 → (State.reset.reg (aLnk p (0x400 + 8 * q))).toNat = 0)
    ∧ State.reset.isFatal = false ∧ State.reset.dlActive = false ∧ State.reset.hbmWide = false

/-- The invariant: tables keep their canonical form and the milestone counter its 64 bits, whatever a step does. The canonical form is the
model's own way of holding memory and register contents, so that equal contents are equal data; the 64 bits of the counter are 13 R258. -/
def Obligations.StepKeepsSound : Prop :=
  ∀ (s t : State), s.Sound → step s = .next t → t.Sound

/-- 01 R8, R19: the numbering of sites, local indices and quadrants; in quadrant interleave quadrant q owns its 144 GiB, whose granules go
round its six stacks in ascending order. -/
def Obligations.SitesAndQuadrantInterleave : Prop :=
  (∀ x y, x < 8 → y < 8 → siteLocal (8 * y + x) = 4 * (y % 4) + x % 4
    ∧ siteQuad (8 * y + x) = (if y < 4 then (if x < 4 then 0 else 1) else (if x < 4 then 3 else 2)) ∧ 8 * y + x ∈ quadSites (siteQuad (8 * y + x)))
    ∧ (∀ q dpa, q < 4 → q * 0x2400000000 ≤ dpa → dpa < (q + 1) * 0x2400000000 →
      let off := dpa - q * 0x2400000000
      let g := off / 2 ^ 11
      hbmMap false dpa = ((quadStacks q).getD (g % 6) 0, g / 6 * 2 ^ 11 + off % 2 ^ 11))

/-- 13 R255: LNK_SLICE q of port p: bit i admits slice 64q + i; a write is the whole bitmap from then on, and recalls nothing: a message is
judged once, by the bitmap as it stands when its route word has arrived, and one that was not admitted is dropped and counted. -/
def Obligations.SliceAdmission : Prop :=
  ∀ (s : State) (p q i data : Nat), p < 16 → q < 64 → i < 64 → data < 2 ^ 64 →
    sliceAdmitted s p (64 * q + i) = (s.reg (0x400000 + 0x1000 * p + 0x400 + 8 * q)).getLsbD i
    ∧ sliceAdmitted State.reset p (64 * q + i) = false
    ∧ (s.link.d3hot = false → ∃ t, exec (.registerWrite (0x400000 + 0x1000 * p + 0x400 + 8 * q) 8 data) s = .next t
        ∧ sliceAdmitted t p (64 * q + i) = data.testBit i ∧ t.remoteIn = s.remoteIn ∧ t.segIn = s.segIn
        ∧ (t.port p).inbox = (s.port p).inbox ∧ (t.port p).partialMsgs = (s.port p).partialMsgs
        ∧ ∀ slice, slice < 4096 → slice / 64 ≠ q → sliceAdmitted t p slice = sliceAdmitted s p slice)
    ∧ (∀ m : InMsg, m.ok = none → 16 ≤ m.bytes.length → nbits (leNat (sliceB m.bytes 0 8)) 37 26 = 64 * q + i →
        InMsg.judge s p m = { m with ok := some ((s.reg (0x400000 + 0x1000 * p + 0x400 + 8 * q)).getLsbD i) })
    ∧ (∀ (m : InMsg) (b : Bool), m.ok = some b → InMsg.judge s p m = m)
    ∧ (∀ vc m, vc < 8 → s.isFatal = false → (s.port p).inbox.find? (fun x => decide (x.vc = vc)) = some m → m.ok = some false →
        ∃ t, exec (.messageRoute p vc) s = .next t ∧ t.remoteIn = s.remoteIn ∧ t.segIn = s.segIn
          ∧ t.rd (fDropRoute p) = min (2 ^ 32 - 1) (s.rd (fDropRoute p) + 1))

/-- 04 R72, R70: the thirteen R-format operations. An issuing core's result lands at t + 1; nothing else changes. 04 R72: SMUL, SMULHU and
SMULHS land the low or high half of the product at t + 3. That a slot operation can be commanded alone, at the core's present cycle, is the
model's choice (log entry 10). -/
def Obligations.ScalarRegisterForms : Prop :=
  (∀ (s : State) (uid d a b : Nat), Issuing s uid → uid < 240 → d < 64 → a < 64 → b < 64 →
    let A : Word64 := (s.core uid).sreg a
    let B : Word64 := (s.core uid).sreg b
    let k := B.toNat % 64
    let lands (v : Word64) := Host.Outcome.next (Issued s uid .s 1 [.sreg d v])
    exec (.sadd uid d a b) s = lands (BitVec.ofNat 64 (A.toNat + B.toNat))
    ∧ exec (.ssub uid d a b) s = lands (BitVec.ofInt 64 (A.toInt - B.toInt))
    ∧ exec (.sand uid d a b) s = lands (A &&& B)
    ∧ exec (.sor uid d a b) s = lands (A ||| B)
    ∧ exec (.sxor uid d a b) s = lands (A ^^^ B)
    ∧ exec (.sshl uid d a b) s = lands (BitVec.ofNat 64 (A.toNat * 2 ^ k))
    ∧ exec (.sshr uid d a b) s = lands (BitVec.ofNat 64 (A.toNat / 2 ^ k))
    ∧ exec (.ssra uid d a b) s = lands (BitVec.ofInt 64 (A.toInt / 2 ^ k))
    ∧ exec (.smin uid d a b) s = lands (if A.toInt ≤ B.toInt then A else B)
    ∧ exec (.smax uid d a b) s = lands (if A.toInt ≤ B.toInt then B else A)
    ∧ exec (.scmpeq uid d a b) s = lands (if A = B then 1#64 else 0#64)
    ∧ exec (.scmplt uid d a b) s = lands (if A.toInt < B.toInt then 1#64 else 0#64)
    ∧ exec (.scmpltu uid d a b) s = lands (if A.toNat < B.toNat then 1#64 else 0#64))
  ∧ (∀ (s : State) (uid d a b : Nat), Issuing s uid → uid < 240 → d < 64 → a < 64 → b < 64 →
    let A : Word64 := (s.core uid).sreg a
    let B : Word64 := (s.core uid).sreg b
    exec (.smul uid d a b) s = .next (Issued s uid .s 3 [.sreg d (BitVec.ofNat 64 (A.toNat * B.toNat % 2 ^ 64))])
    ∧ exec (.smulhu uid d a b) s = .next (Issued s uid .s 3 [.sreg d (BitVec.ofNat 64 (A.toNat * B.toNat / 2 ^ 64))])
    ∧ exec (.smulhs uid d a b) s = .next (Issued s uid .s 3 [.sreg d (BitVec.ofInt 64 (A.toInt * B.toInt / 2 ^ 64))]))

/-- 04 R72: the thirteen I-format operations: imm28 sign-extended for arithmetic and compares, zero-extended for logic and shifts. That a
slot operation can be commanded alone, at the core's present cycle, is the model's choice (log entry 10). -/
def Obligations.ScalarImmediateForms : Prop :=
  ∀ (s : State) (uid d a imm : Nat), Issuing s uid → uid < 240 → d < 64 → a < 64 → imm < 2 ^ 28 →
    let A : Word64 := (s.core uid).sreg a
    let Z : Word64 := BitVec.ofNat 64 imm
    let x : Int := if imm < 2 ^ 27 then (imm : Int) else (imm : Int) - 2 ^ 28
    let X : Word64 := BitVec.ofInt 64 x
    let k := imm % 64
    let lands (v : Word64) := Host.Outcome.next (Issued s uid .s 1 [.sreg d v])
    exec (.saddi uid d a imm) s = lands (BitVec.ofInt 64 (A.toInt + x))
    ∧ exec (.ssubi uid d a imm) s = lands (BitVec.ofInt 64 (A.toInt - x))
    ∧ exec (.sandi uid d a imm) s = lands (A &&& Z)
    ∧ exec (.sori uid d a imm) s = lands (A ||| Z)
    ∧ exec (.sxori uid d a imm) s = lands (A ^^^ Z)
    ∧ exec (.sshli uid d a imm) s = lands (BitVec.ofNat 64 (A.toNat * 2 ^ k))
    ∧ exec (.sshri uid d a imm) s = lands (BitVec.ofNat 64 (A.toNat / 2 ^ k))
    ∧ exec (.ssrai uid d a imm) s = lands (BitVec.ofInt 64 (A.toInt / 2 ^ k))
    ∧ exec (.smini uid d a imm) s = lands (if A.toInt ≤ x then A else X)
    ∧ exec (.smaxi uid d a imm) s = lands (if A.toInt ≤ x then X else A)
    ∧ exec (.scmpeqi uid d a imm) s = lands (if A = X then 1#64 else 0#64)
    ∧ exec (.scmplti uid d a imm) s = lands (if A.toInt < x then 1#64 else 0#64)
    ∧ exec (.scmpltui uid d a imm) s = lands (if A.toNat < X.toNat then 1#64 else 0#64)

/-- 04 R72, R70: SLD reads 8 bytes, little-endian, at an aligned offset inside the scratchpad, due at t + 14; SST writes 8 bytes there at t
+ 3. 04 R75, R67: SCSRR lands the CSR's value at t + 1, for every CSR of the table; a number that is not listed reads zero and sets bad_csr.
SCSRW is due at t + 1. That a slot operation can be commanded alone, at the core's present cycle, is the model's choice (log entry 10). -/
def Obligations.ScalarMemoryAndCsrIssue : Prop :=
  (∀ (s : State) (uid d a imm o : Nat), Issuing s uid → uid < 240 → d < 64 → a < 64 → imm < 2 ^ 28 → LanesIdle s (uid / 4) →
    o = ((s.core uid).sreg a + (BitVec.ofNat 28 imm).signExtend 64).toNat → o % 8 = 0 → o < 0x4000000 →
    (∃ t, exec (.sld uid d a imm) s = .next t ∧ t.spad = s.spad ∧ t.regs = s.regs
      ∧ ∃ f, (t.core uid).flies = (s.core uid).flies ++ [f] ∧ f.due = (s.core uid).cyc + 14 ∧ f.wait = false
        ∧ f.writes = [.sreg d (BitVec.ofNat 64 (leNat ((List.range 8).map fun i =>
            tget byte0 s.spad (s.tileSite (uid / 4) * 0x4000000 + o + i))))])
    ∧ exec (.sst uid d a imm) s = .next (Issued s uid .s 3 [.sp o (leBytes 8 ((s.core uid).sreg d).toNat)]))
  ∧ (∀ (s : State) (uid d n : Nat), Issuing s uid → uid < 240 → d < 64 → n < 2 ^ 12 →
    let c := s.core uid
    let reads (v : Word64) := exec (.scsrr uid d n) s = .next (Issued s uid .s 1 [.sreg d v])
    (n = 0x000 → reads (BitVec.ofNat 64 (uid / 4 * 256 + uid % 4)))
    ∧ (n = 0x001 → reads (BitVec.ofNat 64 (c.flight * 65536 + c.stage)))
    ∧ (n = 0x002 → reads (BitVec.ofNat 64 (c.arg % 2 ^ 48)))
    ∧ (n = 0x003 → reads (BitVec.ofNat 64 (c.bcount % 2 ^ 48)))
    ∧ (n ∈ [0x010, 0x011, 0x012, 0x013, 0x014, 0x018, 0x019, 0x020, 0x021] → reads (c.csr n))
    ∧ (n ∉ [0x000, 0x001, 0x002, 0x003, 0x010, 0x011, 0x012, 0x013, 0x014, 0x018, 0x019, 0x020, 0x021] →
        ∃ t, exec (.scsrr uid d n) s = .next t ∧ ((t.core uid).csr 0x020).getLsbD 7 = true
          ∧ ∃ f, (t.core uid).flies = c.flies ++ [f] ∧ f.due = c.cyc + 1 ∧ f.writes = [.sreg d 0#64])
    ∧ exec (.scsrw uid d n) s = .next (Issued s uid .s 1 [.csr n (c.sreg d)]))

/-- 04 R72, R73: a taken branch at position k redirects position k + 4; BRZ and BRNZ by their register; BRI takes a[12:0]; BRL also lands
branch address + 4 at t + 1. A branch not taken changes nothing. 04 R72, R76, R78 to R81: the no-operations of the six slots change nothing.
That a slot operation can be commanded alone, at the core's present cycle, is the model's choice (log entry 10). -/
def Obligations.BranchesAndNoOperations : Prop :=
  (∀ (s : State) (uid a target : Nat), Issuing s uid → uid < 240 → a < 64 → target < 2 ^ 13 →
    let A : Word64 := (s.core uid).sreg a
    exec (.br uid target) s = .next (Redirected s uid target)
    ∧ exec (.brz uid a target) s = .next (if A = 0#64 then Redirected s uid target else s)
    ∧ exec (.brnz uid a target) s = .next (if A = 0#64 then s else Redirected s uid target)
    ∧ exec (.bri uid a) s = .next (Redirected s uid (A.toNat % 2 ^ 13))
    ∧ exec (.brl uid a target) s =
        .next (Issued (Redirected s uid target) uid .s 1 [.sreg a (BitVec.ofNat 64 ((s.core uid).pc + 4))]))
  ∧ (∀ s : State, exec .snop s = .next s ∧ exec .vnop s = .next s ∧ exec .mnop s = .next s ∧ exec .lnop s = .next s
    ∧ exec .tnop s = .next s ∧ exec .ynop s = .next s)

/-- 04 R69, R77; 07 R131, R133; 05 R105: any legal vector operation, on register or broadcast operands or on a window from a multiple of 128
(VBCAST: from any element) whose rows reach, given to an engine that is not occupied, begins: its job with the operands' names, the scalar and the CSRs captured at issue, the cycle and the bundle; the engine is occupied for
ceil(n / 256) cycles; nothing else of the core changes. That a slot operation can be commanded alone, at the core's present cycle, is the
model's choice (log entry 10). -/
def Obligations.VectorOperationBegins : Prop :=
  ∀ (s : State) (uid : Nat) (op : VOpc) (f : VArg), Issuing s uid → uid < 240 → VFieldsFit f → VFieldsLegal op f →
    (s.core uid).vbusy ≤ (s.core uid).cyc →
    let win := if f.src = 2 then (s.core uid).csr 0x014 else (s.core uid).csr 0x013
    let w := ((s.core uid).sreg f.s).toNat
    (f.src = 1 ∨ f.src = 2 → (op = .vbcast ∨ w % 128 = 0) ∧ w + f.n ≤ 128 * winRows win
      ∧ winRowOff win ((if op = .vbcast then w else w + f.n - 1) / 128) + winRowBytes win ≤ 0x4000000) →
    ∃ t j, exec (vCmd uid f op) s = .next t
      ∧ t.core uid = { s.core uid with vjobs := (s.core uid).vjobs ++ [j], vbusy := (s.core uid).cyc + (f.n + 255) / 256, seq := (s.core uid).seq + 1 }
      ∧ (∀ u, u ≠ uid → t.core u = s.core u) ∧ t.spad = s.spad ∧ t.hbm = s.hbm ∧ t.regs = s.regs ∧ t.tiles = s.tiles
      ∧ j.op = op ∧ j.vd = f.vd ∧ j.va = f.va ∧ j.vb = f.vb ∧ j.vc = f.vc ∧ j.pm = f.pm ∧ j.n = f.n ∧ j.fmt = f.fmt ∧ j.rnd = f.rnd
      ∧ j.sr = f.s ∧ j.src = f.src ∧ j.t = (s.core uid).cyc ∧ j.bundle = (s.core uid).pc ∧ j.rep = (s.core uid).rep
      ∧ j.sval = (s.core uid).sreg f.s ∧ j.round = (s.core uid).csr 0x010 ∧ j.seed = (s.core uid).csr 0x011
      ∧ j.prec = (s.core uid).csr 0x012 ∧ j.chunks = [] ∧ (f.src = 1 ∨ f.src = 2 → j.win = win)

/-- 07 R131, R134, R136; 04 R70: in the cycle of its issue an unpredicated integer, bitwise or move operation on at most 256 elements of
registers reads its chunk, and the results of R136 are due at t + 6 in chunk 0 of vd; elements n and above are not written. That a slot
operation can be commanded alone, at the core's present cycle, is the model's choice (log entry 10). -/
def Obligations.VectorIntegerElements : Prop :=
  ∀ (s : State) (uid : Nat) (op : VOpc) (f : VArg), Issuing s uid → uid < 240 → VFieldsFit f → f.pm = 0 → f.src = 0 → f.vc = 0 → f.n ≤ 256 →
    (∀ a b, (vIntResult op a b).isSome) → (s.core uid).vbusy ≤ (s.core uid).cyc → (s.core uid).vjobs = [] → (s.core uid).flies = [] →
    ∃ t g, exec (vCmd uid f op) s = .next t ∧ ((vTick t uid).core uid).flies = [g] ∧ g.due = (s.core uid).cyc + 6 ∧ g.wait = false
      ∧ g.writes = [.vch f.vd 0 ((List.range f.n).map fun e =>
          (e, (vIntResult op ((s.core uid).velem f.va e) ((s.core uid).velem f.vb e)).getD 0#32))]

/-- 07 R140 to R142: the special rows of VEXPSUB and VNORM. A row maximum of −∞ gives +0 and empty_row whatever x is, except for a NaN x; a
maximum of +∞ gives 1.0 for x = +∞, +0 for any other number, and inf_input; a NaN operand of VEXPSUB gives the default NaN (R140), of x also
where the maximum is infinite; a divisor of ±0 gives +0 and empty_row whatever the dividend is, a NaN dividend too. Where R140's NaN meets the
row of R141 or of R142, which of the two holds is the model's choice (log entry 9). The triple is the result, whether it is reported as a NaN, and the sticky flags. 07 R143, R145: once every
chunk is read, VRSUM over INT32 elements without a predicate lands their sum modulo 2^32, sign-extended, in s; VCOMPRESS packs the chosen
elements in ascending order and lands their count in s. -/
def Obligations.VectorSpecialResults : Prop :=
  (∀ (j : VJob) (uid e x b : Nat), x < 2 ^ 32 →
    (j.op = .vexpsub → isNan32 x = false → vElem j uid e 0 x 0xFF800000 b = (0, false, 8)
      ∧ vElem j uid e 0 x 0x7F800000 b = (if x = 0x7F800000 then 0x3F800000 else 0, false, 16)
      ∧ vElem j uid e 0 x 0x7FC00000 b = (0x7FC00000, true, 0))
    ∧ (j.op = .vexpsub → isNan32 x = true → ∀ m, m < 2 ^ 32 → vElem j uid e 0 x m b = (0x7FC00000, true, 0))
    ∧ (j.op = .vnorm → vElem j uid e 0 x 0 b = (0, false, 8) ∧ vElem j uid e 0 x 0x80000000 b = (0, false, 8)))
  ∧ (∀ (j : VJob) (xs : List Word32) (ps : List Bool), 1 ≤ j.n → j.n ≤ 256 → xs.length = j.n → ps.length = j.n →
    j.chunks = [{ j := 0, xa := xs, xb := xs, xc := xs, xp := ps }] →
    (j.op = .vrsum → j.fmt = 1 → j.pm = 0 →
      (treeOut j).writes = [.sreg j.sr ((xs.foldl (· + ·) 0#32).signExtend 64)])
    ∧ (j.op = .vcompress → 8 ≤ j.pm →
      let kept := ((List.range j.n).filter fun e => ps.getD e false).map fun e => xs.getD e 0#32
      ∃ w, (treeOut j).writes = w ++ [.sreg j.sr (BitVec.ofNat 64 kept.length)]
        ∧ (w = if kept.isEmpty then [] else [.vch j.vd 0 ((List.range kept.length).map fun i => (i, kept.getD i 0#32))])))

/-- 06 R109, R113; 04 R67, R69, R78: MSWAP with no shadow load under way exchanges the banks and nothing else; a vector fed in this cycle
keeps the feed bank of before as its tag. MMUL takes the oldest feeder
entry, under the product format of its issue and the feed bank, exchanged first where its swap bit is set, with its window row, and occupies
the feeder; on an empty FIFO it feeds the last vector again and sets feeder_early. 06 R112; 04 R69: MSHADOW at t occupies ag3 for 128
cycles, aims at the bank that is the shadow bank at t, and presents row 0 at t: with free lanes the row's bytes are those at ag3's address,
to be written at t + 1, and the generator has advanced. Part 1 in a format that has none loads nothing and sets bad_csr. The banks
themselves are still as they were. That a slot operation can be commanded alone, at the core's present cycle, is the model's choice (log
entry 10). -/
def Obligations.MatrixAndShadowIssue : Prop :=
  (∀ (s : State) (uid acc row : Nat) (sw win : Bool), Issuing s uid → uid < 240 → acc < 2 → row < 4096 → (s.core uid).shadows = [] →
    let c := s.core uid
    let w := c.csr (if win then 0x014 else 0x013)
    let fmt := nbits (c.csr 0x012).toNat 7 4
    let r := (row + c.rep) % 4096
    exec (.mswap uid) s = .next (WithCore s uid { c.tagFeed with feedY := !c.feedY })
    ∧ ((∀ m ∈ c.mms, m.t + m.occ ≤ c.cyc) → c.tagFeed = c)
    ∧ (∀ m ∈ c.mms, m.t < c.cyc → c.cyc < m.t + m.occ → m.banks.length = c.cyc - m.t → { m with banks := m.banks ++ [c.feedY] } ∈ c.tagFeed.mms)
    ∧ (c.mbusy ≤ c.cyc → fmt ≠ 14 → r < winRows w → winRowOff w r + winRowBytes w ≤ 0x4000000 →
        ∃ t m, exec (.mmul uid sw win acc row) s = .next t ∧ (t.core uid).mms = (if sw then c.tagFeed.mms else c.mms) ++ [m] ∧ m.t = c.cyc ∧ m.acc = acc
          ∧ m.row = r ∧ m.fmt = fmt ∧ m.banks = [c.feedY != sw] ∧ m.off = winRowOff w r
          ∧ (t.core uid).mbusy = c.cyc + 1 ∧ (t.core uid).feedY = (c.feedY != sw) ∧ t.spad = s.spad ∧ t.regs = s.regs
          ∧ (t.core uid).sregs = c.sregs ∧ (t.core uid).vregs = c.vregs ∧ (t.core uid).flies = c.flies
          ∧ (∀ e q, c.fifo = e :: q → (t.core uid).fifo = q ∧ m.entry = takePad 512 e ∧ (t.core uid).lastVec = e ∧ (t.core uid).csrs = c.csrs)
          ∧ (c.fifo = [] → (t.core uid).fifo = [] ∧ m.entry = takePad 512 c.lastVec ∧ ((t.core uid).csr 0x020).getLsbD 1 = true)))
  ∧ (∀ (s : State) (uid a : Nat), Issuing s uid → uid < 240 → LanesIdle s (uid / 4) →
    let c := s.core uid
    let fmt := nbits (c.csr 0x012).toNat 7 4
    let len := if fmt = 14 then 512 else 256
    c.mbusy ≤ c.cyc → c.shadowBusy ≤ c.cyc → c.shadows = [] →
    (LinearAccess c 3 len a →
      ∃ t sh, exec (.mshadow uid false) s = .next t ∧ (t.core uid).shadows = [sh] ∧ sh.t = c.cyc ∧ sh.bankY = !c.feedY ∧ sh.row = 1
        ∧ sh.fmt = fmt ∧ sh.wr = [(0, spadRead s (uid / 4) a len, c.cyc + 1)] ∧ (t.core uid).shadowBusy = c.cyc + 128
        ∧ ((t.core uid).gen 3).count = ((c.gen 3).count + 1) % 2 ^ 48
        ∧ (t.core uid).bankX = c.bankX ∧ (t.core uid).bankY = c.bankY ∧ (t.core uid).feedY = c.feedY ∧ t.spad = s.spad)
    ∧ (fmt < 8 → ∃ t, exec (.mshadow uid true) s = .next t ∧ ((t.core uid).csr 0x020).getLsbD 7 = true
        ∧ (t.core uid).shadowBusy = c.cyc + 128 ∧ (t.core uid).bankX = c.bankX ∧ (t.core uid).bankY = c.bankY ∧ t.spad = s.spad))

/-- 05 R99; 04 R79, R80: a bind is due at t + 1 on its half's generator (ag0, ag1), on ag2 or on ag3; a base is due at t + 1 where s[63:26]
is zero. The binds and bases of ag3 are for cycles in which MSHADOW does not hold it. Nothing else changes. 05 R101: LSKIP and TSKIP advance
their generator and nothing else. Level 0 counts up below its count_m1; where every level stands at its count_m1, all counters return to 0
and the program has ended; the accesses and skips are counted. That a slot operation can be commanded alone, at the core's present cycle, is
the model's choice (log entry 10). -/
def Obligations.GeneratorsBindAndAdvance : Prop :=
  (∀ (s : State) (uid half p r : Nat), Issuing s uid → uid < 240 → half < 2 → p < 32 → r < 64 →
    let c := s.core uid
    let v := (c.sreg r).toNat
    exec (.lbind uid half p) s = .next (Issued s uid .l 1 [.gbind half p])
    ∧ exec (.tbind uid p) s = .next (Issued s uid .t 1 [.gbind 2 p])
    ∧ (v < 2 ^ 26 → exec (.lbase uid half r) s = .next (Issued s uid .l 1 [.gbase half v])
        ∧ exec (.tbase uid r) s = .next (Issued s uid .t 1 [.gbase 2 v]))
    ∧ (c.shadowBusy ≤ c.cyc → exec (.lbind3 uid half p) s = .next (Issued s uid .l 1 [.gbind 3 p])
        ∧ (v < 2 ^ 26 → exec (.lbase3 uid half r) s = .next (Issued s uid .l 1 [.gbase 3 v]))))
  ∧ (∀ (s : State) (uid g : Nat) (i : Instr), Issuing s uid → uid < 240 → (g < 2 ∧ i = .lskip uid g ∨ g = 2 ∧ i = .tskip uid) →
    let c := s.core uid
    let st := c.gen g
    let p := c.stride st.prog
    st.bound = true → st.ended = false → 1 ≤ p.nlev → p.nlev ≤ 6 → st.i.length = 6 →
    ∃ t, exec i s = .next t ∧ (∃ gens, t = WithCore s uid { c with gens := gens })
      ∧ ((t.core uid).gen g).count = (st.count + 1) % 2 ^ 48 ∧ ((t.core uid).gen g).base = st.base ∧ ((t.core uid).gen g).prog = st.prog
      ∧ (∀ k, k ≠ g → (t.core uid).gen k = c.gen k)
      ∧ (st.i.getD 0 0 < (p.levels.getD 0 ⟨0, 0, 0⟩).countM1 →
          ((t.core uid).gen g).i = st.i.set 0 (st.i.getD 0 0 + 1) ∧ ((t.core uid).gen g).ended = false)
      ∧ ((∀ k < p.nlev, (p.levels.getD k ⟨0, 0, 0⟩).countM1 ≤ st.i.getD k 0) →
          (∀ k < p.nlev, ((t.core uid).gen g).i.getD k 1 = 0) ∧ ((t.core uid).gen g).ended = true))

/-- 04 R69, R86; 07 R133: a vector operation given to an occupied engine, and a window operation whose offset is not a multiple of 128, or
that goes beyond its window's rows, do not execute: the core stops and its registers and engine stay as they were. 05 R99; 04 R79, R86: a base with a non-zero s[63:26] is an
address fault, and LBIND3 or LBASE3 while MSHADOW holds ag3 an occupancy overrun: the core stops, and its generators stay as they were. That
a slot operation can be commanded alone, at the core's present cycle, is the model's choice (log entry 10). -/
def Obligations.FaultsStopTheCore : Prop :=
  (∀ (s : State) (uid : Nat) (op : VOpc) (f : VArg), Issuing s uid → uid < 240 → VFieldsFit f → VFieldsLegal op f →
    ((s.core uid).cyc < (s.core uid).vbusy ∨ ((f.src = 1 ∨ f.src = 2) ∧ op ≠ .vbcast ∧ ((s.core uid).sreg f.s).toNat % 128 ≠ 0)
      ∨ ((f.src = 1 ∨ f.src = 2) ∧ 128 * winRows (if f.src = 2 then (s.core uid).csr 0x014 else (s.core uid).csr 0x013) < ((s.core uid).sreg f.s).toNat + f.n)) →
    ∃ t, exec (vCmd uid f op) s = .next t ∧ t.core uid = HaltedCore s (s.core uid) ∧ t.spad = s.spad)
  ∧ (∀ (s : State) (uid half p r : Nat), Issuing s uid → uid < 240 → half < 2 → p < 32 → r < 64 →
    let c := s.core uid
    let stops (i : Instr) := ∃ t, exec i s = .next t ∧ t.core uid = HaltedCore s c ∧ t.spad = s.spad
    (2 ^ 26 ≤ (c.sreg r).toNat → stops (.lbase uid half r) ∧ stops (.tbase uid r) ∧ (c.shadowBusy ≤ c.cyc → stops (.lbase3 uid half r)))
    ∧ (c.cyc < c.shadowBusy → stops (.lbind3 uid half p) ∧ stops (.lbase3 uid half r))
    ∧ ((c.gen half).bound = false → stops (.lskip uid half)) ∧ ((c.gen 2).bound = false → stops (.tskip uid)))

/-- 04 R79, R70; 05 R94, R102: a load whose next access is linear and legal, on free lanes, is due at t + 14 with the bytes that stand in
the core's own scratchpad at its issue: LFEED an entry of the feeder, LVEC the 256 elements of chunk (chunk + repeat) mod 16, LSCL a scalar;
the generator advances; no memory changes. 04 R80, R70; 05 R102: a store whose next access is linear and legal captures its register at
issue and is due at t + 3: TVEC four bytes of each of the 256 elements, TVEC16 the low two, TVEC8 the low one, TSCL the eight bytes of s;
ag2 advances; no memory changes yet. That a slot operation can be commanded alone, at the core's present cycle, is the model's choice (log
entry 10). -/
def Obligations.LoadsAndStoresIssue : Prop :=
  (∀ (s : State) (uid half v ch d a : Nat), Issuing s uid → uid < 240 → half < 2 → v < 16 → ch < 16 → d < 64 → LanesIdle s (uid / 4) →
    let c := s.core uid
    let flen := if 8 ≤ nbits (c.csr 0x012).toNat 7 4 then 512 else 256
    let bytes (n : Nat) : List Byte := (List.range n).map fun i => tget byte0 s.spad (s.tileSite (uid / 4) * 0x4000000 + a + i)
    let k := (ch + c.rep) % 16
    let loads (i : Instr) (w : Wr) := ∃ t f, exec i s = .next t ∧ (t.core uid).flies = c.flies ++ [f] ∧ f.due = c.cyc + 14 ∧ f.wait = false
      ∧ f.writes = [w] ∧ f.slot = .l ∧ t.spad = s.spad ∧ t.hbm = s.hbm ∧ t.regs = s.regs ∧ (t.core uid).sregs = c.sregs
      ∧ (t.core uid).vregs = c.vregs ∧ (t.core uid).fifo = c.fifo ∧ ((t.core uid).gen half).count = ((c.gen half).count + 1) % 2 ^ 48
    (LinearAccess c half flen a → loads (.lfeed uid half) (.fifo (bytes flen)))
    ∧ (LinearAccess c half 1024 a → loads (.lvec uid half v ch)
        (.vch v k ((List.range 256).map fun e => (256 * k + e, BitVec.ofNat 32 (leNat (((bytes 1024).drop (4 * e)).take 4))))))
    ∧ (LinearAccess c half 8 a → loads (.lscl uid half d) (.sreg d (BitVec.ofNat 64 (leNat (bytes 8))))))
  ∧ (∀ (s : State) (uid v ch r a : Nat), Issuing s uid → uid < 240 → v < 16 → ch < 16 → r < 64 →
    let c := s.core uid
    let k := (ch + c.rep) % 16
    let els (w : Nat) : List Byte := (List.range 256).flatMap fun e => leBytes w (c.velem v (256 * k + e)).toNat
    let stores (i : Instr) (bs : List Byte) := ∃ t f, exec i s = .next t ∧ (t.core uid).flies = c.flies ++ [f] ∧ f.due = c.cyc + 3
      ∧ f.writes = [.sp a bs] ∧ f.slot = .t ∧ t.spad = s.spad ∧ t.hbm = s.hbm ∧ t.regs = s.regs ∧ t.tiles = s.tiles
      ∧ (t.core uid).sregs = c.sregs ∧ (t.core uid).vregs = c.vregs ∧ ((t.core uid).gen 2).count = ((c.gen 2).count + 1) % 2 ^ 48
    (LinearAccess c 2 1024 a → stores (.tvec uid v ch) (els 4))
    ∧ (LinearAccess c 2 512 a → stores (.tvec16 uid v ch) (els 2))
    ∧ (LinearAccess c 2 256 a → stores (.tvec8 uid v ch) (els 1))
    ∧ (LinearAccess c 2 8 a → stores (.tscl uid r) (leBytes 8 (c.sreg r).toNat)))

/-- 04 R81, R82: with no earlier write of the core outstanding, GINC and GADD hand the addend over: in the next cycle to the gate unit of the
core's own tile (0x3F or its number), or at once to the mesh for another tile, tagged with the core's partition. 04 R81, R83: GREAD and MREAD are due at t + 4,
GREAD with the gate's value as it stands; MREAD takes the milestone counter when it lands (15 R292), and how much older than that the sample
is, at most 4 ns, is a free value (log entry 3; OperationsLand has the landing). GWAIT and MWAIT whose condition holds change nothing, and otherwise hold the core: a wait
cycle is counted, late data are a cycle less late, and what is awaited and since when is kept. A GWAIT or GREAD of another tile, and any of
the four that names tile 60 to 62, stops the core. That a slot operation can be commanded alone, at the core's present cycle, is the model's
choice (log entry 10). -/
def Obligations.GateOperationsOfTheCore : Prop :=
  (∀ (s : State) (uid tile g imm r : Nat), Issuing s uid → uid < 240 → (tile < 60 ∨ tile = 63) → g < 4096 → imm < 16 → r < 64 →
    (s.core uid).flies = [] → (s.core uid).mms = [] →
    let c := s.core uid
    let own := tile = 63 ∨ tile = uid / 4
    let sends (i : Instr) (n : Nat) := ∃ t, exec i s = .next t ∧ t.spad = s.spad ∧ t.regs = s.regs ∧ t.tiles = s.tiles
      ∧ (own → t.mesh = s.mesh ∧ t.core uid = { c with seq := c.seq + 1, held := c.held ++ [⟨c.cyc + 1, c.seq, uid / 4, g, n, c.pc, c.rep⟩] }
          ∧ ∀ x : State, x.isFatal = false → x.core uid = { c with cyc := c.cyc + 1, held := [⟨c.cyc + 1, c.seq, uid / 4, g, n, c.pc, c.rep⟩] } →
            (releaseIncs x uid).tile (uid / 4) = { x.tile (uid / 4) with
              gateOps := (x.tile (uid / 4)).gateOps ++ [⟨g, false, n, 4, .core uid c.pc c.rep⟩] })
      ∧ (¬ own → t.core uid = { c with seq := c.seq + 1 } ∧ t.mesh = s.mesh ++ [⟨c.part, .tile tile,
          .gateAdd g n (meshPort (s.tileSite (uid / 4)) (s.tileSite tile)), .core uid c.pc c.rep⟩])
    sends (.ginc uid tile g imm) (imm + 1) ∧ sends (.gadd uid tile g r) ((c.sreg r).toNat % 2 ^ 32))
  ∧ (∀ (s : State) (uid tile g r : Nat), Issuing s uid → uid < 240 → (tile < 60 ∨ tile = 63) → g < 4096 → r < 64 →
    let c := s.core uid
    let own := tile = 63 ∨ tile = uid / 4
    let V := s.gate (uid / 4) g
    let target : BitVec 32 := BitVec.ofNat 32 (c.sreg r).toNat
    let held (a : Await) := WithCore s uid { c.stoodStill 1 with cntWait := min (c.cntWait + 1) (2 ^ 48 - 1), wait := some (a, s.mile) }
    (own → exec (.gread uid tile g r) s = .next (Issued s uid .y 4 [.sreg r (BitVec.ofNat 64 V.toNat)]))
    ∧ exec (.mread uid r) s = .next (Issued s uid .y 4 [.smile r])
    ∧ (own → 0 ≤ (V - target).toInt → exec (.gwait uid tile g r) s = .next s)
    ∧ (own → (V - target).toInt < 0 → c.wait = none →
        exec (.gwait uid tile g r) s = .next (held (.gate (2 ^ 31 + uid / 4 * 4096 + g) ((c.sreg r).toNat % 2 ^ 32))))
    ∧ ((c.sreg r).toNat ≤ s.mile → exec (.mwait uid r) s = .next s)
    ∧ (s.mile < (c.sreg r).toNat → c.wait = none → exec (.mwait uid r) s = .next (held (.mile (c.sreg r).toNat)))
    ∧ (¬ own → (∃ t, exec (.gwait uid tile g r) s = .next t ∧ t.core uid = HaltedCore s c)
        ∧ ∃ t, exec (.gread uid tile g r) s = .next t ∧ t.core uid = HaltedCore s c))
  ∧ (∀ (s : State) (uid tile g imm r : Nat), Issuing s uid → uid < 240 → 60 ≤ tile → tile < 63 → g < 4096 → imm < 16 → r < 64 →
    ∀ i ∈ [Instr.ginc uid tile g imm, .gadd uid tile g r, .gwait uid tile g r, .gread uid tile g r],
      ∃ t, exec i s = .next t ∧ t.core uid = HaltedCore s (s.core uid) ∧ t.mesh = s.mesh)

/-- 04 R65, R66, R70, R72, R73, R74: the issue of a bundle by an undisturbed core: one issue and one core cycle are counted; the next issue
is the next repetition, or, after the last, the target of a redirect pending for its position, else the next address. A bundle whose one
operation is an addition also has that operation in flight, due at t + 1; any other registers stay. With eop in its header the last
repetition ends issue and pending redirects are discarded; that the next bundle address then stays the bundle's own is the model's
choice (log entry 16), and is not stated. Beyond bundle 0x1FFF (fetch overrun), or at a bundle that does not decode, the core stops. 15 R290:
on a tile that is gated or in retention no core issues. -/
def Obligations.BundleIssueAdvancesTheCore : Prop :=
  (∀ (s : State) (uid : Nat), uid < 240 → tileReady s (uid / 4) = false →
    ∃ t, exec (.bundleIssue uid) s = .next t ∧ t.cores = s.cores ∧ t.tiles = s.tiles ∧ t.spad = s.spad ∧ t.regs = s.regs)
  ∧ (∀ (s : State) (uid : Nat), Issuing s uid → uid < 240 → tileReady s (uid / 4) = true → Quiet (s.core uid) →
    dumpsOf s (s.core uid).part (s.core uid).flight = [] →
    let c := s.core uid
    let w := tget (fun _ => 0#256) c.imem c.pc
    let kept (t : State) := exec (.bundleIssue uid) s = .next t ∧ (t.core uid).sregs = c.sregs ∧ (t.core uid).vregs = c.vregs
      ∧ (t.core uid).pregs = c.pregs ∧ (t.core uid).csrs = c.csrs ∧ (t.core uid).imem = c.imem ∧ t.spad = s.spad ∧ t.hbm = s.hbm
    let moved (t : State) (reps : Nat) (eop : Bool) := kept t ∧ (t.core uid).bcount = (c.bcount + 1) % 2 ^ 48 ∧ (t.core uid).cyc = c.cyc + 1
      ∧ (c.rep < reps → (t.core uid).phase = .run ∧ (t.core uid).rep = c.rep + 1 ∧ (t.core uid).pc = c.pc ∧ (t.core uid).pos = c.pos)
      ∧ (reps ≤ c.rep → eop = false → (t.core uid).phase = .run ∧ (t.core uid).rep = 0 ∧ (t.core uid).pos = c.pos + 1
          ∧ (t.core uid).pc = ((c.redirects.find? fun r => decide (r.1 = c.pos + 1)).map (·.2)).getD (c.pc + 1))
      ∧ (reps ≤ c.rep → eop = true → (t.core uid).phase = .ended ∧ (t.core uid).redirects = [])
    (c.pc ≤ 0x1FFF → w = 0#256 → ∃ t, moved t 0 false ∧ (t.core uid).flies = [])
    ∧ (c.pc ≤ 0x1FFF → w = 0x10#256 → ∃ t, moved t 0 true ∧ (t.core uid).flies = [])
    ∧ (∀ d a b reps eop, d < 64 → c.pc ≤ 0x1FFF → decBundle w.toNat = .ok ⟨.alu .add d a b, none, .nop, .nop, .nop, .nop, .nop, eop, reps⟩ →
        ∃ t y, moved t reps eop ∧ (t.core uid).flies = [y] ∧ y.due = c.cyc + 1 ∧ y.slot = .s ∧ y.bundle = c.pc ∧ y.rep = c.rep
          ∧ y.writes = [.sreg d (c.sreg a + c.sreg b)])
    ∧ (0x1FFF < c.pc → ∃ t, kept t ∧ (t.core uid).phase = .stopped ∧ (t.core uid).bcount = c.bcount)
    ∧ (∀ sl, c.pc ≤ 0x1FFF → decBundle w.toNat = .error sl → ∃ t, kept t ∧ (t.core uid).phase = .stopped ∧ (t.core uid).bcount = c.bcount))

/-- 04 R66, R70: an operation due at the core's present cycle lands, and is no longer in flight: a scalar result is the new value of its
register and of no other; elements of a vector register, or bits of a predicate register, are the new ones, and no others change; a store's
bytes stand in the scratchpad of the core's own tile, and every other byte of every scratchpad is as it was; an entry joins the feeder FIFO,
or, where all 16 are taken, is lost and sets feeder_early (04 R79); a base is the generator's new base; an MREAD takes the milestone
counter as it was at most 4 ns ago (15 R292), how long ago being a free value (log entry 3). 04 R75: CSR_WAIT_TO keeps its 40 bits, CSR_SEED
its 64, CSR_STICKY clears where ones are written, and a write of a CSR that may not be written changes none and sets bad_csr. 04 R68, R75:
when an S and a V operation land on one scalar register in the same cycle, the V write wins, the losing write is discarded, sticky collision
is set, and, while the flag was clear, CSR_COLL records unit kind 0, losing slot 1, winning slot 4, and a repeat index and bundle address;
that these are the loser's is the model's choice (log entry 9). -/
def Obligations.OperationsLand : Prop :=
  (∀ (s : State) (uid : Nat) (f : Fly), Issuing s uid → uid < 240 → Alone (s.core uid) f →
    let c := s.core uid
    (∀ d v, d < 64 → f.writes = [.sreg d v] →
      ∃ t, exec (.operationLanding uid none) s = .next t ∧ (t.core uid).sreg d = v ∧ (∀ e, e < 64 → e ≠ d → (t.core uid).sreg e = c.sreg e)
        ∧ (t.core uid).flies = [] ∧ (t.core uid).vregs = c.vregs ∧ (t.core uid).cyc = c.cyc ∧ t.spad = s.spad ∧ t.hbm = s.hbm ∧ t.regs = s.regs)
    ∧ (∀ r j els, r < 16 → (∀ x ∈ els, x.1 < 4096) → (els.map (·.1)).Nodup → f.writes = [.vch r j els] →
      ∃ t, exec (.operationLanding uid none) s = .next t ∧ (∀ r' e, r' < 16 → e < 4096 →
          (t.core uid).velem r' e = if r' = r then (els.lookup e).getD (c.velem r e) else c.velem r' e)
        ∧ (t.core uid).flies = [] ∧ (t.core uid).sregs = c.sregs ∧ (t.core uid).pregs = c.pregs ∧ t.spad = s.spad)
    ∧ (∀ p j bits, p < 8 → (∀ x ∈ bits, x.1 < 4096) → (bits.map (·.1)).Nodup → f.writes = [.pch p j bits] →
      ∃ t, exec (.operationLanding uid none) s = .next t ∧ (∀ p' e, p' < 8 → e < 4096 →
          (t.core uid).pbit p' e = if p' = p then (bits.lookup e).getD (c.pbit p e) else c.pbit p' e)
        ∧ (t.core uid).flies = [] ∧ (t.core uid).sregs = c.sregs ∧ (t.core uid).vregs = c.vregs ∧ t.spad = s.spad)
    ∧ (∀ n v, f.writes = [.csr n v] →
      ∃ t, exec (.operationLanding uid none) s = .next t ∧ (t.core uid).flies = [] ∧ (t.core uid).sregs = c.sregs ∧ t.spad = s.spad
        ∧ (∀ m, m ≠ n → m ≠ 0x020 → (t.core uid).csr m = c.csr m)
        ∧ (n = 0x018 → (t.core uid).csr n = v &&& 0xFFFFFFFFFF#64) ∧ (n = 0x011 → (t.core uid).csr n = v)
        ∧ (n = 0x020 → (t.core uid).csr n = c.csr n &&& ~~~(v &&& 0xFF#64))
        ∧ (n ∉ [0x010, 0x011, 0x012, 0x013, 0x014, 0x018, 0x019, 0x020] → ((t.core uid).csr 0x020).getLsbD 7 = true ∧ (t.core uid).csr n = c.csr n))
    ∧ (∀ e, f.writes = [.fifo e] →
      ∃ t, exec (.operationLanding uid none) s = .next t ∧ (t.core uid).flies = [] ∧ t.spad = s.spad
        ∧ (c.fifo.length < 16 → (t.core uid).fifo = c.fifo ++ [e] ∧ (t.core uid).csrs = c.csrs)
        ∧ (16 ≤ c.fifo.length → (t.core uid).fifo = c.fifo ∧ ((t.core uid).csr 0x020).getLsbD 1 = true))
    ∧ (∀ g v, f.writes = [.gbase g v] →
      ∃ t, exec (.operationLanding uid none) s = .next t ∧ (t.core uid).flies = [] ∧ (t.core uid).gen g = { c.gen g with base := v }
        ∧ (∀ h, h ≠ g → (t.core uid).gen h = c.gen h) ∧ t.spad = s.spad)
    ∧ (∀ d, d < 64 → f.writes = [.smile d] →
      ∃ t k, exec (.operationLanding uid none) s = .next t ∧ k ≤ 4 ∧ (t.core uid).sreg d = BitVec.ofNat 64 (s.mile + 2 ^ 64 - k)
        ∧ (∀ e, e < 64 → e ≠ d → (t.core uid).sreg e = c.sreg e) ∧ (t.core uid).flies = [] ∧ t.spad = s.spad)
    ∧ (∀ o bs, f.writes = [.sp o bs] → (s.tile (uid / 4)).claims = [] → (s.tile (uid / 4)).denied = [] →
      ∃ t, exec (.operationLanding uid none) s = .next t ∧ (t.core uid).flies = [] ∧ (t.core uid).sregs = c.sregs ∧ t.hbm = s.hbm
        ∧ ∀ k, tget byte0 t.spad k = (let b := s.tileSite (uid / 4) * 0x4000000 + o
            if b ≤ k ∧ k < b + bs.length then bs.getD (k - b) 0#8 else tget byte0 s.spad k)))
  ∧ (∀ (s : State) (uid d : Nat) (v1 v2 : Word64) (f1 f2 : Fly), Issuing s uid → uid < 240 → d < 64 →
    Alone { s.core uid with flies := [f1] } f1 → Alone { s.core uid with flies := [f2] } f2 →
    ((s.core uid).flies = [f1, f2] ∨ (s.core uid).flies = [f2, f1]) → f1.slot = .s → f2.slot = .v → f1.seq ≠ f2.seq →
    f1.writes = [.sreg d v1] → f2.writes = [.sreg d v2] →
    ∃ t, exec (.operationLanding uid none) s = .next t ∧ (t.core uid).sreg d = v2 ∧ (t.core uid).flies = []
      ∧ ((t.core uid).csr 0x020).getLsbD 0 = true
      ∧ (((s.core uid).csr 0x020).getLsbD 0 = false →
          (t.core uid).csr 0x021 = BitVec.ofNat 64 (1 * 2 ^ 24 + 4 * 2 ^ 20 + f1.rep * 2 ^ 16 + f1.bundle)))

/-- 04 R84, R85: when the one freeze cause in force has cleared, the core is unfrozen and its cycles are counted against the cause,
saturating at 2^48 − 1; a cause whose end is not known keeps the core frozen. A shadow-late freeze whose load is complete lasted from the tile
cycle in which the swap began to wait. A rescale-repeat freeze ends by its own event. 15 R290: on a tile that is gated or in retention nothing of
this happens. 04 R83, R86; 09 R185: a held core whose hold has lasted CSR_WAIT_TO ticks, 10,000,000 where the field is 0, halts: it stops, waits no more, and its wharf
die's error queue has one more entry. Before that nothing happens. -/
def Obligations.FreezesAndHoldsEnd : Prop :=
  (∀ (s : State) (uid q n : Nat), uid < 240 →
    let c := s.core uid
    let up (x : Nat) := min (x + n) (2 ^ 48 - 1)
    let only (k : FrzCause) (d : Option Nat) := tileReady s (uid / 4) = true ∧ c.freezes = [⟨k, q, d⟩]
    (tileReady s (uid / 4) = false → exec (.freezeEnd uid) s = .next s ∧ exec (.rescaleFreezeEnd uid) s = .next s)
    ∧ (only .dataLate (some n) → ∃ t, exec (.freezeEnd uid) s = .next t ∧ (t.core uid).freezes = [] ∧ (t.core uid).cntData = up c.cntData
        ∧ (t.core uid).cntWrite = c.cntWrite ∧ (t.core uid).cntEcc = c.cntEcc ∧ (t.core uid).cntShadow = c.cntShadow)
    ∧ (only .writeBack (some n) → ∃ t, exec (.freezeEnd uid) s = .next t ∧ (t.core uid).freezes = [] ∧ (t.core uid).cntWrite = up c.cntWrite
        ∧ (t.core uid).cntData = c.cntData ∧ (t.core uid).cntEcc = c.cntEcc ∧ (t.core uid).cntShadow = c.cntShadow)
    ∧ (only .ecc (some n) → ∃ t, exec (.freezeEnd uid) s = .next t ∧ (t.core uid).freezes = [] ∧ (t.core uid).cntEcc = up c.cntEcc
        ∧ (t.core uid).cntData = c.cntData ∧ (t.core uid).cntWrite = c.cntWrite ∧ (t.core uid).cntShadow = c.cntShadow)
    ∧ (only .rescale (some n) → ∃ t, exec (.rescaleFreezeEnd uid) s = .next t ∧ (t.core uid).freezes = [] ∧ (t.core uid).cntShadow = up c.cntShadow
        ∧ (t.core uid).cntData = c.cntData ∧ (t.core uid).cntWrite = c.cntWrite ∧ (t.core uid).cntEcc = c.cntEcc)
    ∧ (∀ t0, only (.shadowLate t0) none → c.shadows = [] →
        ∃ t, exec (.freezeEnd uid) s = .next t ∧ (t.core uid).freezes = []
          ∧ (t.core uid).cntShadow = min (c.cntShadow + ((s.tile (uid / 4)).tcyc - t0 + 1)) (2 ^ 48 - 1))
    ∧ (∀ k, k ∈ [FrzCause.dataLate, .writeBack, .ecc] → only k none →
        ∃ t, exec (.freezeEnd uid) s = .next t ∧ (t.core uid).freezes = c.freezes))
  ∧ (∀ (s : State) (uid t0 : Nat) (a : Await), Issuing s uid → uid < 240 → (s.core uid).wait = some (a, t0) →
    let field := ((s.core uid).csr 0x018).toNat % 2 ^ 40
    let limit := if field = 0 then 10000000 else field
    (t0 + limit ≤ s.mile → ∃ t, exec (.coreWaitTimeout uid) s = .next t ∧ t.core uid = HaltedCore s (s.core uid)
        ∧ t.rd (fErrNext (tileWharf (uid / 4))) = (s.rd (fErrNext (tileWharf (uid / 4))) + 1) % 2 ^ 32)
    ∧ (s.mile < t0 + limit → exec (.coreWaitTimeout uid) s = .next s))

/-- 05 R96, R97: the one denied request of a tile, a load, is granted in the n-th tile cycle from now: its bytes are those that stand in the
scratchpad now, and it is late by the tile cycles of its denial, less those that the core has stood still since; one that was only put up
for the next tile cycle is not denied in the one between. On a tile that is gated or in retention no lane is granted and no group arrives
(15 R290). 05 R103: an index group
that was granted at least four core cycles ago reaches its buffer, B or A as it was asked for, and the generator reads nothing more; the
other generators are unchanged. 05 R94; 17 R321: the patrol scrub's claim of a bank with nothing to correct reads the bank's next line in
all 64 of its lanes, moves on to the following line modulo 8,192, and counts a pass once every bank has done its last line. 09 R175: the gate
unit of a tile that is up applies every operation of its cycle: a gate without a set gains the sum of its adds modulo 2^32; a gate with one
set holds the set's value and the sum of the adds. None is left; a descriptor that asked for it is done, with the value before a set, after
an add, as its result (03 R53); after a fatal error nothing is applied (14 R273). -/
def Obligations.TileUnitsAct : Prop :=
  (∀ (s : State) (uid g n index : Nat), uid < 240 → g < 4 → tileReady s (uid / 4) = false →
    exec (.requestGrant (uid / 4) index n) s = .next s ∧ exec (.indexGroupArrival uid g) s = .next s)
  ∧ (∀ (s : State) (uid d n o k u : Nat) (w : Turn) (f : Fly), uid < 240 → d < 64 → tileReady s (uid / 4) = true →
    (s.tile (uid / 4)).denied = [⟨.core uid, .load f.seq u, [(o, 8)], false, k, w⟩] → (s.core uid).flies = [f] → (s.core uid).freezes = [] → f.wait = true → f.load = some (.scl d, [(o, 8)]) → 1 ≤ n →
    ∃ t g, exec (.requestGrant (uid / 4) 0 n) s = .next t ∧ (t.core uid).flies = [g] ∧ g.wait = false
      ∧ g.late = (if w = .next then k + n - 1 else k + n) - f.late ∧ g.due = f.due
      ∧ g.writes = [.sreg d (BitVec.ofNat 64 (leNat (spadRead s (uid / 4) o 8)))] ∧ (t.tile (uid / 4)).denied = []
      ∧ (t.tile (uid / 4)).tcyc = (s.tile (uid / 4)).tcyc + n ∧ t.spad = s.spad)
  ∧ (∀ (s : State) (uid g : Nat) (r : GrpRead), uid < 240 → g < 4 → tileReady s (uid / 4) = true → ((s.core uid).gen g).reads = [r] → r.granted = true → r.ue = none →
    r.at_ + 4 ≤ (s.core uid).cyc →
    ∃ t, exec (.indexGroupArrival uid g) s = .next t ∧ ((t.core uid).gen g).reads = [] ∧ (∀ h, h ≠ g → (t.core uid).gen h = (s.core uid).gen h)
      ∧ (r.bufB = true → ((t.core uid).gen g).grpB = some (r.off, r.data) ∧ ((t.core uid).gen g).grpA = ((s.core uid).gen g).grpA)
      ∧ (r.bufB = false → ((t.core uid).gen g).grpA = some (r.off, r.data) ∧ ((t.core uid).gen g).grpB = ((s.core uid).gen g).grpB)
      ∧ (t.core uid).sregs = (s.core uid).sregs ∧ t.spad = s.spad)
  ∧ (∀ (s : State) (tile bank : Nat), tile < 60 → bank < 64 → s.isFatal = false → tileReady s tile = true →
    (s.tile tile).ue = [] → (s.tile tile).scrubFix = [] → tget nat0 (s.tile tile).scrubLine bank < 8192 →
    let line := tget nat0 (s.tile tile).scrubLine bank
    let done := if line = 8191 then (s.tile tile).scrubDone ||| 2 ^ bank else (s.tile tile).scrubDone
    ∃ t, exec (.patrolScrubClaim tile bank none) s = .next t ∧ tget nat0 (t.tile tile).scrubLine bank = (line + 1) % 8192
      ∧ (∀ b, b ≠ bank → tget nat0 (t.tile tile).scrubLine b = tget nat0 (s.tile tile).scrubLine b)
      ∧ (t.tile tile).claims = (List.range 64).map (fun l => ⟨64 * bank + l, line, .scrub, false⟩) ∧ t.spad = s.spad ∧ t.cores = s.cores
      ∧ t.rd (fScrubPasses tile) = (if done = 2 ^ 64 - 1 then min (s.rd (fScrubPasses tile) + 1) 65535 else s.rd (fScrubPasses tile)))
  ∧ (∀ (s : State) (tile : Nat), tile < 60 → s.isFatal = true → exec (.gateUnitApply tile) s = .next s)
  ∧ (∀ (s : State) (tile : Nat), tile < 60 → tileReady s tile = true → s.isFatal = false →
    let ops := (s.tile tile).gateOps
    let adds (g : Nat) : Nat := ((ops.filter fun o => decide (o.gate = g) && !o.set).map GateOp.value).sum
    ∃ t, exec (.gateUnitApply tile) s = .next t ∧ (t.tile tile).gateOps = [] ∧ t.cores = s.cores ∧ t.spad = s.spad
      ∧ (∀ g, (ops.filter fun o => decide (o.gate = g) && o.set) = [] → t.gate tile g = s.gate tile g + BitVec.ofNat 32 (adds g))
      ∧ (∀ g o, (ops.filter fun o => decide (o.gate = g) && o.set) = [o] → o.port < 5 →
          t.gate tile g = BitVec.ofNat 32 o.value + BitVec.ofNat 32 (adds g))
      ∧ (∀ n, n ≠ tile → t.tile n = s.tile n)
      ∧ (∀ o r c, ops = [o] → o.who = .ring r c → o.port < 5 →
          t.rings = (settleWork s r c .gate (.judged 0 (if o.set then s.gate tile o.gate else t.gate tile o.gate).toNat none)).rings))

/-- 03 R55, R56, R49; 02 R32: a descriptor is not dispatched while its ring is not running or has 64 outstanding ones, while nothing waits or
the link is stalled, while the one in front is at or after a halting one, is unrelaxed with an earlier one outstanding, or is of another
class; then only the votes are looked at. -/
def Obligations.DescriptorWaitsItsTurn : Prop :=
  ∀ (s : State) (r : Nat) (k : DClass), r < 1024 → (k = .bucket → waitingPosts s r = []) →
    let before (a b : Nat) : Prop := countFrom (s.rd (fHead r)) a < countFrom (s.rd (fHead r)) b
    ((s.ring r).st ≠ 1 ∨ 64 ≤ (s.ring r).out.length ∨ s.isFatal = true ∨ s.link.stalled = true ∨ (s.ring r).waiting = []
      ∨ ∃ f l, (s.ring r).waiting = f :: l ∧ ((∃ x ∈ (s.ring r).halting, ¬ before f.count x.1)
        ∨ (∃ d ∈ (s.ring r).out, d.work.halts = true ∧ ¬ before f.count d.count)
        ∨ (f.relaxed = false ∧ ∃ d ∈ (s.ring r).out, before d.count f.count) ∨ f.bad ≠ none ∨ dClass f.q ≠ some k)) →
    exec (descCmd r k) s = .next (voteRefresh s)

/-- 03 R48 to R50, R53; 09 R174, R175: a set or add of a gate of the ring's partition crosses the mesh from N0's host port to the gate unit
of its tile, under the tag of the ring's partition, and the descriptor waits for it. A wait then waits for the target, 10 ms where its
timeout is 0. A gate of another partition gives 0x42; a reference that is not valid or names no gate, or any reserved bit that is set, gives
0x41. No-operation completes; fences of this or another ring wait; a wipe of everything, or of a range of whole 2 KiB blocks that the
partition owns, is under way. Nothing else changes at the dispatch. The port by which the host's operations meet the gate unit of a tile at
site 0, port 0 (N), is the model's choice (log entry 16), and so is 0x41 for a wipe whose bounds are no multiples of 2 KiB (log entry 15). -/
def Obligations.GateAndPlainDescriptorsAct : Prop :=
  ∀ (s : State) (r : Nat) (f : Fetched),
    let q2 := dq f.q 2
    let q3 := dq f.q 3
    let q4 := dq f.q 4
    let ticks := if q4 = 0 then 10000000 else q4
    let began (w : Work) := Began s r f w
    let bad := Began s r f (.judged 0x41 0 none)
    (∀ t g, t < 60 → g < 4096 → q2 = 2 ^ 31 + t * 2 ^ 12 + g →
      let port := if s.tileSite t = 0 then 0 else meshPort 0 (s.tileSite t)
      let owned := ownsTile s (s.rd (fRPart r)) t
      let full := q3 < 2 ^ 32 ∧ dZeroFrom f.q 4 = true
      let wait := q3 < 2 ^ 32 ∧ q4 < 2 ^ 40 ∧ dZeroFrom f.q 5 = true
      (DueNow s r .gateSet f → exec (.gateSet r) s = .next (
        if ¬full then bad else if owned = false then began (.judged 0x42 0 none)
        else Began { s with mesh := s.mesh ++ [⟨s.rd (fRPart r), .tile t, .gateSet g q3 port, .ring r f.count⟩] } r f .gate))
      ∧ (DueNow s r .gateAdd f → exec (.gateAdd r) s = .next (
        if ¬full then bad else if owned = false then began (.judged 0x42 0 none)
        else Began { s with mesh := s.mesh ++ [⟨s.rd (fRPart r), .tile t, .gateAdd g q3 port, .ring r f.count⟩] } r f .gate))
      ∧ (DueNow s r .gateWait f → exec (.gateWait r) s = .next (
        if ¬wait then bad else if owned = false then began (.judged 0x42 0 none) else began (.gateWait q2 q3 ticks))))
    ∧ (2 ^ 32 ≤ q2 ∨ q2.testBit 31 = false ∨ nbits q2 30 18 ≠ 0 ∨ 60 ≤ nbits q2 17 12 →
      (DueNow s r .gateSet f → exec (.gateSet r) s = .next bad) ∧ (DueNow s r .gateAdd f → exec (.gateAdd r) s = .next bad)
      ∧ (DueNow s r .gateWait f → exec (.gateWait r) s = .next bad))
    ∧ (DueNow s r .nop f → exec (.noOperation r) s = .next (began (.judged (if dZeroFrom f.q 2 = true then 0 else 0x41) 0 none)))
    ∧ (let ok := q2 < 2 ^ 10 ∧ q3 < 2 ^ 32 ∧ q4 < 2 ^ 40 ∧ dZeroFrom f.q 5 = true
      (DueNow s r .fenceThis f → exec (.fenceThisRing r) s = .next (if ok then began (.fence none ticks) else bad))
      ∧ (DueNow s r .fenceOther f → exec (.fenceOtherRing r) s = .next (if ok then began (.fence (some (q2, q3)) ticks) else bad)))
    ∧ (let ok := q2 < 2 ^ 48 ∧ q3 < 2 ^ 48 ∧ dZeroFrom f.q 4 = true
      (DueNow s r .wipeAll f → exec (.wipeAll r) s = .next (if ok then began (.wipe 0 0x9000000000) else bad))
      ∧ (DueNow s r .wipeRange f → exec (.wipeRange r) s = .next (
          if ¬ok ∨ q2 % 2048 ≠ 0 ∨ q3 % 2048 ≠ 0 then bad
          else if hbmOk s (s.rd (fRPart r)) q2 q3 then began (.wipe q2 q3) else began (.judged 0x42 0 none))))

/-- 03 R49, R53; 09 R172, R184, R186: a launch that is not refused adds its flight, at its check; one of an image that is not loaded, or of a
flight that runs, is refused with 0x41, as is a malformed one; one whose stages, gates, done gates or slots lie outside the partition with
0x42. A stop of a running flight is set and waits for the flight's end, of an unknown one completes at once; one of a flight that has not been
released completes at once too, the launch with 0x05 and its cores free (that it does not wait for the release: log entry 16); a dump of a
flight that has not launched is armed. -/
def Obligations.FlightDescriptorsAct : Prop :=
  ∀ (s : State) (r : Nat) (f : Fetched),
    let part := s.rd (fRPart r)
    let id := nbits (dq f.q 2) 15 0
    let fid := nbits (dq f.q 2) 31 16
    (∀ m, dq f.q 2 < 2 ^ 32 → dq f.q 4 < 2 ^ 48 → dZeroFrom f.q 5 = true → launchRefused s part id fid = 0 → s.image part id = some m →
      ∃ fl : Flight, fl.part = part ∧ fl.fid = fid ∧ fl.image = m.id ∧ fl.dpa = m.dpa ∧ fl.ring = r ∧ fl.count = f.count ∧ fl.step = .check
        ∧ fl.arg = dq f.q 4 ∧ fl.startMile = dq f.q 3 ∧ fl.stop = .none ∧ fl.cores = imgCores s m.dpa
        ∧ (DueNow s r .launchEnd f →
            exec (.flightLaunchAtEnd r) s = .next (Began { s with flights := s.flights ++ [{ fl with atStart := false }] } r f .launch))
        ∧ (DueNow s r .launchStart f →
            exec (.flightLaunchAtStart r) s = .next (Began { s with flights := s.flights ++ [{ fl with atStart := true }] } r f .launch)))
    ∧ (let refused (status : Nat) :=
        (DueNow s r .launchEnd f → exec (.flightLaunchAtEnd r) s = .next (Began s r f (.judged status 0 none)))
        ∧ (DueNow s r .launchStart f → exec (.flightLaunchAtStart r) s = .next (Began s r f (.judged status 0 none)))
      (2 ^ 32 ≤ dq f.q 2 ∨ 2 ^ 48 ≤ dq f.q 4 ∨ dZeroFrom f.q 5 = false → refused 0x41)
      ∧ (dq f.q 2 < 2 ^ 32 → dq f.q 4 < 2 ^ 48 → dZeroFrom f.q 5 = true →
        (s.image part id = none ∨ flightOf s part fid ≠ none → refused 0x41)
        ∧ (∀ m, s.image part id = some m → flightOf s part fid = none →
          (∃ u ∈ imgCores s m.dpa, ownsTile s part (u / 4) = false)
            ∨ (∃ i, i < imgGates s m.dpa ∧ ownsTile s part (nbits (im64 s m.dpa (imgGateOff s m.dpa + 8 * i)) 49 44) = false)
            ∨ (∃ i, i < imgStanding s m.dpa ∧
                let e := standWords s m.dpa i
                (∃ t g, decRef (e.getD 6 0#64).toNat = .gate t g ∧ ownsTile s part t = false)
                ∨ ∃ k, k < max (nbits (e.getD 0 0#64).toNat 55 48) (nbits (e.getD 0 0#64).toNat 63 56)
                    ∧ (firing s (standTile s m.dpa i) 0 k ⟨part, fid, e, 0, 0, 0, 0, true⟩).rangesOk s = false) →
          refused 0x42)))
    ∧ (∀ g, id = 0 → dq f.q 2 < 2 ^ 32 → dZeroFrom f.q 3 = true → flightOf s part fid = some g → g.step ≠ .running → g.haltIx = none →
        let u := flightGone (g.tiles.foldl (fun t n => dropFirings t part fid n) s) g 0x05 0 0 none
        (DueNow s r .stopEop f → exec (.flightStopAtEop r) s = .next (Began u r f (.judged 0 0 none)))
        ∧ (DueNow s r .stopBundle f → exec (.flightStopAtBundle r) s = .next (Began u r f (.judged 0 0 none)))
        ∧ u.flights.map (fun x => (x.ring, x.count, x.fid)) = (dropFirst g.same s.flights).map (fun x => (x.ring, x.count, x.fid))
        ∧ (g.claimed = true → ∀ c ∈ g.cores, (u.core c).phase = .idle)
        ∧ (g.orphan = false → ∀ d ∈ (s.ring g.ring).out, d.count = g.count → d.work = .launch →
            { d with work := .judged 0x05 0 none } ∈ (u.ring g.ring).out))
    ∧ (id = 0 → dq f.q 2 < 2 ^ 32 → dZeroFrom f.q 3 = true →
        (flightOf s part fid = none →
          (DueNow s r .stopEop f → exec (.flightStopAtEop r) s = .next (Began s r f (.judged 0 0 none)))
          ∧ (DueNow s r .stopBundle f → exec (.flightStopAtBundle r) s = .next (Began s r f (.judged 0 0 none))))
        ∧ (∀ g, flightOf s part fid = some g → g.step = .running → g.stop = .none →
          (DueNow s r .stopEop f → exec (.flightStopAtEop r) s =
            .next (Began (modFlight s part fid fun _ => { g with stop := .atEop }) r f (.stop fid)))
          ∧ (DueNow s r .stopBundle f → exec (.flightStopAtBundle r) s =
            .next (Began (modFlight s part fid fun _ => { g with stop := .atBundle, notices := g.tiles }) r f (.stop fid)))))
    ∧ (id = 0 → dq f.q 2 < 2 ^ 32 → dq f.q 4 < 2 ^ 48 → dq f.q 5 < 2 ^ 48 → dZeroFrom f.q 6 = true → hbmOk s part (dq f.q 4) (dq f.q 5) = true →
        flightOf s part fid = none →
        (DueNow s r .dumpCount f → exec (.haltAndDumpAtCount r) s = .next (Began { s with
          dumps := s.dumps ++ [⟨part, fid, r, f.count, false, dq f.q 3, dq f.q 4, dq f.q 5, false, false, none⟩] } r f (.dump fid)))
        ∧ (DueNow s r .dumpMile f → exec (.haltAndDumpAtMilestone r) s = .next (Began { s with
          dumps := s.dumps ++ [⟨part, fid, r, f.count, true, dq f.q 3, dq f.q 4, dq f.q 5, false, false, none⟩] } r f (.dump fid))))

/-- 03 R49; 09 R171, R177: an image load from the ring's own HBM writes and checks its bytes at once, one from the host asks for them; a
barge whose shape, engine, gate and ranges are permitted is ready at its engine. -/
def Obligations.TransferDescriptorsAct : Prop :=
  ∀ (s : State) (r : Nat) (f : Fetched),
    let part := s.rd (fRPart r)
    let src := dq f.q 2
    let len := nbits (dq f.q 3) 31 0
    let dst := dq f.q 4
    (DueNow s r .imageLoad f → src < 2 ^ 48 → dq f.q 3 < 2 ^ 48 → dst < 2 ^ 48 → dZeroFrom f.q 5 = true → len % 64 = 0 →
      dpaOk s part false src len = true → hbmOk s part dst len = true →
      (touchesHost src len = false → dpaLoc s src = .hbm → s.hbmUe = [] →
        let e := imgEnter s part (nbits (dq f.q 3) 47 32) dst ((List.range len).map fun i => dpaByte s (src + i))
        exec (.imageLoad r none) s = .next (Began e.1 r f (.judged e.2 len none)))
      ∧ (touchesHost src len = true → s.dlActive = true → busOk s (src - 0x20000000000) len = true → Asks s →
        exec (.imageLoad r none) s = .next (Began (Asked s (.source r f.count) (src - 0x20000000000) len) r f .source)))
    ∧ (DueNow s r .barge f → ∃ b : Barge, b.id = s.bargeNext ∧ b.part = part ∧ b.engine = nbits (dq f.q 6) 15 8 ∧ b.chan = nbits (dq f.q 6) 7 0
        ∧ b.src = nbits (dq f.q 2) 47 0 ∧ b.dst = nbits (dq f.q 3) 47 0 ∧ b.rowBytes = nbits (dq f.q 4) 31 0 ∧ b.rows = nbits (dq f.q 4) 63 32
        ∧ b.srcPitch = nbits (dq f.q 5) 31 0 ∧ b.dstPitch = nbits (dq f.q 5) 63 32 ∧ b.transpose = nbits (dq f.q 6) 17 16
        ∧ b.origin = .ring r f.count ∧ b.admitted = false ∧ b.sent = 0
        ∧ (dq f.q 2 < 2 ^ 48 → dq f.q 3 < 2 ^ 48 → dq f.q 6 < 2 ^ 18 → dq f.q 7 < 2 ^ 32 → decRef (dq f.q 7) ≠ .bad →
            bargeShapeOk b.rows b.rowBytes b.srcPitch b.dstPitch b.transpose = true → engineOk b.engine b.chan = true →
            enginePart s b.engine = some part → (∀ t g, decRef (dq f.q 7) = .gate t g → ownsTile s part t = true) → b.rangesOk s = true →
            exec (.barge r) s = .next (Began { s with barges := s.barges ++ [b], bargeNext := s.bargeNext + 1 } r f (.barge b.id))))

/-- 16 R308, R309, R316; 03 R49, R53, R57: a report request is queued while places are free, else waits; the certificate chain and a
telemetry snapshot are written where they fit, else 0x4E and the length are the record; none of the three may name a remote aperture, which
only barges write through (13 R257); a staged setting of a field that waits for a quiescent point waits, in the order of dispatch, any other
is written at once. The bytes of a snapshot and of a report are uninterpreted (log entries 6 and 12). -/
def Obligations.ReportDescriptorsAct : Prop :=
  ∀ (s : State) (r : Nat) (f : Fetched),
    let part := s.rd (fRPart r)
    let q := f.q
    let fits (a n : Nat) := touchesHost a n = false ∧ s.hbmUe = []
    (DueNow s r .report f → dq q 6 < 2 ^ 48 → dq q 7 < 2 ^ 32 → dpaOk s part false (dq q 6) (dq q 7) = true →
      exec (.attestationReportRequest r) s = .next (
        if s.trust.queue.length < 16 ∧ otherReqs s.trust < 12
        then Began (attServe (s.putTrust { s.trust with queue := s.trust.queue ++ [attOfDesc r f.count q] })) r f .attest
        else Began s r f .attest))
    ∧ (∀ t : State, (attServe t).trust.serving = attNow t ∧ (attServe t).trust.queue = t.trust.queue)
    ∧ (DueNow s r .report f → dq q 6 < 2 ^ 48 → dq q 7 < 2 ^ 32 → dpaOk s part false (dq q 6) (dq q 7) = false →
      exec (.attestationReportRequest r) s = .next (Began s r f (.judged 0x42 0 none)))
    ∧ (DueNow s r .chain f → dq q 6 < 2 ^ 48 → dq q 7 < 2 ^ 32 → dpaOk s part false (dq q 6) (dq q 7) = true →
      let bytes := certChain s.trust
      (dq q 7 < bytes.length → exec (.certificateChainRequest r) s = .next (Began s r f (.judged 0x4E bytes.length none)))
      ∧ (bytes.length ≤ dq q 7 → fits (dq q 6) bytes.length →
          exec (.certificateChainRequest r) s = .next (Began (dpaWrite s (dq q 6) bytes) r f (.judged 0 bytes.length none))))
    ∧ (DueNow s r .telemetry f → dq q 2 < 2 ^ 48 → dq q 3 < 2 ^ 32 → dZeroFrom q 5 = true → dpaOk s part false (dq q 2) (dq q 3) = true →
      let bytes := snapshotBytes s part (dq q 4)
      (dq q 3 < bytes.length → exec (.telemetrySnapshot r) s = .next (Began s r f (.judged 0x4E bytes.length none)))
      ∧ (bytes.length ≤ dq q 3 → fits (dq q 2) bytes.length →
          let t := dpaWrite s (dq q 2) bytes
          exec (.telemetrySnapshot r) s = .next (Began { t with back := { t.back with gap := none } } r f (.judged 0 bytes.length none))))
    ∧ (DueNow s r .staged f → dq q 2 < 0x400000 → dq q 2 % 8 = 0 → dq q 5 < 2 ^ 40 → dZeroFrom q 6 = true →
      ∀ i, regInfo (dq q 2) = some i → stagedCheck s part (dq q 2) (dq q 3) (dq q 4) = none →
      (i.st &&& dq q 4 = 0 →
        let t := stagedAct (stagedWrite s (dq q 2) (dq q 3) (dq q 4)) (dq q 2) (dq q 3) (dq q 4)
        exec (.stagedSetting r) s = .next (Began t r f (.judged 0 (t.visible (dq q 2)) none)))
      ∧ (i.st &&& dq q 4 ≠ 0 → exec (.stagedSetting r) s = .next (Began { s with stagedNext := s.stagedNext + 1 } r f
        (.staged (if dq q 5 = 0 then 10000000 else dq q 5) s.stagedNext))))

/-- 15 R288 to R290, R296: looking at the votes changes nothing but the forms of the domains, PWR_STATUS, PWR_VOTE, and what a port asks of
its partner; it changes nothing at all while the module is not powered up, is fatal, or is in a warm reset. -/
def Obligations.VotesTouchOnlyPower : Prop :=
  ∀ s : State,
    let t := voteRefresh s
    t = { s with power := { s.power with dom := t.power.dom }, ports := t.ports, regs := t.regs }
    ∧ (∀ off, off ≠ 0x800008 → off ≠ 0x800018 → t.reg off = s.reg off)
    ∧ (∀ p, { t.port p with
        darkAsked := (s.port p).darkAsked, ctlq := (s.port p).ctlq, tone := (s.port p).tone, voted := (s.port p).voted } = s.port p)
    ∧ (s.power.step = none ∨ (∃ k, s.power.step = some k ∧ k < 8) ∨ s.isFatal = true ∨ s.trust.warm ≠ none → t = s)

/-- 03 R40, R44, R45: a poll reads the 128 bytes of a valid bitmap; its return claims every non-zero word with one compare-and-swap, at the
address from which the bitmap was read; a swap's return, successful or not, reads the doorbell of every serving ring whose bit was seen, and
counts the bit of any other as stray; after 1 ms with no active ring the polling backs off, and while a ring is active, or a ring or a bitmap
was enabled less than 1 ms ago, it does not. That the stray bits are counted at the
return, whatever its status, is the model's choice (log entry 9). -/
def Obligations.PollingClaimsRings : Prop :=
  ∀ (s : State) (p : Nat), p < 4 →
    let base := s.rd (fSumBase p) * 128
    (engineOn s = true → s.flag (fSumValid p) = true → mayAsk s = true → s.rd fPwrState ≠ 3 → busOk s base 128 = true →
      exec (.summaryPoll p) s = .next (voteRefresh (Asked s (.bitmap p) base 128)))
    ∧ (∀ (words : List Nat) (q : HostReq), s.reqs.find? (fun q => decide (q.kind = .bitmap p)) = some q →
      ∃ t, exec (.summaryBitmapReturn p .ok words) s = .next t
        ∧ ∀ w, w < 16 → words.getD w 0 % 2 ^ 64 ≠ 0 →
          Stands t (.cas p w (words.getD w 0 % 2 ^ 64)) (q.addr + 8 * w) 8)
    ∧ (∀ (w seen : Nat) (status : CplStatus), w < 16 →
      s.reqs.findSome? (fun q => match q.kind with | .cas p' w' v => if p' = p ∧ w' = w then some v else none | _ => none) = some seen →
      ∃ t, exec (.summaryCasReturn p w status) s = .next t
        ∧ ∀ i, i < 64 → seen.testBit i = true →
          let r := 64 * w + i
          if ringServes s p r then
            busOk s (s.rd (fDbAddr r) * 8) 8 = true → Stands t (.doorbell r) (s.rd (fDbAddr r) * 8) 8
          else t.rd (fStray r) = min 255 (s.rd (fStray r) + 1))
    ∧ (let recent (t : Option Nat) := ∃ a, t = some a ∧ (s.mile + 2 ^ 64 - a) % 2 ^ 64 < 1000000
      (recent (tget poll0 s.polls p).freshAt ∨ (∃ r, r < 1024 ∧ ringServes s p r = true ∧ ((s.ring r).out ≠ [] ∨ recent (s.ring r).seenAt)) →
        exec (.pollBackoff p) s = .next (voteRefresh s))
      ∧ (s.Sound → ¬ recent (tget poll0 s.polls p).freshAt →
        (∀ r, r < 1024 → ringServes s p r = true → (s.ring r).out = [] ∧ ¬ recent (s.ring r).seenAt) →
      ∃ t, exec (.pollBackoff p) s = .next t ∧ (tget poll0 t.polls p).backedOff = true
        ∧ ∀ r, (t.ring r).seenAt = (if s.rd (fRPart r) = p then none else (s.ring r).seenAt)))

/-- 03 R39, R46, R59: a doorbell record's low 32 bits are the tail of a ring in service; a ring halted where resume_gen decides runs again
from its head when the record's bits 63 to 48 differ from the recorded ones, and stays halted when they do not; a record with non-zero bits
47 to 32, or a tail more than 2^n ahead of head, halts a running ring at head with 0x4C, or, after a fatal error, leaves ring, status and
vectors to the fatal sequence (14 R273); a ring out of service takes nothing. The resume_gen
that a halt records is that of the last doorbell read, and a faulty record that would not resume a halted ring is ignored whole: both are the
model's choice (log entry 15), and so is the reading of resume_gen in log entry 9. -/
def Obligations.DoorbellMovesTail : Prop :=
  ∀ (s : State) (r word : Nat), r < 1024 → s.reqs.any (fun q => decide (q.kind = .doorbell r)) = true → word < 2 ^ 64 →
    let s1 := dropReq s fun q => decide (q.kind = .doorbell r)
    let g := s.ring r
    let tail := word % 2 ^ 32
    let gen := word / 2 ^ 48
    let far := 2 ^ s.rd (fRSize r) < countFrom (s.rd (fHead r)) tail
    let result (t : State) := exec (.doorbellReadReturn r .ok word) s = .next (voteRefresh t)
    (g.st = 0 → result s1)
    ∧ (nbits word 47 32 = 0 → ¬ far →
      (g.st = 1 → result (s1.putRing r { g with tail := tail, genSeen := gen, gen := some (g.gen.getD gen) }))
      ∧ (∀ x, g.st = 2 → g.halt = .resume → g.gen = some x → x ≠ gen →
          result (s1.putRing r { g with tail := tail, genSeen := gen, gen := some gen, st := 1, next := s.rd (fHead r), haltIx := none }))
      ∧ (g.st = 2 → g.halt = .resume → g.gen = some gen → result (s1.putRing r { g with tail := tail })))
    ∧ (nbits word 47 32 ≠ 0 ∨ far →
      (g.st = 1 ∨ (g.st = 2 ∧ g.halt = .resume ∧ ∃ x, g.gen = some x ∧ x ≠ gen) →
        (s.isFatal = false → ∃ t, exec (.doorbellReadReturn r .ok word) s = .next t ∧ (t.ring r).st = 2 ∧ (t.ring r).halt = .resume ∧ (t.ring r).gen = some gen
          ∧ t.rd (fLastStatus r) = 0x4C ∧ t.rd (fHead r) = s.rd (fHead r) ∧ (t.ring r).waiting = []
          ∧ ((∀ d ∈ g.out, ∀ st res, d.work = .judged st res none → st < 0x40) → t.rd (fErrNext 0) = (s.rd (fErrNext 0) + 1) % 2 ^ 32))
        ∧ (s.isFatal = true → ∃ t, exec (.doorbellReadReturn r .ok word) s = .next t ∧ (t.ring r).st = g.st ∧ (t.ring r).waiting = g.waiting
          ∧ t.rd (fLastStatus r) = s.rd (fLastStatus r) ∧ t.posted = s.posted))
      ∧ (g.st = 2 → g.halt = .resume → g.gen = some gen → result s1))

/-- 03 R46, R47: the ring whose turn it is reads up to 8 descriptors in one request, where the ring does not wrap; each descriptor returned
is accepted if the seq in its header is its count, else it is to halt with 0x40; a refused read is to halt with 0x43. -/
def Obligations.DescriptorsAreFetched : Prop :=
  ∀ (s : State) (r : Nat), r < 1024 →
    (let n := fetchable s r
     let c := (s.ring r).next
     let a := s.rd (fDescBase r) * 4096 + 64 * (c % 2 ^ s.rd (fRSize r))
     nextTurn s = some r → engineOn s = true → mayAsk s = true → c % 2 ^ s.rd (fRSize r) + n ≤ 2 ^ s.rd (fRSize r) → busOk s a (64 * n) = true →
      1 ≤ n ∧ n ≤ 8 ∧ ∃ t, exec .descriptorFetch s = .next t ∧ t.rrLast = r ∧ (t.ring r).next = (c + n) % 2 ^ 32
        ∧ t.reqs = s.reqs ++ [⟨s.nextTag, a, 64 * n, cplMs s, .desc r c n⟩] ∧ t.nextTag = s.nextTag + 1)
    ∧ (∀ (c n : Nat) (descs : List (List Nat)) (status : CplStatus),
      s.reqs.findSome? (fun q => match q.kind with | .desc r' c n => if r' = r then some (c, n) else none | _ => none) = some (c, n) →
      let s1 := dropReq s fun q => match q.kind with | .desc r' _ _ => decide (r' = r) | _ => false
      let got (i : Nat) : Fetched :=
        let k := (c + i) % 2 ^ 32
        let q := (List.range 8).map fun j => (descs.getD i []).getD j 0 % 2 ^ 64
        if status = .ok then ⟨k, q, if nbits (dq q 0) 63 32 = k then none else some 0x40⟩ else ⟨k, [], some 0x43⟩
      exec (.descriptorReadReturn r status descs) s = .next (voteRefresh (addFetched s1 r ((List.range n).map got))))

/-- 03 R50, R51, R53, R55: a finished descriptor at the head, with no interrupt and nothing complete behind it, posts its 32-byte record
into the slot of its count and moves head by one; one behind the head posts its record and leaves head; a gate wait that is not reached
stays, and while the link stalls everything does (02 R32). -/
def Obligations.CompletionPostsRecord : Prop :=
  ∀ (s : State) (r : Nat) (d : Dispatched), r < 1024 → s.isFatal = false → d.count < 2 ^ 32 → outOf s r d.count = some d → dIrq d.q = false →
    (s.ring r).halting = [] → (s.ring r).after = [] → (∀ f ∈ (s.ring r).waiting, f.count ≠ d.count) →
    (s.link.stalled = true → exec (.descriptorComplete r d.count) s = .next (voteRefresh s)) ∧ (s.link.stalled = false →
    let n := s.rd (fRSize r)
    let posts (t : State) (status result : Nat) := t.posted = s.posted ++ [⟨s.rd (fCplBase r) * 4096 + 32 * (d.count % 2 ^ n),
        leBytes 8 (d.count * 2 ^ 32 + status * 2 ^ 24 + dOpcode d.q * 2 ^ 16 + (1 - d.count / 2 ^ n % 2))
          ++ leBytes 8 (dq d.q 1) ++ leBytes 8 s.mile ++ leBytes 8 result⟩]
      ∧ (∀ x ∈ (t.ring r).out, x.count ≠ d.count)
      ∧ t.rd (fHead r) = (if s.rd (fHead r) = d.count then (d.count + 1) % 2 ^ 32 else s.rd (fHead r))
      ∧ (t.ring r).after = (if s.rd (fHead r) = d.count then [] else [d.count])
    (∀ status result entry, d.work = .judged status result entry → status < 0x40 →
      ∃ t, exec (.descriptorComplete r d.count) s = .next t ∧ posts t status result)
    ∧ (∀ tile g target lim, tile < 60 → g < 4096 → d.work = .gateWait (2 ^ 31 + tile * 2 ^ 12 + g) target lim →
      if ((s.gate tile g) - BitVec.ofNat 32 target).msb = false
      then ∃ t, exec (.descriptorComplete r d.count) s = .next t ∧ posts t 0 (s.gate tile g).toNat
      else exec (.descriptorComplete r d.count) s = .next (voteRefresh s)))

/-- 03 R50, R53, R54, R57: an open holdoff window closes, or raises the vector once for what it held and opens the next one while irq_holdoff
is above 0; after a fatal error it raises nothing (14 R273); a gate wait at its limit is judged
0x44 with the gate and its value, and its error entry, or completes where the gate is reached; a staged setting at its limit is judged 0x47
with the register unchanged where its block is not at its quiescent point, and is written with its block where it is; before the limit
nothing but the votes changes. 03 R41, R42: at a quiescent point, with the ring engine
working, a pending enable of a ring with 64 to 65,536 descriptors in a running partition starts it at start_count and reads its doorbell;
any other size or partition is refused with cfg_error; that enable then reads 0 is the model's choice (log entry 15). A pending disable drops all that the ring holds. -/
def Obligations.RingTimersAndService : Prop :=
  (∀ (s : State) (r count : Nat), r < 1024 → count < 2 ^ 32 →
    (exec (.irqHoldoffExpiry r) s = .next (voteRefresh (
      if (s.ring r).irqOpen = false ∨ s.isFatal = true then s
      else if (s.ring r).irqHeld = true
        then msixRaise (s.putRing r { s.ring r with irqHeld := false, irqOpen := decide (s.rd (fHoldoff r) ≠ 0) }) (s.rd (fRVec r))
      else s.putRing r { s.ring r with irqOpen := false })))
    ∧ (∀ d ref target lim, outOf s r count = some d → d.work = .gateWait ref target lim → s.isFatal = false →
      if s.mile < d.t0 + lim then exec (.descriptorWaitTimeout r count) s = .next (voteRefresh s)
      else if ((s.gate (nbits ref 17 12) (nbits ref 11 0)) - BitVec.ofNat 32 target).msb = false
      then exec (.descriptorWaitTimeout r count) s = exec (.descriptorComplete r count) s
      else (∀ x ∈ (s.ring r).out, ∀ st res, x.work = .judged st res none → st < 0x40) →
        ∃ t ix, exec (.descriptorWaitTimeout r count) s = .next t ∧ ix = s.rd (fErrNext 0)
        ∧ ∀ x ∈ (s.ring r).out, x.count = count → { x with work := .judged 0x44 (ref * 2 ^ 32 + (s.gate (nbits ref 17 12) (nbits ref 11 0)).toNat) (some ix) } ∈ (t.ring r).out)
    ∧ (∀ d lim no, outOf s r count = some d → d.work = .staged lim no → s.isFatal = false →
      let gives (t : State) := exec (.stagedSettingTimeout r count) s = .next (voteRefresh t)
      let late (t : State) := setWork t r count (.judged 0x47 (t.visible (dq d.q 2)) none)
      (s.mile < d.t0 + lim → gives s)
      ∧ (d.t0 + lim ≤ s.mile → (regBlk (dq d.q 2) = none → gives (late s))
        ∧ ∀ b, regBlk (dq d.q 2) = some b → (¬ BlockQuiet s b → gives (late s))
          ∧ (let t := stApply s b
             ((∀ x, outOf t r count = some x → ∀ l n, x.work ≠ .staged l n) → gives t)
             ∧ (∀ x l n, outOf t r count = some x → x.work = .staged l n → gives (late t))))))
  ∧ (∀ (s : State) (r v : Nat), r < 1024 → pendingCfg s r = some v → ringQuiet s r = true →
    let t := blkApply noAct s (.ring r)
    let n := t.rd (fRSize r)
    let p := t.rd (fRPart r)
    (v % 2 = 1 → s.flag (fEnable r) = false → engineOn s = true → t.flag (fEnable r) = true →
      if 6 ≤ n ∧ n ≤ 16 ∧ t.rd (fPartState p) = 2 then
        exec (.ringEnable r) s = .next (voteRefresh (doorbellAsk
          (({ dropReqs t (fun k => decide (k = ReqFor.doorbell r)) with polls := tset poll0 t.polls p { backedOff := false, freshAt := some t.mile } }.wr
            (fHead r) (t.rd (fStartCount r))).putRing r { st := 1, tail := t.rd (fStartCount r), next := t.rd (fStartCount r), irqOpen := (t.ring r).irqOpen, irqHeld := (t.ring r).irqHeld }) r))
      else exec (.ringEnable r) s = .next (voteRefresh ((t.wrAll [(fEnable r, 0), (fCfgErr r, 1)]).modRing r fun g => { g with st := 0 })))
    ∧ (v % 2 = 0 → s.flag (fEnable r) = true → t.flag (fEnable r) = false →
      ∃ u, exec (.ringDisable r) s = .next u ∧ (u.ring r).st = 0 ∧ (u.ring r).waiting = [] ∧ (u.ring r).out = [] ∧ (u.ring r).halting = []
        ∧ (u.ring r).gen = none))

/-- 18 R332 to R334, R339; 02 R37: an 8-byte write of an aligned offset: where no register lies it is counted as a hole write, where nothing
is writable as a read-only write; LV fields take it at once, and a route entry that is written is learned no more (13 R251); an FX field of a started block ignores it and is counted; an ST field keeps it
pending; in D3hot nothing is decoded. A write of 4 or 8 bytes of a register with fields of several classes gives each field its class's effect:
FX fields of a block that is not started and LV fields take their bits, a one in a W1C field clears it whole, ST fields become pending with the
other half as last written. That fx_ignored and the other counters count writes is the model's reading (log entry 9). 18 R334 to R336; 14 R277: a register write that waits applies at its block's quiescent point, its ST
fields whole and the others as they are, and waits before it; an acknowledgement is the queue's ack_seq. -/
def Obligations.RegisterWritesAndSettings : Prop :=
  (∀ (s : State) (off data : Nat), off < 2 ^ 26 → off % 8 = 0 → data < 2 ^ 64 →
    let w := (s.reg off).toNat
    let result (t : State) := exec (.registerWrite off 8 data) s = .next (voteRefresh t)
    (s.link.d3hot = true → result s)
    ∧ (s.link.d3hot = false →
      (regInfo off = none → result ((s.inc fHoleWrites).wr fLastOffset off))
      ∧ (∀ i, regInfo off = some i → i.w1c = [] →
        (i.fx = 0 → i.st = 0 → i.lv = 0 → result ((s.inc fRoWrites).wr fLastOffset off))
        ∧ (i.fx = 0 → i.st = 0 → i.lv ≠ 0 →
          let m := i.lv &&& (2 ^ 64 - 1 - commandBits off)
          let t := s.setReg off (BitVec.ofNat 64 ((w &&& (2 ^ 64 - 1 - m)) ||| (data &&& m)))
          result (if 0x500000 ≤ off ∧ off < 0x508000 then t.wr ⟨off, 62, 62⟩ 0 else t))
        ∧ (i.fx ≠ 0 → i.st = 0 → i.lv = 0 → fxStarted s off = true →
          ∃ t, exec (.registerWrite off 8 data) s = .next t ∧ t.reg off = s.reg off
            ∧ t.rd fFxIgnored = min 255 (s.rd fFxIgnored + 1) ∧ t.rd fLastOffset = off)
        ∧ (i.st ≠ 0 → i.fx = 0 → i.lv = 0 →
          ∃ t, exec (.registerWrite off 8 data) s = .next t
            ∧ t.pendingSt = s.pendingSt.filter (fun p => decide (p.1 ≠ off)) ++ [(off, BitVec.ofNat 64 (data &&& i.st))]
            ∧ t.rd fStPending = t.pendingSt.length % 2 ^ 12
            ∧ (off < 0x110000 ∨ 0x120000 ≤ off → off ≠ 0x1C00 → t.reg off = s.reg off)))))
  ∧ (∀ (s : State) (off n data : Nat), s.link.d3hot = false → n = 4 ∨ n = 8 → off < 2 ^ 26 → off % n = 0 → data < 2 ^ (8 * n) →
    let a := off / 8 * 8
    let put := data * 2 ^ (8 * (off - a))
    let here (b : Nat) := 8 * (off - a) ≤ b ∧ b < 8 * (off - a) + 8 * n
    (regInfo a = none → exec (.registerWrite off n data) s = .next (voteRefresh ((s.inc fHoleWrites).wr fLastOffset off)))
    ∧ (∀ i, regInfo a = some i → i.fx = 0 → i.st = 0 → i.lv = 0 → i.w1c = [] →
        exec (.registerWrite off n data) s = .next (voteRefresh ((s.inc fRoWrites).wr fLastOffset off)))
    ∧ (∀ i, regInfo a = some i → (i.fx ≠ 0 ∨ i.st ≠ 0 ∨ i.lv ≠ 0 ∨ i.w1c ≠ []) →
      ∃ t, exec (.registerWrite off n data) s = .next (voteRefresh t) ∧ t.spad = s.spad ∧ t.hbm = s.hbm ∧ t.cores = s.cores
        ∧ (∀ b, b < 64 → b ≠ 62 ∨ a < 0x500000 ∨ 0x508000 ≤ a →
            ((t.reg a).getLsbD b = true ↔
              (if here b ∧ (i.lv.testBit b ∨ (i.fx.testBit b ∧ fxStarted s a = false)) ∧ (commandBits a).testBit b = false
                then put.testBit b = true else (s.reg a).getLsbD b = true)
              ∧ ∀ x ∈ i.w1c, x.2 ≤ b → b ≤ x.1 → nbits put x.1 x.2 = 0))
        ∧ (i.st = 0 → t.pendingSt = s.pendingSt)
        ∧ (i.st ≠ 0 → ∃ v : Word64, t.pendingSt = s.pendingSt.filter (fun p => decide (p.1 ≠ a)) ++ [(a, v)]
            ∧ ∀ b, b < 64 → (v.getLsbD b = true ↔ i.st.testBit b ∧ (if here b then put.testBit b else (s.visible a).testBit b) = true))
        ∧ (a ≠ 0x1C00 → t.rd fFxIgnored = (if fxStarted s a = true ∧ (List.range 64).any (fun b => decide (here b) && i.fx.testBit b) = true
            then min 255 (s.rd fFxIgnored + 1) else s.rd fFxIgnored) ∧ t.rd fHoleWrites = s.rd fHoleWrites ∧ t.rd fRoWrites = s.rd fRoWrites)))
  ∧ (∀ (s : State),
    (∀ (b : Blk) (off : Nat) (v : Word64) (i : RegInfo), (Instr.stApply b).wf = true → s.isFatal = false → stagedWaiting s b = [] →
      s.pendingSt.filter (fun p => decide (regBlk p.1 = some b)) = [(off, v)] → regInfo off = some i → i.st ≠ 0 → (∀ r, off ≠ aRing r 0x18) → off ≠ 0x600000 →
      (BlockQuiet s b → ∃ t, exec (.stApply b) s = .next t
        ∧ t.reg off = BitVec.ofNat 64 (((s.reg off).toNat &&& (2 ^ 64 - 1 - i.st)) ||| (v.toNat &&& i.st))
        ∧ t.pendingSt = s.pendingSt.filter (fun p => decide (regBlk p.1 ≠ some b)) ∧ t.rd fStPending = t.pendingSt.length % 2 ^ 12)
      ∧ (¬ BlockQuiet s b → exec (.stApply b) s = .next (voteRefresh s)))
    ∧ (∀ w ack, w < 8 → ∃ t, exec (.errqAck w ack) s = .next t
        ∧ t.rd (fErrAck w) = (if s.link.d3hot then s.rd (fErrAck w) else ack % 2 ^ 32) ∧ t.rd (fErrNext w) = s.rd (fErrNext w)))

/-- 02 R24, R28, R29, R32: an attempt begins where none runs; a retrain and a release of held modules begin one at once, but not in D3hot
(R37). The attempt counts as a retrain; once the host die has advertised its mask at it, each module that both ends advertise trains, one held
down stays held; before that parameter exchange does not end. 02 R24 to
R26, R29 to R31: the steps of an attempt follow each other; after the last DL_Active rises. The attempt's limit ends it and charges the
modules that did not reach mb_train_ok; a module that needs more repairs than R23 allows is charged, and its attempt goes no further. What a
stall held is sent when the link is up again. A failing lane is repaired in place while the profile allows and a spare is left. The model's choices (log entry 15):
that a retrain during an attempt begins it anew and counts again, that an attempt begun here waits for the host die's mask, and which modules
a failed attempt charges. -/
def Obligations.TrainingAttempts : Prop :=
  (∀ (s : State), s.isFatal = false → (∃ k, s.power.step = some k ∧ 6 ≤ k) →
    let mask := (if s.rd (fModState 0) = modHeld then 0 else 1) + (if s.rd (fModState 1) = modHeld then 0 else 2)
    let state (lm both m : Nat) := if lm.testBit m = false then modHeld else if both.testBit m then modTraining else modDown
    let starts (c : Instr) (lm : Nat) := ∃ t, exec c s = .next t ∧ t.power.dlBegun = true ∧ t.link.step = some 0 ∧ t.link.localMask = lm ∧ t.link.asked = true
      ∧ t.link.remoteMask = s.link.remoteMask ∧ t.dlActive = s.dlActive ∧ t.link.stalled = s.dlActive ∧ t.rd fRetrains = min 255 (s.rd fRetrains + 1)
      ∧ ∀ m, m < 2 → t.rd (fModState m) = state lm 3 m
    (s.link.d3hot = false → starts .ucieRetrain mask ∧ starts .ucieReleaseHold 3)
    ∧ (s.link.d3hot = true → exec .ucieRetrain s = .next (voteRefresh s) ∧ exec .ucieReleaseHold s = .next (voteRefresh s))
    ∧ (∀ remote, remote < 4 →
      let trains (lm starts : Nat) := ∃ t, exec (.ucieTrainingAttempt remote) s = .next t ∧ t.link.localMask = lm ∧ t.link.remoteMask = remote
        ∧ t.link.asked = false ∧ t.link.step.isSome = true ∧ t.dlActive = s.dlActive ∧ t.rd fRetrains = min 255 (s.rd fRetrains + starts)
        ∧ ∀ m, m < 2 → t.rd (fModState m) = state lm remote m
      (s.link.step = none → mask &&& remote ≠ 0 → trains mask 1)
      ∧ (s.link.step ≠ none → s.link.asked = true → s.link.localMask < 4 → s.link.localMask &&& remote ≠ 0 → trains s.link.localMask 0)
      ∧ (s.link.step ≠ none → s.link.asked = false → exec (.ucieTrainingAttempt remote) s = .next (voteRefresh s))))
  ∧ (∀ (s : State), s.isFatal = false →
    (∀ (profile : Nat) (repairs : List Nat),
      (∀ k, s.link.step = some k → k ∈ [0, 3, 4] →
        exec (.ucieTrainingStepDone profile repairs) s = .next (voteRefresh { s with link := { s.link with step := some (k + 1) } }))
      ∧ (s.link.step = some 1 → s.link.asked = true → exec (.ucieTrainingStepDone profile repairs) s = .next (voteRefresh s))
      ∧ (s.link.step = some 1 → s.link.asked = false → ∃ t, exec (.ucieTrainingStepDone profile repairs) s = .next t ∧ t.link.step = some 2
          ∧ (t.reg 0x1068).toNat = profile % 2 ^ 64 ∧ t.rd fEffCaps = 0x3FF &&& (profile % 2 ^ 32)
          ∧ (t.flag fHostMismatch = true ↔ (profile % 8 ≠ 7 ∨ profile % 2 ^ 64 / 2 ^ 56 ≠ 1)))
      ∧ (s.link.step = some 2 → s.link.failed = 0 → ∃ t, exec (.ucieTrainingStepDone profile repairs) s = .next t
          ∧ ((∀ n ∈ repairs, n = 0) → t.link.step = some 3)
          ∧ (∀ h, h < 4 → (trainMask s).testBit (h / 2) = true → 2 < repairs.getD h 0 →
              t.link.step = some 2 ∧ t.link.failed.testBit (h / 2) = true))
      ∧ (s.link.step = some 5 → ∃ t, exec (.ucieTrainingStepDone profile repairs) s = .next t ∧ t.dlActive = true ∧ t.link.step = none
          ∧ t.power.dlRose = true ∧ t.link.empty = 0 ∧ t.rd fWidth = 64 * popcount 2 (trainMask s) ∧ t.link.held = []
          ∧ (s.reqWait = [] → t.posted = s.posted ++ s.link.held)))
    ∧ (∀ failed, failed < 4 → s.link.step ≠ none → ∃ t, exec (.ucieAttemptTimeout failed) s = .next t ∧ t.link.step = none
        ∧ ∀ m, m < 2 → t.rd (fModFail m) = (if (chargedMask s failed).testBit m then min 3 (s.rd (fModFail m) + 1) else s.rd (fModFail m)))
    ∧ (∀ half, half < 4 → s.dlActive = true → s.rd (fModState (half / 2)) = modActive → s.cap 4 = true → s.cap 5 = true →
        s.link.repaired.getD half 0 < 2 → ∃ t, exec (.ucieLaneFailure half) s = .next t
          ∧ t.link.repaired = s.link.repaired.set half (s.link.repaired.getD half 0 + 1) ∧ t.link.step = s.link.step ∧ t.dlActive = true))

/-- 02 R33; 19 R343: loss of DL_Active, and a reset of the host die, halt every ring in service until it is enabled again, and drop what
they had outstanding and every request; without DL_Active nothing changes. 02 R36, R37; 18 R338: entering D3hot halts every active ring at
its head without a record, and what it had started after that descriptor goes on; D0 decodes again, and wakes the module (15 R291; how long
that vote lasts: log entry 13); a function-level reset takes every ring
out of service and clears ring-engine state, the turn of the rings with it, image and MSI-X state, with every mask bit, keeping only requests of barges and of a start block. The model's choices: that HOST_RESET_N without DL_Active changes
nothing (log entry 15), that images are cleared by a function-level reset (log entry 9), and the pending bits with the mask bits (log entry
14). -/
def Obligations.LinkLossAndFunctionStates : Prop :=
  (∀ (s : State) (unacked : List (Nat × Nat)), (∀ x ∈ unacked, x.1 < 1024 ∧ x.2 < 2 ^ 32) →
    ∀ c, c = .dlActiveLoss unacked ∨ c = .hostResetN unacked →
    (s.dlActive = false → exec c s = .next (voteRefresh s))
    ∧ (s.dlActive = true → ∃ t, exec c s = .next t ∧ t.dlActive = false ∧ t.reqs = [] ∧ t.reqWait = [] ∧ t.link.step = none ∧ t.rd fWidth = 0
        ∧ ∀ r, r < 1024 → (s.ring r).st ≠ 0 →
          (t.ring r).st = 2 ∧ (t.ring r).halt = .reenable ∧ (t.ring r).out = [] ∧ (t.ring r).waiting = [] ∧ (t.ring r).after = []))
  ∧ (∀ (s : State),
    (∃ t, exec .d3hotEntry s = .next t ∧ t.link.d3hot = true ∧ t.posted = s.posted
      ∧ ∀ r, r < 1024 → if (s.ring r).st = 1 ∧ ((s.ring r).out ≠ [] ∨ lately s (s.ring r).seenAt = true)
          then (t.ring r).st = 2 ∧ (t.ring r).halt = .resume ∧ (t.ring r).waiting = [] ∧ t.rd (fHead r) = s.rd (fHead r)
            ∧ (t.ring r).out = (s.ring r).out.filter fun d => decide (d.count ≠ s.rd (fHead r))
          else t.ring r = s.ring r)
    ∧ (s.link.d3hot = false → exec .d0Return s = .next (voteRefresh s))
    ∧ (s.link.d3hot = true → exec .d0Return s = .next (voteRefresh { s with
        link := { s.link with d3hot := false }, power := { s.power with wakeVote := true } }))
    ∧ (∃ t, exec .functionLevelReset s = .next t ∧ t.rings = [] ∧ t.rrLast = 1023 ∧ t.polls = [] ∧ t.images = [] ∧ (∀ k, k < 4096 → t.msixAt k = 0#64) ∧ t.msixPend = []
      ∧ (s.reqWait = [] → ∀ q ∈ t.reqs, q ∈ s.reqs ∧ ((∃ b k i, q.kind = .piece b k i) ∨ q.kind = .startBlock))
      ∧ ∀ q ∈ s.reqs, ((∃ b k i, q.kind = .piece b k i) ∨ q.kind = .startBlock) → q ∈ t.reqs))

/-- 01 R18; 02 R32, R34, R35; 03 R54: a request that times out is answered as a Completer Abort; bytes read for a barge piece travel on once
every run of it is there, in parts where they enter another stack; a refused BAR read is answered as unsupported, a refused write counted, and in D3hot neither is decoded (R37). The
function's header and what a BAR2 read returns; a hole of BAR0 reads zero. A table write of an MSI-X vector lands, and one that unmasks a
pending vector sends its message. The layout of the MSI-X table is taken from PCIe (log entry 14). -/
def Obligations.HostAccessesAreAnswered : Prop :=
  ∀ (s : State),
    (∀ tag, s.reqs.find? (fun q => decide (q.tag = tag)) = none → exec (.cplTimeoutExpiry tag) s = .next (voteRefresh s))
    ∧ (∀ q p, s.reqs.find? (fun x => decide (x.tag = q.tag)) = some q → q.kind = .bitmap p →
        exec (.cplTimeoutExpiry q.tag) s = .next (voteRefresh (bitmapRefused (dropReq s fun x => decide (x.tag = q.tag)) p false)))
    ∧ (∀ q, s.reqs.find? (fun x => decide (x.tag = q.tag)) = some q → q.kind = .startBlock →
        ∃ t, exec (.cplTimeoutExpiry q.tag) s = .next t ∧ t.reqs = (dropReq s fun x => decide (x.tag = q.tag)).reqs ∧ t.parts.op = none
          ∧ t.rd fPartFault = 1 ∧ t.rd fGo = 0)
    ∧ (∀ q id k i b data, s.reqs.find? (fun x => decide (x.tag = q.tag)) = some q → q.kind = .piece id k i → s.barge id = some b →
        b.awaiting.contains k = true →
        let run := (b.pieceSrc k).getD i (0, 0)
        let b1 := { b with got := b.got ++ [(k, i, takePad run.2 data)] }
        ∃ t, exec (.hostReadCompletion q.tag .ok data) s = .next t
          ∧ t.reqs = (dropReq s fun x => decide (x.tag = q.tag)).reqs
          ∧ (∀ bytes, piecePut b1 k = some bytes →
              let dst := (b.pieceDst k).1
              let parts := cutAt (if dst < 0x9000000000 then 2048 else 2 ^ 24) 3 dst bytes
              t.mesh = s.mesh ++ parts.map (fun x => ⟨b.part, meshDst s x.addr, .piece b.id k x.addr x.data, .barge b.id⟩)
              ∧ (0 < bytes.length → dst % 2048 + bytes.length ≤ 2048 → parts = [⟨dst, bytes⟩])
              ∧ t.barges = s.barges.map fun x => if x.id = id then
                  { x with awaiting := x.awaiting.filter (· ≠ k), got := x.got.filter (fun g => decide (g.1 ≠ k)), handed := x.handed + parts.length } else x)
          ∧ (piecePut b1 k = none → t.mesh = s.mesh ∧ t.barges = s.barges.map fun x => if x.id = id then b1 else x)
          ∧ ((b.pieceSrc k).length = 1 → i = 0 → (∀ g ∈ b.got, g.1 ≠ k) → piecePut b1 k = some (takePad run.2 data)))
    ∧ (s.link.d3hot = false → exec (.barBadAccess false) s = .next (voteRefresh { s with urSent := s.urSent + 1 })
      ∧ ∃ t, exec (.barBadAccess true) s = .next t ∧ t.rd fBadAccess = min 255 (s.rd fBadAccess + 1) ∧ t.urSent = s.urSent)
    ∧ (s.link.d3hot = true → ∀ w, exec (.barBadAccess w) s = .next (voteRefresh s))
    ∧ (let h := pcieHeader s
       h.vendor = 0x1F3C ∧ h.device = 0x0480 ∧ h.classCode = 0x120000 ∧ h.revision = nbits (s.reg 0x1060).toNat 15 8 ∧ h.expansionRom = 0
         ∧ h.bars = [some ⟨2 ^ 26, true, false⟩, some ⟨2 ^ 20, true, false⟩, none])
    ∧ (s.link.d3hot = false → ∀ bar2 off size,
        (off % size ≠ 0 ∨ size ≠ 4 ∧ size ≠ 8 → barRead s bar2 off size = none)
        ∧ (bar2 = true → size = 8 → off % 8 = 0 → off < 0x100000 →
          (off < 0x8000 → barRead s bar2 off size = some (s.msixAt (off / 8)).toNat)
          ∧ (0x8000 ≤ off → off < 0x80000 ∨ 0x80100 ≤ off → barRead s bar2 off size = some 0)
          ∧ (0x80000 ≤ off → off < 0x80100 → ∃ v, barRead s bar2 off size = some v
              ∧ ∀ i, i < 64 → v.testBit i = tget falseAt s.msixPend (64 * ((off - 0x80000) / 8) + i)))
        ∧ (bar2 = false → size = 8 → off % 8 = 0 → regInfo off = none → barRead s bar2 off size = some 0))
    ∧ (∀ k data, k < 4096 → data < 2 ^ 64 → s.link.d3hot = false →
        let v : Word64 := BitVec.ofNat 64 (if k % 2 = 1 then data % 2 ^ 33 else data / 4 * 4)
        let s1 := { s with msix := tset msixInit s.msix k v }
        (tget falseAt s.msixPend (k / 2) = false → exec (.msixTableWrite (8 * k) 8 data) s = .next (voteRefresh s1))
        ∧ (tget falseAt s.msixPend (k / 2) = true → k % 2 = 1 → data.testBit 32 = false → s.dlActive = true → s.link.stalled = false →
          exec (.msixTableWrite (8 * k) 8 data) s = .next (voteRefresh { s1 with
            msixPend := tset falseAt s.msixPend (k / 2) false
            posted := s.posted ++ [⟨(s.msixAt (k - 1)).toNat, leBytes 4 (data % 2 ^ 32)⟩] })))

/-- 16 R307, R308: a report asked for by the board management controller is queued while places are free, else the module is busy; its chain
is sent; the report in service is signed and sent, to a partner in hail with its CRC-32 (11 R223), and no later request goes before it; a provisioning request sends the link key's request,
signed with the device identity key (R306); a provisioning write that the
root in force has signed replaces root and chain; a factory reset discards both, the key and its wrapped copy; after a fatal error these three change nothing (14 R273). Signatures, keys and certificates are
uninterpreted (log entry 6). -/
def Obligations.TollhouseAnswers : Prop :=
  ∀ (s : State),
    (∀ nonce, exec (.bmcAttestationReport nonce) s = .next (voteRefresh (
      if s.trust.queue.length < 16 ∧ otherReqs s.trust < 12
      then attServe (s.putTrust { s.trust with queue := s.trust.queue ++ [⟨.bmc, takePad 32 nonce, false, 0, 0⟩] })
      else { s with bmcOut := s.bmcOut ++ [.busy] })))
    ∧ exec .bmcCertificateChain s = .next (voteRefresh { s with bmcOut := s.bmcOut ++ [.chain (certChain s.trust)] })
    ∧ (attNow s = none → exec .attestationSigned s = .next (voteRefresh s))
    ∧ (∀ q, attNow s = some q → q.who = .bmc →
        ∃ t, exec .attestationSigned s = .next t ∧ t.bmcOut = s.bmcOut ++ [.report (signReport s q 0)] ∧ t.hailOut = s.hailOut)
    ∧ (∀ q p, attNow s = some q → q.who = .hail p →
        ∃ t, exec .attestationSigned s = .next t ∧ t.bmcOut = s.bmcOut
          ∧ if s.rd (fPortState p) = 2 ∧ (s.port p).backoff = false
            then t.hailOut = s.hailOut ++ [(p, withCrc (signReport s q 0))] ∧ (t.port p).hailMsg = (s.port p).hailMsg ++ [withCrc (signReport s q 0)]
            else t.hailOut = s.hailOut)
    ∧ (∀ q, s.trust.serving = some q → q ∈ s.trust.queue → attOpen s q = true → attNow s = some q)
    ∧ ((s.trust.serving = none ∨ ∃ q, s.trust.serving = some q ∧ q ∉ s.trust.queue) → attNow s = nextAtt s)
    ∧ (s.isFatal = true → exec .provisionRequest s = .next (voteRefresh s) ∧ exec .bmcFactoryReset s = .next (voteRefresh s)
        ∧ ∀ root chain sig, exec (.provisionWrite root chain sig) s = .next (voteRefresh s))
    ∧ (s.isFatal = false → s.trust.lik ≠ [] → ∃ t, exec .provisionRequest s = .next t ∧ t.trust.lik = s.trust.lik
        ∧ t.bmcOut = s.bmcOut
            ++ [.linkRequest (Config.encodeRequest (Config.publicKey s.trust.lik) (Config.ecdsaSign dikKey (Config.publicKey s.trust.lik)))]
            ++ (if s.trust.queue.length < 16 ∧ otherReqs s.trust < 12 then [] else [.busy]))
    ∧ (∀ root chain sig, s.isFatal = false → root ≠ [] → chain.length ≤ 8192 →
        if s.trust.root = [] ∨ Config.ecdsaVerify (Config.certKey s.trust.root) (root ++ chain) sig = true
        then ∃ t, exec (.provisionWrite root chain sig) s = .next t ∧ t.trust.root = root ∧ t.trust.chain = chain ∧ t.trust.lik = s.trust.lik
        else exec (.provisionWrite root chain sig) s = .next (voteRefresh s))
    ∧ (s.isFatal = false →
        exec .bmcFactoryReset s = .next (voteRefresh (s.putTrust { s.trust with lik := [], likFlash := [], root := [], chain := [] })))

/-- 16 R299, R302, R304, R305: a transfer empties the slot that does not run, or either in recovery, and fills it with what the image verifies
as; activation makes the slot with a staged image the trial slot; a commit of the trial that runs makes it active and may raise the fused svn,
of which there are 64 fuses; the window's end gives the trial up, and no commit follows it; each change of the boot record goes into the copy that is not in force, under
the next sequence number. After a fatal error nothing is transferred or activated (14 R273). That nothing is transferred during a trial boot or a measured start is the model's choice (log entry 16). Signatures are uninterpreted
(log entry 6). -/
def Obligations.FirmwareSlotsMove : Prop :=
  ∀ (s : State) (slot : Nat), slot < 2 →
    let tr := s.trust
    let gives (c : Instr) (u : TrustSt) (out : List BmcMsg) := ∃ t, exec c s = .next t ∧ t.trust = u ∧ t.bmcOut = s.bmcOut ++ out
      ∧ t.spad = s.spad ∧ t.hbm = s.hbm ∧ t.cores = s.cores ∧ t.flash = s.flash
    let trialIs (i : Option Nat) (b : BootRec) : BootRec := { b with trial := i }
    (s.isFatal = true ∨ tr.trialBoot = true ∨ tr.meas ≠ 0 ∨ (slot = tr.running ∧ tr.recovery = false) → ∀ img, exec (.pldmFirmwareTransfer slot img) s = .next (voteRefresh s))
    ∧ (s.isFatal = false → tr.trialBoot = false → tr.meas = 0 → (slot ≠ tr.running ∨ tr.recovery = true) →
        gives (.pldmFirmwareTransfer slot none) { (if tr.trial = some slot then tr.putBoot (trialIs none) else tr) with
          slots := tr.slots.set slot {}, receiving := some slot, staged := none } []
        ∧ (∀ img, tr.receiving = some slot → gives (.pldmFirmwareTransfer slot (some img))
            { tr with slots := tr.slots.set slot (parseImage tr img), receiving := none
                      staged := if (parseImage tr img).ok then some slot else none }
            [.pldm (parseImage tr img).ok])
        ∧ ∀ img, tr.receiving ≠ some slot → exec (.pldmFirmwareTransfer slot (some img)) s = .next (voteRefresh s))
    ∧ (∀ cold, (∀ i, s.isFatal = false → tr.staged = some i → gives (.pldmActivate cold) { tr.putBoot (trialIs (some i)) with trialCold := cold } [])
        ∧ (s.isFatal = true ∨ tr.staged = none → exec (.pldmActivate cold) s = .next (voteRefresh s)))
    ∧ exec .pldmCommit s = .next (voteRefresh (
        if tr.trialBoot = true ∧ tr.trialShut = false ∧ tr.trial = some tr.running then s.putTrust { tr.putBoot (fun b => { b with active := tr.running, trial := none }) with
          trialBoot := false, staged := none
          fusedSvn := if (tr.slot tr.running).raise then max tr.fusedSvn (min 64 (tr.slot tr.running).svn) else tr.fusedSvn }
        else s))
    ∧ exec .commitWindowExpiry s = .next (voteRefresh (
        if tr.trialBoot = true ∧ tr.trialShut = false then s.putTrust { tr.putBoot (trialIs none) with staged := some tr.running, trialShut := true } else s))
    ∧ (∀ b, let r := tr.boot
        (tr.putBoot (trialIs b)).boot = { r with trial := b, seq := r.seq + 1 }
        ∧ (tr.bootB.seq ≤ tr.bootA.seq → (tr.putBoot (trialIs b)).bootA = tr.bootA)
        ∧ (tr.bootA.seq < tr.bootB.seq → (tr.putBoot (trialIs b)).bootB = tr.bootB))

/-- 16 R303, R318: a warm reset, written with its key or asked for by the board management controller, takes every ring out of service,
drops barges not admitted and the queued reports; its steps follow: quiet; the measurement, signal by signal (R301): the warm marker, the
slot chosen, its signature checked, or the other slot taken, or recovery (R302), its components measured, the slot released; self-test,
restart. Without the key nothing is done. -/
def Obligations.WarmResetRuns : Prop :=
  ∀ (s : State),
    (∀ data, nbits data 15 8 ≠ 0xA5 ∨ data % 2 = 0 → exec (.warmReset data) s = .next (voteRefresh s))
    ∧ (∀ c, c = .bmcWarmResetRequest ∨ (s.link.d3hot = false ∧ ∃ data, nbits data 15 8 = 0xA5 ∧ data % 2 = 1 ∧ c = .warmReset data) →
        keeperOn s = true → ∃ t, exec c s = .next t ∧ t.trust.warm = some 0
          ∧ (∀ r, r < 1024 → (t.ring r).st = 0) ∧ (∀ b ∈ t.barges, b.admitted = true)
          ∧ (∀ q ∈ t.trust.queue, ∀ r n, q.who ≠ .ring r n))
    ∧ (∀ failed : List Nat, (∀ n ∈ failed, n < 60) → s.isFatal = false →
      (s.trust.warm = none → exec (.warmResetStepDone failed) s = .next (voteRefresh s))
      ∧ (s.trust.warm = some 0 → s.flights = [] → s.barges = [] →
          ∃ t, exec (.warmResetStepDone failed) s = .next t ∧ t.trust.warm = some 1 ∧ t.trust.released = false ∧ t.trust.meas = s.trust.meas)
      ∧ (s.trust.warm = some 1 →
          let tr := s.trust
          let steps (n cand : Nat) (second : Bool) := ∃ t, exec (.warmResetStepDone failed) s = .next t ∧ t.trust.warm = some 1
            ∧ t.trust.released = tr.released ∧ t.trust.meas = n ∧ t.trust.cand = cand ∧ t.trust.second = second ∧ t.trust.slots = tr.slots
          (tr.meas = 0 → steps 1 tr.cand false)
          ∧ (tr.meas = 1 → steps 2 (firstSlot tr false) tr.second)
          ∧ (tr.meas = 2 → slotOk tr tr.cand = true → steps 3 tr.cand tr.second)
          ∧ (tr.meas = 2 → slotOk tr tr.cand = false → tr.second = false → steps 2 (1 - tr.cand) true)
          ∧ (tr.meas = 2 → slotOk tr tr.cand = false → tr.second = true → ∃ t, exec (.warmResetStepDone failed) s = .next t
              ∧ t.trust.recovery = true ∧ t.trust.released = false ∧ t.trust.warm = none ∧ t.bmcOut = s.bmcOut ++ [.noImage])
          ∧ (tr.meas = 3 → steps 4 tr.cand tr.second)
          ∧ (tr.meas = 4 → ∃ t, exec (.warmResetStepDone failed) s = .next t ∧ t.trust.warm = some 2 ∧ t.trust.released = true
              ∧ t.trust.running = tr.cand ∧ t.trust.meas = 0))
      ∧ (s.trust.warm = some 2 → failed = [] → ∃ t, exec (.warmResetStepDone failed) s = .next t ∧ t.trust.warm = some 3)
      ∧ (s.trust.warm = some 3 → ∃ t, exec (.warmResetStepDone failed) s = .next t ∧ t.trust.warm = none
          ∧ ∀ p ∈ s.trust.warmParts, p < 4 → t.rd (fPartState p) = 2 ∧ t.rd (fPartScrubbed p) = 0))

/-- 16 R311 to R314; 01 R17: a partition that is not stopped owns the HBM ranges of its quadrants; a write of go has the block read, in a warm reset
too, sets fault where it cannot be read, and is rejected as busy while one is in progress; an accepted start has state 1 and its
quadrants, an accepted stop state 3, a refused block the record 0x41; scrubbed HBM is zero; the last step gives state 2, with every gate
zero, and a drained stop state 0, each with its record. -/
def Obligations.PartitionsStartAndStop : Prop :=
  ∀ (s : State),
    let record (op : PartOp) (status result : Nat) : List Posted := [⟨op.cpl,
      leBytes 8 (op.assign * 2 ^ 32 + status * 2 ^ 24 + (if op.start then 0x80 else 0x81) * 2 ^ 16 + 1) ++ leBytes 8 op.tag
        ++ leBytes 8 s.mile ++ leBytes 8 result⟩]
    (∀ block c, c = .partitionStart block ∨ c = .partitionStop block → s.link.d3hot = false →
      let a := block % 2 ^ 64 / 128 * 128
      (s.rd fGo = 1 → s.isFatal = false → exec c s = .next (voteRefresh (s.wr fBusyReject 1)))
      ∧ (s.isFatal = true → exec c s = .next (voteRefresh s))
      ∧ (s.rd fGo = 0 → s.isFatal = false → s.dlActive = true → busOk s a 128 = true → Asks s → ∃ t, exec c s = .next t ∧ t.rd fGo = 1 ∧ t.parts.op = some {}
          ∧ t.rd ⟨0x1440, 63, 7⟩ = a / 128 ∧ t.reqs = (Asked s .startBlock a 128).reqs ∧ t.reqWait = (Asked s .startBlock a 128).reqWait)
      ∧ (s.rd fGo = 0 → s.isFatal = false → (s.dlActive = false ∨ busOk s a 128 = false) → ∃ t, exec c s = .next t ∧ t.rd fGo = 0
          ∧ t.rd fPartFault = 1 ∧ t.parts.op = none ∧ t.posted = s.posted))
    ∧ (keeperOn s = false → ∀ status data, exec (.startBlockReturn status data) s = .next (voteRefresh s))
    ∧ (∀ data op, keeperOn s = true → s.reqs.any (fun q => decide (q.kind = ReqFor.startBlock)) = true → s.parts.op ≠ none → s.dlActive = true → s.link.stalled = false →
      op = blockOp (takePad 128 data) → op.cpl % 32 = 0 →
      if blockRefused s (takePad 128 data) op then
        ∃ t, exec (.startBlockReturn .ok data) s = .next t ∧ t.parts.op = none ∧ t.rd fGo = 0 ∧ t.posted = s.posted ++ record op 0x41 0
      else if op.start then
        ∃ t, exec (.startBlockReturn .ok data) s = .next t ∧ t.rd (fPartState op.part) = 1 ∧ t.rd (fPartQuads op.part) = op.quads
          ∧ t.rd (fPartAssign op.part) = op.assign ∧ t.rd (fPartPristine op.part) = b2n (pristineOf s op.quads) ∧ t.posted = s.posted
      else ∃ t, exec (.startBlockReturn .ok data) s = .next t ∧ t.rd (fPartState op.part) = 3
          ∧ ∀ b ∈ t.barges, b.part = op.part → b.admitted = true)
    ∧ (∀ op, keeperOn s = true → s.parts.op = some op → op.part < 4 → s.dlActive = true → s.link.stalled = false →
      (op.start = true → s.rd (fPartState op.part) = 1 → op.step = 1 → ∃ t, exec .partitionStartStepDone s = .next t
          ∧ t.parts.op = some { op with step := 2 } ∧ t.hbmWide = s.flag fModuleWide
          ∧ ∀ key q, q < 4 → op.scrub.testBit q = true → key / stackBytes ∈ quadStacks q → tget byte0 t.hbm key = 0#8)
      ∧ (op.start = true → s.rd (fPartState op.part) = 1 → op.step = 2 → ∃ t, exec .partitionStartStepDone s = .next t
          ∧ t.rd (fPartState op.part) = 2 ∧ t.parts.op = none ∧ t.rd fGo = 0 ∧ t.posted = s.posted ++ record op 0 op.scrub
          ∧ ∀ tile g, tile < 60 → op.quads.testBit (tile / 15) = true → t.gate tile g = 0#32)
      ∧ (op.start = false → s.rd (fPartState op.part) = 3 → (∀ b ∈ s.barges, b.part ≠ op.part) → (∀ f ∈ s.flights, f.part ≠ op.part) →
          ∃ t, exec .partitionStopDrained s = .next t ∧ t.rd (fPartState op.part) = 0 ∧ t.rd (fPartQuads op.part) = 0 ∧ t.parts.op = none
            ∧ t.posted = s.posted ++ record op 0 0))
    ∧ (∀ part dpa, s.hbmWide = false → dpa < 0x9000000000 → s.rd (fPartState part) ≠ 0 →
        ownsHbm s part dpa = (s.rd (fPartQuads part)).testBit (dpa / 0x2400000000))

/-- 11 R211 to R216, R221: a live port puts a sequenced flit on its next group, data where the port is Up (R223) and a virtual channel has credit, else
idle, and keeps it for replay. A flit that arrives on a group in service is taken when the group's turn has come, and waits until then; one on a group
out of service is none. A flit taken with a false CRC or another sequence number asks for replay, one in sequence joins its frame. A codeword
with at most 15 wrong symbols is corrected and counts them, any other counts once as uncorrectable. An oldest flit not acknowledged in time
starts a replay, or, where it has been replayed replay_limit times, takes the port down; that the limit is judged when the next replay is due
is the model's choice (log entry 16). A short darkness leaves nothing. -/
def Obligations.FlitsLeaveAndArrive : Prop :=
  ∀ (s : State) (p : Nat), p < 16 → portLive s p = true → s.isFatal = false →
    let g := s.port p
    (txMask s p ≠ 0 → g.replay = none → g.replayBuf.length < 8192 → g.ctlq = [] → g.rekey = .none → g.darkSent = false →
      s.rd (fTxFrames p) < 2 ^ 47 - 1 →
      ∃ t b, exec (.flitTransmit p) s = .next t ∧ t.flitOut = s.flitOut ++ [(p, nextGroup s p, b)]
        ∧ (t.port p).txSeq = (g.txSeq + 1) % 2 ^ 15 ∧ (t.port p).replayBuf = g.replayBuf ++ [⟨g.txSeq, b, s.mile, 0⟩]
        ∧ t.rd (fTxFrames p) = s.rd (fTxFrames p) + (if g.txSeq % 16 = 15 then 1 else 0)
        ∧ match (if s.rd (fPortState p) = 3 then pickData g else none) with
          | none => b.take 4 = flitHeader 1 0 0 0 g.txSeq ∧ (t.port p).credits = g.credits
          | some m => b.take 4 = flitHeader 0 m.vc (b2n (decide (m.sent = 0))) (min (if g.txSeq % 16 = 15 then 224 else 248) (m.bytes.length - m.sent)) g.txSeq
              ∧ (t.port p).credits = g.credits.set m.vc (g.credits.getD m.vc 0 - 1))
    ∧ (∀ group corr bad bytes, group < 16 →
      let fec (t : State) := if bad = true ∨ 15 < corr then t.rd (fGrpFld p group 39 24) = min 0xFFFF (s.rd (fGrpFld p group 39 24) + 1)
        else t.rd (fGrpFld p group 63 40) = min 0xFFFFFF (s.rd (fGrpFld p group 63 40) + corr)
      ((rxMask s p).testBit group = false → (∀ x, g.rxLine = some x → x.group ≠ group) →
        ∃ t, exec (.flitReceive p group corr bad bytes) s = .next t ∧ fec t ∧ (t.port p).rxNext = g.rxNext ∧ (t.port p).rxFlits = g.rxFlits
          ∧ (t.port p).rxWait = g.rxWait ∧ (t.port p).lineRx = g.lineRx)
      ∧ ((rxMask s p).testBit group = true → g.rxWait = [] →
        (turnAfter (rxMask s p) g.rxTurn ≠ group →
          ∃ t, exec (.flitReceive p group corr bad bytes) s = .next t ∧ fec t ∧ (t.port p).rxWait = [(group, bytes)] ∧ (t.port p).rxNext = g.rxNext
            ∧ (t.port p).rxFlits = g.rxFlits ∧ (t.port p).lineRx = g.lineRx)
        ∧ (turnAfter (rxMask s p) g.rxTurn = group → ∃ t, exec (.flitReceive p group corr bad bytes) s = .next t
          ∧ (leNat (sliceB bytes 252 4) ≠ crc32 (sliceB bytes 0 252) →
              fec t ∧ (t.port p).rxTurn = group ∧ (t.port p).rxWait = [] ∧ (t.port p).lineRx = (g.lineRx + 1) % 2 ^ 32
                ∧ (t.port p).nak = true ∧ (t.port p).rxNext = g.rxNext ∧ (t.port p).rxFlits = g.rxFlits
                ∧ t.rd (fCrcErrors p) = min (2 ^ 32 - 1) (s.rd (fCrcErrors p) + 1))
          ∧ (leNat (sliceB bytes 252 4) = crc32 (sliceB bytes 0 252) → nbits (leNat (sliceB bytes 0 4)) 31 30 ≠ 3 →
              (nbits (leNat (sliceB bytes 0 4)) 14 0 ≠ g.rxNext → (t.port p).nak = true ∧ (t.port p).rxFlits = g.rxFlits)
              ∧ (nbits (leNat (sliceB bytes 0 4)) 14 0 = g.rxNext → g.rxNext % 16 ≠ 15 →
                  (t.port p).rxNext = (g.rxNext + 1) % 2 ^ 15 ∧ (t.port p).rxFlits = g.rxFlits ++ [bytes])))))
    ∧ (∀ f l, g.replayBuf = f :: l → g.replay = none →
        ((s.mile + 2 ^ 64 - f.t0) % 2 ^ 64 ≤ ackTicks s p → exec (.ackTimeout p) s = .next (voteRefresh s))
        ∧ (ackTicks s p < (s.mile + 2 ^ 64 - f.t0) % 2 ^ 64 →
            let limit := if s.rd ⟨aLnk p 0, 23, 20⟩ = 0 then 8 else s.rd ⟨aLnk p 0, 23, 20⟩
            (f.times < limit →
              ∃ t, exec (.ackTimeout p) s = .next t ∧ (t.port p).replay = some 0 ∧ t.rd (fReplays p) = min (2 ^ 32 - 1) (s.rd (fReplays p) + 1))
            ∧ (limit ≤ f.times → ∃ t, exec (.ackTimeout p) s = .next t ∧ PortDropped t p 2)))
    ∧ exec .laneRelock s = .next (voteRefresh s)

/-- 11 R220, R222: an announced line is pending until the line count reaches it; then its group leaves or returns to service; below
min_groups receive groups the port goes down. A clean test pattern announces the group's restoration; a message that was not delivered does
nothing. -/
def Obligations.LanesRetireAndReturn : Prop :=
  ∀ (s : State) (p group line : Nat), p < 16 → group < 16 →
    let g := s.port p
    let at_ := line % 2 ^ 32
    (∀ c kind, (c = .retireAnnouncement p group line ∧ kind = 1) ∨ (c = .restoreAnnouncement p group line ∧ kind = 2) →
      (kind ∉ g.ctlIn ∨ s.isFatal = true → exec c s = .next (voteRefresh s))
      ∧ (kind ∈ g.ctlIn → s.isFatal = false → sint 32 (g.lineRx + 2 ^ 32 - at_) ≤ 0 →
          ∃ t, exec c s = .next t ∧ (t.port p).rxLine = some ⟨group, at_, decide (kind = 1)⟩ ∧ t.rd (fSwitchPend p) = 1))
    ∧ (∀ x, g.rxLine = some x → x.group < 16 → 0 ≤ sint 32 (g.lineRx + 2 ^ 32 - x.line) →
        let m := if x.retire then mclr (s.rd (fRxGroups p)) x.group else mset (s.rd (fRxGroups p)) x.group
        (minGroups s p ≤ popcount 16 m → ∃ t, exec (.lineSwitch p true) s = .next t ∧ t.rd (fRxGroups p) = m ∧ (t.port p).rxLine = none)
        ∧ (popcount 16 m < minGroups s p → portLive s p = true → ∃ t, exec (.lineSwitch p true) s = .next t ∧ PortDropped t p 2))
    ∧ (∀ x, g.txLine = some x → x.group < 16 → 0 ≤ sint 32 (g.lineTx + 2 ^ 32 - x.line) → g.swap = none → g.lineQ = [] →
        ∃ t, exec (.lineSwitch p false) s = .next t ∧ (t.port p).txLine = none
          ∧ t.rd (fTxGroups p) = (if x.retire then mclr (s.rd (fTxGroups p)) x.group else mset (s.rd (fTxGroups p)) x.group))
    ∧ (3 ∈ g.ctlIn → s.isFatal = false →
        exec (.testPatternReport p group false) s = .next (voteRefresh (Took s p 3))
        ∧ ((s.rd (fTxGroups p)).testBit group = false → portLive s p = true → g.swap = none → g.lineQ = [] → g.txLine = none →
            ∃ t, exec (.testPatternReport p group true) s = .next t
              ∧ (t.port p).txLine = some ⟨group, (g.lineTx + switchLead s p) % 2 ^ 32, false⟩ ∧ t.rd (fSwitchPend p) = 1))

/-- 11 R219: an offer is accepted with a fresh key where the port accepts and no line is pending, else declined; an acceptance of this end's
offer agrees its frame, at which each direction switches; a decline withdraws it; the period, and after a decline the repeat, make an offer
of an Up port. Of two offers that cross, both ends accept, and the lower end's stands; an offer that comes while an agreed rekey waits for its
frame is accepted too, and follows it (both: log entry 16). Keys are uninterpreted and fresh bytes
free (log entries 3 and 6). -/
def Obligations.RekeyIsAgreed : Prop :=
  ∀ (s : State) (p : Nat) (key : List Byte) (frame : Nat), p < 16 → s.isFatal = false →
    let g := s.port p
    let own := (List.range 48).map (Config.freeByte s.free)
    let before (f : Nat) := (g.txHeads ≠ [] ∨ s.rd (fTxFrames p) < f) ∧ (g.rxFlits ≠ [] ∨ g.rxFrame < f)
    let agrees (c : Instr) (priv : List Byte) (f : Nat) := ∃ t a b, exec c s = .next t ∧ (t.port p).rekey = .agreed [(a, f)] [(b, f)]
      ∧ (t.port p).secret = Config.ecdh priv key ∧ t.rd (fRekeyPend p) = 1
    let offers (c : Instr) := ∃ t, exec c s = .next t ∧ t.free = s.free + 1 ∧ (t.port p).declined = false
      ∧ (t.port p).rekey = .offered own (s.rd (fTxFrames p) + 1024 + Config.freeNat s.free)
    (0x10 ∈ g.ctlIn →
      (s.flag (fRekeyAccept p) = true → g.txLine = none → g.rxLine = none → before frame →
        (g.rekey = .none → agrees (.rekeyOffer p key frame) own frame)
        ∧ (∀ priv f, g.rekey = .offered priv f → lowerEnd g = false → agrees (.rekeyOffer p key frame) own frame)
        ∧ (∀ priv f, g.rekey = .offered priv f → lowerEnd g = true →
            ∃ t, exec (.rekeyOffer p key frame) s = .next t ∧ (t.port p).rekey = .crossed priv f own key frame ∧ (t.port p).secret = g.secret)
        ∧ (∀ tx rx, g.rekey = .agreed tx rx → (∀ k f r, tx = (k, f) :: r → g.txHeads ≠ [] ∨ s.rd (fTxFrames p) < f) →
            (∀ k f r, rx = (k, f) :: r → g.rxFlits ≠ [] ∨ g.rxFrame < f) →
            ∃ t a b, exec (.rekeyOffer p key frame) s = .next t ∧ (t.port p).rekey = .agreed (tx ++ [(a, frame)]) (rx ++ [(b, frame)])
              ∧ (t.port p).secret = Config.ecdh own key))
      ∧ (s.flag (fRekeyAccept p) = false → exec (.rekeyOffer p key frame) s = .next (voteRefresh
          ((Took s p 0x10).modPort p fun g => { g with ctlq := g.ctlq ++ [.decline] }))))
    ∧ (∀ priv f, 0x11 ∈ g.ctlIn → before f → (g.rekey = .offered priv f ∨ ∃ x y z, g.rekey = .crossed priv f x y z) → agrees (.rekeyAccept p key) priv f)
    ∧ (∀ priv f, 0x12 ∈ g.ctlIn → g.rekey = .offered priv f →
        ∃ t, exec (.rekeyDecline p) s = .next t ∧ (t.port p).rekey = .none ∧ (t.port p).declined = true)
    ∧ (∀ x y priv f, 0x12 ∈ g.ctlIn → before f → g.rekey = .crossed x y priv key f → agrees (.rekeyDecline p) priv f)
    ∧ (portUp s p = true → g.rekey = .none →
        (s.rd ⟨aLnk p 0, 63, 48⟩ ≠ 0 → offers (.rekeyPeriodExpiry p)) ∧ (g.declined = true → offers (.rekeyOfferRepeat p)))
    ∧ (s.rd ⟨aLnk p 0, 63, 48⟩ = 0 → exec (.rekeyPeriodExpiry p) s = .next (voteRefresh s))

/-- 11 R222 to R226: hail goes from light to Up step by step; at light and at the end of step 2 this end says its part, with a CRC-32, as it
does at the end of step 7 with its module ID and LNK_SLICE bitmap (13 R253); what the partner says of its own is kept. The link starts once at
least min_groups groups are in service each way: sequence, frame and line counts are 0, the credits of LNK_VC_CREDIT are granted, 16 flits
a unit and 128 units each where they sum to more than 1,024 (R216), and the partner's are taken. With attest_req = 1
step 3 is not done before both reports have been exchanged. An attempt that fails or takes 100 ms backs off 1 s, doubling up to
64 s, and tries again after it; a dark port that sees light enters hail (15 R291); loss of light takes a live port down into
hail. The layout of the bytes said is the model's choice (log entry 12), and so is that a message stands in hailMsg for its retries (log
entry 16). -/
def Obligations.HailBringsPortsUp : Prop :=
  ∀ (s : State) (p : Nat) (h : HailInfo), p < 16 → s.isFatal = false →
    let g := s.port p
    let step := s.rd (fHailStep p)
    let runs := s.rd (fPortState p) = 2 ∧ g.backoff = false
    let at_ (t : State) (k : Nat) := t.rd (fHailStep p) = k ∧ t.rd (fPortState p) = 2 ∧ (t.port p).backoff = false
    let next (c : Instr) (k : Nat) := ∃ t, exec c s = .next t ∧ at_ t k
    let speaks (c : Instr) (k : Nat) := ∃ t b, exec c s = .next t ∧ at_ t k ∧ t.hailOut = s.hailOut ++ [(p, withCrc b)] ∧ (t.port p).hailMsg = [withCrc b]
    let backs (c : Instr) (state : Nat) := ∃ t, exec c s = .next t ∧ (t.port p).backoff = true ∧ t.rd (fPortState p) = state
      ∧ t.rd (fHailFails p) = min 255 (s.rd (fHailFails p) + 1) ∧ t.rd (fBackoffS p) = 2 ^ min 6 (min 255 (s.rd (fHailFails p) + 1) - 1)
    let reports := s.flag (fAttestReq p) = false ∨ (h.report = true ∧ reportOwed s p = false)
    (runs → step = 1 → speaks (.lightDetected p) 2)
    ∧ (portDark s p = true → speaks (.lightDetected p) 2)
    ∧ (runs → step = 2 → speaks (.hailStepDone p h) 3
        ∧ ∃ t, exec (.hailStepDone p h) s = .next t ∧ (t.port p).hisNonce = h.nonce ∧ (t.port p).hisCap = h.cap ∧ (t.port p).hisKey = h.key
          ∧ (t.port p).myKey = Config.publicKey s.trust.lik)
    ∧ (runs → step = 3 → s.trust.root ≠ [] → h.auth = true → reports → next (.hailStepDone p h) 4)
    ∧ (runs → step = 3 → s.trust.root ≠ [] → h.auth = true → ¬ reports →
        ∃ t, exec (.hailStepDone p h) s = .next t ∧ at_ t 3 ∧ t.hailOut = s.hailOut)
    ∧ (runs → step = 3 → h.auth = false → backs (.hailStepDone p h) 4)
    ∧ (runs → step = 4 → next (.hailStepDone p h) 5)
    ∧ (runs → step = 5 → next (.hailStepDone p h) 6)
    ∧ (runs → step = 6 →
        let enough := minGroups s p ≤ popcount 16 (s.rd (fTxGroups p)) ∧ minGroups s p ≤ popcount 16 (s.rd (fRxGroups p))
        (¬ enough → exec (.hailStepDone p h) s = .next (voteRefresh s))
        ∧ (enough → s.pendingSt.filter (fun x => decide (regBlk x.1 = some (.port p))) = [] → stagedWaiting s (.port p) = [] →
            let asked := (List.range 8).map fun v => s.rd ⟨0x400000 + 0x1000 * p + 8, 8 * v + 7, 8 * v⟩
            let grant := if 1024 < asked.sum then List.replicate 8 2048 else asked.map (16 * ·)
            ∃ t, exec (.hailStepDone p h) s = .next t ∧ at_ t 7 ∧ t.hailOut = s.hailOut ++ [(p, withCrc (Config.hailBody 6 [grant.flatMap (leBytes 2)]))]
              ∧ (t.port p).room = grant ∧ (t.port p).credits = (List.range 8).map (fun v => h.credits.getD v 0)
              ∧ (t.port p).txSeq = 0 ∧ (t.port p).rxNext = 0 ∧ (t.port p).lineTx = 0 ∧ (t.port p).lineRx = 0 ∧ (t.port p).replayBuf = []
              ∧ t.rd (fTxFrames p) = 0))
    ∧ (runs → step = 7 →
        let said := withCrc (Config.hailBody 8 [leBytes 3 (s.rd fModuleId),
          (List.range 64).flatMap fun q => leBytes 8 (s.reg (0x400000 + 0x1000 * p + 0x400 + 8 * q)).toNat])
        ∃ t, exec (.hailStepDone p h) s = .next t ∧ at_ t 8 ∧ t.hailOut = s.hailOut ++ [(p, said)] ∧ (t.port p).hailMsg = [said])
    ∧ (runs → step = 8 → s.rd fModuleId ≠ 0xFFFFFF →
        ∃ t, exec (.hailStepDone p h) s = .next t ∧ portUp t p = true ∧ t.rd (fHailFails p) = 0 ∧ t.rd (fPartnerMod p) = h.module % 2 ^ 24
          ∧ (t.port p).hisSlices = h.slices ∧ p ∈ t.power.wasUp)
    ∧ (runs → step = 8 → s.rd fModuleId = 0xFFFFFF → backs (.hailStepDone p h) 2)
    ∧ (runs → 2 ≤ step → backs (.hailAttemptTimeout p) 2)
    ∧ (g.backoff = true → next (.hailBackoffExpiry p) 1)
    ∧ (portLive s p = true → ∃ t, exec (.lossOfLight p) s = .next t ∧ PortDropped t p 2 ∧ t.rd (fHailStep p) = 1)

/-- 11 R226, R227: an acknowledged dark request takes an idle port that asked dark, if still nothing votes for it and all else is in its low
form; one asked of this end is acknowledged under the same conditions, and this end goes dark when the frame that carries the acknowledgement
is complete (log entry 16); a wake tone brings a dark port into hail, one unanswered ends with an event; an enable of an Off port and a
rehail begin hail, a disable takes the port Off; in D3hot none of them acts (02 R37). -/
def Obligations.PortsGoDarkAndReturn : Prop :=
  ∀ (s : State) (p : Nat), p < 16 → s.isFatal = false →
    let g := s.port p
    let hails (c : Instr) := ∃ t, exec c s = .next t ∧ t.rd (fPortState p) = 2 ∧ t.rd (fHailStep p) = 1
    (0x40 ∈ g.ctlIn →
      let agrees := portVotes s p = 0 ∧ allLow s.power.dom = true ∧ portIdle s p = true
      (g.darkAsked = true → agrees → ∃ t, exec (.darkRequest p true) s = .next t ∧ PortDropped t p 1 ∧ (t.port p).txKey = {})
      ∧ (¬ (g.darkAsked = true ∧ agrees) →
          exec (.darkRequest p true) s = .next (voteRefresh ((Took s p 0x40).modPort p fun g => { g with darkAsked := false })))
      ∧ exec (.darkRequest p false) s = .next (voteRefresh (
          if agrees ∧ portUp s p = true
          then (Took s p 0x40).modPort p fun g => { g with ctlq := g.ctlq ++ [.dark true] } else Took s p 0x40)))
    ∧ (portUp s p = true → g.darkSent = true → portVotes s p = 0 → allLow s.power.dom = true → portIdle s p = true → txMask s p ≠ 0 → g.replay = none →
        g.replayBuf.length < 8192 → g.ctlq = [] → g.rekey = .none → s.rd (fTxFrames p) < 2 ^ 47 - 1 → g.txSeq % 16 = 15 →
        ∃ t b, exec (.flitTransmit p) s = .next t ∧ t.flitOut = s.flitOut ++ [(p, nextGroup s p, b)] ∧ PortDropped t p 1)
    ∧ (portDark s p = true → s.flag (fWakeEn p) = true → hails (.wakeToneDetected p))
    ∧ (portDark s p = true → g.tone = true →
        exec (.wakeToneTimeout p) s = .next (voteRefresh (portEvent (s.putPort p { g with tone := false }) p 0x09 0 0)))
    ∧ (portsOut s = true → s.link.d3hot = false →
      (s.rd (fPortState p) = 0 → hails (.lnkEnable p true))
      ∧ (s.rd (fPortState p) ≠ 0 → hails (.lnkRehail p))
      ∧ ∃ t, exec (.lnkEnable p false) s = .next t ∧ t.flag (fLnkEnable p) = false ∧ PortDropped t p 0)
    ∧ (portsOut s = false → s.link.d3hot = false → ∀ on, exec (.lnkEnable p on) s = .next (voteRefresh (s.wr (fLnkEnable p) (b2n on))))
    ∧ (s.link.d3hot = true → (∀ on, exec (.lnkEnable p on) s = .next (voteRefresh s)) ∧ exec (.lnkRehail p) s = .next (voteRefresh s))

/-- 12 R231, R242; 11 R217, R220: a received-power report gives each transmit lane its OMA and margin; reports that stay away for 10 ms are
an event; receiver adaptation, on a port neither Off nor Dark (17 R326), puts each lane's thresholds between its levels, moves its phase by at most one step; of a live port it renews the error rates and
sends the port's own report; a group with a lane below a quarter of its opening counts at least 16 uncorrectable codewords (log entry 16).
12 R237, R238, R240: every loop moves its ring's target by at most 1.0 GHz; a ring out of range of a lit port (17 R329) searches again after its second; a
recalibration runs, or waits while a swap or an announcement is pending, and ends with every accepted matrix. -/
def Obligations.LightAndRings : Prop :=
  (∀ (s : State) (p : Nat), p < 16 → s.isFatal = false →
    let g := s.port p
    (∀ pl : List Byte,
      (0x30 ∉ g.ctlIn → exec (.receivedPowerReport p pl) s = .next (voteRefresh s))
      ∧ (0x30 ∈ g.ctlIn → ∃ t, exec (.receivedPowerReport p pl) s = .next t ∧ (t.port p).lastReport = s.mile
        ∧ ∀ l, l < 32 → let oma := sint 16 (leNat (sliceB pl (8 + 2 * l) 2))
            t.rd (fTxLane p l 39 32) = sclamp 8 (oma + 100) ∧ t.rd (fTxLane p l 31 24) = sclamp 8 (oma + 110)))
    ∧ (exec (.reportsAbsent p) s = .next (voteRefresh (
        if portUp s p = true ∧ 10000000 ≤ (s.mile + 2 ^ 64 - g.lastReport) % 2 ^ 64 then (optEvent s p 0x09 0 0).modPort p fun g => { g with lastReport := s.mile } else s)))
    ∧ (∀ (lanes : List LaneRead) (bers bad clean : List Nat), (∀ x ∈ lanes, x.phase < 64) →
      let adapted (t : State) := exec (.receiverAdapt p lanes bers bad clean) s = .next t ∧ ∀ l, l < 32 →
        let have_ := s.rd (fRxLane p l 31 26)
        let want := (lanes.getD l {}).phase
        t.rd (fRxLane p l 31 26) = (if have_ < want then have_ + 1 else if want < have_ then have_ - 1 else have_)
          ∧ tget (fun _ => []) (t.port p).slicers l = midpoints (lanes.getD l {}).levels
      (s.rd (fPortState p) = 0 ∨ s.rd (fPortState p) = 1 → exec (.receiverAdapt p lanes bers bad clean) s = .next (voteRefresh s))
      ∧ (s.rd (fPortState p) ≠ 0 → s.rd (fPortState p) ≠ 1 → ∃ t, adapted t)
      ∧ (portLive s p = true → ∃ t pl, adapted t ∧ (g.ctlq ++ [.power pl]) <+: (t.port p).ctlq
          ∧ (∀ l k, l < 32 → k = l % 16 → 4 * (lanes.getD l {}).opening < tget nat0 g.eye l →
              t.rd (fGrpFld p k 39 24) = min 0xFFFF (s.rd (fGrpFld p k 39 24) + max 16 (bad.getD k 0)))
          ∧ ∀ k, k < 16 → t.rd (fGrpFld p k 23 16) = bers.getD k 0 % 256)))
  ∧ (∀ (s : State) (p : Nat), p < 16 → s.isFatal = false →
    let g := s.port p
    (∀ (errs : List Int) r, r < 64 → s.rd (fPortState p) ≠ 0 → s.rd (fPortState p) ≠ 1 →
      ∃ t, exec (.ringLockUpdate p errs) s = .next t
        ∧ tget int0 (t.port p).target r = (if s.rd (fLock p r) < 2
            then tget int0 g.target r + max (-1000) (min 1000 (errs.getD r 0)) else tget int0 g.target r))
    ∧ (∀ r, r < 64 → s.rd (fLock p r) ≠ 2 → exec (.ringRangeRetry p r) s = .next (voteRefresh s))
    ∧ (∀ r, r < 64 → r ∈ g.range → s.rd (fLock p r) = 2 →
        ∃ t, exec (.ringRangeRetry p r) s = .next t ∧ r ∉ (t.port p).range ∧ t.rd (fLock p r) = 1)
    ∧ (portUp s p = true → s.rd (fXtState p) ≠ 1 →
      ∀ c, (c = .xtalkNow p ∧ s.link.d3hot = false) ∨ (c = .xtalkRecalibration p none ∧ s.rd ⟨aOpt p 0, 39, 32⟩ ≠ 0) →
      (g.swap = none → g.txLine = none → g.rxLine = none → ∃ t, exec c s = .next t ∧ t.rd (fXtState p) = 1 ∧ (t.port p).xtBefore = s.rd (fXtState p))
      ∧ (g.swap ≠ none ∨ g.txLine ≠ none ∨ g.rxLine ≠ none → exec c s = .next (voteRefresh (s.putPort p { g with xtWait := true }))))
    ∧ (∀ m : List Nat × List Int, portUp s p = true → s.rd (fXtState p) = 1 →
        ∃ t, exec (.xtalkRecalibration p (some m)) s = .next t
          ∧ t.rd (fXtState p) = (if [0, 1, 2, 3].all (fun q => matrixOk s p q false (columnEntry m q)) then 0 else 2)
          ∧ ∀ q i j, q < 4 → i < 16 → j < 16 →
              t.rd (fXtalk p q i j) = (if matrixOk s p q false (columnEntry m q) = true then columnEntry m q i j % 2 ^ 16 else s.rd (fXtalk p q i j))))

/-- 12 R230, R233, R235, R236: a bias moves by at most 0.5 mA and never beyond bias_max; a swap asked for begins where a cold spare is left,
waits for a relock to end, is kept for the next bias period where min_groups forbids it, or is told that another is pending or that no spare
is; its steps follow; at the partner, a ring that finds the
light is locked and its receiver calibrated, one that does not is out of range (R234, R238, R242); a failed lock marks the new laser failed
and takes the old one back. That a swap asked for waits for a relock to end is the model's choice (log entry 16). -/
def Obligations.LasersAreSwapped : Prop :=
  ∀ (s : State) (p : Nat), p < 16 → s.isFatal = false →
    let g := s.port p
    let k := s.rd (fSwapSel p)
    (∀ (need : List Int) j, j < 32 → s.rd (fPortState p) ≠ 0 → s.rd (fPortState p) ≠ 1 →
      (∀ w, g.swap = some w → w.lamp = true → w.k ≠ j % 16) → g.swapKept = [] → s.flag (fAutoSwap p) = false →
      s.rd (fLaserState p j) = 1 →
        ∃ t, exec (.biasAdjust p need) s = .next t
          ∧ t.rd (fBias p j) = min (s.rd (fBiasMax p j)) ((s.rd (fBias p j) : Int) + max (-5) (min 5 (need.getD j 0))).toNat)
    ∧ (s.link.d3hot = true → exec (.swapNow p) s = .next (voteRefresh s))
    ∧ (∀ w, g.swap = some w → s.link.d3hot = false →
      (w.lamp = true → exec (.swapNow p) s = .next (voteRefresh (optEvent s p 0x0A k 0)))
      ∧ (∀ a b, w.lamp = false → portUp s p = true → k ∉ g.swapQ → activeLaser s p k = some a → coldSpare s p k = some b →
          exec (.swapNow p) s = .next (voteRefresh (s.putPort p { g with swapQ := g.swapQ ++ [k], swapKept := g.swapKept.filter (· ≠ k) }))))
    ∧ (g.swap = none → s.link.d3hot = false → portUp s p = true → activeLaser s p k = none → coldSpare s p k = none →
      exec (.swapNow p) s = .next (voteRefresh
        (optEvent (s.putPort p { g with swapQ := g.swapQ.filter (· ≠ k), swapKept := g.swapKept.filter (· ≠ k) }) p 0x07 k k)))
    ∧ (∀ a, g.swap = none → s.link.d3hot = false → portUp s p = true → activeLaser s p k = some a →
      (coldSpare s p k = none → exec (.swapNow p) s =
        .next (voteRefresh (optEvent (s.putPort p { g with swapQ := g.swapQ.filter (· ≠ k), swapKept := g.swapKept.filter (· ≠ k) }) p 0x07 k a)))
      ∧ (∀ b, coldSpare s p k = some b → (s.rd (fTxGroups p)).testBit k = true → minGroups s p < popcount 16 (s.rd (fTxGroups p)) →
          g.lineQ = [] → g.txLine = none →
          ∃ t, exec (.swapNow p) s = .next t ∧ (t.port p).swap = some ⟨k, a, b, false, true⟩ ∧ t.rd (fSwapPhase p) = 1
            ∧ (t.port p).txLine = some ⟨k, (g.lineTx + switchLead s p) % 2 ^ 32, true⟩)
      ∧ (∀ b, coldSpare s p k = some b → (s.rd (fTxGroups p)).testBit k = true → popcount 16 (s.rd (fTxGroups p)) - 1 < minGroups s p →
          exec (.swapNow p) s = .next (voteRefresh ((portEvent s p 0x0C k 0).modPort p fun g => { g with
            swapQ := g.swapQ.filter (· ≠ k), swapKept := g.swapKept.filter (· ≠ k) ++ [k] }))))
    ∧ (∀ w, g.swap = some w →
      (s.rd (fSwapPhase p) = 2 → exec (.laserSwapStepDone p none) s = .next (voteRefresh (s.wr (fSwapPhase p) 3)))
      ∧ (s.rd (fSwapPhase p) = 3 → s.rd (fTxLane p w.k 1 0) = 0 → s.rd (fTxLane p (w.k + 16) 1 0) = 0 →
          exec (.laserSwapStepDone p none) s = .next (voteRefresh (s.wr (fSwapPhase p) 4)))
      ∧ (s.rd (fSwapPhase p) = 3 ∨ s.rd (fSwapPhase p) = 4 → w.lamp = true → w.back = false → w.old < 32 → w.new < 32 → w.old ≠ w.new → w.k < 16 →
          ∃ t, exec (.spareLockTimeout p) s = .next t ∧ (t.port p).swap = some ⟨w.k, w.new, w.old, true, true⟩
            ∧ t.rd (fLaserState p w.new) = 3 ∧ t.rd (fSwapPhase p) = 2))
    ∧ (∀ (j : Nat) (l : List (Option LaneRead)), j < 16 →
      (g.rxTest.testBit j = false → exec (.laserSwapStepDone p (some (j, l))) s = .next (voteRefresh s))
      ∧ (g.rxTest.testBit j = true → ∃ t, exec (.laserSwapStepDone p (some (j, l))) s = .next t ∧ ∀ i, i < 2 →
          let lane := j + 16 * i
          match l.getD i none with
          | some r => t.rd (fRxLane p lane 1 0) = 0 ∧ t.rd (fRxLane p lane 31 26) = r.phase % 64 ∧ t.rd (fRxLane p lane 25 18) = r.gain % 256
              ∧ tget int0 (t.port p).rxOffset lane = max (-64) (min 64 r.offset)
          | none => t.rd (fRxLane p lane 1 0) = 2 ∧ 32 + lane ∈ (t.port p).range))

/-- 13 R258 to R261: a timestamp gives its port the partner's reference and, with an echo, an offset, and from upstream it corrects the
counter: a step forward when behind by more than 1 µs, half rate when ahead by more, else a slew of at most 10 ns; what the ports have
measured before a step or a slew is held against the counter as it has become; the reference is set at a
timestamp boundary and takes the epoch unless that lies below the counter; after 2^64 − 1 the counter is 0, each Up port sends a timestamp, and whatever
waits for a milestone reads it as reached. A slew back swallows one tick for each nanosecond. At half rate every other tick is swallowed until the excess over 1 µs is gone, counted down from
the offset measured (log entry 16). The model's own choice (log entry 2): on an empty queue a step is one nanosecond: only the counter, its
phase and the timestamps move. -/
def Obligations.MilestoneIsDisciplined : Prop :=
  (∀ (s : State),
    (∀ (p t1 : Nat) (back : Option (Nat × Nat)) (refModule hops : Nat), p < 16 →
      (0x20 ∉ (s.port p).ctlIn → exec (.milestoneTimestamp p t1 back refModule hops) s = .next (voteRefresh s))
      ∧ (0x20 ∈ (s.port p).ctlIn → s.isFatal = false → ∃ t, exec (.milestoneTimestamp p t1 back refModule hops) s = .next t
          ∧ (t.port p).stampT1 = t1 % 2 ^ 64 ∧ (t.port p).stampAt = s.mile ∧ (t.port p).refModule = refModule % 2 ^ 24 ∧ (t.port p).refHops = hops % 2 ^ 12
          ∧ ((t.port p).offsets = [] ∨ ∃ d : Int, -10 ≤ d ∧ d ≤ 10 ∧ (t.port p).offsets = (((match back with
              | some (t3, t4) => [(sint 64 (s.mile + 2 ^ 64 - t1 % 2 ^ 64) - sint 64 (t4 % 2 ^ 64 + 2 ^ 64 - t3 % 2 ^ 64)) / 2]
              | none => []) ++ (s.port p).offsets).take 16).map (· + d)))
      ∧ (s.Sound → 0x20 ∈ (s.port p).ctlIn → s.isFatal = false → ∀ t3 t4, back = some (t3, t4) → s.flag fMileRef = false → s.mileSt.up = true →
          s.rd fUpstream = p → portLive s p = true → refModule % 2 ^ 24 ≠ 0xFFFFFF →
          (∀ q, q < 16 → q ≠ p → portLive s q = false ∨ (s.port q).refModule = 0xFFFFFF) →
          let l := ((sint 64 (s.mile + 2 ^ 64 - t1 % 2 ^ 64) - sint 64 (t4 % 2 ^ 64 + 2 ^ 64 - t3 % 2 ^ 64)) / 2 :: (s.port p).offsets).take 16
          let o := meanOffset l
          let moved (t : State) (d : Int) := (t.port p).offsets = l.map (· + d) ∧ ∀ q, q ≠ p → (t.port q).offsets = (s.port q).offsets.map (· + d)
          ∃ t, exec (.milestoneTimestamp p t1 back refModule hops) s = .next t ∧ t.rd fRefModule = refModule % 2 ^ 24
            ∧ t.rd fHops = min 0xFFF (hops % 2 ^ 12 + 1) ∧ t.rd fOffset = sclamp 16 o
            ∧ (o < -1000 → t.mile = (s.mile + o.natAbs) % 2 ^ 64 ∧ (t.port p).offsets = [] ∧ t.rd fMileState = 1)
            ∧ (-1000 ≤ o → o < 0 → t.mile = (s.mile + min 10 o.natAbs) % 2 ^ 64 ∧ t.rd fMileState = 2 ∧ moved t (min 10 o.natAbs : Nat))
            ∧ (0 ≤ o → o ≤ 1000 → t.mile = s.mile ∧ t.mileSt.skip = min 10 o.natAbs ∧ t.rd fMileState = 2 ∧ moved t (-(min 10 o.natAbs : Nat)))
            ∧ (1000 < o → t.mile = s.mile ∧ t.mileSt.half = true ∧ moved t 0 ∧ (s.mileSt.half = false → t.mileSt.excess = o.natAbs - 1000))))
    ∧ (∀ off : Int, -1000 ≤ off → off < 0 → s.mile + 10 < 2 ^ 64 →
        s.mile ≤ (mileCorrect s off).mile ∧ (mileCorrect s off).mile ≤ s.mile + 10 ∧ (mileCorrect s off).rd fMileState = 2)
    ∧ (∀ w, refPending s = true → s.isFatal = false → s.mile < 2 ^ 64 → s.mile % 100000 = 0 →
        s.pendingSt.filter (fun p => decide (p.1 = 0x600000 ∨ p.1 = 0x600008)) = [(0x600000, w)] → w.getLsbD 0 = true →
        ∃ t, exec .mileRefSet s = .next t ∧ t.flag fMileRef = true ∧ t.mile = max s.mile (s.rd fEpoch))
    ∧ (s.mile % 100000 ≠ 0 → exec .mileRefSet s = .next (voteRefresh s))
    ∧ (s.mile ≠ 2 ^ 64 - 1 → exec .milestoneWrap s = .next (voteRefresh s))
    ∧ (s.mile = 2 ^ 64 - 1 → ∃ t, exec .milestoneWrap s = .next t ∧ t.mile = 0 ∧ (∀ f ∈ t.flights, f.startMile = 0)
        ∧ (∀ d ∈ t.dumps, d.atMile = true → d.n = 0)
        ∧ (∀ r, ∀ f ∈ (t.ring r).waiting, dClass f.q = some .bucket → dq f.q 5 = 0 ∨ dq f.q 5 = 2 ^ 64 - 1)
        ∧ (s.isFatal = false → ∀ p, p < 16 → portUp s p = true →
            CtlMsg.stamp 0 (s.port p).stampT1 (s.port p).stampAt (s.rd fRefModule) (s.rd fHops) ∈ (t.port p).ctlq)))
  ∧ ∀ s : State, s.pending = [] → step s = .next (tick s)
    ∧ (mileRuns s = false → tick s = s)
    ∧ (mileRuns s = true → s.mileSt.half = false → s.mileSt.skip = 0 → s.mile + 1 < 2 ^ 64 → (tick s).mile = s.mile + 1)
    ∧ (mileRuns s = true → s.mileSt.half = false → 0 < s.mileSt.skip → tick s = { s with mileSt := { s.mileSt with skip := s.mileSt.skip - 1 } })
    ∧ (mileRuns s = true → s.mileSt.half = true → s.mileSt.odd = false → (tick s).mile = s.mile
        ∧ (s.mileSt.excess ≤ 1 → (tick s).mileSt.half = false)
        ∧ (1 < s.mileSt.excess → (tick s).mileSt = { s.mileSt with odd := true, excess := s.mileSt.excess - 1 }))
    ∧ (mileRuns s = true → s.mileSt.half = true → s.mileSt.odd = true → s.mile + 1 < 2 ^ 64 → (tick s).mile = s.mile + 1)

/-- 13 R250 to R252, R254, R255; 11 R214: the oldest message of a channel that arrived at a port leaves its buffer; it is dropped and counted
where its slice was not admitted, delivered where it names this module and a partition of its slice, else queued at the port of its route; a
message of this module goes out with its route word, a segment once its exchange wharf has a barge place for it (10 R192; log entry 16). One
that came to the wharf die after another of its channel with the same egress waits for that one. -/
def Obligations.MessagesAreRouted : Prop :=
  ∀ (s : State), s.isFatal = false →
    (∀ p vc m, p < 16 → vc < 8 → (s.port p).inbox.find? (fun x => decide (x.vc = vc)) = some m →
      let q0 := leNat (sliceB m.bytes 0 8)
      let q1 := leNat (sliceB m.bytes 8 8)
      let slice := nbits q0 37 26
      let cls := nbits q0 39 38
      let part := nbits q0 25 24
      let here := nbits q0 23 0 = s.rd fModuleId
      (arrivedEgress s p m = if m.ok = some true ∧ cls ≠ 3 ∧ ¬ here then (routeOf s (nbits q0 23 0)).filter (· ≠ p) else none)
      ∧ (overtakes s (p / 2) vc m.no (arrivedEgress s p m) = true → exec (.messageRoute p vc) s = .next (voteRefresh s))
      ∧ (overtakes s (p / 2) vc m.no (arrivedEgress s p m) = false →
        ∃ t, exec (.messageRoute p vc) s = .next t ∧ (t.port p).inbox = dropFirst (fun x => decide (x.vc = vc)) (s.port p).inbox
        ∧ (m.ok ≠ some true ∨ cls = 3 → t.rd (fDropRoute p) = min (2 ^ 32 - 1) (s.rd (fDropRoute p) + 1) ∧ t.remoteIn = s.remoteIn)
        ∧ (m.ok = some true → cls = 1 ∨ cls = 2 → here → deliverable s part slice = true →
            t.remoteIn = s.remoteIn ++ [⟨some p, vc, part, cls, m.bytes.drop 16, m.flits, p / 2, 0⟩])
        ∧ (m.ok = some true → cls = 0 → here → deliverable s part slice = true →
            groupOf s part (segGid (m.bytes.drop 16)) ≠ none → segKind (m.bytes.drop 16) ≤ 5 →
            t.segIn = s.segIn ++ [⟨some p, vc, part, nbits q1 23 0, nbits q1 25 24, m.bytes.drop 16, m.flits⟩])
        ∧ (∀ e, m.ok = some true → cls ≠ 3 → ¬ here → routeOf s (nbits q0 23 0) = some e → e ≠ p →
            (t.port e).outq = (s.port e).outq ++ [⟨vc, m.bytes, 0, none⟩])))
    ∧ (∀ vc m, vc < 8 → s.remotes.find? (fun x => decide (x.vc = vc)) = some m → s.flag (fSliceValid m.part) = true →
        m.dstModule % 2 ^ 24 ≠ s.rd fModuleId → (∀ w, m.wharf = some w → placeFree s (0x80 + w) = true) →
        localEgress s m = routeOf s (m.dstModule % 2 ^ 24)
        ∧ (overtakes s m.home vc m.no (localEgress s m) = true → exec (.messageRoute 16 vc) s = .next (voteRefresh s))
        ∧ (overtakes s m.home vc m.no (localEgress s m) = false →
          ∃ t, exec (.messageRoute 16 vc) s = .next t ∧ t.remotes = dropFirst (fun x => decide (x.vc = vc)) s.remotes
          ∧ (∀ e, routeOf s (m.dstModule % 2 ^ 24) = some e → (t.port e).outq = (s.port e).outq ++ [⟨vc, routeWord s m ++ m.body, 0, m.wharf⟩])
          ∧ (routeOf s (m.dstModule % 2 ^ 24) = none → t.rd fNoRoute = min (2 ^ 32 - 1) (s.rd fNoRoute + 1))))
    ∧ (∀ vc m w, vc < 8 → s.remotes.find? (fun x => decide (x.vc = vc)) = some m → m.wharf = some w → placeFree s (0x80 + w) = false →
        exec (.messageRoute 16 vc) s = .next (voteRefresh s))
    ∧ (∀ w vc no e, overtakes s w vc no (some e) = true ↔
        (∃ p ∈ [2 * w, 2 * w + 1], ∃ m ∈ (s.port p).inbox, m.vc = vc ∧ m.no < no ∧ arrivedEgress s p m = some e)
        ∨ ∃ m ∈ s.remotes, m.home = w ∧ m.vc = vc ∧ m.no < no ∧ localEgress s m = some e ∧ (∀ x, m.wharf = some x → placeFree s (0x80 + x) = true))

/-- 13 R257; 05 R94: the oldest remote write of its channel and port is written where its partition may write, in HBM or in a scratchpad whose
lanes are idle, of which one tile cycle takes the bytes up to the next multiple of 4 KiB; one to a place it may not write, or that the host
link cannot carry (this one: log entry 16), is dropped, counted at its port and changes no memory; a permitted one waits while its tile or
memory is not up (15 R290); a remote gate add raises a gate of its partition, at once by the model's choice (log entry 16); behind an older message neither moves. -/
def Obligations.RemoteMessagesLand : Prop :=
  ∀ (s : State) (i : Nat) (m : RemoteIn), s.isFatal = false → s.remoteIn[i]? = some m →
    let dpa := nbits (leNat (sliceB m.bytes 0 8)) 47 0
    let bytes := m.bytes.drop 16
    (remoteFirst s i m = false → exec (.remoteWrite i none) s = .next (voteRefresh s) ∧ exec (.remoteGateAdd i) s = .next (voteRefresh s))
    ∧ (remoteFirst s i m = true → m.cls = 1 → dpaOk s m.part false dpa bytes.length = true → hostFits s dpa bytes.length = true →
      (∃ x ∈ rangeParts dpa bytes.length, locReady s x.1 = false) → exec (.remoteWrite i none) s = .next (voteRefresh s))
    ∧ (remoteFirst s i m = true → m.cls = 1 → (dpaOk s m.part false dpa bytes.length = false ∨ hostFits s dpa bytes.length = false) →
        ∃ t, exec (.remoteWrite i none) s = .next t ∧ t.remoteIn = s.remoteIn.eraseIdx i ∧ t.hbm = s.hbm ∧ t.spad = s.spad
          ∧ ∀ p, m.port = some p → p < 16 → t.rd (fDropRoute p) = min (2 ^ 32 - 1) (s.rd (fDropRoute p) + 1))
    ∧ (remoteFirst s i m = true → m.cls = 1 → (∀ x ∈ rangeParts dpa bytes.length, locReady s x.1 = true) →
      (dpaLoc s dpa = .hbm → dpaOk s m.part false dpa bytes.length = true → s.hbmUe = [] → m.got = 0 →
        ∃ t, exec (.remoteWrite i none) s = .next t ∧ t.remoteIn = s.remoteIn.eraseIdx i ∧ t.spad = s.spad
          ∧ (∀ j, j < bytes.length → dpaByte t (dpa + j) = bytes.getD j 0#8)
          ∧ ∀ a, a < 0x9000000000 → a < dpa ∨ dpa + bytes.length ≤ a → dpaByte t a = dpaByte s a)
      ∧ (∀ tile o, dpaLoc s dpa = .spad tile o → dpaOk s m.part false dpa bytes.length = true → LanesIdle s tile → o % 2 = 0 →
          bytes.length % 2 = 0 → o + bytes.length ≤ 0x4000000 → m.got = 0 →
        let n := min bytes.length (4096 - o % 4096)
        ∃ t, exec (.remoteWrite i none) s = .next t ∧ t.hbm = s.hbm
          ∧ t.remoteIn = (if n = bytes.length then s.remoteIn.eraseIdx i else s.remoteIn.set i { m with got := 1 })
          ∧ ∀ k, tget byte0 t.spad k = (let b := s.tileSite tile * 0x4000000 + o
              if b ≤ k ∧ k < b + n then bytes.getD (k - b) 0#8 else tget byte0 s.spad k)))
    ∧ (remoteFirst s i m = true → m.cls = 2 → ∀ tile g, decRef (leNat (sliceB m.bytes 0 8)) = .gate tile g → tileReady s tile = true →
        ownsTile s m.part tile = true → (s.tile tile).gateOps = [] →
        ∃ t, exec (.remoteGateAdd i) s = .next t ∧ t.remoteIn = s.remoteIn.eraseIdx i ∧ t.hbm = s.hbm ∧ t.spad = s.spad
          ∧ t.gate tile g = s.gate tile g + BitVec.ofNat 32 (leNat (sliceB m.bytes 8 4))
          ∧ ∀ n h, (n ≠ tile ∨ h ≠ g) → t.gate n h = s.gate n h)

/-- 10 R191, R193, R195, R199, R205: a bucket post in time enters the table as posted, and its descriptor waits for its bucket; a segment of
a key that has an entry, a partial from the rank before or a contribution at the owner, is held in the hold area when it cannot land; the
next partial of a posted bucket lands in its tile's next slot, if that is free, whatever the hold area has room for; a partial from another
rank is dropped. -/
def Obligations.BucketsGather : Prop :=
  ∀ (s : State),
    (∀ r f n, DueNow s r .bucket f → waitingPosts s r = [] → postCheck s (s.rd (fRPart r)) f.q = 0 →
      groupOf s (s.rd (fRPart r)) (nbits (dq f.q 2) 55 40) = some n → (∀ b ∈ s.buckets, b.grp ≠ n) → s.buckets.length < 1024 → s.mile < dq f.q 5 →
      (∀ d ∈ (s.ring r).out, d.count ≠ f.count) → (∀ x ∈ (s.ring r).waiting.drop 1, x.count ≠ f.count) →
      ∃ t b p, exec (.reductionBucketPost r) s = .next t ∧ t.buckets = s.buckets ++ [b] ∧ b.grp = n ∧ b.step = nbits (dq f.q 2) 31 0
        ∧ b.bucket = nbits (dq f.q 2) 39 32 ∧ b.phase = .posted ∧ b.missedSelf = false ∧ b.elems = nbits (dq f.q 4) 31 0 ∧ b.deadline = dq f.q 5
        ∧ b.post = some p ∧ p.ring = r ∧ p.count = f.count ∧ p.t0 = s.mile ∧ p.dpa = nbits (dq f.q 3) 47 0 ∧ p.late = false
        ∧ ⟨f.count, f.q, s.mile, .bucket n b.bucket b.step⟩ ∈ (t.ring r).out)
    ∧ (∀ i n m b c kind, (c = .partialSegment ⟨i, none⟩ ∧ kind = 0) ∨ (c = .contributionSegment ⟨i, none⟩ ∧ kind = 1) → SegDue s i kind m n →
      s.bucketOf n (segStep m.bytes) (segBucket m.bytes) = some b →
      let g := segRead m.bytes
      let held := exec c s = .next (voteRefresh (holdSeg (SegTaken s i m) { b with
        firstLand := some (b.firstLand.getD s.mile), before := if kind = 0 then max b.before g.missing else b.before } g))
      (kind = 0 → rgAlg s n = 0 → g.srcRank + 1 = rgRank s n → m.srcModule = s.rd (fRg n 0x10 37 14) → m.srcPart = s.rd (fRg n 0x10 13 12) →
        b.phase ≠ .missed → (b.post = none ∨ g.index ≠ b.nextLand) → holdRoom s b.grp g = true → held)
      ∧ (kind = 1 → rgAlg s n ≠ 0 → isOwner s b = true →
        (b.post = none ∨ ∀ q, ownerNext s b = some q → g.srcRank ≠ q % rgN s n ∨ g.index ≠ q / rgN s n) → holdRoom s b.grp g = true → held)
      ∧ (∀ p tile, kind = 0 → rgAlg s n = 0 → g.srcRank + 1 = rgRank s n → m.srcModule = s.rd (fRg n 0x10 37 14) → m.srcPart = s.rd (fRg n 0x10 13 12) →
        b.post = some p → p.wharfAdd = false → b.missedSelf = false → b.phase = .posted → b.nextLand < b.count s → g.index = b.nextLand →
        b.samePass g = true → segAgrees s b g = true → (∀ x ∈ b.held, x.kind = 0 → x.index ≠ g.index) → postTile s p = some tile →
        tileReady s tile = true → tile ∉ s.fenced → (∀ x ∈ s.buckets, ∀ l ∈ x.landed, l.wharf = false) → NoSlotLeft s n tile →
        slotFree s n tile (slotNext s n tile) = true →
        ∃ t b1 l, exec c s = .next t ∧ t.bucketOf n b.step b.bucket = some b1 ∧ b1.held = b.held ∧ b1.nextLand = b.nextLand + 1
          ∧ l ∈ b1.landed ∧ l.slot = slotNext s n tile ∧ l.tile = some tile ∧ l.seg = g ∧ slotNext t n tile = slotNext s n tile + 1)
      ∧ (kind = 0 → g.srcRank + 1 ≠ rgRank s n → exec c s = .next (voteRefresh (segDrop (SegTaken s i m) m))))

/-- 10 R198, R201, R202, R205 to R208: a notice marks its rank missing at the owner; a result of the pass that ended here is
written and sent on, and neither where its write would merge into an uncorrectable datum (14 R267), or where the host link does not carry the
buffer, which halts the post with 0x43 (02 R25), and it waits while the buffer's tile or memory is down (15 R290); once every segment and the
trailer are here the trailer record is written, the consumer gate raised and the post judged, which wait while memory or tile is down; a repeat begins the next pass with its
format and exponent; a trailer of the pass that ended here is the final one, the predecessor's ahead of it on a chain ends the incoming
pass; an unknown group's segment is dropped and counted. -/
def Obligations.SegmentsMoveBuckets : Prop :=
  ∀ (s : State) (i : Nat) (m : SegIn),
    let s1 := SegTaken s i m
    (∀ n b, s.bucketOf n (segStep m.bytes) (segBucket m.bytes) = some b →
    let g := segRead m.bytes
    let onto (t : State) := sendAll t b { g with srcRank := rgRank s n, prefixRank := rgRank s n } (returnTo s1 b.grp b.bucket)
    (SegDue s i 2 m n → rgAlg s n ≠ 0 → isOwner s b = true → g.srcRank ∉ b.notices →
      let b1 := { b with notices := b.notices ++ [g.srcRank] }
      exec (.missingNotice ⟨i, none⟩) s = .next (voteRefresh (passEnd (s1.putBucket b1) b1)))
    ∧ (SegDue s i 3 m n → b.phase = .passed → b.samePass g = true → bufferUp s b = false → exec (.resultSegment i) s = .next (voteRefresh s))
    ∧ (SegDue s i 3 m n → b.phase = .passed → b.samePass g = true → (b.post ≠ none ∨ holdRoom s b.grp g = true) → bufferUp s b = true →
      let b1 := { b with results := b.results + 1, told := max b.told g.missing, resultSegs := if b.post = none then b.resultSegs ++ [g] else [] }
      (∀ t, writeResult s1 b g = some t → exec (.resultSegment i) s = .next (voteRefresh (finish ((onto t).putBucket b1) b1)))
      ∧ (∀ p, writeResult s1 b g = none → b.post = some p →
        exec (.resultSegment i) s = .next (voteRefresh (if bufferFits s1 p then s1.putBucket { b1 with stuck := true } else bufferHalt s1 b1 0x43))))
    ∧ (SegDue s i 4 m n → b.phase = .passed → g.fmt ≠ 0 →
      exec (.repeatNotice i) s = .next (voteRefresh (passAnew (onto s1) b g.fmt g.exponent g.rep)))
    ∧ (SegDue s i 4 m n → b.phase = .passed → g.fmt = 0 →
      exec (.repeatNotice i) s = .next (voteRefresh (passAnew ((onto s1).inc (fFallbacks n)) b 0 g.exponent g.rep)))
    ∧ (SegDue s i 5 m n → b.phase = .passed → b.samePass g = true → (b.post ≠ none ∨ holdRoom s b.grp g = true) →
      let b1 := { b with final := some g }
      exec (.trailerSegment ⟨i, none⟩) s = .next (voteRefresh (finish ((onto s1).putBucket b1) b1)))
    ∧ (SegDue s i 5 m n → b.phase = .posted → isChain s b = true → b.samePass g = true → g.srcRank + 1 = rgRank s n →
      m.srcModule = s.rd (fRg n 0x10 37 14) → m.srcPart = s.rd (fRg n 0x10 13 12) →
      let b1 := { b with trailer := some (trailerRead g.payload), before := max b.before (trailerRead g.payload).count }
      exec (.trailerSegment ⟨i, none⟩) s = .next (voteRefresh (passEnd (s1.putBucket b1) b1))))
    ∧ (∀ (b : Bucket) (g : Seg) (p : PostSt), b.final = some g → b.post = some p → b.elems ≠ 0 →
      let a := recordAt s b
      (b.results < b.count s → finish s b = s)
      ∧ (b.count s ≤ b.results → s.isFatal = false → b.stuck = false → hbmOk s (rgPart s b.grp) a 0x1080 = true → s.hbmUe = [] →
        (locReady s a = false ∨ tileReady s (refTile p.gate) = false → finish s b = s)
        ∧ (locReady s a = true → tileReady s (refTile p.gate) = true → (s.tile (refTile p.gate)).gateOps = [] →
          let t := finish s b
          (∀ j, j < 0x1080 → dpaByte t (a + j) = (takePad 0x1080 (segWire b g)).getD j 0#8)
          ∧ t.gate (refTile p.gate) (refGate p.gate) = s.gate (refTile p.gate) (refGate p.gate) + 1
          ∧ ∀ x ∈ (s.ring p.ring).out, x.count = p.count → x.work = .bucket b.grp b.bucket b.step →
              { x with work := .judged (postStatus b p g.fault) (postResult s b) none } ∈ (t.ring p.ring).out)))
    ∧ (∀ c kind, (c, kind) ∈ [(Instr.partialSegment ⟨i, none⟩, 0), (.contributionSegment ⟨i, none⟩, 1), (.missingNotice ⟨i, none⟩, 2), (.resultSegment i, 3),
          (.repeatNotice i, 4), (.trailerSegment ⟨i, none⟩, 5)] →
        s.isFatal = false → s.segIn[i]? = some m → segKind m.bytes = kind → (∀ x ∈ s.segIn.take i, x.vc ≠ m.vc ∨ x.port ≠ m.port) →
        groupOf s m.part (segGid m.bytes) = none → exec c s = .next (voteRefresh (segDrop s1 m)))

/-- 10 R190, R195, R199, R203, R206, R210; 09 R184: a posted bucket's next held partial lands in the next slot of its tile and raises the
arrive gate; an added one is forwarded; a deadline without a post sends the missing notice; a result that does not come in time halts the
post with 0x44, also one that stands outside the bucket table; a halt notice stops the cores of its tile and drops its firings that are not
admitted. That the arrive gate is raised at once, and that a forwarded segment is queued although no barge place is free, are the model's
choice (log entry 16). -/
def Obligations.BucketsLandAndTimeOut : Prop :=
  ∀ (s : State), s.isFatal = false →
    (∀ i b p tile g, s.buckets[i]? = some b → b.post = some p → p.wharfAdd = false → b.missedSelf = false → b.phase = .posted → isChain s b = true →
      rgRank s b.grp ≠ 0 → b.nextLand < b.count s →
      b.held.find? (fun x => decide (x.kind = 0) && decide (x.index = b.nextLand) && b.samePass x && segAgrees s b x) = some g →
      postTile s p = some tile → tileReady s tile = true → tile ∉ s.fenced → (∀ x ∈ s.buckets, ∀ l ∈ x.landed, l.wharf = false) → NoSlotLeft s b.grp tile →
      (s.tile tile).gateOps = [] →
      slotFree s b.grp tile (slotNext s b.grp tile) = true →
      ∃ t b1 l, exec (.slotLanding ⟨i, none⟩) s = .next t ∧ t.buckets[i]? = some b1 ∧ l ∈ b1.landed ∧ l.slot = slotNext s b.grp tile ∧ l.tile = some tile
        ∧ l.op = 0 ∧ l.seg = g ∧ l.wharf = false ∧ l.done = false ∧ b1.nextLand = b.nextLand + 1
        ∧ slotNext t b.grp tile = slotNext s b.grp tile + 1 ∧ t.gate tile (rgArrive s b.grp) = s.gate tile (rgArrive s b.grp) + 1)
    ∧ (∀ i b p l rest d, s.buckets[i]? = some b → b.post = some p → b.landed = l :: rest → b.phase = .posted → locReady s p.dpa = true →
      forwardReady s b p l = true →
      (∀ tile, postTile s p = some tile → adderNext s tile = none ∧ leftSlot s tile = none) → isChain s b = true → isDecider s b = false → sendTo s b.grp b.bucket = some d → b.nextFwd + 1 < b.count s →
      ∃ t b1 x, exec (.segmentForward ⟨i, none⟩) s = .next t ∧ t.buckets[i]? = some b1 ∧ b1.landed = rest ∧ b1.nextFwd = b.nextFwd + 1
        ∧ t.remotes = s.remotes ++ [x] ∧ x.dstModule = d.1 ∧ x.dstPart = d.2 ∧ x.cls = 0
        ∧ x.wharf = some (exchangeWharf s p.dpa b.bucket))
    ∧ (∀ r count f n d, r < 1024 → count < 2 ^ 32 → (s.ring r).waiting.find? (fun f => decide (f.count = count)) = some f → f.bad = none →
      dClass f.q = some .bucket → dq f.q 5 ≠ 2 ^ 64 - 1 → dq f.q 5 ≤ s.mile → postCheck s (s.rd (fRPart r)) f.q = 0 →
      groupOf s (s.rd (fRPart r)) (pqGroup f.q) = some n → s.bucketOf n (pqStep f.q) (pqBucket f.q) = none → s.buckets.length < 1024 →
      rgAlg s n ≠ 0 → rgRank s n ≠ deciding s n (pqBucket f.q) → sendTo s n (pqBucket f.q) = some d →
      ∃ t b x, exec (.bucketDeadline r count) s = .next t ∧ t.buckets = s.buckets ++ [b] ∧ b.missedSelf = true ∧ b.phase = .passed
        ∧ b.step = pqStep f.q ∧ b.bucket = pqBucket f.q ∧ t.remotes = s.remotes ++ [x] ∧ x.dstModule = d.1 ∧ segKind x.body = 2)
    ∧ (∀ r count d g bk st b p, r < 1024 → count < 2 ^ 32 → outOf s r count = some d → d.work = .bucket g bk st → s.bucketOf g st bk = some b →
      b.post = some p →
      (s.mile < max p.t0 p.deadline + p.resultTo → exec (.resultTimeout r count) s = .next (voteRefresh s))
      ∧ (max p.t0 p.deadline + p.resultTo ≤ s.mile → ∃ t, exec (.resultTimeout r count) s = .next t
          ∧ t.buckets = dropFirst (fun x => decide (x.grp = b.grp) && decide (x.step = b.step) && decide (x.bucket = b.bucket)) s.buckets
          ∧ ∀ x ∈ (s.ring p.ring).out, x.count = p.count → x.work = .bucket b.grp b.bucket b.step → ∃ y ∈ (t.ring p.ring).out, y.count = x.count ∧ y.q = x.q
              ∧ ∃ ix, y.work = .judged 0x44 (postResult s b) (some ix)))
    ∧ (∀ r count d c, r < 1024 → count < 2 ^ 32 → outOf s r count = some d → d.work.outside = some c →
      (s.mile < max d.t0 (dq d.q 5) + c.resultTo → exec (.resultTimeout r count) s = .next (voteRefresh s))
      ∧ (max d.t0 (dq d.q 5) + c.resultTo ≤ s.mile → ∃ t y res ix, exec (.resultTimeout r count) s = .next t ∧ outOf t r count = some y
          ∧ y.q = d.q ∧ y.work = .judged 0x44 res (some ix)))
    ∧ (∀ part fid tile f, part < 4 → fid < 2 ^ 16 → tile < 60 → flightOf s part fid = some f → tile ∈ f.notices →
      ∃ t g, exec (.haltNoticeArrival part fid ⟨tile, none⟩) s = .next t
        ∧ flightOf t part fid = some g ∧ g.notices = f.notices.filter (· ≠ tile) ∧ g.cores = f.cores ∧ g.stop = f.stop
        ∧ (∀ b ∈ t.barges, firingOf part fid b = true → b.engine = tile → b.admitted = true)
        ∧ (∀ u ∈ f.cores, u / 4 = tile → (s.core u).phase = .run → (t.core u).phase = .stopped)
        ∧ ∀ u, u / 4 ≠ tile → t.core u = s.core u)

/-- 09 R170, R172, R173; 04 R63: a launch goes from its check through its cores, the copy, the gates and the standing barges to its release;
the copy gives each core of the stage table the launch state of R63; at start_mile the flight runs, unless it has halted before; where a tile
of it is not up the step waits, and at start_mile the tiles are waked (15 R290, R291; how long that vote lasts: log entry 13); when every
core is done it ends, its cores are free and its launch is judged: 0x02 if a core repeated (06 R128; a launch with subcode 1 is done earlier,
03 R50). -/
def Obligations.FlightsLaunchAndEnd : Prop :=
  ∀ (s : State) (r count : Nat) (f : Flight), r < 1024 → count < 2 ^ 32 → s.isFatal = false → launchOf s r count = some f →
    let stepTo (k : LaunchStep) (P : State → Prop) := ∃ t g, exec (.launchStepDone r count none) s = .next t ∧ launchOf t r count = some g
      ∧ g.step = k ∧ g.part = f.part ∧ g.fid = f.fid ∧ g.cores = f.cores ∧ P t
    (f.step = .check → flightOf s f.part f.fid = none → stepTo .idleCores fun t => t.cores = s.cores ∧ t.hbm = s.hbm ∧ t.spad = s.spad)
    ∧ (f.step = .idleCores → (∃ u ∈ f.cores, (s.core u).phase ≠ .idle) → exec (.launchStepDone r count none) s = .next (voteRefresh s))
    ∧ (f.step = .idleCores → s.flights.head? = some f → (∀ u ∈ f.cores, (s.core u).phase = .idle) → (∀ n ∈ f.tiles, tileReady s n = true) →
        stepTo .copy fun t => (∀ u ∈ f.cores, (t.core u).phase = .armed ∧ (t.core u).part = f.part ∧ (t.core u).flight = f.fid)
          ∧ ∀ u, u ∉ f.cores → t.core u = s.core u)
    ∧ (f.step = .copy → (∀ n ∈ f.tiles, tileReady s n = true) → s.hbmUe = [] → stepTo .gates fun t => t.hbm = s.hbm ∧ t.spad = s.spad
        ∧ ∀ i, i < imgStages s f.dpa → (∀ j, i < j → j < imgStages s f.dpa → stUid s (stageAt s f.dpa j) ≠ stUid s (stageAt s f.dpa i)) →
          let a := stageAt s f.dpa i
          let c := t.core (stUid s a)
          c.phase = .armed ∧ c.part = f.part ∧ c.flight = f.fid ∧ c.stage = stId s a ∧ c.arg = f.arg ∧ c.pc = stEntry s a
            ∧ (∀ d, c.sreg d = 0#64) ∧ (∀ v e, c.velem v e = 0#32) ∧ (∀ p e, c.pbit p e = false) ∧ c.fifo = [] ∧ c.redirects = []
            ∧ c.bankX = [] ∧ c.bankY = [] ∧ takePad 512 c.lastVec = List.replicate 512 0#8
            ∧ (∀ k, k < stCount s a → tget (fun _ => 0#256) c.imem k = BitVec.ofNat 256 (leNat (hbmRead s (f.dpa + stProg s a + 32 * k) 32)))
            ∧ (∀ k, stCount s a ≤ k → tget (fun _ => 0#256) c.imem k = 0#256))
    ∧ (f.step = .gates → (∀ n ∈ f.tiles, tileReady s n = true) → stepTo .arm fun t => t.cores = s.cores
        ∧ ∀ i, i < imgGates s f.dpa → let w (k : Nat) := im64 s f.dpa (imgGateOff s f.dpa + 8 * k)
          (∀ j, i < j → j < imgGates s f.dpa → nbits (w j) 49 32 ≠ nbits (w i) 49 32) →
          t.gate (nbits (w i) 49 44) (nbits (w i) 43 32) = BitVec.ofNat 32 (w i))
    ∧ (f.step = .arm → (∀ n ∈ f.tiles, tileReady s n = true) → stepTo .release fun t => t.cores = s.cores ∧ ∀ n g, t.gate n g = s.gate n g)
    ∧ (f.step ∈ [LaunchStep.copy, .gates, .arm] → (∃ n ∈ f.tiles, tileReady s n = false) → exec (.launchStepDone r count none) s = .next (voteRefresh s))
    ∧ (f.step = .release → s.mile < f.startMile → exec (.flightRelease r count) s = .next (voteRefresh s))
    ∧ (f.step = .release → f.haltIx ≠ none → exec (.flightRelease r count) s = .next (voteRefresh s))
    ∧ (f.step = .release → f.haltIx = none → f.startMile ≤ s.mile → (∃ n ∈ f.tiles, tileReady s n = false) →
        exec (.flightRelease r count) s = .next (voteRefresh (wakeTiles s f.tiles)))
    ∧ (f.step = .release → f.haltIx = none → f.startMile ≤ s.mile → (∀ n ∈ f.tiles, tileReady s n = true) → ∃ t g, exec (.flightRelease r count) s = .next t ∧ launchOf t r count = some g
        ∧ g.step = .running ∧ g.ts = s.mile ∧ g.part = f.part ∧ g.fid = f.fid
        ∧ ∀ d ∈ s.dumps, d.part = f.part → d.fid = f.fid → ∃ e ∈ t.dumps, e = { d with applied := true, failed := e.failed })
    ∧ (flightOf s f.part f.fid = some f → f.part < 4 → f.fid < 2 ^ 16 →
        (flightCanEnd s f = false → exec (.flightEnd f.part ⟨f.fid, none⟩) s = .next (voteRefresh s))
        ∧ (flightCanEnd s f = true → s.dumps = [] → f.haltIx = none → f.stop = .none →
          let status := if f.atStart = false ∧ ∃ u ∈ f.cores, s.rd (fRepeats u) ≠ 0 then 0x02 else 0
          ∃ t, exec (.flightEnd f.part ⟨f.fid, none⟩) s = .next t
            ∧ t.flights.map (fun g => (g.ring, g.count, g.fid)) = (dropFirst f.same s.flights).map (fun g => (g.ring, g.count, g.fid))
            ∧ (∀ u ∈ f.cores, (t.core u).phase = .idle)
            ∧ (f.orphan = false → ∀ d ∈ (s.ring r).out, d.count = count → d.work = .launch → { d with work := .judged status f.ts none } ∈ (t.ring r).out)))

/-- 01 R15; 09 R175 to R179: the first ready barge of an engine is admitted while a place is free, that of a tile only while the tile is up (15 R290); its next piece leaves HBM for the mesh
with the bytes that stand there, in parts where its destination enters another stack, scratchpad or aperture (13 R257); a piece that meets
HBM is written; with every piece visible the barge is complete, its done gate raised, its descriptor judged with its bytes, and it keeps its
place until the record is written; a standing barge whose gates allow it becomes ready, before the descriptors' barges and later entries of
the same tile cycle; a gate set or add reaches the gate unit of a tile of its partition, and is dropped at any other. The size of a piece is
the model's choice (log entry 11), and so is that a raised gate is applied at once (log entry 16). -/
def Obligations.BargesMove : Prop :=
  ∀ (s : State), s.isFatal = false →
    (∀ b r c, s.barge b.id = some b → b.origin = .ring r c → b.admitted = false →
      (placeFree s b.engine = false ∨ b.engine < 60 ∧ tileReady s b.engine = false → exec (.bargeAdmission b.id) s = .next (voteRefresh s))
      ∧ (placeFree s b.engine = true → 60 ≤ b.engine ∨ tileReady s b.engine = true → s.barges.find? (fun x => decide (x.engine = b.engine) && !x.admitted) = some b →
        exec (.bargeAdmission b.id) s = .next (voteRefresh { s with barges := s.barges.map fun x => if x.id = b.id then { x with admitted := true } else x })))
    ∧ (∀ b, bargeMaySend s b = true → b.admitted = true ∧ (60 ≤ b.engine ∨ tileReady s b.engine = true))
    ∧ (∀ b, s.barge b.id = some b → bargeMaySend s b = true → b.release = none → s.hbmUe = [] →
      let a := ((b.pieceSrc b.sent).headD (0, 0)).1
      let dst := (b.pieceDst b.sent).1
      let parts := cutAt (if dst < hbmTop then 2048 else 2 ^ 24) 3 dst ((b.pieceSrc b.sent).flatMap fun p => (List.range p.2).map fun i => dpaByte s (p.1 + i))
      dpaLoc s a = .hbm → (∀ p ∈ b.pieceSrc b.sent, locReady s p.1 = true ∧ locReady s (p.1 + p.2 - 1) = true) →
      exec (.bargePieceRead b.id none) s = .next (voteRefresh { s with
        barges := s.barges.map fun x => if x.id = b.id then { x with sent := x.sent + 1, handed := x.handed + parts.length } else x
        mesh := s.mesh ++ parts.map fun p => ⟨b.part, meshDst s p.addr, .piece b.id b.sent p.addr p.data, .barge b.id⟩ }))
    ∧ (∀ b r c, s.barge b.id = some b → b.origin = .ring r c → b.admitted = true → b.failed = false → b.complete = false → b.pieces ≤ b.sent → b.handed ≤ b.written → b.awaiting = [] →
      (∀ x ∈ s.barges, x.id ≠ b.id → x.engine ≠ b.engine ∨ x.chan ≠ b.chan) → (∀ k, b.done = some k → (s.tile (k / 4096)).gateOps = [] ∧ tileReady s (k / 4096) = true) →
      ∃ t, exec (.bargeCompletion b.id) s = .next t
        ∧ t.barges = (if ∃ d ∈ (s.ring r).out, d.count = c ∧ d.work = .barge b.id then s.barges.map fun x => if x.id = b.id then { x with complete := true } else x
            else s.barges.filter fun x => decide (x.id ≠ b.id))
        ∧ (∀ k n g, b.done = some k → t.gate n g = (if n = k / 4096 ∧ g = k % 4096 then s.gate n g + 1 else s.gate n g))
        ∧ ∀ d ∈ (s.ring r).out, d.count = c → d.work = .barge b.id → { d with work := .judged 0 (b.rows * b.rowBytes) none } ∈ (t.ring r).out)
    ∧ (∀ b k, s.barge b.id = some b → b.failed = false → b.done = some k → tileReady s (k / 4096) = false → exec (.bargeCompletion b.id) s = .next (voteRefresh s))
    ∧ (∀ tile ix, tile < 60 → tileReady s tile = false → exec (.standingBargeFiring tile ix) s = .next (voteRefresh s))
    ∧ (∀ tile ix st, tile < 60 → tileReady s tile = true → tget (fun _ => none) (s.tile tile).standing ix = some st → mayFire s tile ix = true → standingReady s tile ix = true →
      let b := firing s tile ix (firedSoFar s tile ix st) st
      b.rangesOk s = true →
      ∃ t l r, exec (.standingBargeFiring tile ix) s = .next t ∧ s.barges = l ++ r ∧ t.barges = l ++ b :: r
        ∧ (∀ x ∈ l, givesWay b ix x = false) ∧ (∀ x, r.head? = some x → givesWay b ix x = true) ∧ t.bargeNext = s.bargeNext + 1 ∧ t.cores = s.cores)
    ∧ (∀ i x, s.mesh[i]? = some x → (∀ y ∈ s.mesh.take i, sameStream s y.who x.who = false ∨ y.dst ≠ x.dst) →
      (∀ tile g n p set, x.dst = .tile tile → x.load = (if set then .gateSet g n p else .gateAdd g n p) → s.tilePart tile = some x.tag →
        exec (.meshTransferDelivery i none) s = .next (voteRefresh { s with
          mesh := s.mesh.eraseIdx i
          tiles := tset tile0 s.tiles tile { s.tile tile with gateOps := (s.tile tile).gateOps ++ [⟨g, set, n, p, x.who⟩] } }))
      ∧ (∀ tile, x.dst = .tile tile → s.tilePart tile ≠ some x.tag → x.who = .none →
        ∃ t, exec (.meshTransferDelivery i none) s = .next t ∧ t.mesh = s.mesh.eraseIdx i ∧ t.tiles = s.tiles ∧ t.spad = s.spad ∧ t.hbm = s.hbm
          ∧ tget nat0 t.routerDrops (s.tileSite tile) = tget nat0 s.routerDrops (s.tileSite tile) + 1)
      ∧ (∀ id k dpa bytes b, x.load = .piece id k dpa bytes → dpaLoc s dpa = .hbm → hbmReady s (dpa / quadBytes) = true → tagOk s x = true →
        s.barge id = some b → s.hbmUe = [] →
        ∃ t, exec (.meshTransferDelivery i none) s = .next t ∧ t.mesh = s.mesh.eraseIdx i ∧ t.spad = s.spad
          ∧ t.barges = s.barges.map (fun y => if y.id = id then { y with written := y.written + 1, moved := y.moved + bytes.length } else y)
          ∧ t.hbm = tsetAll byte0 s.hbm ((List.range bytes.length).map fun j => (hbmKey s (dpa + j), bytes.getD j 0#8))))

/-- 15 R281; 16 R299, R301; 19 R342; 01 R11: power-up begins above 38 V with the fuses, flash and tollhouse's secrets as they were and all
else at its reset value; the steps follow, with standby, host-power, rails and ceilings as they raise them, the measured start signal by
signal, and end with zero scratchpads; a step out of time is fatal, UCIe training and the ports that come Up beside the others too, but a measured start leaves recovery, which a
cold start alone ends; a site that fails the self-test is condemned by its record, which the failure log has yet to take in (01 R11; 17
R327); a withdrawn PRESENT_N leaves the module without power, its rails fallen in reverse. What flash, fuses and secrets hold at reset is the model's
choice (log entry 4), and so are the kind of the entry 0x87, which WentFatal leaves out (log entry 16), and that every byte of HBM reads zero after
power-up (log entry 5). -/
def Obligations.PowerUpRunsItsSteps : Prop :=
  ∀ (s : State),
    let off (t : State) := t.spad = [] ∧ t.hbm = [] ∧ t.cores = [] ∧ t.rings = [] ∧ t.flights = [] ∧ t.barges = [] ∧ t.mile = 0 ∧ t.flash = s.flash
      ∧ t.trust.lik = s.trust.lik ∧ t.trust.root = s.trust.root ∧ t.trust.active = s.trust.active ∧ t.trust.released = false ∧ t.power.mv = s.power.mv
      ∧ ∀ a, a ≠ 0x800008 → t.reg a = if fuseReg a then s.reg a else regReset a
    (s.power.mv ≤ 38000 → exec .powerUp s = .next (voteRefresh s))
    ∧ (38000 < s.power.mv → ∃ t, exec .powerUp s = .next t ∧ off t ∧ t.power.step = some 0 ∧ t.rd fInputV = s.power.mv / 100 % 2 ^ 12
        ∧ (t.rd fInputHi = 1 ↔ 48000 < s.power.mv ∧ s.power.mv ≤ 52000) ∧ t.power.dlBegun = false ∧ t.power.dlRose = false ∧ t.power.wasUp = [])
    ∧ (∃ t, exec .presentNHigh s = .next t ∧ off t ∧ t.power.step = none ∧ t.pins.present = false ∧ t.pins.hostPwrok = false
        ∧ t.power.rails = [] ∧ t.power.fell = s.power.rails.reverse)
    ∧ (∀ x : SelfTest, (Instr.powerUpStepDone x).wf = true → s.isFatal = false →
      let next (P : State → Prop) := ∃ t, exec (.powerUpStepDone x) s = .next t ∧ t.isFatal = false ∧ P t
      (s.power.step = none → exec (.powerUpStepDone x) s = .next s)
      ∧ (s.power.step = some 0 → next fun t => t.power.step = some 1 ∧ t.pins.stbyPg = true ∧ t.power.rails = [.stby])
      ∧ (s.power.step = some 1 → next fun t => t.power.step = some 2)
      ∧ (s.power.step = some 2 → s.trust.recovery = false →
          let stay (k : Nat) (P : State → Prop) := next fun t => t.power.step = some 2 ∧ t.trust.meas = k ∧ t.trust.released = s.trust.released ∧ P t
          (s.trust.meas = 0 → stay 1 fun t => t.trust.second = false)
          ∧ (s.trust.meas = 1 → stay 2 fun t => t.trust.cand = firstSlot s.trust true)
          ∧ (s.trust.meas = 2 → slotOk s.trust s.trust.cand = true → stay 3 fun t => t.trust.cand = s.trust.cand)
          ∧ (s.trust.meas = 2 → slotOk s.trust s.trust.cand = false → s.trust.second = false →
              stay 2 fun t => t.trust.cand = 1 - s.trust.cand ∧ t.trust.second = true)
          ∧ (s.trust.meas = 2 → slotOk s.trust s.trust.cand = false → s.trust.second = true → next fun t => t.power.step = some 2
              ∧ t.trust.recovery = true ∧ t.trust.released = false ∧ t.bmcOut = s.bmcOut ++ [.noImage] ∧ t.flash.reserved.getLast? = some .noImage)
          ∧ (s.trust.meas = 3 → stay 4 fun t => t.trust.cand = s.trust.cand)
          ∧ (4 ≤ s.trust.meas → next fun t => t.power.step = some 3 ∧ t.trust.released = true ∧ t.trust.running = s.trust.cand))
      ∧ (s.power.step = some 2 → s.trust.recovery = true → exec (.powerUpStepDone x) s = .next (voteRefresh s))
      ∧ (s.power.step = some 3 → next fun t => t.power.step = some 4)
      ∧ (s.power.step = some 4 → next fun t => t.power.step = some 5 ∧ t.pins.hostPwrok = true ∧ t.power.rails = s.power.rails ++ railOrder)
      ∧ (s.power.step = some 5 → next fun t => t.power.step = some 6 ∧ ∀ n, n < 60 → t.rd (fTileCeiling n) = 1800)
      ∧ (s.power.step = some 6 → next fun t => t.power.step = some 7)
      ∧ (s.power.step = some 7 → x.bad = [] → x.rows = [] → x.spareBad = [] → s.flash.condemned = [] →
          next fun t => t.power.step = some 8 ∧ t.spad = [] ∧ t.cores = [] ∧ t.tiles = [] ∧ t.parts.touched = [])
      ∧ (∀ n, s.power.step = some 7 → n < 60 → x.bad = [n] → x.rows = [] → s.flash.condemned = [] →
          ∃ t, exec (.powerUpStepDone x) s = .next t ∧ WentFatal s t 0 0x87 ∧ t.flash.condemned = [] ∧ FlashRec.condemn (s.tileSite n) ∈ t.failBuf))
    ∧ (s.isFatal = false →
      let fails (cause : Nat) := ∃ t, exec .powerUpStepTimeout s = .next t ∧ WentFatal s t 0 cause
      (s.power.step ∈ [some 0, some 1, some 3, some 4, some 5, some 6, some 7] → fails 0x85)
      ∧ (∀ k, s.power.step = some k → 8 ≤ k →
          let open_ := s.power.dlBegun = true ∧ s.power.dlRose = false ∨ ∃ p, p < 16 ∧ s.flag (fLnkEnable p) = true ∧ p ∉ s.power.wasUp
          (open_ → fails 0x85) ∧ (¬ open_ → exec .powerUpStepTimeout s = .next (voteRefresh s)))
      ∧ (s.power.step = none → exec .powerUpStepTimeout s = .next (voteRefresh s))
      ∧ (s.power.step = some 2 → s.trust.recovery = false → ∃ t, exec .powerUpStepTimeout s = .next t ∧ t.trust.recovery = true ∧ t.trust.released = false
          ∧ t.isFatal = false ∧ t.bmcOut = s.bmcOut ++ [.noImage]))

/-- 15 R278, R279, R284, R291, R296; 14 R271 to R273: voltage, over- and under-voltage, the sag limit, the board management controller's
cap, wakes; the address at which the I3C port answers (19 R343, R344); hardware that fails in service makes the first fatal entry, a tile's with its site's condemnation (01 R11), and the
fatal sequence stops cores, ports and rings and alerts, in this order; after a shutdown (cause 0x85) the rails but STBY's fall (15 R281). That
an input that no longer keeps STBY up leaves the module without power is the model's inference (log entry 16); which input keeps it below 36 V is free (log
entry 3). -/
def Obligations.InputAndFatalSequence : Prop :=
  ∀ (s : State),
    (∀ mv, ∃ t, exec (.inputVoltageChange mv) s = .next t ∧ t.power.mv = mv
      ∧ (36000 ≤ mv ∨ Config.stbyHolds mv = true → t.pins.stbyPg = s.pins.stbyPg ∧ t.power.rails = s.power.rails)
      ∧ (mv < 36000 → Config.stbyHolds mv = false → s.power.step ≠ none →
          t.pins.stbyPg = false ∧ t.power.step = none ∧ t.cores = [] ∧ t.spad = [] ∧ t.hbm = [] ∧ t.flash = s.flash
            ∧ t.power.rails = [] ∧ t.power.fell = s.power.fell ++ s.power.rails.reverse)
      ∧ (36000 ≤ mv ∨ Config.stbyHolds mv = true → s.power.step ≠ none → t.rd fInputV = min 0xFFF (mv / 100) ∧ (48000 < mv → mv ≤ 52000 → t.rd fInputHi = 1)))
    ∧ (∀ c (hit : Prop), (c = .overVoltageTimeout ∧ hit = (48000 < s.power.mv) ∨ c = .inputUnderVoltage ∧ hit = (s.power.mv < 40000)) →
      (¬ hit ∨ s.power.step = none → exec c s = .next (voteRefresh s))
      ∧ (hit → s.power.step ≠ none → s.isFatal = false → ∃ t, exec c s = .next t ∧ WentFatal s t 0 0x85))
    ∧ (s.isFatal = false → s.power.step ≠ none → s.flag fSag = false → 36000 ≤ s.power.mv → s.power.mv < 40000 →
      ∃ t, exec .sagLimitEntry s = .next t ∧ t.flag fSag = true ∧ ∀ n, n < 60 → t.rd (fTileCeiling n) = s.rd (fTileClock n) * 7 / 10)
    ∧ (exec .sagLimitExit s = .next (voteRefresh (
        if s.flag fSag = true ∧ 41000 ≤ s.power.mv then (s.wr fSag 0).modPower fun p => { p with rising := List.range 60 } else s)))
    ∧ (∀ peak sustained, ∃ t, exec (.bmcCapSet peak sustained) s = .next t
        ∧ (t.reg 0x800000).toNat = min 0xFFFF peak * 2 ^ 48 + min 0xFFFF sustained * 2 ^ 32 + (s.reg 0x800000).toNat % 2 ^ 32)
    ∧ (s.pins.i3cAddr = none → i3cAddress s = 0x50 + s.pins.addrSel ∧ ∀ a, i2cAccepts s a = true ↔ a = 0x50 + s.pins.addrSel)
    ∧ (∀ d, s.pins.i3cAddr = some d → i3cAddress s = d ∧ ∀ a, i2cAccepts s a = false)
    ∧ (∃ t, exec .wakeN s = .next t ∧ t.power.boardVote = (s.power.boardVote || s.power.step.isSome))
    ∧ (∃ t, exec .pwrWake s = .next t ∧ t.power.wakeVote = (s.power.wakeVote || !s.link.d3hot))
    ∧ (∃ t, exec .wakeVoteExpiry s = .next t ∧ t.power.wakeVote = false ∧ t.power.wakeTiles = [] ∧ t.power.boardVote = false)
    ∧ (s.isFatal = false →
      let fails (x : HwFail) (w cause kind q2 detail part : Nat) := ∃ t, exec (.fatalHardwareFailure x) s = .next t ∧ WentFatal s t w cause
        ∧ t.cores = s.cores
        ∧ let q (i : Nat) := (t.reg (aErrEntry w (s.rd (fErrNext w) % 64) i)).toNat
          q 0 = s.rd (fErrNext w) * 2 ^ 32 + 2 * 2 ^ 30 + cause * 2 ^ 20 + kind * 2 ^ 16 + part * 2 ^ 14 + 2 ^ 13 + 1 ∧ q 1 = s.mile % 2 ^ 64 ∧ q 2 = q2 ∧ q 3 = detail * 2 ^ 48
      (∀ n, n < 60 → fails (.tile n) (tileWharf n) 0x80 1 n 0 ((s.tilePart n).getD 0)
        ∧ ∃ t, exec (.fatalHardwareFailure (.tile n)) s = .next t ∧ t.flash = s.flash
          ∧ (s.tileSite n ∈ s.flash.condemned ∨ FlashRec.condemn (s.tileSite n) ∈ t.failBuf))
      ∧ (∀ k, k < 64 → fails (.router k) (quadWharf (siteQuad k)) 0x81 7 k 0 ((s.quadPart (siteQuad k)).getD 0))
      ∧ (∀ st ch, st < 24 → ch < 16 → fails (.stack st ch) (st / 3) 0x82 5 st ch (s.wharfPart (st / 3)))
      ∧ fails .tollhouse 0 0x84 12 0 0 0 ∧ fails .rail 0 0x85 11 0 6 0 ∧ fails .pll 0 0x85 11 0 7 0 ∧ (∀ w, w < 8 → fails (.errq w) w 0x88 13 0 0 0))
    ∧ (let next (P : State → Prop) := ∃ t, exec .fatalShutdownStepDone s = .next t ∧ P t
      (s.fatalStep = some 0 → next fun t => t.fatalStep = some 1)
      ∧ (s.fatalStep = some 1 → next fun t => t.fatalStep = some 2 ∧ (∀ u, (s.core u).phase = .run → (t.core u).phase = .stopped) ∧ t.spad = s.spad)
      ∧ (s.fatalStep = some 2 → s.isFatal = true → next fun t => t.fatalStep = some 3 ∧ ∀ p, p < 16 → t.rd (fPortState p) = 0)
      ∧ (s.fatalStep = some 3 → next fun t => t.fatalStep = some 4
          ∧ ∀ r, r < 1024 → (s.ring r).st = 1 → (t.ring r).st = 2 ∧ t.rd (fHead r) = s.rd (fHead r) ∧ t.rd (fLastStatus r) = s.rd (fLastStatus r))
      ∧ (s.fatalStep = some 4 → next fun t => t.fatalStep = some 5 ∧ t.pins.alert = true ∧ t.bmcOut = s.bmcOut ++ [.alert (s.reg 0x710000)]
          ∧ t.pins.inBand = true ∧ (s.rd ⟨0x710000, 59, 52⟩ = 0x85 → t.power.rails = s.power.rails.filter (fun r => decide (r = .stby))
              ∧ t.power.fell = s.power.fell ++ (s.power.rails.filter fun r => decide (r ≠ .stby)).reverse))
      ∧ (s.fatalStep = none → exec .fatalShutdownStepDone s = .next (voteRefresh s)))

/-- 15 R282, R283, R285 to R287, R290: the pool is divided by demand; a tile whose island is in retention or leaving it returns its budget; a
grant sets a tile's budget and may raise its clock, a tile over its
grant steps down 25 MHz; samples show temperatures, a laser bank within its heater's range its setpoint (12 R229), cut a hot tile, or the
engine and adders of a hot wharf die, to 75 %, and shut down what stays too hot; ceilings come back by the restore step; a droop at its trip
point is counted and stretches; a domain's transition ends. The set clock of a wharf die is the model's choice (log entry 13), and so is
that a core under a flight keeps its state when its island drops (log entry 13), and, in log entry 16, which droop sensors are adjacent, a
bank's setpoint in whole degrees for a panel of 25 to 65 °C, the even split at no demand, and that a grant raises the clock at once. -/
def Obligations.BudgetsAndHeat : Prop :=
  ∀ (s : State),
    (∀ eff other input,
      (keeperOn s = false → exec (.poolExchange eff other input) s = .next (voteRefresh s))
      ∧ (keeperOn s = true → s.power.chipHot = [] →
        let P := min 1000 eff * moduleCap s - (other + other / 50)
        let qd (q : Nat) := ((List.range 15).map fun i => demand s (15 * q + i)).sum
        let all := ((List.range 60).map fun n => demand s n).sum
        ∃ t, exec (.poolExchange eff other input) s = .next t ∧ t.rd fInputW = min 0xFFFF input ∧ t.power.capCut = false
          ∧ (∀ q, q < 4 → t.power.pool.getD q 0 = if all = 0 then P / 4 else P * qd q / all)
          ∧ (∀ n, n < 60 → tget grant0 t.power.grant n = if holdsBudget s n then tget grant0 s.power.grant n else 0)))
    ∧ (∀ n, holdsBudget s n = true ↔ tget dom0 s.power.dom n = .up ∨ ∃ m, tget dom0 s.power.dom n = .entering m)
    ∧ (∀ tile mw, tile < 60 →
      (keeperOn s = true → ∃ t, exec (.tileDemand tile mw) s = .next t ∧ tget nat0 t.power.demand tile = mw
        ∧ ∀ n, n ≠ tile → tget nat0 t.power.demand n = tget nat0 s.power.demand n)
      ∧ (keeperOn s = false ∨ holdsBudget s tile = false → exec (.tileGrant tile) s = .next (voteRefresh s))
      ∧ (keeperOn s = true → holdsBudget s tile = true → ∃ t, exec (.tileGrant tile) s = .next t ∧ tget grant0 t.power.grant tile = grantOf s tile
        ∧ tget clock0 t.power.own tile = max (tget clock0 s.power.own tile) (stepWithin (grantOf s tile)) ∧ tget grant0 t.power.grant tile ≤ demand s tile)
      ∧ (s.isFatal = false → s.power.step ≠ none → ∃ t, exec (.tileClockStep tile mw) s = .next t ∧ t.rd (fTilePower tile) = min 255 (mw / 1000)
        ∧ tget clock0 t.power.own tile = (if tget grant0 s.power.grant tile < mw ∧ 400 < s.rd (fTileClock tile) then s.rd (fTileClock tile) - 25 else tget clock0 s.power.own tile)))
    ∧ (s.isFatal = false → s.power.step ≠ none →
      (∀ tile l, tile < 60 → l.length = 8 → (∀ i, i < 8 → tget nat0 s.back.trimming (1024 + 8 * tile + i) ≤ s.mile) →
        let h := l.foldl max 0
        let cutTo := max 400 (s.rd (fTileClock tile) * 3 / 4 / 25 * 25)
        (h < 105 → ∃ t, exec (.thermalSample (.tile tile l)) s = .next t ∧ t.rd (fTileTemp tile) = h
          ∧ (h < tThrottle s → t.rd (fTileCeiling tile) = s.rd (fTileCeiling tile))
          ∧ (tThrottle s ≤ h → tget (fun _ => none) s.power.cut tile = none →
              t.rd (fTileCeiling tile) = cutTo ∧ tget (fun _ => none) t.power.cut tile = some s.mile))
        ∧ (∀ m, 105 ≤ h → tget (fun _ => none) s.power.hot tile = some (m, false) → m + 10000 ≤ s.mile →
            ∃ t, exec (.thermalSample (.tile tile l)) s = .next t ∧ WentFatal s t (tileWharf tile) 0x85))
      ∧ (∀ st v, st < 24 → 105 ≤ v → (∀ m, tget (fun _ => none) s.power.hot (100 + st) ≠ some (m, true)) → ∃ t, exec (.thermalSample (.stack st v)) s = .next t ∧ WentFatal s t (st / 3) 0x85)
      ∧ (∀ st v, st < 24 → v < 105 → ∃ t, exec (.thermalSample (.stack st v)) s = .next t ∧ (st ∈ t.power.stackHot ↔ 95 ≤ v))
      ∧ (∀ w v, w < 8 → v < 110 → let clk := tget wharfClock0 s.power.wharfCeil w
          ∃ t, exec (.thermalSample (.wharf w v)) s = .next t
            ∧ (tThrottle s ≤ v → tget (fun _ => none) s.power.cut (60 + w) = none →
                tget wharfClock0 t.power.wharfCeil w = max 400 (clk * 3 / 4 / 25 * 25) ∧ tget (fun _ => none) t.power.cut (60 + w) = some s.mile)
            ∧ (v < tThrottle s → tget wharfClock0 t.power.wharfCeil w = clk)
            ∧ (v + 3 ≤ tThrottle s → tget (fun _ => none) t.power.cool (60 + w) ≠ none))
      ∧ (∀ w v m, w < 8 → 110 ≤ v → tget (fun _ => none) s.power.hot (60 + w) = some (m, false) → m + 10000 ≤ s.mile →
          ∃ t, exec (.thermalSample (.wharf w v)) s = .next t ∧ WentFatal s t w 0x85)
      ∧ (∀ p v, p < 16 → ∃ t, exec (.thermalSample (.chiplet p v)) s = .next t ∧ t.rd (fOptStat p 55 48) = min 255 v)
      ∧ (∀ p panel v, p < 16 → let off := s.rd (fPortState p) = 0 ∨ s.rd (fPortState p) = 1
          ∃ t, exec (.thermalSample (.bank p panel v)) s = .next t
            ∧ (off ∨ panel < 25 ∨ 65 < panel → t.rd (fOptStat p 63 56) = min 255 v)
            ∧ (¬ off → 25 ≤ panel → panel ≤ 65 → t.rd (fOptStat p 63 56) = max 60 (min 80 (s.rd ⟨aOpt p 0, 47, 40⟩))))
      ∧ (∀ tile, tile < 60 → tget (fun _ => none) s.power.cut tile ≠ none → ∃ t, exec (.throttleRecheck tile) s = .next t
          ∧ if tThrottle s ≤ hottest s.power.temps tile then t.rd (fTileCeiling tile) = max 400 (s.rd (fTileClock tile) * 3 / 4 / 25 * 25)
            else tget (fun _ => none) t.power.cut tile = none ∧ t.rd (fTileCeiling tile) = s.rd (fTileCeiling tile))
      ∧ (∀ w, w < 8 → tget (fun _ => none) s.power.cut (60 + w) ≠ none → let clk := tget wharfClock0 s.power.wharfCeil w
          ∃ t, exec (.throttleRecheck (60 + w)) s = .next t
          ∧ if tThrottle s ≤ tget nat0 s.power.wharfTemp w then tget wharfClock0 t.power.wharfCeil w = max 400 (clk * 3 / 4 / 25 * 25)
            else tget (fun _ => none) t.power.cut (60 + w) = none ∧ tget wharfClock0 t.power.wharfCeil w = clk)
      ∧ (∀ w m, w < 8 → tget (fun _ => none) s.power.cool (60 + w) = some m → m + 1000000 ≤ s.mile → let clk := tget wharfClock0 s.power.wharfCeil w
          ∃ t, exec (.restoreStep (60 + w)) s = .next t ∧ tget wharfClock0 t.power.wharfCeil w = max clk (min (clk + restoreMhz s) 2000))
      ∧ (∀ tile m, tile < 60 → s.flag fSag = false → tget (fun _ => none) s.power.cool tile = some m → m + 1000000 ≤ s.mile →
          tget clock0 s.power.own tile < 2 ^ 12 → ∃ t, exec (.restoreStep tile) s = .next t
          ∧ t.rd (fTileCeiling tile) = max (s.rd (fTileCeiling tile)) (min (s.rd (fTileCeiling tile) + restoreMhz s) (tget clock0 s.power.own tile)))
      ∧ (∀ tile i mv, tile < 60 → i < 16 → let masked (j : Nat) := s.mile < tget nat0 s.back.trimming (16 * tile + j)
          let trips := ¬ masked i ∧ (40 ≤ mv ∨ 30 ≤ mv ∧ (masked ((i + 1) % 16) ∨ masked ((i + 15) % 16)))
          (trips → ∃ t, exec (.droopTrip tile ⟨i, mv⟩) s = .next t
            ∧ t.rd (fTileDroop tile) = min (2 ^ 24 - 1) (s.rd (fTileDroop tile) + 1) ∧ tget (fun _ => none) t.power.stretch tile ≠ none)
          ∧ (¬ trips → exec (.droopTrip tile ⟨i, mv⟩) s = .next (voteRefresh s))))
    ∧ (∀ tile, tile < 60 → ∃ t, exec (.droopClear tile) s = .next t ∧ tget (fun _ => none) t.power.stretch tile = none)
    ∧ (votesRun s = true → ∀ d, d < 141 →
      let off (d k : Nat) : CoreSt := 
        let c := s.core (4 * d + k)
        if c.phase = .idle then { progs := c.progs, cntData := c.cntData, cntWrite := c.cntWrite, cntEcc := c.cntEcc, cntShadow := c.cntShadow, cntWait := c.cntWait } else c
      (∀ m, tget dom0 s.power.dom d = .entering m → DomainBecomes s d .low fun u => d < 60 → ∀ k, k < 4 → u.core (4 * d + k) = off d k)
      ∧ (tget dom0 s.power.dom d = .late → DomainBecomes s d .leaving fun u => d < 60 → ∀ k, k < 4 → u.core (4 * d + k) = off d k)
      ∧ (tget dom0 s.power.dom d = .leaving → DomainBecomes s d .up fun u => u.cores = s.cores)
      ∧ (tget dom0 s.power.dom d = .up ∨ tget dom0 s.power.dom d = .low → exec (.domainTransitionDone d) s = .next (voteRefresh s)))

/-- 14 R267; 17 R322 to R328; 12 R230; 01 R19: a queued correction is written back; a scrub burst moves its stack's pass on, and the last one
counts a pass; each byte of a stack lies at one address, the inverse of R19's map by the model's inference; a stack past its deadline in self-refresh asks for its quadrant; training, trims and lit hours are kept; the flash log takes records
in order, reserved ones first, and a condemned site is known as such from the write of its record on; a telemetry sample takes the frame, but not after a fatal error (14 R273), and samples of another second
than its own are not averaged with it (16 R316). That WEAR_ACCOUNTING is an hour with a mark for the last of a day, and the fit of weeksLeft,
are the model's choice (log entry 16). -/
def Obligations.BackgroundWorkGoesOn : Prop :=
  ∀ (s : State),
    (∀ w, w < 24 * 402653184 → ∃ t, exec (.hbmCorrectionWriteBack w) s = .next t ∧ tget nat0 t.hbmCe w = 0 ∧ tget nat0 t.hbmCeEntry w = 0
      ∧ (∀ k, k ≠ w → tget nat0 t.hbmCe k = tget nat0 s.hbmCe k) ∧ t.hbm = s.hbm)
    ∧ (∀ st, st < 24 →
      (keeperOn s = true → domUp s (120 + stackQuad st) = true → s.hbmUe = [] →
        beingWiped s st (hbmUnmap s.hbmWide (st * stackBytes + s.rd (fScrub st 31 8) * 2048)) = false →
        ∃ t, exec (.hbmScrubBurst st []) s = .next t ∧ t.hbm = s.hbm
          ∧ t.rd (fScrub st 31 8) = (if s.rd (fScrub st 31 8) + 1 < 12582912 then s.rd (fScrub st 31 8) + 1 else 0)
          ∧ t.rd (fScrub st 63 48) = (if s.rd (fScrub st 31 8) + 1 < 12582912 then s.rd (fScrub st 63 48) else min (2 ^ 16 - 1) (s.rd (fScrub st 63 48) + 1)))
      ∧ (keeperOn s = false ∨ domUp s (120 + stackQuad st) = false → exec (.hbmScrubBurst st []) s = .next (voteRefresh s))
      ∧ (keeperOn s = true → domUp s (120 + stackQuad st) = false → tget nat0 s.back.passStart st + passTicks s ≤ s.mile → s.rd ⟨0xA00000, 8, 8⟩ = 1 →
        ∃ t, exec .hbmScrubPassDeadline s = .next t ∧ stackQuad st ∈ t.power.bgVote ∧ t.rd (fScrub st 7 7) = 1)
      ∧ (∀ ch, ch < 16 → s.isFatal = false → (∃ k, s.power.step = some k ∧ 7 ≤ k) → ∃ t, exec (.hbmPeriodicTraining st ch) s = .next t
        ∧ tget nat0 t.back.trained (16 * st + ch)
            = if domUp s (120 + stackQuad st) then s.mile else tget nat0 s.back.trained (16 * st + ch)))
    ∧ (∀ tile v, tile < 60 → s.isFatal = false → s.power.step ≠ none → domUp s tile = true →
      (∀ i, i < 16 → ∃ t, exec (.droopSensorTrim tile i v) s = .next t ∧ tget nat0 t.back.trims (16 * tile + i) = v
        ∧ tget nat0 t.back.trimming (16 * tile + i) = s.mile + 10000)
      ∧ (∀ i, i < 8 → ∃ t, exec (.thermalSensorTrim tile i v) s = .next t ∧ tget nat0 t.back.trims (1024 + 8 * tile + i) = v
        ∧ tget nat0 t.back.trimming (1024 + 8 * tile + i) = s.mile + 5000))
    ∧ (∀ day, keeperOn s = true → ∃ t, exec (.wearAccounting day) s = .next t
        ∧ (day = false → t.back.daily = s.back.daily ∧ t.failBuf = s.failBuf)
        ∧ (day = true → t.back.daily.drop 1 = s.back.daily.take 6 ∧ t.failBuf.length = s.failBuf.length + 2
          ∧ ∀ p j, p < 16 → j < 32 → t.rd (fLaser p j 7 0) = (if s.rd (fLaserState p j) = 1
              then weeksLeft (t.back.daily.reverse.map fun r => nbits (r.getD (32 * p + j) 0).toNat 47 36) (swapPct s p * s.rd (fBiasMax p j) / 100)
              else 0xFF))
        ∧ ∀ p j, p < 16 → j < 32 → t.rd (fLaser p j 23 8) = (if s.rd (fPortState p) = 0 ∨ s.rd (fPortState p) = 1 ∨ s.rd (fBias p j) = 0
            then s.rd (fLaser p j 23 8) else min (2 ^ 16 - 1) (s.rd (fLaser p j 23 8) + 1)))
    ∧ (s.trust.released = true → s.trust.receiving = none →
      (∀ x, s.failBuf.find? isReserved = some x → ∃ t, exec .flashLogWrite s = .next t ∧ t.failBuf = dropFirst isReserved s.failBuf
        ∧ t.flash.reserved.getLast? = some x ∧ t.flash.log = s.flash.log
        ∧ ∀ k, k ∈ t.flash.condemned ↔ k ∈ s.flash.condemned ∨ x = .condemn k)
      ∧ (∀ x l, s.failBuf = x :: l → s.failBuf.find? isReserved = none → ∃ t, exec .flashLogWrite s = .next t ∧ t.failBuf = l
        ∧ t.flash.log.getLast? = some (t.flash.block, x) ∧ t.flash.reserved = s.flash.reserved))
    ∧ (s.trust.released = false ∨ s.trust.receiving ≠ none → exec .flashLogWrite s = .next (voteRefresh s))
    ∧ (s.trust.released = true → s.trust.warm = none → s.isFatal = false → s.mile % 1000000 = 0 →
        let sec := (s.mile + 999999999) / 1000000000
        ∃ t, exec .telemetrySample s = .next t ∧ t.back.latest = readings s ∧ t.back.latestAt = s.mile ∧ t.back.second = sec
          ∧ (s.mile % 1000000000 ≠ 0 → t.back.window = s.back.window
              ∧ t.back.samples = (if sec = s.back.second then s.back.samples else 0) + 1)
          ∧ (s.mile % 1000000000 = 0 → t.back.windowAt = s.mile ∧ t.back.samples = 0))
    ∧ (s.mile % 1000000 ≠ 0 ∨ s.isFatal = true → exec .telemetrySample s = .next (voteRefresh s))
    ∧ (∀ dpa, dpa < 0x9000000000 → hbmUnmap false ((hbmMap false dpa).1 * stackBytes + (hbmMap false dpa).2) = dpa)
end

