-- ==== Sys2Proof/Laws/Tables.lean ====
section
/-! SUPPORT. The laws of the sparse tables: reading after writing, and the canonical form that every operation keeps. -/

namespace Sys2Proof.Machine
open Sys2Proof

variable {α : Type}

/-- The canonical form, said of the entries: keys strictly rise, and no entry holds the default. -/
theorem twf_iff [DecidableEq α] (d : Nat → α) : (t : Tbl α) →
    (twf d t = true ↔ t.Pairwise (fun p q => p.1 < q.1) ∧ ∀ p ∈ t, p.2 ≠ d p.1)
  | [] => by simp [twf]
  | [(k, v)] => by simp [twf]
  | (k, v) :: (k', v') :: t => by
    have ih := twf_iff d ((k', v') :: t)
    simp only [twf, Bool.and_eq_true, decide_eq_true_eq, ih]
    constructor
    · rintro ⟨⟨h1, h2⟩, h3, h4⟩
      refine ⟨List.Pairwise.cons ?_ h3, ?_⟩
      · intro p hp
        rcases List.mem_cons.1 hp with rfl | hp
        · exact h1
        · exact lt_trans h1 ((List.pairwise_cons.1 h3).1 p hp)
      · intro p hp
        rcases List.mem_cons.1 hp with rfl | hp
        · exact h2
        · exact h4 p hp
    · rintro ⟨h1, h2⟩
      have h1' := List.pairwise_cons.1 h1
      exact ⟨⟨h1'.1 (k', v') (by simp), h2 (k, v) (by simp)⟩, h1'.2, fun p hp => h2 p (List.mem_cons_of_mem _ hp)⟩

theorem mem_tins {k : Nat} {v : α} {p : Nat × α} : (t : Tbl α) → (p ∈ tins k v t ↔ p = (k, v) ∨ p ∈ t)
  | [] => by simp [tins]
  | (k', v') :: t => by
    have ih := mem_tins (k := k) (v := v) (p := p) t
    by_cases h : k < k'
    · simp [tins, h]
    · simp [tins, h, ih]; tauto

theorem tins_sorted {k : Nat} {v : α} : (t : Tbl α) → t.Pairwise (fun p q => p.1 < q.1) → (∀ p ∈ t, p.1 ≠ k) →
    (tins k v t).Pairwise (fun p q => p.1 < q.1)
  | [], _, _ => by simp [tins]
  | (k', v') :: t, h, hn => by
    have h' := List.pairwise_cons.1 h
    have hk : k' ≠ k := hn (k', v') (by simp)
    by_cases hlt : k < k'
    · simp only [tins, hlt, if_true]
      refine List.Pairwise.cons ?_ h
      intro p hp
      rcases List.mem_cons.1 hp with rfl | hp
      · exact hlt
      · exact lt_trans hlt (h'.1 p hp)
    · simp only [tins, hlt, if_false]
      refine List.Pairwise.cons ?_ (tins_sorted t h'.2 fun p hp => hn p (List.mem_cons_of_mem _ hp))
      intro p hp
      rcases (mem_tins t).1 hp with rfl | hp
      · simp only; omega
      · exact h'.1 p hp

/-- A write keeps the canonical form. -/
theorem twf_tset [DecidableEq α] {d : Nat → α} {t : Tbl α} (k : Nat) (v : α) (h : twf d t = true) : twf d (tset d t k v) = true := by
  rw [twf_iff] at h ⊢
  have he : (terase k t).Pairwise (fun p q => p.1 < q.1) := h.1.filter _
  have hm : ∀ p ∈ terase k t, p.1 ≠ k ∧ p.2 ≠ d p.1 := by
    intro p hp
    simp only [terase, List.mem_filter, bne_iff_ne] at hp
    exact ⟨hp.2, h.2 p hp.1⟩
  unfold tset
  split
  · exact ⟨he, fun p hp => (hm p hp).2⟩
  · rename_i hv
    refine ⟨tins_sorted _ he fun p hp => (hm p hp).1, fun p hp => ?_⟩
    rcases (mem_tins _).1 hp with rfl | hp
    · exact hv
    · exact (hm p hp).2

theorem twf_nil [DecidableEq α] (d : Nat → α) : twf d [] = true := rfl

/-- Removing entries keeps the canonical form. -/
theorem twf_filter [DecidableEq α] {d : Nat → α} {t : Tbl α} (f : Nat × α → Bool) (h : twf d t = true) : twf d (t.filter f) = true := by
  rw [twf_iff] at h ⊢
  exact ⟨h.1.filter _, fun p hp => h.2 p (List.mem_of_mem_filter hp)⟩

/-- Changing the listed entries keeps the canonical form. -/
theorem twf_tmap [DecidableEq α] {d : Nat → α} {t : Tbl α} (f : Nat → α → α) (h : twf d t = true) : twf d (tmap d f t) = true := by
  rw [twf_iff] at h ⊢
  have key : ∀ p q : Nat × α, (if f p.1 p.2 = d p.1 then none else some (p.1, f p.1 p.2)) = some q → q.1 = p.1 ∧ q.2 ≠ d q.1 := by
    intro p q hq
    split at hq
    · cases hq
    · rename_i hne
      cases hq
      exact ⟨rfl, hne⟩
  refine ⟨?_, ?_⟩
  · unfold tmap
    rw [List.pairwise_filterMap]
    refine h.1.imp ?_
    intro p q hpq p' hp' q' hq'
    have h1 := (key p p' hp').1
    have h2 := (key q q' hq').1
    omega
  · intro q hq
    unfold tmap at hq
    obtain ⟨p, _, hp⟩ := List.mem_filterMap.1 hq
    exact (key p q hp).2

/-- A run of writes keeps the canonical form. -/
theorem twf_tsetAll [DecidableEq α] {d : Nat → α} : (l : List (Nat × α)) → {t : Tbl α} → twf d t = true → twf d (tsetAll d t l) = true
  | [], _, h => h
  | (k, v) :: r, _, h => twf_tsetAll r (twf_tset k v h)

theorem twf_foldl_tset [DecidableEq α] {β : Type} {d : Nat → α} (k : β → Nat) (v : β → α) : (l : List β) → {t : Tbl α} → twf d t = true →
    twf d (l.foldl (fun u x => tset d u (k x) (v x)) t) = true
  | [], _, h => h
  | x :: r, _, h => twf_foldl_tset k v r (twf_tset (k x) (v x) h)

theorem tget_terase_ne {d : Nat → α} {k k' : Nat} (hk : k' ≠ k) : (t : Tbl α) → tget d (terase k t) k' = tget d t k'
  | [] => rfl
  | (j, v) :: t => by
    have ih := tget_terase_ne (d := d) hk t
    simp only [terase] at ih ⊢
    by_cases hj : j = k
    · subst hj
      have : ¬ j = k' := fun h => hk h.symm
      simp [List.filter, tget, this, ih]
    · have hb : (j != k) = true := by simpa using hj
      simp [List.filter, hb, tget, ih]

theorem tget_terase_self {d : Nat → α} {k : Nat} : (t : Tbl α) → tget d (terase k t) k = d k
  | [] => rfl
  | (j, v) :: t => by
    have ih := tget_terase_self (d := d) (k := k) t
    simp only [terase] at ih ⊢
    by_cases hj : j = k
    · simp [List.filter, hj, ih]
    · have hb : (j != k) = true := by simpa using hj
      simp [List.filter, hb, tget, ih, hj]

theorem tget_tins_self {d : Nat → α} {k : Nat} {v : α} : (t : Tbl α) → (∀ p ∈ t, p.1 ≠ k) → tget d (tins k v t) k = v
  | [], _ => by simp [tins, tget]
  | (j, w) :: t, h => by
    by_cases hj : k < j
    · simp [tins, hj, tget]
    · have hne : j ≠ k := h (j, w) (by simp)
      simp [tins, hj, tget, hne, tget_tins_self t fun p hp => h p (List.mem_cons_of_mem _ hp)]

theorem tget_tins_ne {d : Nat → α} {k k' : Nat} {v : α} (hk : k' ≠ k) : (t : Tbl α) → tget d (tins k v t) k' = tget d t k'
  | [] => by
    have : ¬ k = k' := fun h => hk h.symm
    simp [tins, tget, this]
  | (j, w) :: t => by
    have : ¬ k = k' := fun h => hk h.symm
    by_cases hj : k < j
    · simp [tins, hj, tget, this]
    · simp [tins, hj, tget, tget_tins_ne hk t]

/-- Reading what was written. -/
@[simp] theorem tget_tset_self [DecidableEq α] (d : Nat → α) (t : Tbl α) (k : Nat) (v : α) : tget d (tset d t k v) k = v := by
  unfold tset
  split
  · rename_i h; rw [tget_terase_self, h]
  · refine tget_tins_self _ fun p hp => ?_
    simp only [terase, List.mem_filter, bne_iff_ne] at hp
    exact hp.2

/-- A write leaves every other key alone. -/
theorem tget_tset_ne [DecidableEq α] (d : Nat → α) (t : Tbl α) {k k' : Nat} (v : α) (h : k' ≠ k) :
    tget d (tset d t k v) k' = tget d t k' := by
  unfold tset
  split
  · exact tget_terase_ne h t
  · rw [tget_tins_ne h, tget_terase_ne h]

/-- Reading after a write, either way. -/
theorem tget_tset [DecidableEq α] (d : Nat → α) (t : Tbl α) (k k' : Nat) (v : α) :
    tget d (tset d t k v) k' = if k' = k then v else tget d t k' := by
  by_cases h : k' = k
  · subst h; simp
  · rw [if_neg h, tget_tset_ne d t v h]

/-- Two canonical tables that read alike are equal: equal contents are equal data. -/
theorem twf_ext [DecidableEq α] {d : Nat → α} : (t u : Tbl α) → twf d t = true → twf d u = true → (∀ k, tget d t k = tget d u k) → t = u
  | [], [], _, _, _ => rfl
  | [], (k, v) :: u, _, hu, h => by
    have := (twf_iff d _).1 hu
    have hk := h k
    simp only [tget, if_true] at hk
    exact absurd hk.symm (this.2 (k, v) (by simp))
  | (k, v) :: t, [], ht, _, h => by
    have := (twf_iff d _).1 ht
    have hk := h k
    simp only [tget, if_true] at hk
    exact absurd hk (this.2 (k, v) (by simp))
  | (k, v) :: t, (j, w) :: u, ht, hu, h => by
    have ht' := (twf_iff d _).1 ht
    have hu' := (twf_iff d _).1 hu
    have below : ∀ (l : Tbl α) (n : Nat), (∀ p ∈ l, n < p.1) → tget d l n = d n := by
      intro l
      induction l with
      | nil => intro n _; rfl
      | cons a l ih =>
        intro n hn
        have ha := hn a (by simp)
        have : ¬ a.1 = n := by omega
        obtain ⟨x, y⟩ := a
        simp only [tget]
        rw [if_neg this]
        exact ih n fun p hp => hn p (List.mem_cons_of_mem _ hp)
    have tl := (List.pairwise_cons.1 ht'.1).1
    have ul := (List.pairwise_cons.1 hu'.1).1
    rcases Nat.lt_trichotomy k j with hkj | hkj | hkj
    · have hk := h k
      have e : tget d ((j, w) :: u) k = d k := below _ k (by
        intro p hp
        rcases List.mem_cons.1 hp with rfl | hp
        · exact hkj
        · exact lt_trans hkj (ul p hp))
      rw [e] at hk
      simp only [tget, if_true] at hk
      exact absurd hk (ht'.2 (k, v) (by simp))
    · subst hkj
      have hv := h k
      simp only [tget, if_true] at hv
      subst hv
      have htw : twf d t = true := (twf_iff d t).2 ⟨(List.pairwise_cons.1 ht'.1).2, fun p hp => ht'.2 p (List.mem_cons_of_mem _ hp)⟩
      have huw : twf d u = true := (twf_iff d u).2 ⟨(List.pairwise_cons.1 hu'.1).2, fun p hp => hu'.2 p (List.mem_cons_of_mem _ hp)⟩
      rw [twf_ext t u htw huw]
      intro n
      by_cases hn : k = n
      · subst hn
        rw [below t k tl, below u k ul]
      · have hh := h n
        simp only [tget] at hh
        rw [if_neg hn, if_neg hn] at hh
        exact hh
    · have hk := h j
      have e : tget d ((k, v) :: t) j = d j := below _ j (by
        intro p hp
        rcases List.mem_cons.1 hp with rfl | hp
        · exact hkj
        · exact lt_trans hkj (tl p hp))
      rw [e] at hk
      simp only [tget, if_true] at hk
      exact absurd hk.symm (hu'.2 (j, w) (by simp))

end Sys2Proof.Machine
end

