-- ==== Sys2Proof/Laws/Sound.lean ====
section
/-! SUPPORT. What every operation keeps, in the form in which it is proved: the canonical form of the tables, the bound of the milestone
counter, and the queue of waiting commands. -/

namespace Sys2Proof.Machine
open Sys2Proof

/-- A sound state whose queue is q. -/
structure Good (q : List Instr) (s : State) : Prop where
  pending : s.pending = q
  mile : s.mile < 2 ^ 64
  canon : s.Canonical

theorem Good.sound {q : List Instr} {s : State} (h : Good q s) : s.Sound := ⟨h.canon, h.mile⟩
theorem Good.of_sound {s : State} (h : s.Sound) : Good s.pending s := ⟨rfl, h.2, h.1⟩

/-- A state that agrees with a good one in what the invariant reads is good. -/
theorem Good.congr {q : List Instr} {s t : State} (h : Good q s) (e1 : t.pending = s.pending) (e2 : t.mile = s.mile) (e3 : t.spad = s.spad)
    (e4 : t.hbm = s.hbm) (e5 : t.regs = s.regs) (e6 : t.cores = s.cores) (e7 : t.tiles = s.tiles) (e8 : t.rings = s.rings)
    (e9 : t.ports = s.ports) (e10 : t.polls = s.polls) (e11 : t.msix = s.msix) (e12 : t.msixPend = s.msixPend) (e13 : t.hbmUe = s.hbmUe)
    (e14 : t.hbmCe = s.hbmCe) (e15 : t.hbmCeEntry = s.hbmCeEntry) (e16 : t.routerDrops = s.routerDrops) (e17 : t.slots = s.slots)
    (e18 : t.holdUse = s.holdUse) : Good q t := by
  obtain ⟨h1, h2, h3⟩ := h
  obtain ⟨c1, c2, c3, c4, c5, c6, c7, c8, c9, c10, c11, c12, c13, c14, c15, c16⟩ := h3
  exact ⟨e1.trans h1, e2 ▸ h2, ⟨e3 ▸ c1, e4 ▸ c2, e5 ▸ c3, e6 ▸ c4, e7 ▸ c5, e8 ▸ c6, e9 ▸ c7, e10 ▸ c8, e11 ▸ c9, e12 ▸ c10, e13 ▸ c11,
    e14 ▸ c12, e15 ▸ c13, e16 ▸ c14, e17 ▸ c15, e18 ▸ c16⟩⟩

/-- A record update of fields that the invariant does not read. -/
theorem Good.upd {q : List Instr} {s : State} (h : Good q s)
    {v_free v_flights v_mesh v_posted v_dlActive v_failBuf v_fatalStep v_bmcOut v_hbmWide v_link v_reqs v_nextTag v_reqWait v_urSent v_pendingSt
    v_groupSet v_stagedNext v_rrLast v_images v_barges v_bargeNext v_dumps v_remotes v_arrivals v_power v_trust v_flash v_back v_parts v_pins v_hailOut v_flitOut v_mileSt
    v_segIn v_remoteIn v_buckets v_fenced} :
    Good q (State.mk s.pending v_free s.mile s.regs s.spad s.cores s.tiles v_flights v_mesh s.routerDrops s.msix s.msixPend v_posted
    v_dlActive v_failBuf v_fatalStep v_bmcOut s.hbm v_hbmWide s.hbmUe s.hbmCe s.hbmCeEntry v_link v_reqs v_nextTag v_reqWait v_urSent v_pendingSt
    v_groupSet v_stagedNext s.rings v_rrLast s.polls v_images v_barges v_bargeNext v_dumps v_remotes v_arrivals v_power v_trust v_flash v_back v_parts v_pins v_hailOut
    s.ports v_flitOut v_mileSt v_segIn v_remoteIn v_buckets s.slots s.holdUse v_fenced) :=
  h.congr rfl rfl rfl rfl rfl rfl rfl rfl rfl rfl rfl rfl rfl rfl rfl rfl rfl rfl

theorem Good.foldl {q : List Instr} {β : Type} {f : State → β → State} (hf : ∀ t b, Good q t → Good q (f t b)) :
    (l : List β) → {s : State} → Good q s → Good q (l.foldl f s)
  | [], _, h => h
  | b :: l, _, h => Good.foldl hf l (hf _ b h)

/-- A fold that carries more than the state. -/
theorem Good.foldlFst {q : List Instr} {β γ : Type} {f : State × γ → β → State × γ} (hf : ∀ t b, Good q t.1 → Good q (f t b).1) :
    (l : List β) → {s : State × γ} → Good q s.1 → Good q (l.foldl f s).1
  | [], _, h => h
  | b :: l, _, h => Good.foldlFst hf l (hf _ b h)

/-- An outcome of `run` that is a next state is the state handed to it. -/
theorem run_eq {c : Instr} {s t : State} (e : run c s = .next t) : t = s := by
  unfold run runIf at e
  split at e
  · cases e; rfl
  · cases e

/-! ### The operations that write a table keep what Good says -/

theorem Good.setReg {q : List Instr} {s : State} (h : Good q s) (o : Nat) (v : Word64) : Good q (s.setReg o v) :=
  ⟨h.pending, h.mile, { h.canon with regs := twf_tset o v h.canon.regs }⟩
theorem Good.wr {q : List Instr} {s : State} (h : Good q s) (f : Fld) (v : Nat) : Good q (s.wr f v) := h.setReg _ _
theorem Good.wrAll {q : List Instr} : (l : List (Fld × Nat)) → {s : State} → Good q s → Good q (s.wrAll l)
  | [], _, h => h
  | (f, v) :: r, _, h => Good.wrAll r (h.wr f v)
theorem Good.setCore {q : List Instr} {s : State} (h : Good q s) (u : Nat) (c : CoreSt) : Good q (s.setCore u c) :=
  ⟨h.pending, h.mile, { h.canon with cores := twf_tset u c h.canon.cores }⟩
theorem Good.setTile {q : List Instr} {s : State} (h : Good q s) (n : Nat) (t : TileSt) : Good q (s.setTile n t) :=
  ⟨h.pending, h.mile, { h.canon with tiles := twf_tset n t h.canon.tiles }⟩
theorem Good.putPort {q : List Instr} {s : State} (h : Good q s) (p : Nat) (g : PortSt) : Good q (s.putPort p g) :=
  ⟨h.pending, h.mile, { h.canon with ports := twf_tset p g h.canon.ports }⟩
theorem Good.putRing {q : List Instr} {s : State} (h : Good q s) (r : Nat) (g : RingSt) : Good q (s.putRing r g) :=
  Good.wrAll _ ⟨h.pending, h.mile, { h.canon with rings := twf_tset r g h.canon.rings }⟩
theorem Good.setGate {q : List Instr} {s : State} (h : Good q s) (n g : Nat) (v : BitVec 32) : Good q (s.setGate n g v) := h.setTile _ _
theorem Good.putTrust {q : List Instr} {s : State} (h : Good q s) (t : TrustSt) : Good q (s.putTrust t) :=
  Good.wrAll _ ⟨h.pending, h.mile, { h.canon with }⟩

/-! ### The two memories: bytes written and bytes zeroed keep the canonical form (05 R89, 01 R19) -/

theorem Good.hbmWrite {q : List Instr} {s : State} (h : Good q s) (dpa : Nat) (bs : List Byte) : Good q (hbmWrite s dpa bs) :=
  ⟨h.pending, h.mile, { h.canon with
    hbm := twf_tsetAll _ h.canon.hbm
    hbmUe := twf_foldl_tset (fun w => w) (fun _ => 0) _ h.canon.hbmUe
    hbmCe := twf_foldl_tset (fun w => w) (fun _ => 0) _ h.canon.hbmCe
    hbmCeEntry := twf_foldl_tset (fun w => w) (fun _ => 0) _ h.canon.hbmCeEntry }⟩
theorem Good.hbmZero {q : List Instr} {s : State} (h : Good q s) (dpa n : Nat) : Good q (hbmZero s dpa n) :=
  ⟨h.pending, h.mile, { h.canon with
    hbm := twf_filter _ h.canon.hbm
    hbmUe := twf_filter _ h.canon.hbmUe
    hbmCe := twf_filter _ h.canon.hbmCe
    hbmCeEntry := twf_filter _ h.canon.hbmCeEntry }⟩
theorem Good.spadWrite {q : List Instr} {s : State} (h : Good q s) (tile off : Nat) (bs : List Byte) : Good q (spadWrite s tile off bs) := by
  have h1 : Good q { s with spad := tsetAll byte0 s.spad ((List.range bs.length).map fun i => (spadKey s tile off + i, lget 0#8 bs i)) } :=
    ⟨h.pending, h.mile, { h.canon with spad := twf_tsetAll _ h.canon.spad }⟩
  exact h1.setTile tile _
theorem Good.spadWriteSegs {q : List Instr} (tile : Nat) : (l : List (Nat × Nat)) → (bs : List Byte) → {s : State} → Good q s →
    Good q (spadWriteSegs s tile l bs)
  | [], _, _, h => h
  | (o, n) :: r, bs, _, h => Good.spadWriteSegs tile r (bs.drop n) (h.spadWrite tile o _)

end Sys2Proof.Machine
end

