-- ==== Sys2Proof/Laws/State.lean ====
section
/-! SUPPORT. What reading a part of the State gives after an update of another, what a field of a register reads as after a write, and
what the two operations that every command goes through, `run` and `issueOne`, can answer. -/

namespace Sys2Proof.Machine
open Sys2Proof

/-! ### A register written -/

@[simp] theorem State.setReg_pending (s : State) (o : Nat) (v : Word64) : (s.setReg o v).pending = s.pending := rfl
@[simp] theorem State.setReg_free (s : State) (o : Nat) (v : Word64) : (s.setReg o v).free = s.free := rfl
@[simp] theorem State.setReg_mile (s : State) (o : Nat) (v : Word64) : (s.setReg o v).mile = s.mile := rfl
@[simp] theorem State.setReg_spad (s : State) (o : Nat) (v : Word64) : (s.setReg o v).spad = s.spad := rfl
@[simp] theorem State.setReg_cores (s : State) (o : Nat) (v : Word64) : (s.setReg o v).cores = s.cores := rfl
@[simp] theorem State.setReg_tiles (s : State) (o : Nat) (v : Word64) : (s.setReg o v).tiles = s.tiles := rfl
@[simp] theorem State.setReg_flights (s : State) (o : Nat) (v : Word64) : (s.setReg o v).flights = s.flights := rfl
@[simp] theorem State.setReg_mesh (s : State) (o : Nat) (v : Word64) : (s.setReg o v).mesh = s.mesh := rfl
@[simp] theorem State.setReg_routerDrops (s : State) (o : Nat) (v : Word64) : (s.setReg o v).routerDrops = s.routerDrops := rfl
@[simp] theorem State.setReg_msix (s : State) (o : Nat) (v : Word64) : (s.setReg o v).msix = s.msix := rfl
@[simp] theorem State.setReg_msixPend (s : State) (o : Nat) (v : Word64) : (s.setReg o v).msixPend = s.msixPend := rfl
@[simp] theorem State.setReg_posted (s : State) (o : Nat) (v : Word64) : (s.setReg o v).posted = s.posted := rfl
@[simp] theorem State.setReg_dlActive (s : State) (o : Nat) (v : Word64) : (s.setReg o v).dlActive = s.dlActive := rfl
@[simp] theorem State.setReg_failBuf (s : State) (o : Nat) (v : Word64) : (s.setReg o v).failBuf = s.failBuf := rfl
@[simp] theorem State.setReg_fatalStep (s : State) (o : Nat) (v : Word64) : (s.setReg o v).fatalStep = s.fatalStep := rfl
@[simp] theorem State.setReg_bmcOut (s : State) (o : Nat) (v : Word64) : (s.setReg o v).bmcOut = s.bmcOut := rfl
@[simp] theorem State.setReg_hbm (s : State) (o : Nat) (v : Word64) : (s.setReg o v).hbm = s.hbm := rfl
@[simp] theorem State.setReg_hbmWide (s : State) (o : Nat) (v : Word64) : (s.setReg o v).hbmWide = s.hbmWide := rfl
@[simp] theorem State.setReg_hbmUe (s : State) (o : Nat) (v : Word64) : (s.setReg o v).hbmUe = s.hbmUe := rfl
@[simp] theorem State.setReg_hbmCe (s : State) (o : Nat) (v : Word64) : (s.setReg o v).hbmCe = s.hbmCe := rfl
@[simp] theorem State.setReg_hbmCeEntry (s : State) (o : Nat) (v : Word64) : (s.setReg o v).hbmCeEntry = s.hbmCeEntry := rfl
@[simp] theorem State.setReg_link (s : State) (o : Nat) (v : Word64) : (s.setReg o v).link = s.link := rfl
@[simp] theorem State.setReg_reqs (s : State) (o : Nat) (v : Word64) : (s.setReg o v).reqs = s.reqs := rfl
@[simp] theorem State.setReg_reqWait (s : State) (o : Nat) (v : Word64) : (s.setReg o v).reqWait = s.reqWait := rfl
@[simp] theorem State.setReg_nextTag (s : State) (o : Nat) (v : Word64) : (s.setReg o v).nextTag = s.nextTag := rfl
@[simp] theorem State.setReg_urSent (s : State) (o : Nat) (v : Word64) : (s.setReg o v).urSent = s.urSent := rfl
@[simp] theorem State.setReg_pendingSt (s : State) (o : Nat) (v : Word64) : (s.setReg o v).pendingSt = s.pendingSt := rfl
@[simp] theorem State.setReg_rings (s : State) (o : Nat) (v : Word64) : (s.setReg o v).rings = s.rings := rfl
@[simp] theorem State.setReg_rrLast (s : State) (o : Nat) (v : Word64) : (s.setReg o v).rrLast = s.rrLast := rfl
@[simp] theorem State.setReg_polls (s : State) (o : Nat) (v : Word64) : (s.setReg o v).polls = s.polls := rfl
@[simp] theorem State.setReg_images (s : State) (o : Nat) (v : Word64) : (s.setReg o v).images = s.images := rfl
@[simp] theorem State.setReg_barges (s : State) (o : Nat) (v : Word64) : (s.setReg o v).barges = s.barges := rfl
@[simp] theorem State.setReg_bargeNext (s : State) (o : Nat) (v : Word64) : (s.setReg o v).bargeNext = s.bargeNext := rfl
@[simp] theorem State.setReg_dumps (s : State) (o : Nat) (v : Word64) : (s.setReg o v).dumps = s.dumps := rfl
@[simp] theorem State.setReg_remotes (s : State) (o : Nat) (v : Word64) : (s.setReg o v).remotes = s.remotes := rfl
@[simp] theorem State.setReg_arrivals (s : State) (o : Nat) (v : Word64) : (s.setReg o v).arrivals = s.arrivals := rfl
@[simp] theorem State.setReg_groupSet (s : State) (o : Nat) (v : Word64) : (s.setReg o v).groupSet = s.groupSet := rfl
@[simp] theorem State.setReg_stagedNext (s : State) (o : Nat) (v : Word64) : (s.setReg o v).stagedNext = s.stagedNext := rfl
@[simp] theorem State.setReg_power (s : State) (o : Nat) (v : Word64) : (s.setReg o v).power = s.power := rfl
@[simp] theorem State.setReg_trust (s : State) (o : Nat) (v : Word64) : (s.setReg o v).trust = s.trust := rfl
@[simp] theorem State.setReg_flash (s : State) (o : Nat) (v : Word64) : (s.setReg o v).flash = s.flash := rfl
@[simp] theorem State.setReg_back (s : State) (o : Nat) (v : Word64) : (s.setReg o v).back = s.back := rfl
@[simp] theorem State.setReg_parts (s : State) (o : Nat) (v : Word64) : (s.setReg o v).parts = s.parts := rfl
@[simp] theorem State.setReg_pins (s : State) (o : Nat) (v : Word64) : (s.setReg o v).pins = s.pins := rfl
@[simp] theorem State.setReg_hailOut (s : State) (o : Nat) (v : Word64) : (s.setReg o v).hailOut = s.hailOut := rfl
@[simp] theorem State.setReg_ports (s : State) (o : Nat) (v : Word64) : (s.setReg o v).ports = s.ports := rfl
@[simp] theorem State.setReg_flitOut (s : State) (o : Nat) (v : Word64) : (s.setReg o v).flitOut = s.flitOut := rfl
@[simp] theorem State.setReg_mileSt (s : State) (o : Nat) (v : Word64) : (s.setReg o v).mileSt = s.mileSt := rfl
@[simp] theorem State.setReg_segIn (s : State) (o : Nat) (v : Word64) : (s.setReg o v).segIn = s.segIn := rfl
@[simp] theorem State.setReg_remoteIn (s : State) (o : Nat) (v : Word64) : (s.setReg o v).remoteIn = s.remoteIn := rfl
@[simp] theorem State.setReg_buckets (s : State) (o : Nat) (v : Word64) : (s.setReg o v).buckets = s.buckets := rfl
@[simp] theorem State.setReg_slots (s : State) (o : Nat) (v : Word64) : (s.setReg o v).slots = s.slots := rfl
@[simp] theorem State.setReg_holdUse (s : State) (o : Nat) (v : Word64) : (s.setReg o v).holdUse = s.holdUse := rfl
@[simp] theorem State.setReg_fenced (s : State) (o : Nat) (v : Word64) : (s.setReg o v).fenced = s.fenced := rfl

/-! ### A field of a register written -/

@[simp] theorem State.wr_pending (s : State) (f : Fld) (v : Nat) : (s.wr f v).pending = s.pending := rfl
@[simp] theorem State.wr_free (s : State) (f : Fld) (v : Nat) : (s.wr f v).free = s.free := rfl
@[simp] theorem State.wr_mile (s : State) (f : Fld) (v : Nat) : (s.wr f v).mile = s.mile := rfl
@[simp] theorem State.wr_spad (s : State) (f : Fld) (v : Nat) : (s.wr f v).spad = s.spad := rfl
@[simp] theorem State.wr_cores (s : State) (f : Fld) (v : Nat) : (s.wr f v).cores = s.cores := rfl
@[simp] theorem State.wr_tiles (s : State) (f : Fld) (v : Nat) : (s.wr f v).tiles = s.tiles := rfl
@[simp] theorem State.wr_flights (s : State) (f : Fld) (v : Nat) : (s.wr f v).flights = s.flights := rfl
@[simp] theorem State.wr_mesh (s : State) (f : Fld) (v : Nat) : (s.wr f v).mesh = s.mesh := rfl
@[simp] theorem State.wr_routerDrops (s : State) (f : Fld) (v : Nat) : (s.wr f v).routerDrops = s.routerDrops := rfl
@[simp] theorem State.wr_msix (s : State) (f : Fld) (v : Nat) : (s.wr f v).msix = s.msix := rfl
@[simp] theorem State.wr_msixPend (s : State) (f : Fld) (v : Nat) : (s.wr f v).msixPend = s.msixPend := rfl
@[simp] theorem State.wr_posted (s : State) (f : Fld) (v : Nat) : (s.wr f v).posted = s.posted := rfl
@[simp] theorem State.wr_dlActive (s : State) (f : Fld) (v : Nat) : (s.wr f v).dlActive = s.dlActive := rfl
@[simp] theorem State.wr_failBuf (s : State) (f : Fld) (v : Nat) : (s.wr f v).failBuf = s.failBuf := rfl
@[simp] theorem State.wr_fatalStep (s : State) (f : Fld) (v : Nat) : (s.wr f v).fatalStep = s.fatalStep := rfl
@[simp] theorem State.wr_bmcOut (s : State) (f : Fld) (v : Nat) : (s.wr f v).bmcOut = s.bmcOut := rfl
@[simp] theorem State.wr_hbm (s : State) (f : Fld) (v : Nat) : (s.wr f v).hbm = s.hbm := rfl
@[simp] theorem State.wr_hbmWide (s : State) (f : Fld) (v : Nat) : (s.wr f v).hbmWide = s.hbmWide := rfl
@[simp] theorem State.wr_hbmUe (s : State) (f : Fld) (v : Nat) : (s.wr f v).hbmUe = s.hbmUe := rfl
@[simp] theorem State.wr_hbmCe (s : State) (f : Fld) (v : Nat) : (s.wr f v).hbmCe = s.hbmCe := rfl
@[simp] theorem State.wr_hbmCeEntry (s : State) (f : Fld) (v : Nat) : (s.wr f v).hbmCeEntry = s.hbmCeEntry := rfl
@[simp] theorem State.wr_link (s : State) (f : Fld) (v : Nat) : (s.wr f v).link = s.link := rfl
@[simp] theorem State.wr_reqs (s : State) (f : Fld) (v : Nat) : (s.wr f v).reqs = s.reqs := rfl
@[simp] theorem State.wr_reqWait (s : State) (f : Fld) (v : Nat) : (s.wr f v).reqWait = s.reqWait := rfl
@[simp] theorem State.wr_nextTag (s : State) (f : Fld) (v : Nat) : (s.wr f v).nextTag = s.nextTag := rfl
@[simp] theorem State.wr_urSent (s : State) (f : Fld) (v : Nat) : (s.wr f v).urSent = s.urSent := rfl
@[simp] theorem State.wr_pendingSt (s : State) (f : Fld) (v : Nat) : (s.wr f v).pendingSt = s.pendingSt := rfl
@[simp] theorem State.wr_rings (s : State) (f : Fld) (v : Nat) : (s.wr f v).rings = s.rings := rfl
@[simp] theorem State.wr_rrLast (s : State) (f : Fld) (v : Nat) : (s.wr f v).rrLast = s.rrLast := rfl
@[simp] theorem State.wr_polls (s : State) (f : Fld) (v : Nat) : (s.wr f v).polls = s.polls := rfl
@[simp] theorem State.wr_images (s : State) (f : Fld) (v : Nat) : (s.wr f v).images = s.images := rfl
@[simp] theorem State.wr_barges (s : State) (f : Fld) (v : Nat) : (s.wr f v).barges = s.barges := rfl
@[simp] theorem State.wr_bargeNext (s : State) (f : Fld) (v : Nat) : (s.wr f v).bargeNext = s.bargeNext := rfl
@[simp] theorem State.wr_dumps (s : State) (f : Fld) (v : Nat) : (s.wr f v).dumps = s.dumps := rfl
@[simp] theorem State.wr_remotes (s : State) (f : Fld) (v : Nat) : (s.wr f v).remotes = s.remotes := rfl
@[simp] theorem State.wr_arrivals (s : State) (f : Fld) (v : Nat) : (s.wr f v).arrivals = s.arrivals := rfl
@[simp] theorem State.wr_groupSet (s : State) (f : Fld) (v : Nat) : (s.wr f v).groupSet = s.groupSet := rfl
@[simp] theorem State.wr_stagedNext (s : State) (f : Fld) (v : Nat) : (s.wr f v).stagedNext = s.stagedNext := rfl
@[simp] theorem State.wr_power (s : State) (f : Fld) (v : Nat) : (s.wr f v).power = s.power := rfl
@[simp] theorem State.wr_trust (s : State) (f : Fld) (v : Nat) : (s.wr f v).trust = s.trust := rfl
@[simp] theorem State.wr_flash (s : State) (f : Fld) (v : Nat) : (s.wr f v).flash = s.flash := rfl
@[simp] theorem State.wr_back (s : State) (f : Fld) (v : Nat) : (s.wr f v).back = s.back := rfl
@[simp] theorem State.wr_parts (s : State) (f : Fld) (v : Nat) : (s.wr f v).parts = s.parts := rfl
@[simp] theorem State.wr_pins (s : State) (f : Fld) (v : Nat) : (s.wr f v).pins = s.pins := rfl
@[simp] theorem State.wr_hailOut (s : State) (f : Fld) (v : Nat) : (s.wr f v).hailOut = s.hailOut := rfl
@[simp] theorem State.wr_ports (s : State) (f : Fld) (v : Nat) : (s.wr f v).ports = s.ports := rfl
@[simp] theorem State.wr_flitOut (s : State) (f : Fld) (v : Nat) : (s.wr f v).flitOut = s.flitOut := rfl
@[simp] theorem State.wr_mileSt (s : State) (f : Fld) (v : Nat) : (s.wr f v).mileSt = s.mileSt := rfl
@[simp] theorem State.wr_segIn (s : State) (f : Fld) (v : Nat) : (s.wr f v).segIn = s.segIn := rfl
@[simp] theorem State.wr_remoteIn (s : State) (f : Fld) (v : Nat) : (s.wr f v).remoteIn = s.remoteIn := rfl
@[simp] theorem State.wr_buckets (s : State) (f : Fld) (v : Nat) : (s.wr f v).buckets = s.buckets := rfl
@[simp] theorem State.wr_slots (s : State) (f : Fld) (v : Nat) : (s.wr f v).slots = s.slots := rfl
@[simp] theorem State.wr_holdUse (s : State) (f : Fld) (v : Nat) : (s.wr f v).holdUse = s.holdUse := rfl
@[simp] theorem State.wr_fenced (s : State) (f : Fld) (v : Nat) : (s.wr f v).fenced = s.fenced := rfl

/-! ### A core's record written -/

@[simp] theorem State.setCore_pending (s : State) (u : Nat) (c : CoreSt) : (s.setCore u c).pending = s.pending := rfl
@[simp] theorem State.setCore_free (s : State) (u : Nat) (c : CoreSt) : (s.setCore u c).free = s.free := rfl
@[simp] theorem State.setCore_mile (s : State) (u : Nat) (c : CoreSt) : (s.setCore u c).mile = s.mile := rfl
@[simp] theorem State.setCore_regs (s : State) (u : Nat) (c : CoreSt) : (s.setCore u c).regs = s.regs := rfl
@[simp] theorem State.setCore_spad (s : State) (u : Nat) (c : CoreSt) : (s.setCore u c).spad = s.spad := rfl
@[simp] theorem State.setCore_tiles (s : State) (u : Nat) (c : CoreSt) : (s.setCore u c).tiles = s.tiles := rfl
@[simp] theorem State.setCore_flights (s : State) (u : Nat) (c : CoreSt) : (s.setCore u c).flights = s.flights := rfl
@[simp] theorem State.setCore_mesh (s : State) (u : Nat) (c : CoreSt) : (s.setCore u c).mesh = s.mesh := rfl
@[simp] theorem State.setCore_routerDrops (s : State) (u : Nat) (c : CoreSt) : (s.setCore u c).routerDrops = s.routerDrops := rfl
@[simp] theorem State.setCore_msix (s : State) (u : Nat) (c : CoreSt) : (s.setCore u c).msix = s.msix := rfl
@[simp] theorem State.setCore_msixPend (s : State) (u : Nat) (c : CoreSt) : (s.setCore u c).msixPend = s.msixPend := rfl
@[simp] theorem State.setCore_posted (s : State) (u : Nat) (c : CoreSt) : (s.setCore u c).posted = s.posted := rfl
@[simp] theorem State.setCore_dlActive (s : State) (u : Nat) (c : CoreSt) : (s.setCore u c).dlActive = s.dlActive := rfl
@[simp] theorem State.setCore_failBuf (s : State) (u : Nat) (c : CoreSt) : (s.setCore u c).failBuf = s.failBuf := rfl
@[simp] theorem State.setCore_fatalStep (s : State) (u : Nat) (c : CoreSt) : (s.setCore u c).fatalStep = s.fatalStep := rfl
@[simp] theorem State.setCore_bmcOut (s : State) (u : Nat) (c : CoreSt) : (s.setCore u c).bmcOut = s.bmcOut := rfl
@[simp] theorem State.setCore_hbm (s : State) (u : Nat) (c : CoreSt) : (s.setCore u c).hbm = s.hbm := rfl
@[simp] theorem State.setCore_hbmWide (s : State) (u : Nat) (c : CoreSt) : (s.setCore u c).hbmWide = s.hbmWide := rfl
@[simp] theorem State.setCore_hbmUe (s : State) (u : Nat) (c : CoreSt) : (s.setCore u c).hbmUe = s.hbmUe := rfl
@[simp] theorem State.setCore_hbmCe (s : State) (u : Nat) (c : CoreSt) : (s.setCore u c).hbmCe = s.hbmCe := rfl
@[simp] theorem State.setCore_hbmCeEntry (s : State) (u : Nat) (c : CoreSt) : (s.setCore u c).hbmCeEntry = s.hbmCeEntry := rfl
@[simp] theorem State.setCore_link (s : State) (u : Nat) (c : CoreSt) : (s.setCore u c).link = s.link := rfl
@[simp] theorem State.setCore_reqs (s : State) (u : Nat) (c : CoreSt) : (s.setCore u c).reqs = s.reqs := rfl
@[simp] theorem State.setCore_reqWait (s : State) (u : Nat) (c : CoreSt) : (s.setCore u c).reqWait = s.reqWait := rfl
@[simp] theorem State.setCore_nextTag (s : State) (u : Nat) (c : CoreSt) : (s.setCore u c).nextTag = s.nextTag := rfl
@[simp] theorem State.setCore_urSent (s : State) (u : Nat) (c : CoreSt) : (s.setCore u c).urSent = s.urSent := rfl
@[simp] theorem State.setCore_pendingSt (s : State) (u : Nat) (c : CoreSt) : (s.setCore u c).pendingSt = s.pendingSt := rfl
@[simp] theorem State.setCore_rings (s : State) (u : Nat) (c : CoreSt) : (s.setCore u c).rings = s.rings := rfl
@[simp] theorem State.setCore_rrLast (s : State) (u : Nat) (c : CoreSt) : (s.setCore u c).rrLast = s.rrLast := rfl
@[simp] theorem State.setCore_polls (s : State) (u : Nat) (c : CoreSt) : (s.setCore u c).polls = s.polls := rfl
@[simp] theorem State.setCore_images (s : State) (u : Nat) (c : CoreSt) : (s.setCore u c).images = s.images := rfl
@[simp] theorem State.setCore_barges (s : State) (u : Nat) (c : CoreSt) : (s.setCore u c).barges = s.barges := rfl
@[simp] theorem State.setCore_bargeNext (s : State) (u : Nat) (c : CoreSt) : (s.setCore u c).bargeNext = s.bargeNext := rfl
@[simp] theorem State.setCore_dumps (s : State) (u : Nat) (c : CoreSt) : (s.setCore u c).dumps = s.dumps := rfl
@[simp] theorem State.setCore_remotes (s : State) (u : Nat) (c : CoreSt) : (s.setCore u c).remotes = s.remotes := rfl
@[simp] theorem State.setCore_arrivals (s : State) (u : Nat) (c : CoreSt) : (s.setCore u c).arrivals = s.arrivals := rfl
@[simp] theorem State.setCore_groupSet (s : State) (u : Nat) (c : CoreSt) : (s.setCore u c).groupSet = s.groupSet := rfl
@[simp] theorem State.setCore_stagedNext (s : State) (u : Nat) (c : CoreSt) : (s.setCore u c).stagedNext = s.stagedNext := rfl
@[simp] theorem State.setCore_power (s : State) (u : Nat) (c : CoreSt) : (s.setCore u c).power = s.power := rfl
@[simp] theorem State.setCore_trust (s : State) (u : Nat) (c : CoreSt) : (s.setCore u c).trust = s.trust := rfl
@[simp] theorem State.setCore_flash (s : State) (u : Nat) (c : CoreSt) : (s.setCore u c).flash = s.flash := rfl
@[simp] theorem State.setCore_back (s : State) (u : Nat) (c : CoreSt) : (s.setCore u c).back = s.back := rfl
@[simp] theorem State.setCore_parts (s : State) (u : Nat) (c : CoreSt) : (s.setCore u c).parts = s.parts := rfl
@[simp] theorem State.setCore_pins (s : State) (u : Nat) (c : CoreSt) : (s.setCore u c).pins = s.pins := rfl
@[simp] theorem State.setCore_hailOut (s : State) (u : Nat) (c : CoreSt) : (s.setCore u c).hailOut = s.hailOut := rfl
@[simp] theorem State.setCore_ports (s : State) (u : Nat) (c : CoreSt) : (s.setCore u c).ports = s.ports := rfl
@[simp] theorem State.setCore_flitOut (s : State) (u : Nat) (c : CoreSt) : (s.setCore u c).flitOut = s.flitOut := rfl
@[simp] theorem State.setCore_mileSt (s : State) (u : Nat) (c : CoreSt) : (s.setCore u c).mileSt = s.mileSt := rfl
@[simp] theorem State.setCore_segIn (s : State) (u : Nat) (c : CoreSt) : (s.setCore u c).segIn = s.segIn := rfl
@[simp] theorem State.setCore_remoteIn (s : State) (u : Nat) (c : CoreSt) : (s.setCore u c).remoteIn = s.remoteIn := rfl
@[simp] theorem State.setCore_buckets (s : State) (u : Nat) (c : CoreSt) : (s.setCore u c).buckets = s.buckets := rfl
@[simp] theorem State.setCore_slots (s : State) (u : Nat) (c : CoreSt) : (s.setCore u c).slots = s.slots := rfl
@[simp] theorem State.setCore_holdUse (s : State) (u : Nat) (c : CoreSt) : (s.setCore u c).holdUse = s.holdUse := rfl
@[simp] theorem State.setCore_fenced (s : State) (u : Nat) (c : CoreSt) : (s.setCore u c).fenced = s.fenced := rfl

/-! ### A tile's record written -/

@[simp] theorem State.setTile_pending (s : State) (n : Nat) (t : TileSt) : (s.setTile n t).pending = s.pending := rfl
@[simp] theorem State.setTile_free (s : State) (n : Nat) (t : TileSt) : (s.setTile n t).free = s.free := rfl
@[simp] theorem State.setTile_mile (s : State) (n : Nat) (t : TileSt) : (s.setTile n t).mile = s.mile := rfl
@[simp] theorem State.setTile_regs (s : State) (n : Nat) (t : TileSt) : (s.setTile n t).regs = s.regs := rfl
@[simp] theorem State.setTile_spad (s : State) (n : Nat) (t : TileSt) : (s.setTile n t).spad = s.spad := rfl
@[simp] theorem State.setTile_cores (s : State) (n : Nat) (t : TileSt) : (s.setTile n t).cores = s.cores := rfl
@[simp] theorem State.setTile_flights (s : State) (n : Nat) (t : TileSt) : (s.setTile n t).flights = s.flights := rfl
@[simp] theorem State.setTile_mesh (s : State) (n : Nat) (t : TileSt) : (s.setTile n t).mesh = s.mesh := rfl
@[simp] theorem State.setTile_routerDrops (s : State) (n : Nat) (t : TileSt) : (s.setTile n t).routerDrops = s.routerDrops := rfl
@[simp] theorem State.setTile_msix (s : State) (n : Nat) (t : TileSt) : (s.setTile n t).msix = s.msix := rfl
@[simp] theorem State.setTile_msixPend (s : State) (n : Nat) (t : TileSt) : (s.setTile n t).msixPend = s.msixPend := rfl
@[simp] theorem State.setTile_posted (s : State) (n : Nat) (t : TileSt) : (s.setTile n t).posted = s.posted := rfl
@[simp] theorem State.setTile_dlActive (s : State) (n : Nat) (t : TileSt) : (s.setTile n t).dlActive = s.dlActive := rfl
@[simp] theorem State.setTile_failBuf (s : State) (n : Nat) (t : TileSt) : (s.setTile n t).failBuf = s.failBuf := rfl
@[simp] theorem State.setTile_fatalStep (s : State) (n : Nat) (t : TileSt) : (s.setTile n t).fatalStep = s.fatalStep := rfl
@[simp] theorem State.setTile_bmcOut (s : State) (n : Nat) (t : TileSt) : (s.setTile n t).bmcOut = s.bmcOut := rfl
@[simp] theorem State.setTile_hbm (s : State) (n : Nat) (t : TileSt) : (s.setTile n t).hbm = s.hbm := rfl
@[simp] theorem State.setTile_hbmWide (s : State) (n : Nat) (t : TileSt) : (s.setTile n t).hbmWide = s.hbmWide := rfl
@[simp] theorem State.setTile_hbmUe (s : State) (n : Nat) (t : TileSt) : (s.setTile n t).hbmUe = s.hbmUe := rfl
@[simp] theorem State.setTile_hbmCe (s : State) (n : Nat) (t : TileSt) : (s.setTile n t).hbmCe = s.hbmCe := rfl
@[simp] theorem State.setTile_hbmCeEntry (s : State) (n : Nat) (t : TileSt) : (s.setTile n t).hbmCeEntry = s.hbmCeEntry := rfl
@[simp] theorem State.setTile_link (s : State) (n : Nat) (t : TileSt) : (s.setTile n t).link = s.link := rfl
@[simp] theorem State.setTile_reqs (s : State) (n : Nat) (t : TileSt) : (s.setTile n t).reqs = s.reqs := rfl
@[simp] theorem State.setTile_reqWait (s : State) (n : Nat) (t : TileSt) : (s.setTile n t).reqWait = s.reqWait := rfl
@[simp] theorem State.setTile_nextTag (s : State) (n : Nat) (t : TileSt) : (s.setTile n t).nextTag = s.nextTag := rfl
@[simp] theorem State.setTile_urSent (s : State) (n : Nat) (t : TileSt) : (s.setTile n t).urSent = s.urSent := rfl
@[simp] theorem State.setTile_pendingSt (s : State) (n : Nat) (t : TileSt) : (s.setTile n t).pendingSt = s.pendingSt := rfl
@[simp] theorem State.setTile_rings (s : State) (n : Nat) (t : TileSt) : (s.setTile n t).rings = s.rings := rfl
@[simp] theorem State.setTile_rrLast (s : State) (n : Nat) (t : TileSt) : (s.setTile n t).rrLast = s.rrLast := rfl
@[simp] theorem State.setTile_polls (s : State) (n : Nat) (t : TileSt) : (s.setTile n t).polls = s.polls := rfl
@[simp] theorem State.setTile_images (s : State) (n : Nat) (t : TileSt) : (s.setTile n t).images = s.images := rfl
@[simp] theorem State.setTile_barges (s : State) (n : Nat) (t : TileSt) : (s.setTile n t).barges = s.barges := rfl
@[simp] theorem State.setTile_bargeNext (s : State) (n : Nat) (t : TileSt) : (s.setTile n t).bargeNext = s.bargeNext := rfl
@[simp] theorem State.setTile_dumps (s : State) (n : Nat) (t : TileSt) : (s.setTile n t).dumps = s.dumps := rfl
@[simp] theorem State.setTile_remotes (s : State) (n : Nat) (t : TileSt) : (s.setTile n t).remotes = s.remotes := rfl
@[simp] theorem State.setTile_arrivals (s : State) (n : Nat) (t : TileSt) : (s.setTile n t).arrivals = s.arrivals := rfl
@[simp] theorem State.setTile_groupSet (s : State) (n : Nat) (t : TileSt) : (s.setTile n t).groupSet = s.groupSet := rfl
@[simp] theorem State.setTile_stagedNext (s : State) (n : Nat) (t : TileSt) : (s.setTile n t).stagedNext = s.stagedNext := rfl
@[simp] theorem State.setTile_power (s : State) (n : Nat) (t : TileSt) : (s.setTile n t).power = s.power := rfl
@[simp] theorem State.setTile_trust (s : State) (n : Nat) (t : TileSt) : (s.setTile n t).trust = s.trust := rfl
@[simp] theorem State.setTile_flash (s : State) (n : Nat) (t : TileSt) : (s.setTile n t).flash = s.flash := rfl
@[simp] theorem State.setTile_back (s : State) (n : Nat) (t : TileSt) : (s.setTile n t).back = s.back := rfl
@[simp] theorem State.setTile_parts (s : State) (n : Nat) (t : TileSt) : (s.setTile n t).parts = s.parts := rfl
@[simp] theorem State.setTile_pins (s : State) (n : Nat) (t : TileSt) : (s.setTile n t).pins = s.pins := rfl
@[simp] theorem State.setTile_hailOut (s : State) (n : Nat) (t : TileSt) : (s.setTile n t).hailOut = s.hailOut := rfl
@[simp] theorem State.setTile_ports (s : State) (n : Nat) (t : TileSt) : (s.setTile n t).ports = s.ports := rfl
@[simp] theorem State.setTile_flitOut (s : State) (n : Nat) (t : TileSt) : (s.setTile n t).flitOut = s.flitOut := rfl
@[simp] theorem State.setTile_mileSt (s : State) (n : Nat) (t : TileSt) : (s.setTile n t).mileSt = s.mileSt := rfl
@[simp] theorem State.setTile_segIn (s : State) (n : Nat) (t : TileSt) : (s.setTile n t).segIn = s.segIn := rfl
@[simp] theorem State.setTile_remoteIn (s : State) (n : Nat) (t : TileSt) : (s.setTile n t).remoteIn = s.remoteIn := rfl
@[simp] theorem State.setTile_buckets (s : State) (n : Nat) (t : TileSt) : (s.setTile n t).buckets = s.buckets := rfl
@[simp] theorem State.setTile_slots (s : State) (n : Nat) (t : TileSt) : (s.setTile n t).slots = s.slots := rfl
@[simp] theorem State.setTile_holdUse (s : State) (n : Nat) (t : TileSt) : (s.setTile n t).holdUse = s.holdUse := rfl
@[simp] theorem State.setTile_fenced (s : State) (n : Nat) (t : TileSt) : (s.setTile n t).fenced = s.fenced := rfl

/-! ### A port's record written -/

@[simp] theorem State.putPort_pending (s : State) (p : Nat) (g : PortSt) : (s.putPort p g).pending = s.pending := rfl
@[simp] theorem State.putPort_free (s : State) (p : Nat) (g : PortSt) : (s.putPort p g).free = s.free := rfl
@[simp] theorem State.putPort_mile (s : State) (p : Nat) (g : PortSt) : (s.putPort p g).mile = s.mile := rfl
@[simp] theorem State.putPort_regs (s : State) (p : Nat) (g : PortSt) : (s.putPort p g).regs = s.regs := rfl
@[simp] theorem State.putPort_spad (s : State) (p : Nat) (g : PortSt) : (s.putPort p g).spad = s.spad := rfl
@[simp] theorem State.putPort_cores (s : State) (p : Nat) (g : PortSt) : (s.putPort p g).cores = s.cores := rfl
@[simp] theorem State.putPort_tiles (s : State) (p : Nat) (g : PortSt) : (s.putPort p g).tiles = s.tiles := rfl
@[simp] theorem State.putPort_flights (s : State) (p : Nat) (g : PortSt) : (s.putPort p g).flights = s.flights := rfl
@[simp] theorem State.putPort_mesh (s : State) (p : Nat) (g : PortSt) : (s.putPort p g).mesh = s.mesh := rfl
@[simp] theorem State.putPort_routerDrops (s : State) (p : Nat) (g : PortSt) : (s.putPort p g).routerDrops = s.routerDrops := rfl
@[simp] theorem State.putPort_msix (s : State) (p : Nat) (g : PortSt) : (s.putPort p g).msix = s.msix := rfl
@[simp] theorem State.putPort_msixPend (s : State) (p : Nat) (g : PortSt) : (s.putPort p g).msixPend = s.msixPend := rfl
@[simp] theorem State.putPort_posted (s : State) (p : Nat) (g : PortSt) : (s.putPort p g).posted = s.posted := rfl
@[simp] theorem State.putPort_dlActive (s : State) (p : Nat) (g : PortSt) : (s.putPort p g).dlActive = s.dlActive := rfl
@[simp] theorem State.putPort_failBuf (s : State) (p : Nat) (g : PortSt) : (s.putPort p g).failBuf = s.failBuf := rfl
@[simp] theorem State.putPort_fatalStep (s : State) (p : Nat) (g : PortSt) : (s.putPort p g).fatalStep = s.fatalStep := rfl
@[simp] theorem State.putPort_bmcOut (s : State) (p : Nat) (g : PortSt) : (s.putPort p g).bmcOut = s.bmcOut := rfl
@[simp] theorem State.putPort_hbm (s : State) (p : Nat) (g : PortSt) : (s.putPort p g).hbm = s.hbm := rfl
@[simp] theorem State.putPort_hbmWide (s : State) (p : Nat) (g : PortSt) : (s.putPort p g).hbmWide = s.hbmWide := rfl
@[simp] theorem State.putPort_hbmUe (s : State) (p : Nat) (g : PortSt) : (s.putPort p g).hbmUe = s.hbmUe := rfl
@[simp] theorem State.putPort_hbmCe (s : State) (p : Nat) (g : PortSt) : (s.putPort p g).hbmCe = s.hbmCe := rfl
@[simp] theorem State.putPort_hbmCeEntry (s : State) (p : Nat) (g : PortSt) : (s.putPort p g).hbmCeEntry = s.hbmCeEntry := rfl
@[simp] theorem State.putPort_link (s : State) (p : Nat) (g : PortSt) : (s.putPort p g).link = s.link := rfl
@[simp] theorem State.putPort_reqs (s : State) (p : Nat) (g : PortSt) : (s.putPort p g).reqs = s.reqs := rfl
@[simp] theorem State.putPort_reqWait (s : State) (p : Nat) (g : PortSt) : (s.putPort p g).reqWait = s.reqWait := rfl
@[simp] theorem State.putPort_nextTag (s : State) (p : Nat) (g : PortSt) : (s.putPort p g).nextTag = s.nextTag := rfl
@[simp] theorem State.putPort_urSent (s : State) (p : Nat) (g : PortSt) : (s.putPort p g).urSent = s.urSent := rfl
@[simp] theorem State.putPort_pendingSt (s : State) (p : Nat) (g : PortSt) : (s.putPort p g).pendingSt = s.pendingSt := rfl
@[simp] theorem State.putPort_rings (s : State) (p : Nat) (g : PortSt) : (s.putPort p g).rings = s.rings := rfl
@[simp] theorem State.putPort_rrLast (s : State) (p : Nat) (g : PortSt) : (s.putPort p g).rrLast = s.rrLast := rfl
@[simp] theorem State.putPort_polls (s : State) (p : Nat) (g : PortSt) : (s.putPort p g).polls = s.polls := rfl
@[simp] theorem State.putPort_images (s : State) (p : Nat) (g : PortSt) : (s.putPort p g).images = s.images := rfl
@[simp] theorem State.putPort_barges (s : State) (p : Nat) (g : PortSt) : (s.putPort p g).barges = s.barges := rfl
@[simp] theorem State.putPort_bargeNext (s : State) (p : Nat) (g : PortSt) : (s.putPort p g).bargeNext = s.bargeNext := rfl
@[simp] theorem State.putPort_dumps (s : State) (p : Nat) (g : PortSt) : (s.putPort p g).dumps = s.dumps := rfl
@[simp] theorem State.putPort_remotes (s : State) (p : Nat) (g : PortSt) : (s.putPort p g).remotes = s.remotes := rfl
@[simp] theorem State.putPort_arrivals (s : State) (p : Nat) (g : PortSt) : (s.putPort p g).arrivals = s.arrivals := rfl
@[simp] theorem State.putPort_groupSet (s : State) (p : Nat) (g : PortSt) : (s.putPort p g).groupSet = s.groupSet := rfl
@[simp] theorem State.putPort_stagedNext (s : State) (p : Nat) (g : PortSt) : (s.putPort p g).stagedNext = s.stagedNext := rfl
@[simp] theorem State.putPort_power (s : State) (p : Nat) (g : PortSt) : (s.putPort p g).power = s.power := rfl
@[simp] theorem State.putPort_trust (s : State) (p : Nat) (g : PortSt) : (s.putPort p g).trust = s.trust := rfl
@[simp] theorem State.putPort_flash (s : State) (p : Nat) (g : PortSt) : (s.putPort p g).flash = s.flash := rfl
@[simp] theorem State.putPort_back (s : State) (p : Nat) (g : PortSt) : (s.putPort p g).back = s.back := rfl
@[simp] theorem State.putPort_parts (s : State) (p : Nat) (g : PortSt) : (s.putPort p g).parts = s.parts := rfl
@[simp] theorem State.putPort_pins (s : State) (p : Nat) (g : PortSt) : (s.putPort p g).pins = s.pins := rfl
@[simp] theorem State.putPort_hailOut (s : State) (p : Nat) (g : PortSt) : (s.putPort p g).hailOut = s.hailOut := rfl
@[simp] theorem State.putPort_flitOut (s : State) (p : Nat) (g : PortSt) : (s.putPort p g).flitOut = s.flitOut := rfl
@[simp] theorem State.putPort_mileSt (s : State) (p : Nat) (g : PortSt) : (s.putPort p g).mileSt = s.mileSt := rfl
@[simp] theorem State.putPort_segIn (s : State) (p : Nat) (g : PortSt) : (s.putPort p g).segIn = s.segIn := rfl
@[simp] theorem State.putPort_remoteIn (s : State) (p : Nat) (g : PortSt) : (s.putPort p g).remoteIn = s.remoteIn := rfl
@[simp] theorem State.putPort_buckets (s : State) (p : Nat) (g : PortSt) : (s.putPort p g).buckets = s.buckets := rfl
@[simp] theorem State.putPort_slots (s : State) (p : Nat) (g : PortSt) : (s.putPort p g).slots = s.slots := rfl
@[simp] theorem State.putPort_holdUse (s : State) (p : Nat) (g : PortSt) : (s.putPort p g).holdUse = s.holdUse := rfl
@[simp] theorem State.putPort_fenced (s : State) (p : Nat) (g : PortSt) : (s.putPort p g).fenced = s.fenced := rfl

/-! ### The power record changed -/

@[simp] theorem State.modPower_pending (s : State) (f : PowerSt → PowerSt) : (s.modPower f).pending = s.pending := rfl
@[simp] theorem State.modPower_free (s : State) (f : PowerSt → PowerSt) : (s.modPower f).free = s.free := rfl
@[simp] theorem State.modPower_mile (s : State) (f : PowerSt → PowerSt) : (s.modPower f).mile = s.mile := rfl
@[simp] theorem State.modPower_regs (s : State) (f : PowerSt → PowerSt) : (s.modPower f).regs = s.regs := rfl
@[simp] theorem State.modPower_spad (s : State) (f : PowerSt → PowerSt) : (s.modPower f).spad = s.spad := rfl
@[simp] theorem State.modPower_cores (s : State) (f : PowerSt → PowerSt) : (s.modPower f).cores = s.cores := rfl
@[simp] theorem State.modPower_tiles (s : State) (f : PowerSt → PowerSt) : (s.modPower f).tiles = s.tiles := rfl
@[simp] theorem State.modPower_flights (s : State) (f : PowerSt → PowerSt) : (s.modPower f).flights = s.flights := rfl
@[simp] theorem State.modPower_mesh (s : State) (f : PowerSt → PowerSt) : (s.modPower f).mesh = s.mesh := rfl
@[simp] theorem State.modPower_routerDrops (s : State) (f : PowerSt → PowerSt) : (s.modPower f).routerDrops = s.routerDrops := rfl
@[simp] theorem State.modPower_msix (s : State) (f : PowerSt → PowerSt) : (s.modPower f).msix = s.msix := rfl
@[simp] theorem State.modPower_msixPend (s : State) (f : PowerSt → PowerSt) : (s.modPower f).msixPend = s.msixPend := rfl
@[simp] theorem State.modPower_posted (s : State) (f : PowerSt → PowerSt) : (s.modPower f).posted = s.posted := rfl
@[simp] theorem State.modPower_dlActive (s : State) (f : PowerSt → PowerSt) : (s.modPower f).dlActive = s.dlActive := rfl
@[simp] theorem State.modPower_failBuf (s : State) (f : PowerSt → PowerSt) : (s.modPower f).failBuf = s.failBuf := rfl
@[simp] theorem State.modPower_fatalStep (s : State) (f : PowerSt → PowerSt) : (s.modPower f).fatalStep = s.fatalStep := rfl
@[simp] theorem State.modPower_bmcOut (s : State) (f : PowerSt → PowerSt) : (s.modPower f).bmcOut = s.bmcOut := rfl
@[simp] theorem State.modPower_hbm (s : State) (f : PowerSt → PowerSt) : (s.modPower f).hbm = s.hbm := rfl
@[simp] theorem State.modPower_hbmWide (s : State) (f : PowerSt → PowerSt) : (s.modPower f).hbmWide = s.hbmWide := rfl
@[simp] theorem State.modPower_hbmUe (s : State) (f : PowerSt → PowerSt) : (s.modPower f).hbmUe = s.hbmUe := rfl
@[simp] theorem State.modPower_hbmCe (s : State) (f : PowerSt → PowerSt) : (s.modPower f).hbmCe = s.hbmCe := rfl
@[simp] theorem State.modPower_hbmCeEntry (s : State) (f : PowerSt → PowerSt) : (s.modPower f).hbmCeEntry = s.hbmCeEntry := rfl
@[simp] theorem State.modPower_link (s : State) (f : PowerSt → PowerSt) : (s.modPower f).link = s.link := rfl
@[simp] theorem State.modPower_reqs (s : State) (f : PowerSt → PowerSt) : (s.modPower f).reqs = s.reqs := rfl
@[simp] theorem State.modPower_reqWait (s : State) (f : PowerSt → PowerSt) : (s.modPower f).reqWait = s.reqWait := rfl
@[simp] theorem State.modPower_nextTag (s : State) (f : PowerSt → PowerSt) : (s.modPower f).nextTag = s.nextTag := rfl
@[simp] theorem State.modPower_urSent (s : State) (f : PowerSt → PowerSt) : (s.modPower f).urSent = s.urSent := rfl
@[simp] theorem State.modPower_pendingSt (s : State) (f : PowerSt → PowerSt) : (s.modPower f).pendingSt = s.pendingSt := rfl
@[simp] theorem State.modPower_rings (s : State) (f : PowerSt → PowerSt) : (s.modPower f).rings = s.rings := rfl
@[simp] theorem State.modPower_rrLast (s : State) (f : PowerSt → PowerSt) : (s.modPower f).rrLast = s.rrLast := rfl
@[simp] theorem State.modPower_polls (s : State) (f : PowerSt → PowerSt) : (s.modPower f).polls = s.polls := rfl
@[simp] theorem State.modPower_images (s : State) (f : PowerSt → PowerSt) : (s.modPower f).images = s.images := rfl
@[simp] theorem State.modPower_barges (s : State) (f : PowerSt → PowerSt) : (s.modPower f).barges = s.barges := rfl
@[simp] theorem State.modPower_bargeNext (s : State) (f : PowerSt → PowerSt) : (s.modPower f).bargeNext = s.bargeNext := rfl
@[simp] theorem State.modPower_dumps (s : State) (f : PowerSt → PowerSt) : (s.modPower f).dumps = s.dumps := rfl
@[simp] theorem State.modPower_remotes (s : State) (f : PowerSt → PowerSt) : (s.modPower f).remotes = s.remotes := rfl
@[simp] theorem State.modPower_arrivals (s : State) (f : PowerSt → PowerSt) : (s.modPower f).arrivals = s.arrivals := rfl
@[simp] theorem State.modPower_groupSet (s : State) (f : PowerSt → PowerSt) : (s.modPower f).groupSet = s.groupSet := rfl
@[simp] theorem State.modPower_stagedNext (s : State) (f : PowerSt → PowerSt) : (s.modPower f).stagedNext = s.stagedNext := rfl
@[simp] theorem State.modPower_trust (s : State) (f : PowerSt → PowerSt) : (s.modPower f).trust = s.trust := rfl
@[simp] theorem State.modPower_flash (s : State) (f : PowerSt → PowerSt) : (s.modPower f).flash = s.flash := rfl
@[simp] theorem State.modPower_back (s : State) (f : PowerSt → PowerSt) : (s.modPower f).back = s.back := rfl
@[simp] theorem State.modPower_parts (s : State) (f : PowerSt → PowerSt) : (s.modPower f).parts = s.parts := rfl
@[simp] theorem State.modPower_pins (s : State) (f : PowerSt → PowerSt) : (s.modPower f).pins = s.pins := rfl
@[simp] theorem State.modPower_hailOut (s : State) (f : PowerSt → PowerSt) : (s.modPower f).hailOut = s.hailOut := rfl
@[simp] theorem State.modPower_ports (s : State) (f : PowerSt → PowerSt) : (s.modPower f).ports = s.ports := rfl
@[simp] theorem State.modPower_flitOut (s : State) (f : PowerSt → PowerSt) : (s.modPower f).flitOut = s.flitOut := rfl
@[simp] theorem State.modPower_mileSt (s : State) (f : PowerSt → PowerSt) : (s.modPower f).mileSt = s.mileSt := rfl
@[simp] theorem State.modPower_segIn (s : State) (f : PowerSt → PowerSt) : (s.modPower f).segIn = s.segIn := rfl
@[simp] theorem State.modPower_remoteIn (s : State) (f : PowerSt → PowerSt) : (s.modPower f).remoteIn = s.remoteIn := rfl
@[simp] theorem State.modPower_buckets (s : State) (f : PowerSt → PowerSt) : (s.modPower f).buckets = s.buckets := rfl
@[simp] theorem State.modPower_slots (s : State) (f : PowerSt → PowerSt) : (s.modPower f).slots = s.slots := rfl
@[simp] theorem State.modPower_holdUse (s : State) (f : PowerSt → PowerSt) : (s.modPower f).holdUse = s.holdUse := rfl
@[simp] theorem State.modPower_fenced (s : State) (f : PowerSt → PowerSt) : (s.modPower f).fenced = s.fenced := rfl

/-! ### The record written reads back, the others as before -/

@[simp] theorem State.core_setCore (s : State) (u : Nat) (c : CoreSt) : (s.setCore u c).core u = c := by simp [State.core, State.setCore]
theorem State.core_setCore_ne (s : State) {u k : Nat} (c : CoreSt) (h : k ≠ u) : (s.setCore u c).core k = s.core k := tget_tset_ne _ _ _ h
@[simp] theorem State.tile_setTile (s : State) (n : Nat) (t : TileSt) : (s.setTile n t).tile n = t := by simp [State.tile, State.setTile]
theorem State.tile_setTile_ne (s : State) {n k : Nat} (t : TileSt) (h : k ≠ n) : (s.setTile n t).tile k = s.tile k := tget_tset_ne _ _ _ h
@[simp] theorem State.port_putPort (s : State) (p : Nat) (g : PortSt) : (s.putPort p g).port p = g := by simp [State.port, State.putPort]
theorem State.port_putPort_ne (s : State) {p k : Nat} (g : PortSt) (h : k ≠ p) : (s.putPort p g).port k = s.port k := tget_tset_ne _ _ _ h
@[simp] theorem State.reg_setReg (s : State) (o : Nat) (v : Word64) : (s.setReg o v).reg o = v := by simp [State.reg, State.setReg]
theorem State.reg_setReg_ne (s : State) {o k : Nat} (v : Word64) (h : k ≠ o) : (s.setReg o v).reg k = s.reg k := tget_tset_ne _ _ _ h
@[simp] theorem State.gate_setGate (s : State) (n g : Nat) (v : BitVec 32) : (s.setGate n g v).gate n g = v := by
  simp [State.gate, State.setGate, State.modTile]

/-! ### Registers are read through `regs` alone, records through their own table -/

@[simp] theorem State.rd_setCore (s : State) (u : Nat) (c : CoreSt) (f : Fld) : (s.setCore u c).rd f = s.rd f := rfl
@[simp] theorem State.rd_setTile (s : State) (n : Nat) (t : TileSt) (f : Fld) : (s.setTile n t).rd f = s.rd f := rfl
@[simp] theorem State.rd_putPort (s : State) (p : Nat) (g : PortSt) (f : Fld) : (s.putPort p g).rd f = s.rd f := rfl
@[simp] theorem State.rd_modPower (s : State) (h : PowerSt → PowerSt) (f : Fld) : (s.modPower h).rd f = s.rd f := rfl
@[simp] theorem State.core_setReg (s : State) (o : Nat) (v : Word64) (u : Nat) : (s.setReg o v).core u = s.core u := rfl
@[simp] theorem State.tile_setReg (s : State) (o : Nat) (v : Word64) (n : Nat) : (s.setReg o v).tile n = s.tile n := rfl
@[simp] theorem State.port_setReg (s : State) (o : Nat) (v : Word64) (p : Nat) : (s.setReg o v).port p = s.port p := rfl
@[simp] theorem State.core_wr (s : State) (f : Fld) (v u : Nat) : (s.wr f v).core u = s.core u := rfl
@[simp] theorem State.tile_wr (s : State) (f : Fld) (v n : Nat) : (s.wr f v).tile n = s.tile n := rfl
@[simp] theorem State.port_wr (s : State) (f : Fld) (v p : Nat) : (s.wr f v).port p = s.port p := rfl
@[simp] theorem State.isFatal_setCore (s : State) (u : Nat) (c : CoreSt) : (s.setCore u c).isFatal = s.isFatal := rfl
@[simp] theorem State.isFatal_setTile (s : State) (n : Nat) (t : TileSt) : (s.setTile n t).isFatal = s.isFatal := rfl
@[simp] theorem State.isFatal_putPort (s : State) (p : Nat) (g : PortSt) : (s.putPort p g).isFatal = s.isFatal := rfl
@[simp] theorem State.tile_setCore (s : State) (u : Nat) (c : CoreSt) (n : Nat) : (s.setCore u c).tile n = s.tile n := rfl
@[simp] theorem State.core_setTile (s : State) (n : Nat) (t : TileSt) (u : Nat) : (s.setTile n t).core u = s.core u := rfl
/-- A wake vote of tiles touches nothing but its own list. -/
theorem wakeTiles_eq (s : State) (ts : List Nat) :
    ∃ l, wakeTiles s ts = { s with power := { s.power with wakeTiles := l } } ∧ ∀ t, t ∈ l ↔ t ∈ s.power.wakeTiles ∨ t ∈ ts := by
  refine ⟨_, rfl, fun t => ?_⟩
  by_cases h : t ∈ s.power.wakeTiles <;> simp [h]
@[simp] theorem State.rd_wakeTiles (s : State) (ts : List Nat) (f : Fld) : (wakeTiles s ts).rd f = s.rd f := rfl
@[simp] theorem State.core_wakeTiles (s : State) (ts : List Nat) (u : Nat) : (wakeTiles s ts).core u = s.core u := rfl
@[simp] theorem State.tile_wakeTiles (s : State) (ts : List Nat) (n : Nat) : (wakeTiles s ts).tile n = s.tile n := rfl
@[simp] theorem State.dom_wakeTiles (s : State) (ts : List Nat) : (wakeTiles s ts).power.dom = s.power.dom := rfl

/-- What no single write of a field changes, a list of writes does not change. -/
theorem State.wrAll_keeps {α : Type} (g : State → α) (h : ∀ s f v, g (State.wr s f v) = g s) :
    (l : List (Fld × Nat)) → (s : State) → g (s.wrAll l) = g s
  | [], _ => rfl
  | (f, v) :: r, s => (State.wrAll_keeps g h r (s.wr f v)).trans (h s f v)

/-! ### Fields of a register -/

/-- A field of a word, bit by bit. -/
theorem putField_getLsbD (w : Word64) {hi lo v i : Nat} (hl : lo ≤ hi) (hi' : i < 64) :
    (putField w hi lo v).getLsbD i = if lo ≤ i ∧ i ≤ hi then v.testBit (i - lo) else w.getLsbD i := by
  unfold putField
  rw [BitVec.getLsbD_or, BitVec.getLsbD_and, BitVec.getLsbD_not, BitVec.getLsbD_ofNat, BitVec.getLsbD_ofNat, Nat.testBit_mul_two_pow,
    Nat.testBit_mod_two_pow]
  unfold bmask
  rw [Nat.testBit_mul_two_pow, Nat.testBit_two_pow_sub_one]
  by_cases h1 : lo ≤ i <;> by_cases h2 : i ≤ hi
  · have : i - lo < hi + 1 - lo := by omega
    simp [h1, h2, hi', this]
  · have : ¬ i - lo < hi + 1 - lo := by omega
    simp [h1, h2, this]
    omega
  · simp [h1]
    omega
  · simp [h1]
    omega

/-- A field reads as what was written to it, cut to its width. -/
theorem State.rd_wr_self (s : State) (f : Fld) (v : Nat) (hl : f.lo ≤ f.hi) (hh : f.hi < 64) :
    (s.wr f v).rd f = v % 2 ^ (f.hi + 1 - f.lo) := by
  refine Nat.eq_of_testBit_eq fun i => ?_
  simp only [State.rd, State.wr, State.reg_setReg, Nat.testBit_mod_two_pow, BitVec.testBit_toNat, BitVec.getLsbD_ushiftRight]
  by_cases hi : i < f.hi + 1 - f.lo
  · rw [putField_getLsbD _ hl (by omega), if_pos (by omega)]; simp
  · simp [hi]

/-- A write of a field leaves a field of the same register that does not overlap it alone. -/
theorem State.rd_wr_disjoint (s : State) (f g : Fld) (v : Nat) (ho : g.off = f.off) (hl : f.lo ≤ f.hi) (hg : g.hi < 64)
    (hd : g.hi < f.lo ∨ f.hi < g.lo) : (s.wr f v).rd g = s.rd g := by
  refine Nat.eq_of_testBit_eq fun i => ?_
  simp only [State.rd, State.wr, ho, State.reg_setReg, Nat.testBit_mod_two_pow, BitVec.testBit_toNat, BitVec.getLsbD_ushiftRight]
  by_cases hi : i < g.hi + 1 - g.lo
  · rw [putField_getLsbD _ hl (by omega), if_neg (by omega)]
  · simp [hi]

/-- A write of a field leaves every other register alone. -/
theorem State.rd_wr_ne (s : State) (f g : Fld) (v : Nat) (ho : g.off ≠ f.off) : (s.wr f v).rd g = s.rd g := by
  unfold State.rd State.wr; rw [State.reg_setReg_ne _ _ ho]

/-! ### What every command goes through -/

@[simp] theorem runIf_true (t : State) : runIf true t = .next t := rfl
@[simp] theorem runIf_false (t : State) : runIf false t = .fault .noSuchUnit := rfl
/-- A well-formed command has its effect. -/
theorem run_of_wf {c : Instr} {t : State} (h : c.wf = true) : run c t = .next t := by simp [run, h]
/-- A command that names no unit of the module faults. -/
theorem run_of_not_wf {c : Instr} {t : State} (h : c.wf = false) : run c t = .fault .noSuchUnit := by simp [run, h]
/-- A core that issues has the operation's effect, or what its failure to issue does (04 R65, R84). -/
theorem issueOne_of_issuing {s : State} {uid : Nat} {f : State → Except IssueErr State} (h : Issuing s uid) :
    issueOne s uid f = (match f s with | .ok t => t | .error e => applyIssueErr s uid e) := by
  obtain ⟨h1, h2, h3⟩ := h
  cases he : f s <;> simp [issueOne, h1, h2, h3, he]
/-- A core that does not issue changes nothing. -/
theorem issueOne_of_not_issuing {s : State} {uid : Nat} {f : State → Except IssueErr State} (h : ¬ Issuing s uid) : issueOne s uid f = s := by
  unfold issueOne Issuing at *
  split
  · rfl
  · rename_i hn
    simp only [not_or, not_not, Bool.not_eq_true] at hn
    exact absurd ⟨hn.1, by simpa using hn.2.1, by simpa using hn.2.2⟩ h
/-- The record of a core that has issued an operation is the one the statements name. -/
theorem setCore_issueW (s : State) (uid : Nat) (sl : Slot) (lat : Nat) (ws : List Wr) :
    s.setCore uid ((s.core uid).issueW sl lat ws) = Issued s uid sl lat ws := rfl

end Sys2Proof.Machine
end

