-- ==== Sys2Proof/Tests/Slice0.lean ====
section
/-! SUPPORT. The model's own tests: what WellFormed refuses, a few results taken from the specification by hand, and for every
statement of Certificates/Slice0/Obligations.lean that has hypotheses concrete states and operands that meet them, clause by clause. -/

namespace Sys2Proof.Tests
open Sys2Proof Sys2Proof.Machine

-- One theorem after another: each evaluation keeps a thread of its own waiting otherwise.
set_option Elab.async false

/-! ### States the tests start from -/

/-- The module at reset, but for one core that issues. -/
def coreAt (uid : Nat) (c : CoreSt) : State := { cores := [(uid, { c with phase := .run })] }
/-- The module up: powered, released, link active. -/
def up : State := { power := { step := some 8, rails := .stby :: railOrder }, trust := { released := true }, dlActive := true }
/-- An operation in flight. -/
def fly (slot : Slot) (seq : Nat) (ws : List Wr) : Fly := { due := 0, slot := slot, seq := seq, bundle := 0, rep := 0, writes := ws }
/-- A bound generator at offset 0 whose program has one level of counts 0 to 1, stride 1,024. -/
def bound (prog : Nat) : Gen := { prog := prog, bound := true }
/-- Program 0: one level (05 R100). -/
def prog0 : Tbl Word64 := [(0, 1#64), (4, 0x0000000000000001#64)]

/-! ### WellFormed refuses what names no unit or exceeds its width -/

theorem test_wf_refuses :
    (Instr.mswap 240).wf = false ∧ (Instr.sadd 0 64 0 0).wf = false ∧ (Instr.saddi 0 0 0 (2 ^ 28)).wf = false ∧ (Instr.scsrr 0 0 4096).wf = false
    ∧ (Instr.br 0 8192).wf = false ∧ (Instr.brz 0 64 0).wf = false ∧ (Instr.bri 240 0).wf = false
    ∧ (Instr.vadd 0 ⟨0, 0, 0, 0, 0, 0, 0, 0, 0, 0⟩).wf = false ∧ (Instr.vadd 0 ⟨16, 0, 0, 0, 0, 1, 0, 0, 0, 0⟩).wf = false
    ∧ (Instr.mmul 0 false false 4 0).wf = false ∧ (Instr.lfeed 0 2).wf = false ∧ (Instr.lvec 0 0 16 0).wf = false ∧ (Instr.lscl 0 0 64).wf = false
    ∧ (Instr.lbind 0 0 32).wf = false ∧ (Instr.tvec 0 0 16).wf = false ∧ (Instr.tscl 0 64).wf = false ∧ (Instr.tbind 0 32).wf = false
    ∧ (Instr.ginc 0 64 0 0).wf = false ∧ (Instr.gadd 0 0 4096 0).wf = false ∧ (Instr.gateUnitApply 60).wf = false
    ∧ (Instr.patrolScrubClaim 0 64 none).wf = false ∧ (Instr.patrolScrubClaim 0 0 (some ⟨64 * 8192, 0, false⟩)).wf = false
    ∧ (Instr.indexGroupArrival 0 4).wf = false ∧ (Instr.barge 1024).wf = false
    ∧ (Instr.flightEnd 4 ⟨0, none⟩).wf = false ∧ (Instr.haltNoticeArrival 0 0 ⟨60, none⟩).wf = false
    ∧ (Instr.flightEnd 0 ⟨0, some (60, ⟨0, 0, false⟩)⟩).wf = false ∧ (Instr.haltNoticeArrival 0 0 ⟨0, some ⟨64 * 64 * 8192, 0, false⟩⟩).wf = false
    ∧ (Instr.standingBargeFiring 60 0).wf = false := by decide
theorem test_wf_refuses_more :
    (Instr.ucieTrainingAttempt 4).wf = false ∧ (Instr.ucieLaneFailure 4).wf = false
    ∧ (Instr.dlActiveLoss [(1024, 0)]).wf = false ∧ (Instr.registerWrite (2 ^ 26) 8 0).wf = false ∧ (Instr.msixTableWrite (2 ^ 20) 8 0).wf = false
    ∧ (Instr.summaryPoll 4).wf = false ∧ (Instr.summaryCasReturn 0 16 .ok).wf = false ∧ (Instr.pldmFirmwareTransfer 2 none).wf = false
    ∧ (Instr.warmResetStepDone [60]).wf = false
    ∧ (Instr.flitTransmit 16).wf = false ∧ (Instr.flitReceive 0 16 0 false []).wf = false ∧ (Instr.retireAnnouncement 0 16 0).wf = false
    ∧ (Instr.laserSwapStepDone 0 (some (16, []))).wf = false ∧ (Instr.ringRangeRetry 0 64).wf = false
    ∧ (Instr.milestoneTimestamp 16 0 none 0 0).wf = false ∧ (Instr.messageRoute 17 0).wf = false ∧ (Instr.messageRoute 0 8).wf = false
    ∧ (Instr.powerUpStepDone { rows := [(240, 0)] }).wf = false
    ∧ (Instr.fatalHardwareFailure (.router 64)).wf = false ∧ (Instr.droopTrip 0 ⟨16, 40⟩).wf = false ∧ (Instr.throttleRecheck 68).wf = false ∧ (Instr.restoreStep 68).wf = false
    ∧ (Instr.thermalSample (.tile 60 [])).wf = false ∧ (Instr.domainTransitionDone 141).wf = false
    ∧ (Instr.stApply (.rgrp 256)).wf = false ∧ (Instr.errqAck 8 0).wf = false ∧ (Instr.hbmCorrectionWriteBack (24 * 402653184)).wf = false
    ∧ (Instr.hbmScrubBurst 24 []).wf = false ∧ (Instr.hbmPeriodicTraining 0 16).wf = false ∧ (Instr.thermalSensorTrim 0 8 0).wf = false := by decide
/-- A value is never ill-formed: its field takes the bits that fit, or the bound of the rule. -/
theorem test_wf_takes_values :
    (Instr.flightEnd 0 ⟨65536, none⟩).wf = true ∧ (Instr.flightRelease 0 (2 ^ 32)).wf = true ∧ (Instr.warmReset (2 ^ 64)).wf = true
    ∧ (Instr.partitionStart 64).wf = true ∧ (Instr.inputVoltageChange (2 ^ 17)).wf = true ∧ (Instr.poolExchange 1001 0 (2 ^ 16)).wf = true
    ∧ (Instr.bmcCapSet 65536 0).wf = true ∧ (Instr.thermalSample (.tile 0 [])).wf = true ∧ (Instr.milestoneTimestamp 0 (2 ^ 64) none 0 0).wf = true := by
  decide
theorem test_ill_formed_faults : exec (.gateUnitApply 60) State.reset = .fault .noSuchUnit := rfl

/-! ### Results from the specification by hand -/

/-- 08: 1.0 + 1.0 is 2.0, and 1.0 × 2.0 is 2.0, in FP32. -/
theorem test_fp32_add : addF32 0x3F800000 0x3F800000 = 0x40000000 := by decide +kernel
/-- 01 R8: site 27 is at x = 3, y = 3: quadrant NW, local index 15. -/
theorem test_site_27 : siteQuad 27 = 0 ∧ siteLocal 27 = 15 := by decide
/-- 01 R10: with sites 27, 28, 36 and 35 excluded the first 15 IDs are NW's other sites in ascending order. -/
theorem test_factory_map : factorySite 0 = 0 ∧ factorySite 4 = 8 ∧ factorySite 14 = 26 ∧ factorySite 15 = 4 := by decide
/-- 01 R19: the second 2 KiB granule of quadrant 0 lies at the start of stack 1, the seventh at 2 KiB of stack 0. -/
theorem test_interleave : hbmMap false 0x800 = (1, 0) ∧ hbmMap false 0x3000 = (0, 0x800) := by decide
/-- 09 R174: the wait test is a signed difference: 0 has not reached 1, and 2^31 behind counts as reached. -/
theorem test_gate_wait : gateReached 0#32 1#32 = false ∧ gateReached 5#32 5#32 = true ∧ gateReached 0#32 0xFFFFFFFF#32 = true := by decide
/-- 03 R48: a reference with reserved bits, or to tile 60, names nothing. -/
theorem test_gate_reference : decRef 0x8000_1002 = .gate 1 2 ∧ decRef 0x8004_0000 = .bad ∧ decRef 0x8003_C000 = .bad ∧ decRef 0 = .none := by decide
/-- 11 R211: the CRC of nine ASCII digits is the standard check value of CRC-32. -/
theorem test_crc32 : crc32 [0x31#8, 0x32#8, 0x33#8, 0x34#8, 0x35#8, 0x36#8, 0x37#8, 0x38#8, 0x39#8] = 0xCBF43926 := by decide +kernel
/-- 00 R6: little-endian. -/
theorem test_little_endian : leBytes 4 0x0A0B0C0D = [0x0D#8, 0x0C#8, 0x0B#8, 0x0A#8] ∧ leNat [1#8, 2#8] = 0x201 := by decide
/-- The table gives no row bits: no word spells a command, and nothing is put in front of the queue. -/
theorem test_no_words : decodeTableWord 64 0 = none ∧ State.reset.withFetchWord 64 0 = State.reset := ⟨rfl, rfl⟩

/-! ### What the statements assume can hold -/

theorem witness_StepRunsFrontCommand : ({ pending := [.snop] } : State).pending = Instr.snop :: [] := rfl
theorem witness_EveryCommandAnswers : (Instr.gateUnitApply 59).wf = true ∧ (Instr.gateUnitApply 60).wf = false := by decide
theorem witness_ResetState : (State.reset.reg (aRing 1023 0x18)).toNat = 0x6002 ∧ (State.reset.reg (aTile 59 0)).toNat = 8
    ∧ (State.reset.reg (aErrq 7 0)).toNat = 0x8000 ∧ (State.reset.reg (aLnk 15 (0x400 + 8 * 63))).toNat = 0 := by decide +kernel
theorem witness_StepKeepsSound : State.reset.Sound ∧ step State.reset = .next State.reset :=
  ⟨⟨⟨rfl, rfl, rfl, rfl, rfl, rfl, rfl, rfl, rfl, rfl, rfl, rfl, rfl, rfl, rfl, rfl⟩, by decide⟩, rfl⟩
theorem witness_SitesAndQuadrantInterleave :
    7 < 8 ∧ 3 * 0x2400000000 ≤ 4 * 0x2400000000 - 1 ∧ siteLocal (8 * 7 + 7) = 15 := by decide +kernel
theorem witness_SliceAdmission :
    let m : InMsg := ⟨7, leBytes 8 (4095 * 2 ^ 26) ++ leBytes 8 0, 1, some false, 0⟩
    let s : State := { ports := [(15, { inbox := [m] })] }
    s.link.d3hot = false ∧ s.isFatal = false ∧ (s.port 15).inbox.find? (fun x => decide (x.vc = 7)) = some m ∧ m.ok = some false
      ∧ ({ m with ok := none }).ok = none ∧ 16 ≤ m.bytes.length ∧ nbits (leNat (sliceB m.bytes 0 8)) 37 26 = 64 * 63 + 63 ∧ (s.reg (0x400000 + 0x1000 * 15 + 0x400 + 8 * 63)).getLsbD 63 = false := by decide +kernel
theorem witness_ScalarRegisterForms : Issuing (coreAt 239 {}) 239 ∧ 239 < 240 ∧ 63 < 64 := by unfold Issuing; decide +kernel
theorem witness_ScalarImmediateForms : Issuing (coreAt 239 {}) 239 ∧ 2 ^ 28 - 1 < 2 ^ 28 := by unfold Issuing; decide +kernel
theorem witness_ScalarMemoryAndCsrIssue :
    let s := coreAt 239 {}
    let o := ((s.core 239).sreg 63 + (BitVec.ofNat 28 0x3FFFFF8).signExtend 64).toNat
    Issuing s 239 ∧ LanesIdle s (239 / 4) ∧ 0x3FFFFF8 < 2 ^ 28 ∧ o % 8 = 0 ∧ o < 0x4000000
      ∧ 0xFFF ∉ [0x000, 0x001, 0x002, 0x003, 0x010, 0x011, 0x012, 0x013, 0x014, 0x018, 0x019, 0x020, 0x021] := by
  unfold Issuing LanesIdle; decide +kernel
theorem witness_BranchesAndNoOperations :
    let s := coreAt 239 { sregs := [(63, 1#64)] }
    Issuing s 239 ∧ (s.core 239).sreg 63 ≠ 0#64 ∧ (s.core 239).sreg 0 = 0#64 ∧ 8191 < 2 ^ 13 := by unfold Issuing; decide +kernel
theorem witness_VectorOperationBegins :
    let s := coreAt 239 {}
    let f (vd vc pm fmt : Nat) : VArg := ⟨vd, 15, 15, vc, pm, 4096, 3, fmt, 63, 3⟩
    Issuing s 239 ∧ (s.core 239).vbusy ≤ (s.core 239).cyc
      ∧ (∀ x ∈ [(VOpc.vadd, f 15 0 0 15), (.vfma, f 15 15 0 0), (.vmax, f 15 0 15 1), (.vcvt, f 15 1 8 12), (.vopt3, f 15 15 0 5), (.vcmplt, f 7 0 0 1), (.vsel, f 15 0 15 0), (.vcompress, f 15 0 8 0)],
          VFieldsFit x.2 ∧ VFieldsLegal x.1 x.2) := by
  unfold Issuing VFieldsFit VFieldsLegal; decide +kernel
/-- Window A from its first element, over all its 4,096 rows, and the last element of a window B of one row. -/
theorem witness_VectorOperationBegins_window :
    let s := coreAt 239 { csrs := [(0x013, 0xFFF00000000#64)], sregs := [(63, 127#64)] }
    let a : VArg := ⟨15, 0, 15, 0, 0, 4096, 0, 0, 0, 1⟩
    let b : VArg := ⟨15, 0, 0, 0, 0, 1, 0, 0, 63, 2⟩
    let fits (op : VOpc) (f : VArg) (win : Word64) : Prop :=
      let w := ((s.core 239).sreg f.s).toNat
      (op = .vbcast ∨ w % 128 = 0) ∧ w + f.n ≤ 128 * winRows win
        ∧ winRowOff win ((if op = .vbcast then w else w + f.n - 1) / 128) + winRowBytes win ≤ 0x4000000
    Issuing s 239 ∧ (s.core 239).vbusy ≤ (s.core 239).cyc ∧ VFieldsFit a ∧ VFieldsLegal .vadd a ∧ VFieldsFit b ∧ VFieldsLegal .vbcast b
      ∧ fits .vadd a ((s.core 239).csr 0x013) ∧ fits .vbcast b ((s.core 239).csr 0x014) ∧ ((s.core 239).sreg 63).toNat % 128 ≠ 0 := by
  unfold Issuing VFieldsFit VFieldsLegal; dsimp only; and_intros <;> decide +kernel
theorem witness_VectorIntegerElements :
    let s := coreAt 239 {}
    let f : VArg := ⟨15, 15, 15, 0, 0, 256, 0, 0, 0, 0⟩
    Issuing s 239 ∧ VFieldsFit f ∧ f.pm = 0 ∧ f.src = 0 ∧ f.vc = 0 ∧ f.n ≤ 256 ∧ (s.core 239).vbusy ≤ (s.core 239).cyc ∧ (s.core 239).vjobs = [] ∧ (s.core 239).flies = [] := by
  unfold Issuing VFieldsFit; decide +kernel
theorem witness_VectorIntegerElements_op : ∀ a b, (vIntResult .viadd a b).isSome := fun _ _ => rfl
/-- A vector operation with one chunk read. -/
def job (op : VOpc) (n fmt pm : Nat) (c : List VChunk) : VJob :=
  { op, vd := 0, va := 0, vb := 0, vc := 0, pm, n, rnd := 0, fmt, sr := 63, src := 0, t := 0, seq := 0, bundle := 0, rep := 0, bcnt := 0, sval := 0#64
    round := 0#64, seed := 0#64, win := 0#64, prec := 0#64, nanHalt := false, nanDone := false, chunks := c, waiting := [], emitted := [], bval := 0#32, scales := [] }
theorem witness_VectorSpecialResults :
    isNan32 0 = false ∧ isNan32 0xFFFFFFFF = true
      ∧ (let xs := List.replicate 256 1#32
         let ps := List.replicate 256 true
         ∀ j ∈ [job .vrsum 256 1 0 [{ j := 0, xa := xs, xb := xs, xc := xs, xp := ps }], job .vcompress 256 0 8 [{ j := 0, xa := xs, xb := xs, xc := xs, xp := ps }]],
           1 ≤ j.n ∧ j.n ≤ 256 ∧ xs.length = j.n ∧ ps.length = j.n ∧ j.chunks = [{ j := 0, xa := xs, xb := xs, xc := xs, xp := ps }]) := by decide +kernel
theorem witness_MatrixAndShadowIssue :
    let c : CoreSt := { progs := prog0, gens := [(3, bound 0)], csrs := [(0x012, 0x10#64), (0x013, 0xFFF00000000#64)] }
    let s := coreAt 239 c
    let w := (s.core 239).csr 0x013
    Issuing s 239 ∧ (s.core 239).shadows = [] ∧ (s.core 239).mbusy ≤ (s.core 239).cyc ∧ (s.core 239).shadowBusy ≤ (s.core 239).cyc
      ∧ nbits ((s.core 239).csr 0x012).toNat 7 4 = 1 ∧ 4095 < winRows w ∧ winRowOff w 4095 + winRowBytes w ≤ 0x4000000
      ∧ LanesIdle s (239 / 4) ∧ LinearAccess (s.core 239) 3 256 0 := by
  unfold Issuing LanesIdle LinearAccess; dsimp only; and_intros <;> decide +kernel
theorem witness_MatrixAndShadowIssue_feeder :
    ({ fifo := [[1#8]] } : CoreSt).fifo = [1#8] :: [] ∧ ({} : CoreSt).fifo = [] := ⟨rfl, rfl⟩
/-- An FP32 MMUL of two passes, issued two cycles ago, that has fed two term vectors. -/
def feeding : MMul :=
  { t := 0, seq := 0, bundle := 0, rep := 0, entry := [], fmt := 14, passes := 2, ovfWrap := false, kstep := 0, banks := [false, true], acc := 0, win := 0, row := 0
    off := 0, paired := false, c := 0, nanHalt := false, sums := [], blk := [], ovf := [], d2 := [], base := [], fwd := none, reading := false, ue := false, out := none }
theorem witness_MatrixAndShadowIssue_vectors :
    let c : CoreSt := { cyc := 2, mms := [feeding] }
    feeding ∈ c.mms ∧ feeding.t < c.cyc ∧ c.cyc < feeding.t + feeding.occ ∧ feeding.banks.length = c.cyc - feeding.t
      ∧ (∀ m ∈ ({ cyc := 3, mms := [feeding] } : CoreSt).mms, m.t + m.occ ≤ 3) := by decide +kernel
theorem witness_GeneratorsBindAndAdvance :
    let s := coreAt 239 { progs := prog0, gens := [(1, bound 0), (2, { bound 0 with i := [1, 0, 0, 0, 0, 0] })], sregs := [(63, 0x3FFFFFF#64)] }
    let c := s.core 239
    Issuing s 239 ∧ (c.sreg 63).toNat < 2 ^ 26 ∧ c.shadowBusy ≤ c.cyc
      ∧ (∀ g ∈ [1, 2], (c.gen g).bound = true ∧ (c.gen g).ended = false ∧ (c.stride (c.gen g).prog).nlev = 1 ∧ (c.gen g).i.length = 6)
      ∧ (c.gen 1).i.getD 0 0 < ((c.stride 0).levels.getD 0 ⟨0, 0, 0⟩).countM1
      ∧ (∀ k < (c.stride 0).nlev, ((c.stride 0).levels.getD k ⟨0, 0, 0⟩).countM1 ≤ (c.gen 2).i.getD k 0) := by
  unfold Issuing; dsimp only; and_intros <;> decide +kernel
theorem witness_FaultsStopTheCore :
    let s := coreAt 239 { vbusy := 1, shadowBusy := 1, sregs := [(63, 0x4000001#64)] }
    let s1 := coreAt 239 { sregs := [(63, 0x4000001#64)] }
    let f (src : Nat) : VArg := ⟨15, 15, 15, 0, 0, 4096, 3, 0, 63, src⟩
    Issuing s 239 ∧ Issuing s1 239 ∧ VFieldsFit (f 2) ∧ VFieldsLegal .vadd (f 2) ∧ (s.core 239).cyc < (s.core 239).vbusy
      ∧ ((s1.core 239).sreg 63).toNat % 128 ≠ 0 ∧ 2 ^ 26 ≤ ((s1.core 239).sreg 63).toNat ∧ (s1.core 239).shadowBusy ≤ (s1.core 239).cyc
      ∧ 128 * winRows ((s1.core 239).csr 0x014) < ((s1.core 239).sreg 0).toNat + 4096 ∧ ((s1.core 239).sreg 0).toNat % 128 = 0
      ∧ (s.core 239).cyc < (s.core 239).shadowBusy ∧ ((s.core 239).gen 1).bound = false ∧ ((s.core 239).gen 2).bound = false := by
  unfold Issuing VFieldsFit VFieldsLegal; dsimp only; and_intros <;> decide +kernel
theorem witness_LoadsAndStoresIssue :
    let s := coreAt 239 { progs := prog0, gens := [(1, { bound 0 with base := 0x3FFFC00 }), (2, { bound 0 with base := 0x3FFFC00 })] }
    Issuing s 239 ∧ LanesIdle s (239 / 4) ∧ LinearAccess (s.core 239) 1 256 0x3FFFC00 ∧ LinearAccess (s.core 239) 1 1024 0x3FFFC00
      ∧ LinearAccess (s.core 239) 1 8 0x3FFFC00 ∧ LinearAccess (s.core 239) 2 1024 0x3FFFC00 ∧ LinearAccess (s.core 239) 2 512 0x3FFFC00
      ∧ LinearAccess (s.core 239) 2 256 0x3FFFC00 ∧ LinearAccess (s.core 239) 2 8 0x3FFFC00 := by
  unfold Issuing LanesIdle LinearAccess; dsimp only; and_intros <;> decide +kernel
theorem witness_GateOperationsOfTheCore :
    let s := coreAt 239 { sregs := [(63, 1#64)] }
    let c := s.core 239
    Issuing s 239 ∧ c.flies = [] ∧ c.mms = [] ∧ c.wait = none ∧ 239 / 4 = 59 ∧ 0 ≤ (s.gate 59 4095 - BitVec.ofNat 32 (c.sreg 0).toNat).toInt
      ∧ (s.gate 59 4095 - BitVec.ofNat 32 (c.sreg 63).toNat).toInt < 0 ∧ (c.sreg 0).toNat ≤ s.mile ∧ s.mile < (c.sreg 63).toNat := by
  unfold Issuing; dsimp only; and_intros <;> decide +kernel
/-- The word of the bundle whose one operation is SADD s63, s63, s63, the last of its flight's stage, repeated 16 times (04 R64, R72). -/
def addBundle : Nat := (2 ^ 40 + 63 * 2 ^ 34 + 63 * 2 ^ 28 + 63 * 2 ^ 22) * 2 ^ 8 + 2 ^ 4 + 15
theorem witness_BundleIssueAdvancesTheCore :
    let c (pc : Nat) (w : BitVec 256) : CoreSt := { pc := pc, rep := 15, imem := if w = 0#256 then [] else [(pc, w)] }
    (∀ x ∈ [(0x1FFF, 0#256), (0x1FFF, 0x10#256), (0x1FFF, BitVec.ofNat 256 addBundle), (0x1FFF, 0x20#256), (0x2000, 0#256)],
      let s := coreAt 239 (c x.1 x.2)
      Issuing s 239 ∧ Quiet (s.core 239) ∧ dumpsOf s (s.core 239).part (s.core 239).flight = []
        ∧ tget (fun _ => 0#256) (s.core 239).imem x.1 = x.2 ∧ (s.core 239).pc = x.1 ∧ ¬ (s.core 239).rep < 15) := by
  unfold Issuing Quiet; dsimp only; decide +kernel
theorem witness_BundleIssueAdvancesTheCore_decoded :
    decBundle addBundle = .ok ⟨.alu .add 63 63 63, none, .nop, .nop, .nop, .nop, .nop, true, 15⟩ ∧ decBundle 0x20 = .error .y
      ∧ decBundle (0x0F * 2 ^ 48) = .error .s := ⟨rfl, rfl, rfl⟩
theorem witness_OperationsLand :
    let f1 := fly .s 0 [.sreg 63 1#64]
    let f2 := fly .v 1 [.sreg 63 2#64]
    let f3 := fly .t 0 [.sp 0x3FFFFFF [1#8]]
    let alone := [[Wr.vch 15 15 [(4095, 1#32), (0, 2#32)]], [.pch 7 15 [(4095, true)]], [.csr 0x018 1#64], [.csr 0x011 1#64], [.csr 0x020 1#64], [.csr 0xFFF 1#64],
      [.fifo [1#8]], [.gbase 3 64], [.smile 63]]
    (∀ f ∈ [f1, f3] ++ alone.map (fly .s 0), Issuing (coreAt 239 { flies := [f] }) 239 ∧ Alone ((coreAt 239 { flies := [f] }).core 239) f)
      ∧ ((coreAt 239 { flies := [f3] }).tile 59).claims = [] ∧ ((coreAt 239 { flies := [f3] }).tile 59).denied = []
      ∧ ([(4095, 1#32), (0, 2#32)].map (fun (x : Nat × BitVec 32) => x.1)).Nodup ∧ ({} : CoreSt).fifo.length < 16
      ∧ 16 ≤ ({ fifo := List.replicate 16 [] } : CoreSt).fifo.length
      ∧ (let s := coreAt 239 { flies := [f1, f2] }
         Issuing s 239 ∧ Alone { s.core 239 with flies := [f1] } f1 ∧ Alone { s.core 239 with flies := [f2] } f2 ∧ (s.core 239).flies = [f1, f2]
          ∧ f1.slot = .s ∧ f2.slot = .v ∧ f1.seq ≠ f2.seq ∧ ((s.core 239).csr 0x020).getLsbD 0 = false) := by
  unfold Issuing Alone Quiet; dsimp only; and_intros <;> decide +kernel
theorem witness_FreezesAndHoldsEnd :
    (({ cores := [(239, { freezes := [⟨.shadowLate 0, 0, none⟩] })] } : State).core 239).freezes = [⟨.shadowLate 0, 0, none⟩]
      ∧ tileReady (coreAt 239 {}) (239 / 4) = true ∧ tileReady { coreAt 239 {} with power := { dom := [(59, .low)] } } (239 / 4) = false
      ∧ (coreAt 239 {} |>.core 239).shadows = []
      ∧ (∀ k ∈ [FrzCause.dataLate, .writeBack, .ecc, .rescale], ((coreAt 239 { freezes := [⟨k, 0, some 5⟩] }).core 239).freezes = [⟨k, 0, some 5⟩])
      ∧ (∀ k ∈ [FrzCause.dataLate, .writeBack, .ecc], ((coreAt 239 { freezes := [⟨k, 0, none⟩] }).core 239).freezes = [⟨k, 0, none⟩])
      ∧ (let s := { coreAt 239 { wait := some (.mile 1, 0) } with mile := 10000000 }
         Issuing s 239 ∧ (s.core 239).wait = some (.mile 1, 0) ∧ ((s.core 239).csr 0x018).toNat % 2 ^ 40 = 0 ∧ 0 + 10000000 ≤ s.mile)
      ∧ (let s := { coreAt 239 { wait := some (.mile 1, 0), csrs := [(0x018, 5#64)] } with mile := 4 }
         Issuing s 239 ∧ (s.core 239).wait = some (.mile 1, 0) ∧ s.mile < 0 + ((s.core 239).csr 0x018).toNat % 2 ^ 40) := by
  unfold Issuing; dsimp only; and_intros <;> decide +kernel
theorem witness_TileUnitsAct :
    let f : Fly := { due := 14, slot := .s, seq := 7, bundle := 0, rep := 0, wait := true, load := some (.scl 63, [(0, 8)]) }
    let s (w : Turn) : State := { cores := [(239, { flies := [f] })], tiles := [(59, { denied := [⟨.core 239, .load 7 2, [(0, 8)], false, 1, w⟩] })] }
    let r (b : Bool) : GrpRead := ⟨64, b, true, 0, [1#8], 0, 0, none⟩
    let s2 (b : Bool) : State := { cores := [(239, { cyc := 4, gens := [(3, { reads := [r b] })] })] }
    let g : GateOp := ⟨4095, true, 5, 4, .ring 1023 5⟩
    let s3 : State := { tiles := [(59, { gateOps := [g, ⟨4094, false, 1, 0, .none⟩], scrubLine := [(63, 8191)] })] }
    (∀ w ∈ [Turn.asks, .denied, .next], tileReady (s w) 59 = true ∧ ((s w).tile 59).denied = [⟨.core 239, .load f.seq 2, [(0, 8)], false, 1, w⟩]
        ∧ ((s w).core 239).flies = [f] ∧ ((s w).core 239).freezes = []) ∧ f.wait = true
      ∧ tileReady { s .asks with power := { dom := [(119, .low)] } } 59 = false
      ∧ f.load = some (.scl 63, [(0, 8)])
      ∧ (∀ b ∈ [true, false], (((s2 b).core 239).gen 3).reads = [r b] ∧ (r b).granted = true ∧ (r b).ue = none ∧ (r b).at_ + 4 ≤ ((s2 b).core 239).cyc ∧ (r b).bufB = b ∧ tileReady (s2 b) 59 = true)
      ∧ 1 ≤ 1 ∧ (s3.wr fFatal 1).isFatal = true ∧ s3.isFatal = false ∧ tileReady s3 59 = true ∧ (s3.tile 59).ue = [] ∧ (s3.tile 59).scrubFix = [] ∧ tget nat0 (s3.tile 59).scrubLine 63 = 8191
      ∧ ((s3.tile 59).gateOps.filter fun o => decide (o.gate = 4095) && o.set) = [g] ∧ g.port < 5
      ∧ ((s3.tile 59).gateOps.filter fun o => decide (o.gate = 4094) && o.set) = []
      ∧ (({ tiles := [(59, { gateOps := [g] })] } : State).tile 59).gateOps = [g] ∧ g.who = .ring 1023 5 := by
  dsimp only; and_intros <;> decide +kernel

/-! ### Rings -/

/-- The module up, with all four quadrants in the running partition 0. -/
def part0 : State := up.wrAll [(fPartState 0, 2), (fPartQuads 0, 15)]
/-- Ring 1023 with one descriptor waiting. -/
def withDesc (s : State) (q : List Nat) : State := { s with rings := [(1023, { st := 1, waiting := [⟨5, q, none⟩] })] }
/-- Its descriptor: opcode and subcode, tag 7, quadwords 2 to 7. -/
def desc (op sub : Nat) (l : List Nat) : List Nat := ((5 * 2 ^ 32 + sub * 256 + op) :: 7 :: l) ++ List.replicate (6 - l.length) 0
/-- It is due in `s` as its class. -/
def isDue (s : State) (k : DClass) (q : List Nat) : Prop := DueNow (withDesc s q) 1023 k ⟨5, q, none⟩
/-- A flight of partition 0 with id 5, launched by ring 1023. -/
def flight (step : LaunchStep) (cores tiles : List Nat) : Flight :=
  { part := 0, fid := 5, image := 1, dpa := 0, len := 256, ring := 1023, count := 5, atStart := false, arg := 0, startMile := 0, step, cores, tiles, ts := 0
    stop := .none, haltIx := none, dropped := false, notices := [], clockMhz := 0 }
def ref (t g : Nat) : Nat := 2 ^ 31 + t * 2 ^ 12 + g

theorem witness_DescriptorWaitsItsTurn :
    let s := withDesc up (desc 0 0 [])
    (s.ring 1022).st ≠ 1 ∧ (s.ring 1023).waiting = ⟨5, desc 0 0 [], none⟩ :: [] ∧ dClass (desc 0 0 []) ≠ some .bucket ∧ waitingPosts s 1023 = []
      ∧ (∀ w ∈ [Work.judged 0x40 0 none, .bargeHalted 0 0x4A 0], w.halts = true) := by
  dsimp only; and_intros <;> decide +kernel
theorem witness_GateAndPlainDescriptorsAct :
    (∀ x ∈ [(DClass.gateSet, desc 5 0 [ref 59 4095, 2 ^ 32 - 1]), (.gateAdd, desc 6 0 [ref 59 4095, 2 ^ 32 - 1]), (.gateWait, desc 7 0 [ref 59 4095, 2 ^ 32 - 1, 2 ^ 40 - 1])],
        isDue part0 x.1 x.2 ∧ isDue up x.1 x.2)
      ∧ ownsTile (withDesc part0 (desc 5 0 [])) 0 59 = true ∧ ownsTile (withDesc up (desc 5 0 [])) 0 59 = false
      ∧ (∀ w ∈ [2 ^ 32, 0, 2 ^ 31 + 2 ^ 18, ref 60 0], isDue part0 .gateSet (desc 5 0 [w]) ∧ isDue part0 .gateAdd (desc 6 0 [w]) ∧ isDue part0 .gateWait (desc 7 0 [w]))
      ∧ isDue up .nop (desc 0 0 []) ∧ isDue up .nop (desc 0 0 [1])
      ∧ isDue up .fenceThis (desc 8 0 [1023, 2 ^ 32 - 1, 2 ^ 40 - 1]) ∧ isDue up .fenceOther (desc 8 1 [1023, 2 ^ 32 - 1, 0]) ∧ isDue up .fenceOther (desc 8 1 [1024])
      ∧ isDue part0 .wipeAll (desc 10 0 []) ∧ isDue part0 .wipeRange (desc 10 1 [0x800, 0x800]) ∧ isDue part0 .wipeRange (desc 10 1 [0x801])
      ∧ hbmOk part0 0 0x800 0x800 = true := by
  unfold isDue DueNow; and_intros <;> decide +kernel
theorem witness_FlightDescriptorsAct :
    let s : State := { part0 with images := [⟨0, 1, 0, 256, []⟩] }
    let g := flight .running [] []
    (∀ x ∈ [(DClass.launchEnd, 0), (.launchStart, 1)], isDue s x.1 (desc 2 x.2 [5 * 65536 + 1, 2 ^ 64 - 1, 2 ^ 48 - 1]))
      ∧ launchRefused (withDesc s (desc 2 0 [])) 0 1 5 = 0 ∧ (withDesc s (desc 2 0 [])).image 0 1 = some ⟨0, 1, 0, 256, []⟩
      ∧ (∀ x ∈ [(DClass.stopEop, 0), (.stopBundle, 1)], isDue s x.1 (desc 3 x.2 [5 * 65536]) ∧ isDue { s with flights := [g] } x.1 (desc 3 x.2 [5 * 65536]))
      ∧ flightOf s 0 5 = none ∧ flightOf { s with flights := [g] } 0 5 = some g
      ∧ (∀ x ∈ [(DClass.dumpCount, 0), (.dumpMile, 1)], isDue s x.1 (desc 14 x.2 [5 * 65536, 1000, 0, 0x61000])) ∧ hbmOk s 0 0 0x61000 = true
      ∧ (let w := flight .gates [236] [59]
         (∀ x ∈ [(DClass.stopEop, 0), (.stopBundle, 1)], isDue { s with flights := [w] } x.1 (desc 3 x.2 [5 * 65536]))
          ∧ flightOf { s with flights := [w] } 0 5 = some w ∧ w.step ≠ .running ∧ w.haltIx = none ∧ w.claimed = true ∧ w.orphan = false) := by
  unfold isDue DueNow; and_intros <;> decide +kernel
/-- Launches refused: of an image that is not loaded, of a flight that runs, malformed; and, where partition 0 owns nothing, of images at DPA 0
of one stage, one gate entry, or one standing barge with a done gate, or a slot, on tile 0. -/
theorem witness_FlightDescriptorsAct_refused :
    let q := desc 2 0 [5 * 65536 + 1]
    let g := flight .running [] []
    let s (hbm : List (Nat × BitVec 8)) : State := { up with images := [⟨0, 1, 0, 256, []⟩], hbm := hbm }
    (∀ x ∈ [(DClass.launchEnd, 0), (.launchStart, 1)], isDue part0 x.1 (desc 2 x.2 [5 * 65536 + 1]) ∧ isDue (s [(8, 1#8)]) x.1 (desc 2 x.2 [5 * 65536 + 1])
        ∧ isDue part0 x.1 (desc 2 x.2 [2 ^ 32]) ∧ isDue part0 x.1 (desc 2 x.2 [1, 0, 2 ^ 48]) ∧ isDue part0 x.1 (desc 2 x.2 [1, 0, 0, 1]))
      ∧ part0.image 0 1 = none ∧ flightOf { part0 with flights := [g] } 0 5 ≠ none ∧ dZeroFrom q 5 = true ∧ dZeroFrom (desc 2 0 [1, 0, 0, 1]) 5 = false
      ∧ (s []).image 0 1 = some ⟨0, 1, 0, 256, []⟩ ∧ flightOf (s []) 0 5 = none
      ∧ 0 ∈ imgCores (s [(8, 1#8)]) 0 ∧ ownsTile (s [(8, 1#8)]) 0 (0 / 4) = false
      ∧ 0 < imgGates (s [(10, 1#8)]) 0 ∧ ownsTile (s [(10, 1#8)]) 0 (nbits (im64 (s [(10, 1#8)]) 0 (imgGateOff (s [(10, 1#8)]) 0)) 49 44) = false
      ∧ (let t := s [(12, 1#8), (51, 0x80#8)]
         0 < imgStanding t 0 ∧ decRef ((standWords t 0 0).getD 6 0#64).toNat = .gate 0 0 ∧ ownsTile t 0 0 = false)
      ∧ (let t := s [(6, 1#8), (12, 1#8), (24, 1#8), (28, 1#8)]
         let e := standWords t 0 0
         0 < imgStanding t 0 ∧ 0 < max (nbits (e.getD 0 0#64).toNat 55 48) (nbits (e.getD 0 0#64).toNat 63 56)
          ∧ (firing t (standTile t 0 0) 0 0 ⟨0, 5, e, 0, 0, 0, 0, true⟩).rangesOk t = false) := by
  unfold isDue DueNow; and_intros <;> decide +kernel
theorem witness_TransferDescriptorsAct :
    let q1 := desc 1 0 [0, 64 + 2 ^ 32, 0x1000]
    let q2 := desc 1 0 [0x20000000000, 64 + 2 ^ 32, 0x1000]
    let q3 := desc 4 0 [0, 0x1000, 64 + 2 ^ 32, 0, 59 * 256 + 15, ref 59 4095]
    let b : Barge := { id := 0, part := 0, engine := 59, chan := 15, src := 0, dst := 0x1000, rowBytes := 64, rows := 1, srcPitch := 0, dstPitch := 0, transpose := 0
                       done := some (59 * 4096 + 4095), release := none, origin := .ring 1023 5 }
    isDue part0 .imageLoad q1 ∧ isDue part0 .imageLoad q2 ∧ isDue part0 .barge q3
      ∧ dpaOk part0 0 false 0 64 = true ∧ hbmOk part0 0 0x1000 64 = true ∧ touchesHost 0 64 = false ∧ dpaLoc part0 0 = .hbm
      ∧ dpaOk part0 0 false 0x20000000000 64 = true ∧ touchesHost 0x20000000000 64 = true ∧ part0.dlActive = true ∧ busOk part0 0 64 = true ∧ Asks part0
      ∧ bargeShapeOk 1 64 0 0 0 = true ∧ engineOk 59 15 = true ∧ enginePart part0 59 = some 0 ∧ decRef (ref 59 4095) = .gate 59 4095
      ∧ ownsTile part0 0 59 = true ∧ b.rangesOk part0 = true := by
  unfold isDue DueNow Asks; and_intros <;> decide +kernel
theorem witness_ReportDescriptorsAct :
    let a := aRing 1023 0x18
    isDue part0 .report (desc 11 0 [1, 2, 3, 4, 0x1000, 8192]) ∧ isDue part0 .chain (desc 11 1 [0, 0, 0, 0, 0x1000, 8192])
      ∧ isDue part0 .telemetry (desc 12 0 [0x1000, 2 ^ 20]) ∧ dpaOk part0 0 false 0x1000 (2 ^ 20) = true ∧ touchesHost 0x1000 (2 ^ 20) = false
      ∧ isDue part0 .report (desc 11 0 [1, 2, 3, 4, 0x9000000000, 8192]) ∧ dpaOk part0 0 false 0x9000000000 8192 = false ∧ part0.hbmUe = []
      ∧ part0.trust.queue.length < 16 ∧ otherReqs part0.trust < 12
      ∧ isDue part0 .staged (desc 13 0 [a, 0x30, 0xF0]) ∧ isDue part0 .staged (desc 13 0 [a, 0x8000, 0x1F000])
      ∧ (regInfo a).isSome = true ∧ stagedCheck part0 0 a 0x30 0xF0 = none ∧ stagedCheck part0 0 a 0x8000 0x1F000 = none
      ∧ ((regInfo a).map fun i => i.st &&& 0xF0) = some 0 ∧ ((regInfo a).map fun i => i.st &&& 0x1F000) = some 0x1F000 := by
  unfold isDue DueNow; and_intros <;> decide +kernel
/-- The chain fits in 8,192 bytes; a snapshot's length is open, and whatever it is one of the two clauses is about it. -/
theorem witness_ReportDescriptorsAct_lengths (t : TrustSt) (s : State) (room : Nat) :
    (certChain t).length ≤ 8192 ∧ (room < (snapshotBytes s 0 0).length ∨ (snapshotBytes s 0 0).length ≤ room) :=
  ⟨List.length_take_le _ _, Nat.lt_or_ge _ _⟩
theorem witness_VotesTouchOnlyPower : State.reset.power.step = none ∧ up.power.step = some 8 ∧ up.trust.warm = none := ⟨rfl, rfl, rfl⟩
theorem witness_PollingClaimsRings :
    let s := up.wrAll [(fSumValid 3, 1)]
    let s1 : State := { up with reqs := [⟨0, 0, 128, 0, .bitmap 3⟩, ⟨1, 120, 8, 0, .cas 3 15 (2 ^ 63)⟩] }
    engineOn s = true ∧ s.flag (fSumValid 3) = true ∧ mayAsk s = true ∧ s.rd fPwrState ≠ 3 ∧ busOk s (s.rd (fSumBase 3) * 128) 128 = true
      ∧ s1.reqs.find? (fun q => decide (q.kind = .bitmap 3)) = some ⟨0, 0, 128, 0, .bitmap 3⟩ ∧ ([0, 5] : List Nat).getD 1 0 % 2 ^ 64 ≠ 0 ∧ (2 ^ 63).testBit 63 = true
      ∧ s1.reqs.findSome? (fun q => match q.kind with | .cas p' w' v => if p' = 3 ∧ w' = 15 then some v else none | _ => none) = some (2 ^ 63)
      ∧ ringServes { s1 with rings := [(1023, { st := 1 })] } 0 1023 = true ∧ ringServes s1 3 1023 = false ∧ busOk s1 0 8 = true := by
  and_intros <;> decide +kernel
theorem witness_PollingClaimsRings_backoff :
    let recent (s : State) (t : Option Nat) := ∃ a, t = some a ∧ (s.mile + 2 ^ 64 - a) % 2 ^ 64 < 1000000
    State.reset.Sound ∧ ¬ recent State.reset (tget poll0 State.reset.polls 3).freshAt
      ∧ (∀ r, r < 1024 → ringServes State.reset 3 r = true → (State.reset.ring r).out = [] ∧ ¬ recent State.reset (State.reset.ring r).seenAt)
      ∧ (let s : State := { up with polls := [(3, { freshAt := some 0 })] }
         recent s (tget poll0 s.polls 3).freshAt)
      ∧ (let s : State := { up with rings := [(1023, { st := 1, seenAt := some 0 })] }
         ringServes s 0 1023 = true ∧ recent s (s.ring 1023).seenAt) :=
  ⟨witness_StepKeepsSound.1, fun h => (by obtain ⟨_, h, _⟩ := h; cases h),
    fun _ _ _ => ⟨rfl, fun h => (by obtain ⟨_, h, _⟩ := h; cases h)⟩, ⟨0, rfl, by decide⟩, by decide +kernel, 0, rfl, by decide⟩
theorem witness_DoorbellMovesTail :
    let s (g : RingSt) : State := { up with reqs := [⟨0, 0, 8, 0, .doorbell 1023⟩], rings := if g = {} then [] else [(1023, g)] }
    (∀ g ∈ [({} : RingSt), { st := 1 }, { st := 2, gen := some 1 }, { st := 2, gen := some 0 }],
        (s g).reqs.any (fun q => decide (q.kind = .doorbell 1023)) = true ∧ (s g).ring 1023 = g ∧ g.halt = .resume)
      ∧ nbits 64 47 32 = 0 ∧ ¬ 2 ^ (s {}).rd (fRSize 1023) < countFrom ((s {}).rd (fHead 1023)) 64 ∧ nbits (2 ^ 47) 47 32 ≠ 0
      ∧ 2 ^ (s {}).rd (fRSize 1023) < countFrom ((s {}).rd (fHead 1023)) 65
      ∧ (s { st := 1 }).isFatal = false ∧ ((s { st := 1 }).wr fFatal 1).isFatal = true
      ∧ ((s { st := 1 }).wr fFatal 1).reqs.any (fun q => decide (q.kind = .doorbell 1023)) = true := by
  and_intros <;> decide +kernel
theorem witness_DescriptorsAreFetched :
    let s : State := { up with rings := [(1023, { st := 1, tail := 8, gen := some 0 })] }
    let s1 : State := { up with reqs := [⟨0, 0, 512, 0, .desc 1023 0 8⟩] }
    nextTurn s = some 1023 ∧ engineOn s = true ∧ mayAsk s = true ∧ 0 % 2 ^ s.rd (fRSize 1023) + fetchable s 1023 ≤ 2 ^ s.rd (fRSize 1023)
      ∧ fetchable s 1023 = 8 ∧ busOk s 0 512 = true
      ∧ s1.reqs.findSome? (fun q => match q.kind with | .desc r' c n => if r' = 1023 then some (c, n) else none | _ => none) = some (0, 8) := by
  and_intros <;> decide +kernel
theorem witness_CompletionPostsRecord :
    (∀ w ∈ [Work.judged 0x3F 9 none, .gateWait (ref 59 4095) 0 1, .gateWait (ref 59 4095) 1 1],
      let d : Dispatched := ⟨2 ^ 32 - 1, desc 0 0 [], 0, w⟩
      let s : State := { up with rings := [(1023, { st := 1, out := [d] })] }
      s.isFatal = false ∧ s.link.stalled = false ∧ ({ s with link := { stalled := true } } : State).link.stalled = true ∧ d.count < 2 ^ 32 ∧ outOf s 1023 d.count = some d ∧ dIrq d.q = false ∧ (s.ring 1023).halting = [] ∧ (s.ring 1023).after = []
        ∧ (∀ f ∈ (s.ring 1023).waiting, f.count ≠ d.count)) := by
  decide +kernel
theorem witness_RingTimersAndService :
    (∀ w ∈ [Work.gateWait (ref 59 4095) 1 5, .gateWait (ref 59 4095) 0 5, .staged 5 0],
      let d : Dispatched := ⟨2 ^ 32 - 1, desc 0 0 [], 0, w⟩
      ∀ m ∈ [4, 5],
      let s : State := { up with mile := m, rings := [(1023, { st := 1, out := [d] })] }
      outOf s 1023 d.count = some d ∧ s.isFatal = false ∧ (s.wr fFatal 1).isFatal = true)
    ∧ (let s (g : RingSt) (old v : Nat) : State := { part0.wrAll [(fEnable 1023, old)] with rings := if g = {} then [] else [(1023, g)], pendingSt := [(aRing 1023 0x18, BitVec.ofNat 64 v)] }
       let s1 := s {} 0 0x6003
       let s2 := s {} 0 0x5003
       let s3 := s { st := 2 } 1 0x6002
       (∀ x ∈ [s1, s2], ringQuiet x 1023 = true ∧ (pendingCfg x 1023).any (fun v => decide (v % 2 = 1)) = true ∧ x.flag (fEnable 1023) = false ∧ engineOn x = true
          ∧ (blkApply noAct x (.ring 1023)).flag (fEnable 1023) = true)
        ∧ (blkApply noAct s1 (.ring 1023)).rd (fRSize 1023) = 6 ∧ (blkApply noAct s2 (.ring 1023)).rd (fRSize 1023) = 5
        ∧ pendingCfg s3 1023 = some 0x6002 ∧ ringQuiet s3 1023 = true ∧ s3.flag (fEnable 1023) = true ∧ (blkApply noAct s3 (.ring 1023)).flag (fEnable 1023) = false) := by
  and_intros <;> decide +kernel
theorem witness_RingTimersAndService_staged :
    let d : Dispatched := ⟨5, desc 13 0 [aRing 1022 0x18, 0x8000, 0x1F000], 0, .staged 5 0⟩
    let s (g : RingSt) : State := { part0 with mile := 5, rings := [(1022, g), (1023, { st := 1, out := [d] })] }
    outOf (s {}) 1023 5 = some d ∧ regBlk (dq d.q 2) = some (.ring 1022) ∧ regBlk (dq (desc 13 0 [0x800020, 0, 0]) 2) = none
      ∧ BlockQuiet (s {}) (.ring 1022) ∧ ¬ BlockQuiet (s { st := 1, tail := 1 }) (.ring 1022)
      ∧ ((outOf (stApply (s {}) (.ring 1022)) 1023 5).any fun x => match x.work with | .judged _ _ _ => true | _ => false) = true := by
  unfold BlockQuiet; and_intros <;> decide +kernel
theorem witness_RegisterWritesAndSettings :
    State.reset.link.d3hot = false ∧ ({ link := { d3hot := true } } : State).link.d3hot = true ∧ 2 ^ 26 - 8 < 2 ^ 26 ∧ regInfo (2 ^ 26 - 8) = none
      ∧ ((regInfo 0x1000).map fun i => (i.w1c, i.fx, i.st, i.lv)) = some ([], 0, 0, 0)
      ∧ ((regInfo 0x509000 |>.map fun i => (i.w1c, i.fx, i.st, i.lv)) = some ([], 0, 0, 0))
      ∧ ((regInfo (aLnk 15 0x400)).map fun i => (i.w1c, i.fx, i.st, decide (i.lv = 0))) = some ([], 0, 0, false)
      ∧ ((regInfo 0x800028).map fun i => (i.w1c, i.fx, i.st, i.lv)) = some ([], 1, 0, 0) ∧ fxStarted part0 0x800028 = true
      ∧ ((regInfo (aRing 1023 0)).map fun i => (i.w1c, i.fx, decide (i.st = 0), i.lv)) = some ([], 0, false, 0)
      ∧ (∀ x ∈ [(Blk.ring 1023, aRing 1023 0), (.summary 3, 0x100018), (.remote 3 63, 0x2FF0), (.rgrp 255, aGrp 255 8), (.port 15, aLnk 15 8), (.mile, 0x600008)],
          let s : State := { up with pendingSt := [(x.2, 5#64)] }
          (Instr.stApply x.1).wf = true ∧ s.isFatal = false ∧ stagedWaiting s x.1 = [] ∧ s.pendingSt.filter (fun p => decide (regBlk p.1 = some x.1)) = [(x.2, 5#64)]
            ∧ ((regInfo x.2).any fun i => decide (i.st ≠ 0)) = true)
      ∧ ringQuiet up 1023 = true ∧ ringQuiet { up with rings := [(1023, { st := 1, tail := 1 })] } 1023 = false
      ∧ ((regInfo 0x507FF8).map fun i => (i.w1c, i.fx, i.st, decide (i.lv = 0))) = some ([], 0, 0, false) ∧ remoteBusy up 3 63 = false
      ∧ up.buckets = [] ∧ up.mile % 100000 = 0
      ∧ (∀ x ∈ [(0, 0), (1, 0), (2, 6)], portQuiet (up.wrAll [(fPortState 15, x.1), (fHailStep 15, x.2)]) 15 = true)
      ∧ (∀ x ∈ [(3, 0), (2, 7)], portQuiet (up.wrAll [(fPortState 15, x.1), (fHailStep 15, x.2)]) 15 = false) := by
  and_intros <;> decide +kernel
/-- A write of one half, or of the whole, of each kind of register that the general clause is about. -/
theorem witness_RegisterWritesAndSettings_classes :
    (∀ off ∈ [0x1400, 0x1420, 0x1440, 0x1800, 0x1C00, 0x2FF8, aRing 1023 0x18, aGrp 255 0, aLnk 15 0, aLnk 15 0x10, aOpt 15 0, 0x507FF8, 0x800028],
        ((regInfo off).any fun i => decide (i.fx ≠ 0 ∨ i.st ≠ 0 ∨ i.lv ≠ 0 ∨ i.w1c ≠ [])) = true ∧ off < 2 ^ 26 - 4 ∧ (off + 4) % 4 = 0 ∧ off % 8 = 0)
      ∧ (∀ off ∈ [aRing 1023 0x18, aGrp 255 0, aLnk 15 0, aOpt 15 0], (regInfo off).any (fun i => decide (i.st ≠ 0 ∧ i.lv ≠ 0)) = true)
      ∧ fxStarted up 0x1420 = false ∧ fxStarted part0 0x1420 = true ∧ fxStarted up 0x1420 = false ∧ regInfo (2 ^ 26 - 8) = none
      ∧ (regInfo 0x1000).map (fun i => (i.w1c, i.fx, i.st, i.lv)) = some ([], 0, 0, 0) ∧ up.link.d3hot = false := by
  and_intros <;> decide +kernel
theorem witness_TrainingAttempts :
    let s (k : Option Nat) : State := { up with link := { step := k, localMask := 3 } }
    let one : State := up.wr (fModState 1) modHeld
    up.isFatal = false ∧ (∃ k, up.power.step = some k ∧ 6 ≤ k) ∧ up.link.step = none ∧ up.link.d3hot = false
      ∧ (let mask (s : State) := (if s.rd (fModState 0) = modHeld then 0 else 1) + (if s.rd (fModState 1) = modHeld then 0 else 2)
         mask up &&& 3 ≠ 0 ∧ mask one = 1 ∧ mask one &&& 1 ≠ 0)
      ∧ ({ up with link := { d3hot := true } } : State).link.d3hot = true
      ∧ (∀ k ∈ [0, 3, 4, 1, 2, 5], (s (some k)).isFatal = false ∧ (s (some k)).link.step = some k ∧ (s (some k)).link.failed = 0 ∧ (s (some k)).link.asked = false)
      ∧ ({ step := some 1, localMask := 3, asked := true } : LinkSt).step ≠ none ∧ 3 &&& 1 ≠ 0
      ∧ (trainMask ((s (some 2)).wr fEffCaps 0x3FF)).testBit (3 / 2) = true ∧ 2 < ([0, 0, 0, 3] : List Nat).getD 3 0 ∧ (∀ n ∈ [0, 0, 0, 0], n = 0)
      ∧ (let t := up.wrAll [(fModState 1, modActive), (fEffCaps, 0x30)]
         t.dlActive = true ∧ t.rd (fModState (3 / 2)) = modActive ∧ t.cap 4 = true ∧ t.cap 5 = true ∧ t.link.repaired.getD 3 0 < 2 ∧ t.isFatal = false) := by
  refine ⟨by decide +kernel, ⟨8, by decide +kernel⟩, ?_⟩
  and_intros <;> decide +kernel
theorem witness_LinkLossAndFunctionStates :
    State.reset.dlActive = false ∧ up.dlActive = true ∧ (∀ x ∈ [(1023, 2 ^ 32 - 1)], x.1 < 1024 ∧ x.2 < 2 ^ 32)
      ∧ (({ up with rings := [(1023, { st := 1, seenAt := some 0 })] } : State).ring 1023).st = 1 ∧ up.reqWait = [] := by
  and_intros <;> decide +kernel
theorem witness_HostAccessesAreAnswered :
    let b : Barge := { id := 3, part := 0, engine := 0, chan := 0, src := 0x20000000000, dst := 0, rowBytes := 64, rows := 1, srcPitch := 0, dstPitch := 0, transpose := 0
                       done := none, release := none, origin := .ring 1023 5, admitted := true, sent := 1, awaiting := [0] }
    let b1 : Barge := { b with got := [(0, 0, List.replicate 64 0#8)] }
    let s : State := { up with reqs := [⟨0, 0, 128, 0, .bitmap 3⟩, ⟨1, 0, 128, 0, .startBlock⟩, ⟨2, 0, 64, 0, .piece 3 0 0⟩], barges := [b], msixPend := [(2047, true)] }
    s.reqs.find? (fun q => decide (q.tag = 9)) = none ∧ s.reqs.find? (fun x => decide (x.tag = 0)) = some ⟨0, 0, 128, 0, .bitmap 3⟩
      ∧ s.reqs.find? (fun x => decide (x.tag = 1)) = some ⟨1, 0, 128, 0, .startBlock⟩ ∧ s.reqs.find? (fun x => decide (x.tag = 2)) = some ⟨2, 0, 64, 0, .piece 3 0 0⟩
      ∧ s.barge 3 = some b ∧ b.awaiting.contains 0 = true ∧ (b.pieceSrc 0).length = 1 ∧ b.got = [] ∧ piecePut b1 0 = some (List.replicate 64 0#8) ∧ piecePut b 0 = none
      ∧ s.link.d3hot = false ∧ ({ up with link := { d3hot := true } } : State).link.d3hot = true ∧ tget falseAt s.msixPend (0 / 2) = false
      ∧ tget falseAt s.msixPend (4095 / 2) = true ∧ s.dlActive = true ∧ s.link.stalled = false ∧ Nat.testBit 0 32 = false
      ∧ 0x80100 ≤ 2 ^ 20 - 8 ∧ (2 ^ 20 - 8) % 8 = 0 ∧ regInfo (2 ^ 26 - 8) = none := by
  and_intros <;> decide +kernel
theorem witness_TollhouseAnswers :
    let q (w : AttBy) : AttReq := ⟨w, [], false, 0, 0⟩
    let s (l : List AttReq) : State := { up with trust := { up.trust with queue := l } }
    let serves (x : AttReq) (l : List AttReq) : State := { up with trust := { up.trust with queue := l, serving := some x } }
    attNow up = none ∧ attNow (s [q .bmc]) = some (q .bmc) ∧ attNow (s [q .bmc, q (.hail 15)]) = some (q (.hail 15))
      ∧ attNow (serves (q .bmc) [q .bmc, q (.hail 15)]) = some (q .bmc) ∧ q .bmc ∈ (serves (q .bmc) [q .bmc, q (.hail 15)]).trust.queue
      ∧ attOpen (serves (q .bmc) [q .bmc]) (q .bmc) = true ∧ q .bmc ∉ (serves (q .bmc) [q (.hail 15)]).trust.queue ∧ up.trust.serving = none
      ∧ ((s [q (.hail 15)]).wr (fPortState 15) 2).rd (fPortState 15) = 2 ∧ ((s []).port 15).backoff = false ∧ (s []).rd (fPortState 15) ≠ 2
      ∧ attNow ((s [q (.hail 15)]).wr (fPortState 15) 2) = some (q (.hail 15))
      ∧ ({ lik := [1#8] } : TrustSt).lik ≠ [] ∧ [1#8] ≠ ([] : List Byte) ∧ up.isFatal = false ∧ (up.wr fFatal 1).isFatal = true := by
  and_intros <;> decide +kernel
theorem witness_FirmwareSlotsMove :
    let on (i : Option Nat) : TrustSt := { up.trust with receiving := i, staged := i }
    let trial : TrustSt := { (up.trust.putBoot fun b => { b with trial := some 1 }) with trialBoot := true, running := 1 }
    up.trust.running = 0 ∧ up.trust.recovery = false ∧ 1 ≠ up.trust.running ∧ up.isFatal = false ∧ (up.wr fFatal 1).isFatal = true ∧ ({ recovery := true } : TrustSt).recovery = true ∧ up.trust.trialBoot = false
      ∧ (on (some 1)).receiving = some 1 ∧ (on none).receiving ≠ some 1 ∧ (on none).staged = none ∧ (on (some 1)).staged = some 1
      ∧ up.trust.meas = 0 ∧ ({ meas := 3 } : TrustSt).meas ≠ 0 ∧ trial.trialShut = false ∧ ({ trial with trialShut := true } : TrustSt).trialShut = true
      ∧ trial.trialBoot = true ∧ trial.trial = some trial.running ∧ up.trust.bootB.seq ≤ up.trust.bootA.seq ∧ trial.bootA.seq < trial.bootB.seq := by
  and_intros <;> decide +kernel
theorem witness_WarmResetRuns :
    keeperOn up = true ∧ up.link.d3hot = false ∧ nbits 0xA501 15 8 = 0xA5 ∧ 0xA501 % 2 = 1 ∧ nbits 0xA401 15 8 ≠ 0xA5 ∧ 0xA500 % 2 = 0
      ∧ up.isFatal = false ∧ up.trust.warm = none ∧ slotOk up.trust up.trust.cand = true ∧ slotOk up.trust 1 = false
      ∧ (∀ n ∈ [0, 1, 2, 3, 4], ∀ b ∈ [true, false], let t : TrustSt := { up.trust with warm := some 1, meas := n, second := b }
          t.warm = some 1 ∧ t.meas = n ∧ t.second = b) ∧ up.flights = [] ∧ up.barges = []
      ∧ (∀ k ∈ [0, 1, 2, 3], ({ up with trust := { up.trust with warm := some k, warmParts := [3] } } : State).isFatal = false) := by
  and_intros <;> decide +kernel
theorem witness_PartitionsStartAndStop :
    let blk (op quads : Nat) : List Byte := takePad 128 (leBytes 8 (op + 0 * 2 ^ 8 + quads * 2 ^ 12 + 2 ^ 32))
    let o (b : List Byte) : PartOp := blockOp (takePad 128 b)
    let ask (s : State) : State := { s with reqs := [⟨0, 0, 128, 0, .startBlock⟩], parts := { op := some {} } }
    keeperOn up = true ∧ up.link.d3hot = false ∧ up.rd fGo = 0 ∧ (up.wr fGo 1).rd fGo = 1 ∧ up.dlActive = true ∧ busOk up 0 128 = true ∧ Asks up ∧ up.link.stalled = false
      ∧ (ask up).reqs.any (fun q => decide (q.kind = ReqFor.startBlock)) = true ∧ (ask up).parts.op ≠ none
      ∧ (∀ b ∈ [blk 1 15, blk 2 0, blk 3 0], (o b).cpl % 32 = 0)
      ∧ blockRefused (ask up) (takePad 128 (blk 1 15)) (o (blk 1 15)) = false ∧ (o (blk 1 15)).start = true
      ∧ blockRefused (ask part0) (takePad 128 (blk 2 0)) (o (blk 2 0)) = false ∧ (o (blk 2 0)).start = false
      ∧ blockRefused (ask up) (takePad 128 (blk 3 0)) (o (blk 3 0)) = true
      ∧ (∀ k ∈ [1, 2], let s : State := { up.wrAll [(fPartState 3, 1), (fPartQuads 3, 15)] with parts := { op := some { part := 3, quads := 15, scrub := 15, step := k } } }
          keeperOn s = true ∧ s.rd (fPartState 3) = 1 ∧ s.dlActive = true)
      ∧ (let s : State := { up.wrAll [(fPartState 3, 3), (fPartQuads 3, 15)] with parts := { op := some { part := 3, start := false, step := 1 } } }
         keeperOn s = true ∧ s.rd (fPartState 3) = 3 ∧ s.barges = [] ∧ s.flights = [])
      ∧ keeperOn State.reset = false ∧ State.reset.rd fGo = 0 ∧ State.reset.link.d3hot = false ∧ up.isFatal = false ∧ (up.wr fFatal 1).isFatal = true
      ∧ State.reset.isFatal = false ∧ State.reset.dlActive = false
      ∧ (let w : State := { up with trust := { up.trust with warm := some 0 } }
         keeperOn w = false ∧ w.isFatal = false ∧ w.rd fGo = 0 ∧ w.dlActive = true ∧ busOk w (1 % 2 ^ 64 / 128 * 128) 128 = true ∧ Asks w
           ∧ (w.wr fGo 1).rd fGo = 1 ∧ (w.wr fGo 1).isFatal = false)
      ∧ part0.hbmWide = false ∧ part0.rd (fPartState 0) ≠ 0 ∧ ownsHbm part0 0 (0x9000000000 - 1) = true := by
  unfold Asks; and_intros <;> decide +kernel

/-! ### Ports -/

/-- The module up with port 15 in a state: 1 dark, 2 hail, 3 Up; all lane groups in service. -/
def portAt (state step : Nat) (g : PortSt) : State :=
  { up.wrAll [(fPortState 15, state), (fHailStep 15, step), (fTxGroups 15, 0xFFFF), (fRxGroups 15, 0xFFFF)] with ports := if g = {} then [] else [(15, g)] }

theorem witness_FlitsLeaveAndArrive :
    let f : SentFlit := ⟨0, [], 0, 6⟩
    let s (g : PortSt) : State := portAt 3 0 g
    let bytes := List.replicate 252 0#8
    let off : State := (s {}).wr (fRxGroups 15) 0x7FFF
    portLive (s {}) 15 = true ∧ (s {}).isFatal = false ∧ txMask (s {}) 15 ≠ 0 ∧ ((s {}).port 15).replay = none ∧ ((s {}).port 15).replayBuf = []
      ∧ ((s {}).port 15).ctlq = [] ∧ ((s {}).port 15).rekey = .none ∧ ((s {}).port 15).darkSent = false ∧ (s {}).rd (fTxFrames 15) < 2 ^ 47 - 1
      ∧ (s {}).rd (fPortState 15) = 3 ∧ (portAt 2 7 {}).rd (fPortState 15) ≠ 3 ∧ portLive (portAt 2 7 {}) 15 = true
      ∧ (rxMask off 15).testBit 15 = false ∧ (off.port 15).rxLine = none
      ∧ (rxMask (s {}) 15).testBit 0 = true ∧ ((s {}).port 15).rxWait = [] ∧ turnAfter (rxMask (s {}) 15) ((s {}).port 15).rxTurn = 0
      ∧ (rxMask (s {}) 15).testBit 15 = true ∧ turnAfter (rxMask (s {}) 15) ((s {}).port 15).rxTurn ≠ 15
      ∧ leNat (sliceB bytes 252 4) ≠ crc32 (sliceB bytes 0 252)
      ∧ leNat (sliceB (bytes ++ leBytes 4 (crc32 bytes)) 252 4) = crc32 (sliceB (bytes ++ leBytes 4 (crc32 bytes)) 0 252)
      ∧ nbits (leNat (sliceB bytes 0 4)) 31 30 ≠ 3
      ∧ nbits (leNat (sliceB bytes 0 4)) 14 0 = ((s {}).port 15).rxNext ∧ nbits (leNat (sliceB bytes 0 4)) 14 0 ≠ ((s { rxNext := 1 }).port 15).rxNext
      ∧ portLive (s { replayBuf := [f] }) 15 = true ∧ ((s { replayBuf := [f] }).port 15).replayBuf = f :: []
      ∧ f.t0 + ackTicks (s {}) 15 < 10 ^ 9 ∧ f.times < 8 ∧ 8 ≤ ({ f with times := 8 } : SentFlit).times ∧ (s {}).rd ⟨aLnk 15 0, 23, 20⟩ = 8 := by
  and_intros <;> decide +kernel
theorem witness_LanesRetireAndReturn :
    let s (g : PortSt) : State := portAt 3 0 g
    let x : LaneLine := ⟨15, 0, true⟩
    (∀ k ∈ [1, 2, 3], k ∈ ((s { ctlIn := [1, 2, 3] }).port 15).ctlIn) ∧ (s { ctlIn := [1, 2, 3] }).isFatal = false ∧ sint 32 (0 + 2 ^ 32 - 5) ≤ 0
      ∧ ((s { rxLine := some x }).port 15).rxLine = some x ∧ 0 ≤ sint 32 (0 + 2 ^ 32 - 0) ∧ minGroups (s {}) 15 ≤ popcount 16 (mclr 0xFFFF 15)
      ∧ popcount 16 (mclr 0xFF 7) < minGroups (s {}) 15 ∧ portLive (s {}) 15 = true
      ∧ ((s { txLine := some x }).port 15).txLine = some x ∧ ((s { txLine := some x }).port 15).swap = none ∧ ((s { txLine := some x }).port 15).lineQ = []
      ∧ (let t := (s { ctlIn := [3] }).wr (fTxGroups 15) 0x7FFF
         (t.rd (fTxGroups 15)).testBit 15 = false ∧ portLive t 15 = true ∧ (t.port 15).swap = none ∧ (t.port 15).lineQ = [] ∧ (t.port 15).txLine = none ∧ 3 ∈ (t.port 15).ctlIn) := by
  and_intros <;> decide +kernel
theorem witness_RekeyIsAgreed :
    let s (g : PortSt) (a per : Nat) : State := (portAt 3 0 g).wrAll [(fRekeyAccept 15, a), (⟨aLnk 15 0, 63, 48⟩, per)]
    let before (s : State) (f : Nat) := ((s.port 15).txHeads ≠ [] ∨ s.rd (fTxFrames 15) < f) ∧ ((s.port 15).rxFlits ≠ [] ∨ (s.port 15).rxFrame < f)
    (∀ a ∈ [0, 1], ∀ k ∈ [RekeySt.none, .offered [1#8] 7], let t := s { ctlIn := [0x10], rekey := k } a 0
        0x10 ∈ (t.port 15).ctlIn ∧ t.flag (fRekeyAccept 15) = decide (a = 1) ∧ (t.port 15).rekey = k ∧ t.isFatal = false ∧ (t.port 15).txLine = none
          ∧ (t.port 15).rxLine = none ∧ before t 1)
      ∧ (let t := s { ctlIn := [0x10], rekey := .agreed [({}, 5)] [({}, 5)] } 1 0
         0x10 ∈ (t.port 15).ctlIn ∧ t.flag (fRekeyAccept 15) = true ∧ (t.port 15).rekey = .agreed [({}, 5)] [({}, 5)] ∧ before t 5)
      ∧ (∀ k ∈ [0x11, 0x12], ∀ x ∈ [RekeySt.offered [1#8] 7, .crossed [1#8] 7 [2#8] [3#8] 9], let t := s { ctlIn := [k], rekey := x } 0 0
          k ∈ (t.port 15).ctlIn ∧ (t.port 15).rekey = x ∧ before t 7 ∧ before t 9)
      ∧ portUp (s { declined := true } 0 1) 15 = true ∧ (s { declined := true } 0 1).rd ⟨aLnk 15 0, 63, 48⟩ ≠ 0 ∧ ((s { declined := true } 0 1).port 15).declined = true
      ∧ (s {} 0 0).rd ⟨aLnk 15 0, 63, 48⟩ = 0 := by
  and_intros <;> decide +kernel
/-- Which end is the lower one rests on uninterpreted keys: whatever they are, one of the two clauses about crossing offers is about a port. -/
theorem witness_RekeyIsAgreed_ends (g : PortSt) : lowerEnd g = false ∨ lowerEnd g = true := by
  cases lowerEnd g <;> simp
theorem witness_HailBringsPortsUp :
    (∀ k ∈ [1, 2, 3, 4, 5, 6, 7, 8], (portAt 2 k {}).rd (fPortState 15) = 2 ∧ ((portAt 2 k {}).port 15).backoff = false ∧ (portAt 2 k {}).rd (fHailStep 15) = k
        ∧ (portAt 2 k {}).isFatal = false)
      ∧ (let s (m : Nat) : State := (portAt 2 6 {}).wrAll [(fMinGroups 15, 8), (fTxGroups 15, 0xFF), (fRxGroups 15, m)]
         popcount 16 ((s 0xFF).rd (fTxGroups 15)) = minGroups (s 0xFF) 15 ∧ popcount 16 ((s 0xFF).rd (fRxGroups 15)) = minGroups (s 0xFF) 15
           ∧ popcount 16 ((s 0x7F).rd (fRxGroups 15)) + 1 = minGroups (s 0x7F) 15 ∧ (s 0xFF).rd (fPortState 15) = 2 ∧ (s 0xFF).rd (fHailStep 15) = 6
           ∧ ((s 0xFF).port 15).backoff = false ∧ (s 0xFF).isFatal = false ∧ (s 0xFF).pendingSt = [] ∧ stagedWaiting (s 0xFF) (.port 15) = [])
      ∧ ({ up.trust with root := [1#8] } : TrustSt).root ≠ [] ∧ ({ auth := true } : HailInfo).auth = true ∧ ({} : HailInfo).auth = false
      ∧ (portAt 2 3 {}).flag (fAttestReq 15) = false ∧ ((portAt 2 3 {}).wr (fAttestReq 15) 1).flag (fAttestReq 15) = true ∧ reportOwed (portAt 2 3 {}) 15 = false ∧ reportOwed (portAt 2 3 { owed := some [] }) 15 = true
      ∧ ({ auth := true, report := true } : HailInfo).report = true ∧ ({ auth := true } : HailInfo).report = false
      ∧ portDark (portAt 1 0 { tone := true }) 15 = true ∧ ((portAt 1 0 { tone := true }).port 15).tone = true
      ∧ ((portAt 2 8 {}).wr fModuleId 5).rd fModuleId ≠ 0xFFFFFF ∧ (portAt 2 8 {}).rd fModuleId = 0xFFFFFF
      ∧ ((portAt 2 1 { backoff := true }).port 15).backoff = true ∧ portLive (portAt 3 0 {}) 15 = true ∧ portLive (portAt 2 7 {}) 15 = true := by
  and_intros <;> decide +kernel
theorem witness_PortsGoDarkAndReturn :
    let low (g : PortSt) : State :=
      let s := portAt 3 0 g
      { s with power := { s.power with dom := (List.range 60 ++ [120, 121, 122, 123]).map fun d => (d, .low) } }
    let s := low { ctlIn := [0x40], darkAsked := true }
    let t := low { darkSent := true, txSeq := 15 }
    0x40 ∈ (s.port 15).ctlIn ∧ (s.port 15).darkAsked = true ∧ portVotes s 15 = 0 ∧ allLow s.power.dom = true ∧ portIdle s 15 = true ∧ s.isFatal = false
      ∧ portUp s 15 = true ∧ allLow (portAt 3 0 { ctlIn := [0x40] }).power.dom = false
      ∧ portUp t 15 = true ∧ (t.port 15).darkSent = true ∧ portVotes t 15 = 0 ∧ allLow t.power.dom = true ∧ portIdle t 15 = true ∧ txMask t 15 ≠ 0
      ∧ (t.port 15).replay = none ∧ (t.port 15).replayBuf.length < 8192 ∧ (t.port 15).ctlq = [] ∧ (t.port 15).rekey = .none ∧ t.rd (fTxFrames 15) < 2 ^ 47 - 1
      ∧ (t.port 15).txSeq % 16 = 15
      ∧ portDark (portAt 1 0 {}) 15 = true ∧ (portAt 1 0 {}).flag (fWakeEn 15) = true ∧ ((portAt 1 0 { tone := true }).port 15).tone = true
      ∧ portsOut up = true ∧ portsOut State.reset = false ∧ (portAt 0 0 {}).rd (fPortState 15) = 0 ∧ portLive (portAt 3 0 {}) 15 = true
      ∧ up.link.d3hot = false ∧ ({ up with link := { d3hot := true } } : State).link.d3hot = true := by
  and_intros <;> decide +kernel
theorem witness_LightAndRings :
    let s := portAt 3 0 { ctlIn := [0x30], range := [63] }
    s.isFatal = false ∧ 0x30 ∈ (s.port 15).ctlIn ∧ 0x30 ∉ ((portAt 3 0 {}).port 15).ctlIn ∧ portLive s 15 = true ∧ (∀ x ∈ [({ phase := 63 } : LaneRead)], x.phase < 64)
      ∧ 4 * (([] : List LaneRead).getD 31 {}).opening < tget nat0 ((portAt 3 0 { eye := [(31, 1)] }).port 15).eye 31
      ∧ (portAt 1 0 {}).rd (fPortState 15) = 1 ∧ (portAt 0 0 {}).rd (fPortState 15) = 0 ∧ (s.wr (fLock 15 63) 2).rd (fLock 15 63) = 2 ∧ s.rd (fLock 15 63) ≠ 2
      ∧ ((s.wr (fLock 15 63) 2).port 15).range = [63] ∧ (s.wr (fLock 15 63) 2).isFatal = false
      ∧ s.rd (fPortState 15) ≠ 0 ∧ s.rd (fPortState 15) ≠ 1 ∧ 63 ∈ (s.port 15).range ∧ (s.port 15).swap = none ∧ portUp s 15 = true ∧ s.rd (fXtState 15) ≠ 1
      ∧ s.rd ⟨aOpt 15 0, 39, 32⟩ ≠ 0 ∧ (s.port 15).txLine = none ∧ (s.port 15).rxLine = none
      ∧ ((portAt 3 0 { rxLine := some ⟨0, 0, true⟩ }).port 15).rxLine ≠ none ∧ (s.wr (fXtState 15) 1).rd (fXtState 15) = 1 ∧ portUp (s.wr (fXtState 15) 1) 15 = true
      ∧ s.link.d3hot = false := by
  and_intros <;> decide +kernel
theorem witness_LasersAreSwapped :
    let s (g : PortSt) : State := (portAt 3 0 g).wrAll [(fAutoSwap 15, 0), (fSwapSel 15, 15)]
    let w : SwapSt := ⟨15, 15, 31, false, true⟩
    let relock : SwapSt := ⟨3, 3, 3, false, false⟩
    (s {}).rd (fPortState 15) = 3 ∧ ((s {}).port 15).swap = none ∧ ((s {}).port 15).swapQ = [] ∧ ((s {}).port 15).swapKept = [] ∧ (w.lamp = true → w.k ≠ 14 % 16) ∧ (s {}).flag (fAutoSwap 15) = false ∧ (s {}).rd (fLaserState 15 15) = 1
      ∧ (s {}).isFatal = false ∧ (s {}).link.d3hot = false ∧ (s {}).rd (fSwapSel 15) = 15 ∧ activeLaser (s {}) 15 15 = some 15 ∧ coldSpare (s {}) 15 15 = some 31 ∧ coldSpare ((s {}).wr (fLaserState 15 31) 3) 15 15 = none
      ∧ (let t := (s {}).wrAll [(fLaserState 15 31, 3), (fLaserState 15 15, 3)]
         activeLaser t 15 15 = none ∧ coldSpare t 15 15 = none ∧ portUp t 15 = true ∧ (t.port 15).swap = none)
      ∧ (let t := (s {}).wr (fTxGroups 15) 0x8000
         (t.rd (fTxGroups 15)).testBit 15 = true ∧ popcount 16 (t.rd (fTxGroups 15)) - 1 < minGroups t 15)
      ∧ ((s {}).rd (fTxGroups 15)).testBit 15 = true ∧ minGroups (s {}) 15 < popcount 16 ((s {}).rd (fTxGroups 15)) ∧ ((s {}).port 15).lineQ = [] ∧ ((s {}).port 15).txLine = none
      ∧ portUp (s {}) 15 = true
      ∧ (∀ k ∈ [2, 3, 4], let t := (s { swap := some w }).wrAll [(fSwapPhase 15, k), (fTxLane 15 15 1 0, 0), (fTxLane 15 31 1 0, 0)]
          (t.port 15).swap = some w ∧ t.rd (fSwapPhase 15) = k ∧ t.rd (fTxLane 15 w.k 1 0) = 0 ∧ t.rd (fTxLane 15 (w.k + 16) 1 0) = 0)
      ∧ ((s { swap := some relock }).port 15).swap = some relock ∧ portUp (s { swap := some relock }) 15 = true ∧ 15 ∉ ((s { swap := some relock }).port 15).swapQ
      ∧ activeLaser (s { swap := some relock }) 15 15 = some 15 ∧ coldSpare (s { swap := some relock }) 15 15 = some 31
      ∧ ((s {}).port 15).rxTest.testBit 15 = false ∧ ((s { rxTest := 0x8000 }).port 15).rxTest.testBit 15 = true
      ∧ ({ s {} with link := { d3hot := true } } : State).link.d3hot = true := by
  and_intros <;> decide +kernel
theorem witness_MilestoneIsDisciplined :
    let s := portAt 3 0 { ctlIn := [0x20] }
    let p : State := { up with pendingSt := [(0x600000, 1#64)] }
    0x20 ∈ (s.port 15).ctlIn ∧ s.isFatal = false ∧ 0x20 ∉ ((portAt 3 0 {}).port 15).ctlIn
      ∧ (let t := (portAt 3 0 { ctlIn := [0x20] }).wr fUpstream 15
         let u : State := { t with mileSt := { up := true } }
         u.Sound ∧ u.isFatal = false ∧ (u.port 15).offsets = [] ∧ 0x20 ∈ (u.port 15).ctlIn ∧ u.rd fUpstream = 15 ∧ u.flag fMileRef = false ∧ u.mileSt.up = true ∧ portLive u 15 = true
           ∧ (∀ q, q < 16 → q ≠ 15 → portLive u q = false ∨ (u.port q).refModule = 0xFFFFFF)
           ∧ ∀ x ∈ [(2002, -1001), (2000, -1000), (2, -1), (0, 0), (2 ^ 64 - 2000, 1000), (2 ^ 64 - 2002, 1001)],
               meanOffset (((sint 64 (u.mile + 2 ^ 64 - x.1) - sint 64 (0 + 2 ^ 64 - 0)) / 2 :: (u.port 15).offsets).take 16) = x.2)
      ∧ up.mile + 10 < 2 ^ 64 ∧ p.mile < 2 ^ 64 ∧ refPending p = true ∧ p.isFatal = false ∧ p.mile % 100000 = 0
      ∧ p.pendingSt.filter (fun p => decide (p.1 = 0x600000 ∨ p.1 = 0x600008)) = [(0x600000, 1#64)] ∧ (1#64).getLsbD 0 = true
      ∧ ({ up with mile := 1 } : State).mile % 100000 ≠ 0 ∧ ({ up with mile := 2 ^ 64 - 1 } : State).mile = 2 ^ 64 - 1
      ∧ up.pending = [] ∧ mileRuns up = true ∧ mileRuns State.reset = false ∧ up.mileSt.half = false ∧ up.mileSt.skip = 0
      ∧ (∀ x ∈ [(false, 1), (false, 2), (true, 2)], let h : State := { up with mileSt := { half := true, odd := x.1, excess := x.2 } }
          mileRuns h = true ∧ h.mileSt.half = true ∧ h.mileSt.odd = x.1 ∧ h.mileSt.excess = x.2)
      ∧ mileRuns { up with mileSt := { skip := 10 } } = true ∧ 0 < ({ up with mileSt := { skip := 10 } } : State).mileSt.skip
      ∧ (let w : State := { portAt 3 0 {} with mile := 2 ^ 64 - 1 }
         w.mile = 2 ^ 64 - 1 ∧ w.isFatal = false ∧ portUp w 15 = true) := by
  and_intros <;> first | decide +kernel | (constructor <;> decide +kernel)

/-! ### Routing and the exchange -/

/-- Partition 0 of module 7 has slice 4,095, admitted at port 15; messages for module 9 leave by port 14. -/
def routed (g : PortSt) : State :=
  { (part0.wrAll [(fModuleId, 7), (fSliceValid 0, 1), (fSlice 0, 4095), (fPortState 14, 3), (fPortState 15, 3)]).setReg (aLnk 15 (0x400 + 8 * 63)) (BitVec.ofNat 64 (2 ^ 63)) |>.setReg
      (0x500000 + 8 * 9) (BitVec.ofNat 64 (2 ^ 63 + 14 * 2 ^ 58 + 9)) with ports := if g = {} then [] else [(15, g)] }
def message (dst cls : Nat) (body : List Byte) : InMsg := ⟨7, leBytes 8 (dst + 0 * 2 ^ 24 + 4095 * 2 ^ 26 + cls * 2 ^ 38) ++ leBytes 8 9 ++ body, 1, some true, 0⟩
/-- Group entry 255: partition 0, group id 5, two ranks. -/
def grouped (s : State) (alg rank ownerBase : Nat) : State :=
  s.wrAll [(fRg 255 0 63 63, 1), (fRg 255 0 60 59, alg), (fRg 255 0 47 32, 5), (fRg 255 0 19 0, rank), (fRg 255 8 63 44, 1), (fRg 255 8 43 24, ownerBase),
    (fRg 255 0x20 63 48, 16), (fRg 255 0x28 33 26, 4), (fRg 255 0x28 45 34, 1), (fRg 255 0x10 37 14, 9)]
/-- The header bytes of a segment of step 3, bucket 0, group 5. -/
def segment (kind src : Nat) : List Byte := leBytes 8 (3 * 2 ^ 32 + 5 * 2 ^ 16 + kind * 16) ++ leBytes 8 src ++ List.replicate 48 0#8
/-- The same with its count of segments and no payload: empty. -/
def emptySegment (src count : Nat) : List Byte :=
  leBytes 8 (3 * 2 ^ 32 + 5 * 2 ^ 16 + 4) ++ leBytes 8 src ++ leBytes 8 (count * 2 ^ 48) ++ List.replicate 40 0#8
def segAt (kind src : Nat) : SegIn := ⟨none, 0, 0, 9, 0, segment kind src, 1⟩
def bucketAt (phase : BucketPhase) : Bucket := { grp := 255, part := 0, gid := 5, step := 3, bucket := 0, phase, fmt := 0, exponent := 0, rep := 0, elems := 256 }
def postAt : PostSt := { ring := 1023, count := 5, t0 := 0, deadline := 100, dpa := 0x10100000000, elems := 256, format := 0, wharfAdd := false, gate := ref 0 0, late := false
                         ovfWrap := false, scaleStep := 1, resultTo := 10 }

theorem witness_MessagesAreRouted :
    let seg := segment 0 0
    (∀ m ∈ [message 7 3 [], message 7 1 [], message 7 2 [], message 7 0 seg, message 9 1 []],
        let s := routed { inbox := [m] }
        s.isFatal = false ∧ (s.port 15).inbox.find? (fun x => decide (x.vc = 7)) = some m ∧ nbits (leNat (sliceB m.bytes 0 8)) 37 26 = 4095 ∧ m.ok = some true
          ∧ overtakes s (15 / 2) 7 m.no (arrivedEgress s 15 m) = false)
      ∧ (let m := message 9 1 []
         let s := { routed {} with ports := [(14, { inbox := [m] }), (15, { inbox := [{ m with no := 1 }] })], remotes := [] }
         let t := (s.wr (fPortState 13) 3).setReg (0x500000 + 8 * 9) (BitVec.ofNat 64 (2 ^ 63 + 13 * 2 ^ 58 + 9))
         overtakes t (15 / 2) 7 1 (arrivedEgress t 15 { m with no := 1 }) = true ∧ routeOf t 9 = some 13)
      ∧ (routed {}).rd fModuleId = 7 ∧ deliverable (routed {}) 0 4095 = true ∧ groupOf (grouped (routed {}) 0 1 0) 0 (segGid seg) = some 255 ∧ segKind seg ≤ 5
      ∧ routeOf (routed {}) 9 = some 14 ∧ routeOf (routed {}) 8 = none
      ∧ (let m : RemoteMsg := { barge := none, part := 0, dstModule := 9, dstPart := 0, vc := 7, cls := 1, body := [] }
         ({ routed {} with remotes := [m] } : State).remotes.find? (fun x => decide (x.vc = 7)) = some m ∧ (routed {}).flag (fSliceValid m.part) = true
          ∧ m.dstModule % 2 ^ 24 ≠ (routed {}).rd fModuleId ∧ m.wharf = none
           ∧ overtakes { routed {} with remotes := [m] } m.home 7 m.no (localEgress { routed {} with remotes := [m] } m) = false
           ∧ (let s := { routed {} with remotes := [{ m with no := 1 }], ports := [(1, { inbox := [message 9 1 []] })] }
              overtakes s 0 7 1 (localEgress s { m with no := 1 }) = true))
      ∧ (let m : RemoteMsg := { barge := none, part := 0, dstModule := 9, dstPart := 0, vc := 7, cls := 1, body := [], wharf := some 7 }
         let full : State := { routed {} with remotes := [m], ports := [(15, { outq := List.replicate 256 ⟨7, [], 0, some 7⟩ })] }
         full.remotes.find? (fun x => decide (x.vc = 7)) = some m ∧ m.wharf = some 7 ∧ placeFree full 0x87 = false ∧ placeFree (routed {}) 0x87 = true) := by
  and_intros <;> decide +kernel
theorem witness_RemoteMessagesLand :
    let w (dpa : Nat) (l : List Byte) : RemoteIn := ⟨some 15, 7, 0, 1, leBytes 8 dpa ++ leBytes 8 0 ++ l, 1, 7, 0⟩
    let g : RemoteIn := ⟨some 15, 7, 0, 2, leBytes 8 (ref 59 4095) ++ leBytes 4 (2 ^ 32 - 1), 1, 7, 0⟩
    let s (l : List RemoteIn) : State := { part0 with remoteIn := l }
    let m := w 0 [1#8]
    remoteFirst (s [m, g]) 1 g = false ∧ (s [m, g]).remoteIn[1]? = some g ∧ (s [m]).isFatal = false
      ∧ remoteFirst (s [m]) 0 m = true ∧ (∀ x ∈ rangeParts 0 1, locReady (s [m]) x.1 = true) ∧ dpaLoc (s [m]) 0 = .hbm ∧ dpaOk (s [m]) 0 false 0 1 = true
      ∧ (s [m]).hbmUe = [] ∧ m.got = 0 ∧ dpaOk (s []) 0 false 0x9000000000 1 = false ∧ (∀ x ∈ rangeParts 0x9000000000 1, locReady (s []) x.1 = true)
      ∧ hostFits { s [] with dlActive := false } 0x20000000000 1 = false ∧ hostFits (s [m]) 0 1 = true
      ∧ (let low : State := { s [m] with power := { up.power with dom := [(120, .low)] } }
         remoteFirst low 0 m = true ∧ dpaOk low 0 false 0 1 = true ∧ hostFits low 0 1 = true ∧ ∃ x ∈ rangeParts 0 1, locReady low x.1 = false)
      ∧ (∀ n ∈ [2, 4096, 4098], let a := 0x10100000000 + 59 * 0x4000000
          let x := w a (List.replicate n 1#8)
          let t := s [x]
          dpaLoc t a = .spad 59 0 ∧ (∀ y ∈ rangeParts a n, locReady t y.1 = true) ∧ dpaOk t 0 false a n = true ∧ LanesIdle t 59 ∧ remoteFirst t 0 x = true
            ∧ n % 2 = 0 ∧ 0 + n ≤ 0x4000000)
      ∧ ((s [g]).tile 59).gateOps = []
      ∧ remoteFirst (s [g]) 0 g = true ∧ decRef (leNat (sliceB g.bytes 0 8)) = .gate 59 4095 ∧ tileReady (s [g]) 59 = true ∧ ownsTile (s [g]) 0 59 = true := by
  unfold LanesIdle; and_intros <;> decide +kernel
theorem witness_BucketsGather :
    let q := desc 9 0 [5 * 2 ^ 40 + 3, 0x10100000000, 256, 1000, ref 0 0]
    let s := grouped part0 0 1 0
    let o := grouped part0 2 1 1
    let b := bucketAt .posted
    let t (x : State) (m : SegIn) : State := { x with segIn := [m], buckets := [b] }
    let bp : Bucket := { b with post := some postAt }
    let full : SegIn := { segAt 0 0 with bytes := emptySegment 0 (b.count s) }
    let x : State := { s with segIn := [full], buckets := [bp] }
    isDue s .bucket q ∧ waitingPosts (withDesc s q) 1023 = [] ∧ postCheck (withDesc s q) 0 q = 0 ∧ groupOf s 0 (nbits (dq q 2) 55 40) = some 255 ∧ s.buckets = []
      ∧ s.mile < dq q 5
      ∧ SegDue (t s (segAt 0 0)) 0 0 (segAt 0 0) 255 ∧ SegDue (t o (segAt 1 0)) 0 1 (segAt 1 0) 255 ∧ SegDue (t s (segAt 0 5)) 0 0 (segAt 0 5) 255
      ∧ (t s (segAt 0 0)).bucketOf 255 3 0 = some b ∧ rgAlg s 255 = 0 ∧ (segRead (segment 0 0)).srcRank + 1 = rgRank s 255 ∧ s.rd (fRg 255 0x10 37 14) = 9
      ∧ s.rd (fRg 255 0x10 13 12) = 0 ∧ b.post = none ∧ holdRoom (t s (segAt 0 0)) 255 (segRead (segment 0 0)) = true ∧ rgAlg o 255 ≠ 0 ∧ isOwner o b = true
      ∧ (segRead (segment 0 5)).srcRank + 1 ≠ rgRank s 255
      ∧ SegDue x 0 0 full 255 ∧ x.bucketOf 255 3 0 = some bp ∧ bp.nextLand < bp.count x ∧ (segRead full.bytes).index = bp.nextLand
      ∧ bp.samePass (segRead full.bytes) = true ∧ segAgrees x bp (segRead full.bytes) = true ∧ bp.held = [] ∧ postTile x postAt = some 0 ∧ tileReady x 0 = true ∧ postAt.wharfAdd = false
      ∧ x.fenced = [] ∧ bp.landed = [] ∧ NoSlotLeft x 255 0 ∧ slotFree x 255 0 (slotNext x 255 0) = true := by
  unfold isDue DueNow SegDue NoSlotLeft; and_intros <;> decide +kernel
theorem witness_SegmentsMoveBuckets :
    let s := grouped part0 0 1 0
    let o := grouped part0 2 1 1
    let t (x : State) (m : SegIn) (p : BucketPhase) : State := { x with segIn := [m], buckets := [bucketAt p] }
    let rep := segAt 4 0
    let m4 : SegIn := { rep with bytes := (segment 4 0).set 15 0x40#8 }
    SegDue (t o (segAt 2 0) .posted) 0 2 (segAt 2 0) 255 ∧ rgAlg o 255 ≠ 0 ∧ isOwner o (bucketAt .posted) = true ∧ (bucketAt .posted).notices = []
      ∧ (∀ k ∈ [3, 5], (bucketAt .passed).samePass (segRead (segment k 0)) = true) ∧ { bucketAt .passed with post := some postAt }.post ≠ none
      ∧ (t s (segAt 3 0) .passed).bucketOf 255 3 0 = some (bucketAt .passed) ∧ holdRoom (t s (segAt 3 0) .passed) 255 (segRead (segment 3 0)) = true
      ∧ (segRead (segment 5 0)).srcRank + 1 = rgRank s 255 ∧ s.rd (fRg 255 0x10 37 14) = 9 ∧ s.rd (fRg 255 0x10 13 12) = 0
      ∧ SegDue (t s (segAt 3 0) .passed) 0 3 (segAt 3 0) 255
      ∧ writeResult (SegTaken (t s (segAt 3 0) .passed) 0 (segAt 3 0)) (bucketAt .passed) (segRead (segment 3 0)) = some (SegTaken (t s (segAt 3 0) .passed) 0 (segAt 3 0))
      ∧ (let bad : State := { t s (segAt 3 0) .passed with hbmUe := [(1, 1)] }
         writeResult (SegTaken bad 0 (segAt 3 0)) { bucketAt .passed with post := some { postAt with dpa := 0 }, elems := 20 } { segRead (segment 3 0) with empty := true } = none) ∧ (segRead (segment 3 0)).rep = (bucketAt .passed).rep
      ∧ bufferFits s postAt = true ∧ bufferFits { s with dlActive := false } { postAt with dpa := 0x20000000000 } = false
      ∧ writeResult (SegTaken { t s (segAt 3 0) .passed with dlActive := false } 0 (segAt 3 0)) { bucketAt .passed with post := some { postAt with dpa := 0x20000000000 } }
          (segRead (segment 3 0)) = none
      ∧ SegDue (t s m4 .passed) 0 4 m4 255 ∧ (segRead m4.bytes).fmt ≠ 0 ∧ SegDue (t s rep .passed) 0 4 rep 255 ∧ (segRead rep.bytes).fmt = 0
      ∧ SegDue (t s (segAt 5 0) .passed) 0 5 (segAt 5 0) 255 ∧ SegDue (t s (segAt 5 0) .posted) 0 5 (segAt 5 0) 255 ∧ isChain s (bucketAt .posted) = true
      ∧ bufferUp (t s (segAt 3 0) .passed) (bucketAt .passed) = true
      ∧ (let low : State := { t s (segAt 3 0) .passed with power := { part0.power with dom := [(0, .low)] } }
         let b : Bucket := { bucketAt .passed with post := some postAt }
         bufferUp low b = false ∧ SegDue low 0 3 (segAt 3 0) 255)
      ∧ (let b (n : Nat) : Bucket := { bucketAt .passed with post := some postAt, final := some (segRead (segment 5 0)), elems := 20, results := n }
         let d : Dispatched := ⟨5, desc 9 0 [], 0, .bucket 255 0 3⟩
         let x : State := { s with rings := [(1023, { st := 1, out := [d] })] }
         (b 0).results < (b 0).count x ∧ (b 1).count x ≤ (b 1).results ∧ x.isFatal = false ∧ (b 1).stuck = false
           ∧ hbmOk x (rgPart x 255) (recordAt x (b 1)) 0x1080 = true ∧ x.hbmUe = [] ∧ locReady x (recordAt x (b 1)) = true
           ∧ tileReady x (refTile postAt.gate) = true ∧ (x.tile (refTile postAt.gate)).gateOps = [] ∧ d ∈ (x.ring postAt.ring).out ∧ d.count = postAt.count
           ∧ tileReady { x with power := { x.power with dom := [(refTile postAt.gate, .low)] } } (refTile postAt.gate) = false)
      ∧ (∀ k ∈ [0, 1, 2, 3, 4, 5], let x : State := { part0 with segIn := [segAt k 0] }
          x.isFatal = false ∧ x.segIn[0]? = some (segAt k 0) ∧ segKind (segAt k 0).bytes = k ∧ groupOf x 0 (segGid (segAt k 0).bytes) = none) := by
  unfold SegDue; and_intros <;> decide +kernel
theorem witness_BucketsLandAndTimeOut :
    let s := grouped part0 0 1 0
    let g : Seg := { segRead (segment 0 0) with count := (bucketAt .posted).count s, empty := true }
    let b : Bucket := { bucketAt .posted with post := some postAt, held := [g] }
    let l : Landed := ⟨0, some 0, 0, false, g, false, false, none, none⟩
    let c : Bucket := { bucketAt .posted with post := some postAt, landed := [l], elems := 8192 }
    let s0 := (grouped part0 0 0 0).setGate 0 0 1#32
    let d : Dispatched := ⟨5, desc 9 0 [], 0, .bucket 255 0 3⟩
    let o := grouped part0 2 0 1
    let q := desc 9 0 [5 * 2 ^ 40 + 3, 0x10100000000, 256, 0, ref 0 0]
    let fl : Flight := { flight .running [236] [59] with notices := [59] }
    s.isFatal = false ∧ b.post = some postAt ∧ isChain s b = true ∧ rgRank s b.grp ≠ 0 ∧ b.nextLand < b.count s
      ∧ b.held.find? (fun x => decide (x.kind = 0) && decide (x.index = b.nextLand) && b.samePass x && segAgrees s b x) = some g ∧ (s.tile 0).gateOps = [] ∧ postTile s postAt = some 0 ∧ tileReady s 0 = true ∧ locReady s0 postAt.dpa = true ∧ s.fenced = []
      ∧ slotFree { s with buckets := [b] } 255 0 (slotNext s 255 0) = true
      ∧ forwardReady s0 c postAt l = true ∧ postTile s0 postAt = some 0 ∧ adderNext { s0 with buckets := [c] } 0 = none ∧ leftSlot { s0 with buckets := [c] } 0 = none ∧ rgAdded s 255 ≠ rgArrive s 255 ∧ s.slots = [] ∧ isChain s0 c = true ∧ isDecider s0 c = false ∧ (sendTo s0 255 0).isSome = true ∧ c.nextFwd + 1 < c.count s0
      ∧ dClass q = some .bucket ∧ dq q 5 ≤ o.mile ∧ postCheck o 0 q = 0 ∧ groupOf o 0 (pqGroup q) = some 255 ∧ o.bucketOf 255 (pqStep q) (pqBucket q) = none
      ∧ rgAlg o 255 ≠ 0 ∧ rgRank o 255 ≠ deciding o 255 (pqBucket q) ∧ (sendTo o 255 (pqBucket q)).isSome = true
      ∧ outOf { s with rings := [(1023, { st := 1, out := [d] })], buckets := [c] } 1023 5 = some d ∧ ({ s with buckets := [c] } : State).bucketOf 255 3 0 = some c
      ∧ s.mile < max postAt.t0 postAt.deadline + postAt.resultTo ∧ max postAt.t0 postAt.deadline + postAt.resultTo ≤ ({ s with mile := 110 } : State).mile
      ∧ (∀ w ∈ [Work.bucketWait ⟨255, false, 1, 10, false⟩, .bucketGone ⟨255, false, 1, 10, false⟩], ∀ m ∈ [9, 10],
          let e : Dispatched := ⟨5, q, 0, w⟩
          let x : State := { s with mile := m, rings := [(1023, { st := 1, out := [e] })] }
          outOf x 1023 5 = some e ∧ e.work.outside = some ⟨255, false, 1, 10, false⟩ ∧ (x.mile < max e.t0 (dq e.q 5) + 10 ↔ m = 9))
      ∧ flightOf { part0 with flights := [fl] } 0 5 = some fl ∧ 59 ∈ fl.notices := by
  and_intros <;> decide +kernel

/-! ### Flights, barges, power, background -/

theorem witness_FlightsLaunchAndEnd :
    let s (k : LaunchStep) : State := { part0 with flights := [flight k [236] [59]] }
    (∀ k ∈ [LaunchStep.check, .idleCores, .copy, .gates, .arm, .release, .running], launchOf (s k) 1023 5 = some (flight k [236] [59]) ∧ (s k).isFatal = false)
      ∧ flightOf (s .check) 0 5 = none ∧ (s .idleCores).flights.head? = some (flight .idleCores [236] [59]) ∧ ((s .idleCores).core 236).phase = .idle
      ∧ (let low (k : LaunchStep) : State := { s k with power := { part0.power with dom := [(59, .low)] } }
         ∀ k ∈ [LaunchStep.copy, .gates, .arm, .release], tileReady (low k) 59 = false ∧ launchOf (low k) 1023 5 = some (flight k [236] [59]))
      ∧ (({ s .idleCores with cores := [(236, { phase := .run })] } : State).core 236).phase ≠ .idle ∧ tileReady (s .idleCores) 59 = true ∧ (s .copy).hbmUe = []
      ∧ (s .release).mile < ({ flight .release [236] [59] with startMile := 1 }).startMile ∧ (flight .release [236] [59]).startMile ≤ (s .release).mile
      ∧ flightOf (s .running) 0 5 = some (flight .running [236] [59]) ∧ (s .release).flights.all (fun f => decide (f.haltIx = none)) = true ∧ ({ flight .release [236] [59] with haltIx := some 0 }).haltIx ≠ none
      ∧ flightCanEnd (s .running) (flight .running [236] [59]) = false
      ∧ flightCanEnd { s .running with cores := [(236, { phase := .done })] } (flight .running [236] [59]) = true ∧ (s .running).dumps = [] := by
  and_intros <;> decide +kernel
theorem witness_BargesMove :
    let b : Barge := { id := 3, part := 0, engine := 59, chan := 15, src := 0, dst := 0x1000, rowBytes := 1024, rows := 1, srcPitch := 0, dstPitch := 0, transpose := 0
                       done := some (59 * 4096 + 4095), release := none, origin := .ring 1023 5 }
    let ba := { b with admitted := true }
    let bd := { ba with sent := 1, handed := 1, written := 1 }
    let s (l : List Barge) : State := { part0 with barges := l }
    let st : Standing := ⟨0, 5, [BitVec.ofNat 64 (2 ^ 48 + 2 ^ 56), 0x1000#64, 0#64, BitVec.ofNat 64 (2 ^ 32 + 64), 0#64, BitVec.ofNat 64 (59 * 2 ^ 44), 0#64, 0#64], 0, 0, 0, 0, true⟩
    let t : State := { part0 with tiles := [(59, { gates := [(0, 1#32)], standing := [(0, some st)] })], flights := [flight .running [236] [59]] }
    let x : MeshX := ⟨0, .tile 59, .gateAdd 4095 1 0, .none⟩
    let y : MeshX := ⟨1, .tile 59, .gateAdd 4095 1 0, .none⟩
    let z : MeshX := ⟨0, .wharf 0, .piece 3 0 0x1000 [1#8], .barge 3⟩
    (s [b]).barge 3 = some b ∧ placeFree (s [b]) 59 = true ∧ (s [b]).isFatal = false
      ∧ (s [b]).barges.find? (fun x => decide (x.engine = b.engine) && !x.admitted) = some b
      ∧ (let d : State := { s [b] with power := { part0.power with dom := [(59, .low)] } }
         b.engine < 60 ∧ tileReady d b.engine = false ∧ d.barge 3 = some b ∧ d.isFatal = false ∧ b.failed = false ∧ b.done = some 245759) ∧ tileReady (s [b]) b.engine = true ∧ tileReady t 59 = true
      ∧ (s (b :: List.replicate 256 ba)).barge 3 = some b ∧ placeFree (s (b :: List.replicate 256 ba)) 59 = false
      ∧ bargeMaySend (s [ba]) ba = true ∧ dpaLoc (s [ba]) ((ba.pieceSrc 0).headD (0, 0)).1 = .hbm ∧ (∀ p ∈ ba.pieceSrc 0, locReady (s [ba]) p.1 = true ∧ locReady (s [ba]) (p.1 + p.2 - 1) = true) ∧ (s [ba]).hbmUe = []
      ∧ bd.pieces ≤ bd.sent ∧ bd.handed ≤ bd.written ∧ bd.complete = false ∧ bd.awaiting = [] ∧ bd.failed = false ∧ (s [bd]).barge 3 = some bd ∧ ((s [bd]).tile 59).gateOps = [] ∧ tileReady (s [bd]) 59 = true
      ∧ tget (fun _ => none) (t.tile 59).standing 0 = some st ∧ mayFire t 59 0 = true ∧ standingReady t 59 0 = true ∧ (firing t 59 0 (firedSoFar t 59 0 st) st).rangesOk t = true
      ∧ ({ part0 with mesh := [x] } : State).tilePart 59 = some x.tag ∧ ({ part0 with mesh := [y] } : State).tilePart 59 ≠ some y.tag
      ∧ (∀ l ∈ [[x, z], [z, x]], ({ s [ba] with mesh := l } : State).mesh[1]? = l[1]? ∧ ∀ v ∈ l.take 1, sameStream (s [ba]) v.who (l.getD 1 x).who = false)
      ∧ x.who = .none ∧ tagOk { s [ba] with mesh := [z] } z = true ∧ hbmReady (s [ba]) (0x1000 / quadBytes) = true := by
  and_intros <;> decide +kernel
theorem witness_PowerUpRunsItsSteps :
    (∀ k ∈ [0, 1, 2, 3, 4, 5, 6, 7], ({ power := { step := some k } } : State).isFatal = false)
      ∧ (let u : State := up.wrAll ((List.range 16).map fun p => (fLnkEnable p, 0))
         u.power.step = some 8 ∧ u.isFatal = false ∧ (∀ p, p < 16 → u.flag (fLnkEnable p) = false) ∧ u.power.dlBegun = false
          ∧ ({ u with power := { u.power with dlBegun := true } } : State).power.dlRose = false
          ∧ (u.wr (fLnkEnable 15) 1).flag (fLnkEnable 15) = true ∧ 15 ∉ u.power.wasUp)
      ∧ ({ power := { mv := 38000 } } : State).power.mv ≤ 38000 ∧ 38000 < State.reset.power.mv ∧ State.reset.power.step = none
      ∧ (∀ n ∈ [0, 1, 2, 3, 4], ∀ b ∈ [true, false], ({ meas := n, second := b } : TrustSt).meas = n ∧ ({ meas := n, second := b } : TrustSt).second = b)
      ∧ State.reset.trust.recovery = false ∧ ({ recovery := true } : TrustSt).recovery = true ∧ slotOk State.reset.trust State.reset.trust.cand = true
      ∧ slotOk { State.reset.trust with cand := 1 } 1 = false ∧ (Instr.powerUpStepDone { bad := [59] }).wf = true ∧ State.reset.flash.condemned = [] := by
  and_intros <;> decide +kernel
theorem witness_InputAndFatalSequence :
    let s (mv : Nat) : State := { up with power := { up.power with mv := mv } }
    48000 < (s 48001).power.mv ∧ (s 39999).power.mv < 40000 ∧ ¬ 48000 < (s 48000).power.mv ∧ ¬ (s 40000).power.mv < 40000 ∧ up.power.step ≠ none ∧ up.isFatal = false
      ∧ up.flag fSag = false ∧ 36000 ≤ (s 36000).power.mv
      ∧ (∀ k ∈ [some 0, some 1, some 2, some 3, some 4, none], ({ up with fatalStep := k } : State).fatalStep = k) ∧ (up.wr fFatal 1).isFatal = true
      ∧ up.pins.i3cAddr = none ∧ ({ up with pins := { up.pins with i3cAddr := some 8 } } : State).pins.i3cAddr = some 8
      ∧ (up.wr ⟨0x710000, 59, 52⟩ 0x85).rd ⟨0x710000, 59, 52⟩ = 0x85 := by
  and_intros <;> decide +kernel
/-- What STBY needs is uninterpreted: whatever it is, one of the two clauses about a voltage below 36 V is about it. -/
theorem witness_InputAndFatalSequence_stby (mv : Nat) : Config.stbyHolds mv = true ∨ Config.stbyHolds mv = false := by
  cases Config.stbyHolds mv <;> simp
theorem witness_BackgroundWorkGoesOn :
    let low : State := { up with power := { up.power with dom := [(123, .low)] }, mile := 10 ^ 15 }
    let e : FlashRec := .entry []
    keeperOn up = true ∧ domUp up (120 + stackQuad 23) = true ∧ up.hbmUe = [] ∧ beingWiped up 23 (hbmUnmap up.hbmWide (23 * stackBytes + up.rd (fScrub 23 31 8) * 2048)) = false
      ∧ keeperOn State.reset = false ∧ keeperOn low = true ∧ stackQuad 23 = 3 ∧ domUp low 123 = false ∧ tget nat0 low.back.passStart 23 + passTicks low ≤ low.mile
      ∧ low.rd ⟨0xA00000, 8, 8⟩ = 1 ∧ up.isFatal = false ∧ domUp up 59 = true ∧ up.trust.released = true ∧ up.trust.receiving = none ∧ ({ receiving := some 1 } : TrustSt).receiving ≠ none
      ∧ ({ up with failBuf := [e, .condemn 63] } : State).failBuf.find? isReserved = some (.condemn 63) ∧ ([e] : List FlashRec).find? isReserved = none ∧ isReserved (.condemn 63) = true
      ∧ State.reset.trust.released = false ∧ up.trust.warm = none ∧ up.mile % 1000000 = 0 ∧ ({ up with mile := 10 ^ 6 } : State).mile % 1000000000 ≠ 0
      ∧ ({ up with mile := 1 } : State).mile % 1000000 ≠ 0 ∧ (up.wr fFatal 1).isFatal = true ∧ (0 + 999999999) / 1000000000 = up.back.second
      ∧ (10 ^ 6 + 999999999) / 1000000000 ≠ up.back.second := by
  and_intros <;> decide +kernel
theorem witness_BudgetsAndHeat :
    let hot : State :=
      let w : PowerSt := { up.power with hot := [(59, some (0, false)), (67, some (0, false))], wharfTemp := [(7, 100)] }
      { up with power := { w with cut := [(59, some 0), (67, some 0)], cool := [(59, some 0), (67, some 0)] }, mile := 10 ^ 6 }
    let dom (d : DomForm) : State := { up with power := { up.power with dom := [(59, d), (140, d)] } }
    let trim : State := { up with back := { up.back with trimming := [(16 * 59, 1)] } }
    keeperOn up = true ∧ up.power.chipHot = [] ∧ keeperOn State.reset = false ∧ holdsBudget up 59 = true ∧ tileReady up 59 = true
      ∧ (∀ d ∈ [DomForm.low, .late, .leaving], holdsBudget (dom d) 59 = false) ∧ holdsBudget (dom (.entering 0)) 59 = true ∧ up.isFatal = false ∧ up.power.step ≠ none
      ∧ (∀ i, i < 8 → tget nat0 hot.back.trimming (1024 + 8 * 59 + i) ≤ hot.mile)
      ∧ ([104, 90, 0, 0, 0, 0, 0, 0] : List Nat).foldl max 0 < 105 ∧ tThrottle up ≤ 104 ∧ ¬ 94 ≥ tThrottle up
      ∧ tget (fun _ => (none : Option Nat)) up.power.cut 59 = none ∧ tget (fun _ => (none : Option Nat)) up.power.cut 67 = none ∧ tThrottle up ≤ 109 ∧ 0 + 3 ≤ tThrottle up
      ∧ 105 ≤ ([105, 0, 0, 0, 0, 0, 0, 0] : List Nat).foldl max 0 ∧ tget (fun _ => none) hot.power.hot 59 = some (0, false) ∧ 0 + 10000 ≤ hot.mile ∧ hot.isFatal = false
      ∧ tget (fun _ => none) hot.power.hot 67 = some (0, false) ∧ tget (fun _ => (none : Option (Nat × Bool))) hot.power.hot 123 = none
      ∧ tget (fun _ => none) hot.power.cut 59 ≠ none ∧ hottest hot.power.temps 59 < tThrottle hot ∧ hot.flag fSag = false
      ∧ tget (fun _ => none) hot.power.cut 67 ≠ none ∧ tThrottle hot ≤ tget nat0 hot.power.wharfTemp 7 ∧ tget nat0 up.power.wharfTemp 7 < tThrottle up
      ∧ tget (fun _ => none) hot.power.cool 59 = some 0 ∧ tget (fun _ => none) hot.power.cool 67 = some 0 ∧ 0 + 1000000 ≤ hot.mile ∧ tget clock0 hot.power.own 59 < 2 ^ 12
      ∧ tget nat0 up.back.trimming (16 * 59 + 15) ≤ up.mile
      ∧ trim.mile < tget nat0 trim.back.trimming (16 * 59 + (15 + 1) % 16) ∧ trim.mile < tget nat0 trim.back.trimming (16 * 59 + (1 + 15) % 16)
      ∧ (∀ d ∈ [DomForm.entering 0, .late, .leaving, .up, .low], votesRun (dom d) = true ∧ tget dom0 (dom d).power.dom 59 = d ∧ tget dom0 (dom d).power.dom 140 = d) := by
  and_intros <;> decide +kernel

end Sys2Proof.Tests
end

namespace Sys2Proof.Machine
open Sys2Proof

/-! ## O2: every command answers, and leaves the queue

A command answers `run c t`, where t is what its effect makes of the state. So the statement comes down to one fact about every effect: it
leaves `pending`, the queue of commands, as it was. That fact is the lemma `f_pending` of each function f that changes the state, in the order
of the model's files; each follows from those of the functions that f calls. -/

/-! ### How an equation of queues passes through the control structure -/

@[simp] theorem State.pending_ite (c : Prop) [Decidable c] (s t : State) :
    (if c then s else t).pending = if c then s.pending else t.pending :=
  apply_ite ..

/-- The hypothesis names the step's result u: with `(f t b).pending` in its place the kernel would have to reduce under `pending` to see
that a use of it speaks of the step's body. -/
theorem foldl_pending {β : Type} {f : State → β → State} (hf : ∀ t b u, f t b = u → u.pending = t.pending) (l : List β) (s : State) :
    (l.foldl f s).pending = s.pending := by
  induction l generalizing s with
  | nil => rfl
  | cons b l ih => rw [List.foldl_cons, ih, hf s b _ rfl]

theorem foldlFst_pending {β γ : Type} {f : State × γ → β → State × γ} (hf : ∀ x b y, f x b = y → y.1.pending = x.1.pending) (l : List β)
    (x : State × γ) : (l.foldl f x).1.pending = x.1.pending := by
  induction l generalizing x with
  | nil => rfl
  | cons b l ih => rw [List.foldl_cons, ih, hf x b _ rfl]

theorem getD_pending {o : Option State} {d : State} {q : List Instr} (ho : ∀ t, o = some t → t.pending = q) (hd : d.pending = q) :
    (o.getD d).pending = q := by
  cases o with
  | none => exact hd
  | some t => exact ho t rfl

/-! ### The writes of one field

The laws of the State say this too, as equations that hold by `rfl`, which `simp` replays as a change of the goal: the kernel then reduces the
whole state, with its folds over a thousand rings. These are proved by cases on the state, so that `simp` rewrites by them instead. -/

theorem State.pending_setReg (s : State) (o : Nat) (v : Word64) : (s.setReg o v).pending = s.pending := by cases s; rfl
theorem State.pending_wr (s : State) (f : Fld) (v : Nat) : (s.wr f v).pending = s.pending := by cases s; rfl
theorem State.pending_setCore (s : State) (u : Nat) (c : CoreSt) : (s.setCore u c).pending = s.pending := by cases s; rfl
theorem State.pending_setTile (s : State) (n : Nat) (t : TileSt) : (s.setTile n t).pending = s.pending := by cases s; rfl
theorem State.pending_putPort (s : State) (p : Nat) (g : PortSt) : (s.putPort p g).pending = s.pending := by cases s; rfl
theorem State.pending_modPower (s : State) (f : PowerSt → PowerSt) : (s.modPower f).pending = s.pending := by cases s; rfl
theorem State.pending_fatalStep (s : State) (k : Option Nat) : { s with fatalStep := k }.pending = s.pending := by cases s; rfl

/-! ### Registers (18) -/

@[simp] theorem State.inc_pending (s : State) (f : Fld) : (s.inc f).pending = s.pending := by
  simp only [State.inc, State.pending_wr]

@[simp] theorem State.incBy_pending (s : State) (f : Fld) (n : Nat) : (s.incBy f n).pending = s.pending := by
  simp only [State.incBy, State.pending_wr]

@[simp] theorem State.wrAll_pending (s : State) (l : List (Fld × Nat)) : (s.wrAll l).pending = s.pending :=
  State.wrAll_keeps State.pending State.pending_wr l s

/-! ### Error entries and MSI-X messages (14) -/

@[simp] theorem linkPost_pending (s : State) (l : List Posted) : (linkPost s l).pending = s.pending := by
  simp only [linkPost, State.pending_ite, ite_self]

@[simp] theorem msixRaise_pending (s : State) (vec : Nat) : (msixRaise s vec).pending = s.pending := by
  simp only [msixRaise, linkPost_pending, State.pending_ite, ite_self]

@[simp] theorem errWrite_pending (s : State) (e : ErrIn) : (errWrite s e).pending = s.pending := by
  simp only [errWrite, State.pending_setReg, State.pending_wr, State.inc_pending, foldl_pending, forall_eq', implies_true, State.pending_ite,
    ite_self]

/-- The function and its result have names of their own here: the kernel must not reduce the search that the match is on. -/
@[simp] theorem errCorrected_pending (s : State) (e : ErrIn) : (errCorrected s e).pending = s.pending := by
  suffices h : ∀ f u, f = errCorrected → f s e = u → u.pending = s.pending from h _ _ rfl rfl
  intro f u hf hu
  delta errCorrected at hf
  subst hf
  beta_reduce at hu
  split at hu
  · subst hu; exact State.pending_wr ..
  · subst hu
    simp only [State.pending_ite, State.inc_pending, msixRaise_pending, errWrite_pending, ite_self]

@[simp] theorem flashPut_pending (s : State) (contained : Bool) (r : FlashRec) : (flashPut s contained r).pending = s.pending := by
  simp only [flashPut, State.inc_pending, State.pending_ite, ite_self]

@[simp] theorem errSevere_pending (s : State) (e : ErrIn) : (errSevere s e).pending = s.pending := by
  simp only [errSevere, State.pending_setReg, msixRaise_pending, errWrite_pending, flashPut_pending, State.pending_ite, ite_self]

@[simp] theorem errRaise_pending (s : State) (e : ErrIn) : (errRaise s e).pending = s.pending := by
  simp only [errRaise, errCorrected_pending, errSevere_pending, State.pending_ite, ite_self]

@[simp] theorem errFatal_pending (s : State) (w cause kind q2 detail part : Nat) :
    (errFatal s w cause kind q2 detail part).pending = s.pending := by
  simp only [errFatal, errRaise_pending]

/-! ### The scratchpad (05) -/

@[simp] theorem State.modTile_pending (s : State) (n : Nat) (f : TileSt → TileSt) : (s.modTile n f).pending = s.pending := by
  simp only [State.modTile, State.pending_setTile]

@[simp] theorem State.modCore_pending (s : State) (uid : Nat) (f : CoreSt → CoreSt) : (s.modCore uid f).pending = s.pending := by
  simp only [State.modCore, State.pending_setCore]

@[simp] theorem wakeTiles_pending (s : State) (ts : List Nat) : (wakeTiles s ts).pending = s.pending := by
  simp only [wakeTiles]

@[simp] theorem State.nextCycle_pending (s : State) (tile n : Nat) : (s.nextCycle tile n).pending = s.pending := by
  simp only [State.nextCycle, State.modTile_pending]

@[simp] theorem present_pending (s : State) (tile : Nat) (who : Requester) (k : ReqKind) (write : Bool) (segs : List (Nat × Nat)) :
    (present s tile who k write segs).2.pending = s.pending := by
  simp only [present]
  (repeat' split) <;> simp only [State.pending_setTile, State.nextCycle_pending]

@[simp] theorem deny_pending (s : State) (tile : Nat) (d : Denied) : (deny s tile d).pending = s.pending := by
  simp only [deny, State.inc_pending, State.modTile_pending, State.pending_ite, ite_self]

@[simp] theorem tileTouch_pending (s : State) (uid : Nat) : (tileTouch s uid).pending = s.pending := by
  simp only [tileTouch, State.modTile_pending, State.nextCycle_pending, State.pending_ite, ite_self]

@[simp] theorem spadWrite_pending (s : State) (tile off : Nat) (bs : List Byte) : (spadWrite s tile off bs).pending = s.pending := by
  simp only [spadWrite, State.modTile_pending]

@[simp] theorem noteUe_pending (s : State) (tile ll : Nat) : (noteUe s tile ll).pending = s.pending := by
  simp only [noteUe, State.inc_pending, State.wrAll_pending, State.pending_ite, ite_self]

@[simp] theorem spadEcc_pending (s : State) (tile ll syn : Nat) (bad : Bool) : (spadEcc s tile ll syn bad).1.pending = s.pending := by
  simp only [spadEcc]
  split <;> simp only [State.inc_pending, errRaise_pending, State.pending_setTile, State.modTile_pending]

@[simp] theorem spadUeAlone_pending (s : State) (tile ll : Nat) (esc : Option Nat) : (spadUeAlone s tile ll esc).pending = s.pending := by
  simp only [spadUeAlone, errRaise_pending, noteUe_pending]

/-! ### What the operations of a core share (04) -/

@[simp] theorem modFlight_pending (s : State) (part fid : Nat) (g : Flight → Flight) : (modFlight s part fid g).pending = s.pending := by
  simp only [modFlight]

@[simp] theorem haltFlight_pending (s : State) (part fid ix : Nat) (dropped : Bool) : (haltFlight s part fid ix dropped).pending = s.pending := by
  unfold haltFlight
  split <;> simp only [modFlight_pending]

@[simp] theorem coreHalt_pending (s : State) (uid cause addr bundle rep : Nat) (sl : Slot) (q4 : List Nat) (link : Option Nat) (up : Bool) :
    (coreHalt s uid cause addr bundle rep sl q4 link up).pending = s.pending := by
  simp only [coreHalt, errRaise_pending, State.pending_setCore, haltFlight_pending]

@[simp] theorem issueLoad_pending (s : State) (uid : Nat) (sl : Slot) (unit : Nat) (k : LdKind) (len : Nat) (segs : Option (List (Nat × Nat))) :
    (issueLoad s uid sl unit k len segs).pending = s.pending := by
  unfold issueLoad
  split <;> simp only [State.pending_setCore, present_pending, deny_pending, State.pending_ite, ite_self]

@[simp] theorem issueStore_pending (s : State) (uid : Nat) (sl : Slot) (segs : Option (List (Nat × Nat))) (bs : List Byte) :
    (issueStore s uid sl segs bs).pending = s.pending := by
  unfold issueStore
  split <;> simp only [State.pending_setCore]

@[simp] theorem nanReport_pending (s : State) (uid : Nat) (f : Fly) : (nanReport s uid f).pending = s.pending := by
  unfold nanReport
  split <;> simp only [State.pending_setReg, State.inc_pending, State.wrAll_pending, errRaise_pending, State.pending_setCore, coreHalt_pending,
    State.pending_ite, ite_self]

@[simp] theorem ueReport_pending (s : State) (uid : Nat) (f : Fly) : (ueReport s uid f).pending = s.pending := by
  unfold ueReport
  split <;> simp only [noteUe_pending, coreHalt_pending]

@[simp] theorem emitInc_pending (s : State) (uid : Nat) (h : HeldInc) : (emitInc s uid h).pending = s.pending := by
  simp only [emitInc, State.modTile_pending, State.pending_ite, ite_self]

@[simp] theorem releaseIncs_pending (s : State) (uid : Nat) : (releaseIncs s uid).pending = s.pending := by
  simp only [releaseIncs, State.pending_setCore, emitInc_pending, foldl_pending, forall_eq', implies_true]

@[simp] theorem landSp_pending (s : State) (uid : Nat) (f : Fly) : (landSp s uid f).pending = s.pending := by
  simp only [landSp, State.modCore_pending, present_pending, deny_pending, State.pending_ite, ite_self]

@[simp] theorem landBytes_pending (s : State) (uid : Nat) (f : Fly) : (landBytes s uid f).pending = s.pending := by
  unfold landBytes
  split
  · rw [State.pending_ite, State.modCore_pending, foldl_pending, ite_self]
    rintro t w _ rfl
    split <;> simp only [spadWrite_pending]
  · rfl

@[simp] theorem groupUe_pending (s : State) (uid g : Nat) (r : GrpRead) : (groupUe s uid g r).pending = s.pending := by
  unfold groupUe
  split <;> simp only [noteUe_pending, coreHalt_pending]

@[simp] theorem shadowLandOne_pending (s : State) (uid : Nat) (sh : Shadow) : (shadowLandOne s uid sh).pending = s.pending := by
  simp only [shadowLandOne, State.modCore_pending, noteUe_pending, coreHalt_pending, foldl_pending, forall_eq', implies_true, State.pending_ite,
    ite_self]

@[simp] theorem shadowLand_pending (s : State) (uid : Nat) : (shadowLand s uid).pending = s.pending := by
  simp only [shadowLand, shadowLandOne_pending, foldl_pending, forall_eq', implies_true]

@[simp] theorem mileSample_pending (s : State) (uid : Nat) : (mileSample s uid).pending = s.pending := by
  simp only [mileSample, State.pending_setCore, State.pending_ite, ite_self]

@[simp] theorem landCycle_pending (s : State) (uid : Nat) : (landCycle s uid).pending = s.pending := by
  simp only [landCycle, State.pending_setCore, State.modCore_pending, nanReport_pending, ueReport_pending, releaseIncs_pending, landSp_pending,
    landBytes_pending, groupUe_pending, shadowLand_pending, mileSample_pending, foldl_pending, forall_eq', implies_true, State.pending_ite,
    ite_self]

/-! ### The S, L, T and Y slots (04) -/

@[simp] theorem issueCsrr_pending (s : State) (uid d : Nat) (v : Option Word64) : (issueCsrr s uid d v).pending = s.pending := by
  unfold issueCsrr
  split <;> simp only [State.pending_setCore]

theorem issueS_pending {s : State} {uid : Nat} {op : SOp} {last : Bool} {t : State} (h : issueS s uid op last = .ok t) :
    t.pending = s.pending := by
  cases op with
  | nop => cases h; rfl
  | ld =>
    dsimp only [issueS] at h
    split at h <;> cases h
    exact issueLoad_pending ..
  | st =>
    dsimp only [issueS] at h
    split at h <;> cases h
    exact issueStore_pending ..
  | csrr => cases h; exact issueCsrr_pending ..
  | br | brz | brnz | bri | brl => cases h; rw [State.pending_ite, State.pending_setCore, ite_self]
  | _ => cases h; exact State.pending_setCore ..

theorem issueL_pending {s : State} {uid : Nat} {half : Nat} {op : LOp} {t : State} (h : issueL s uid half op = .ok t) : t.pending = s.pending := by
  unfold issueL at h
  extract_lets c baseOf access at h
  have hbase : ∀ g r, baseOf g r = .ok t → t.pending = s.pending := by
    intro g r h
    unfold baseOf at h
    split at h <;> cases h
    exact State.pending_setCore ..
  have haccess : ∀ k len modes, access k len modes = .ok t → t.pending = s.pending := by
    intro k len modes h
    unfold access at h
    split at h <;> cases h
    rw [issueLoad_pending, State.pending_setCore]
  cases op with
  | nop => cases h; rfl
  | feed => exact haccess _ _ _ h
  | vec v ch => exact haccess _ _ _ h
  | scl d => exact haccess _ _ _ h
  | bind p => cases h; exact State.pending_setCore ..
  | base r => exact hbase _ _ h
  | skip =>
    dsimp only at h
    split at h <;> cases h
    exact State.pending_setCore ..
  | bind3 p =>
    dsimp only at h
    split at h <;> cases h
    exact State.pending_setCore ..
  | base3 r =>
    dsimp only at h
    split at h
    · cases h
    · exact hbase _ _ h

theorem issueT_pending {s : State} {uid : Nat} {op : TOp} {t : State} (h : issueT s uid op = .ok t) : t.pending = s.pending := by
  unfold issueT at h
  extract_lets c access at h
  have haccess : ∀ len modes bs, access len modes bs = .ok t → t.pending = s.pending := by
    intro len modes bs h
    unfold access at h
    split at h <;> cases h
    rw [issueStore_pending, State.pending_setCore]
  cases op with
  | nop => cases h; rfl
  | vec v ch => exact haccess _ _ _ h
  | vec16 v ch => exact haccess _ _ _ h
  | vec8 v ch => exact haccess _ _ _ h
  | scl r => exact haccess _ _ _ h
  | bind p => cases h; exact State.pending_setCore ..
  | base r =>
    dsimp only at h
    split at h <;> cases h
    exact State.pending_setCore ..
  | skip =>
    dsimp only at h
    split at h <;> cases h
    exact State.pending_setCore ..

@[simp] theorem State.setGate_pending (s : State) (tile g : Nat) (v : BitVec 32) : (s.setGate tile g v).pending = s.pending := by
  simp only [State.setGate, State.modTile_pending]

theorem issueY_pending {s : State} {uid : Nat} {op : YOp} {t : State} (h : issueY s uid op = .ok t) : t.pending = s.pending := by
  unfold issueY at h
  extract_lets c hold at h
  have hhold : ∀ tile g n, hold tile g n = .ok t → t.pending = s.pending := by
    intro tile g n h
    unfold hold at h
    split at h
    · cases h
    extract_lets own rel inc at h
    split at h <;> cases h
    · rw [emitInc_pending, State.pending_setCore]
    · exact State.pending_setCore ..
  cases op with
  | nop => cases h; rfl
  | inc t' g i => exact hhold _ _ _ h
  | add t' g r => exact hhold _ _ _ h
  | wait t' g r =>
    dsimp only at h
    split at h
    · cases h
    split at h <;> cases h
    rfl
  | read t' g d =>
    dsimp only at h
    split at h <;> cases h
    exact State.pending_setCore ..
  | mwait r =>
    dsimp only at h
    split at h <;> cases h
    rfl
  | mread d => cases h; exact State.pending_setCore ..

/-! ### The vector engine (07) -/

theorem issueV_pending {s : State} {uid : Nat} {op : VOpc} {f : VArg} {t : State} (h : issueV s uid op f = .ok t) : t.pending = s.pending := by
  unfold issueV at h
  extract_lets c win w isWin last bv j at h
  split at h
  · cases h
  split at h
  · cases h
  split at h
  · cases h
  split at h <;> cases h
  exact State.pending_setCore ..

@[simp] theorem vReadChunk_pending (s : State) (uid : Nat) (j : VJob) (k : Nat) : (vReadChunk s uid j k).1.pending = s.pending := by
  simp only [vReadChunk]
  (repeat' split) <;> simp only [State.pending_setCore, present_pending, deny_pending]

@[simp] theorem vTickJob_pending (s : State) (uid : Nat) (j : VJob) : (vTickJob s uid j).1.pending = s.pending := by
  simp only [vTickJob]
  split <;> simp only [State.pending_setCore, vReadChunk_pending, foldlFst_pending, forall_eq', implies_true]

@[simp] theorem packRead_pending (s : State) (uid : Nat) : (packRead s uid).pending = s.pending := by
  simp only [packRead, State.pending_setCore, State.pending_ite, ite_self]

@[simp] theorem vTick_pending (s : State) (uid : Nat) : (vTick s uid).pending = s.pending := by
  simp only [vTick, State.modCore_pending, vTickJob_pending, foldlFst_pending, forall_eq', implies_true]

@[simp] theorem vGrant_pending (s : State) (uid seq k denied : Nat) : (vGrant s uid seq k denied).pending = s.pending := by
  simp only [vGrant]
  (repeat' split) <;> simp only [State.pending_setCore]

/-! ### The matrix array (06) -/

@[simp] theorem drainAdd_pending (s : State) (uid : Nat) (m : MMul) : (drainAdd s uid m).pending = s.pending := by
  simp only [drainAdd, State.inc_pending, State.incBy_pending, State.pending_setCore, State.pending_ite, ite_self]

@[simp] theorem drainRead_pending (s : State) (uid : Nat) (m : MMul) : (drainRead s uid m).pending = s.pending := by
  simp only [drainRead]
  split <;> simp only [State.modCore_pending, present_pending, deny_pending, State.pending_ite, ite_self]

@[simp] theorem drainUe_pending (s : State) (uid : Nat) (m : MMul) (u : UeAt) : (drainUe s uid m u).pending = s.pending := by
  simp only [drainUe, State.modCore_pending, noteUe_pending, coreHalt_pending]

@[simp] theorem drainTick_pending (s : State) (uid : Nat) : (drainTick s uid).pending = s.pending := by
  simp only [drainTick, State.pending_ite]
  rw [foldl_pending, foldl_pending, foldl_pending, ite_self]
  · rintro t m _ rfl
    simp only [State.pending_ite, drainRead_pending, ite_self]
  · rintro t m _ rfl
    split <;> simp only [State.pending_ite, drainUe_pending, ite_self]
  · rintro t m _ rfl
    split <;> simp only [State.pending_ite, drainAdd_pending, ite_self]

theorem shadowRow_pending {s : State} {uid : Nat} {sh : Shadow} {t : State} (h : shadowRow s uid sh = .ok t) : t.pending = s.pending := by
  unfold shadowRow at h
  extract_lets c at h
  split at h
  next => cases h
  next => cases h; exact State.pending_setCore ..
  next segs c' _ =>
    extract_lets r at h
    split at h <;> cases h
    · rw [State.pending_setCore, present_pending]
    · rw [State.pending_setCore, deny_pending]

theorem shadowTick_pending {s : State} {uid : Nat} {t : State} (h : shadowTick s uid = .ok t) : t.pending = s.pending := by
  unfold shadowTick at h
  split at h
  · split at h
    · cases h; rfl
    split at h
    · cases h
    · exact shadowRow_pending h
  · cases h; rfl

@[simp] theorem arrayTick_pending (s : State) (uid : Nat) : (arrayTick s uid).pending = s.pending := by
  simp only [arrayTick, State.incBy_pending, State.pending_setCore]

theorem swapBank_pending {s : State} {uid : Nat} {t : State} (h : swapBank s uid = .ok t) : t.pending = s.pending := by
  unfold swapBank at h
  extract_lets c flip loads at h
  split at h
  · cases h
  split at h <;> cases h
  · rw [State.inc_pending, State.pending_setCore]
  · exact State.pending_setCore ..

theorem issueM_pending {s : State} {uid : Nat} {op : MOp} {t : State} (h : issueM s uid op = .ok t) : t.pending = s.pending := by
  unfold issueM at h
  extract_lets c prec fmt at h
  split at h
  next => cases h; rfl
  next => exact swapBank_pending h
  next part =>
    split at h
    · cases h
    extract_lets sh c1 at h
    split at h
    · cases h; exact State.pending_setCore ..
    · rw [shadowTick_pending h, State.pending_setCore]
  next sw win acc row =>
    extract_lets w r off at h
    split at h
    · cases h
    split at h
    · cases h
    split at h
    · cases h
    split at h
    next => cases h
    next s1 h1 =>
      have h1 : s1.pending = s.pending := by
        split at h1
        · exact swapBank_pending h1
        · cases h1; rfl
      cases h
      rw [State.pending_setCore, h1]

/-! ### Grants (05) -/

@[simp] theorem waitedWrites_pending (s : State) (tile : Nat) (fs : List Fly) : (waitedWrites s tile fs).pending = s.pending := by
  unfold waitedWrites
  refine foldl_pending ?_ fs s
  rintro t g _ rfl
  refine foldl_pending ?_ g.writes t
  rintro u w _ rfl
  split <;> simp only [spadWrite_pending]

@[simp] theorem grantEffect_pending (s : State) (tile uid : Nat) (d : Denied) (n : Nat) : (grantEffect s tile uid d n).pending = s.pending := by
  simp only [grantEffect]
  (repeat' split) <;> simp only [State.pending_setCore, State.modCore_pending, vGrant_pending, waitedWrites_pending]

@[simp] theorem grantRequest_pending (s : State) (tile i n : Nat) : (grantRequest s tile i n).pending = s.pending := by
  simp only [grantRequest, State.pending_ite]
  (repeat' split) <;> simp only [State.pending_setTile, State.nextCycle_pending, grantEffect_pending]

@[simp] theorem settleAhead_pending (s : State) (tile : Nat) (d : Denied) : (settleAhead s tile d).pending = s.pending := by
  refine foldl_pending ?_ _ s
  rintro t d _ rfl
  split <;> simp only [grantRequest_pending]

@[simp] theorem endpointPiece_pending (n : Nat) (s : State) (tile : Nat) (d : Denied) : (endpointPiece n s tile d).pending = s.pending := by
  induction n generalizing s d with
  | zero => simp only [endpointPiece, State.modTile_pending, State.nextCycle_pending]
  | succ n ih => simp only [endpointPiece, State.pending_ite, State.modTile_pending, ih, settleAhead_pending, State.nextCycle_pending, ite_self]

@[simp] theorem endpointTurn_pending (s : State) (tile off n : Nat) (write : Bool) : (endpointTurn s tile off n write).pending = s.pending := by
  simp only [endpointTurn, endpointPiece_pending, foldl_pending, forall_eq', implies_true, State.pending_ite, ite_self]

/-! ### The core cycle (04) -/

@[simp] theorem presentGroup_pending (s : State) (uid g : Nat) (r : GrpRead) : (presentGroup s uid g r).pending = s.pending := by
  simp only [presentGroup, State.pending_setCore, present_pending, deny_pending, State.pending_ite, ite_self]

@[simp] theorem indexTickGen_pending (s : State) (uid g : Nat) : (indexTickGen s uid g).pending = s.pending := by
  simp only [indexTickGen, presentGroup_pending, foldl_pending, forall_eq', implies_true]

@[simp] theorem indexTick_pending (s : State) (uid : Nat) : (indexTick s uid).pending = s.pending := by
  simp only [indexTick, indexTickGen_pending, foldl_pending, forall_eq', implies_true]

@[simp] theorem applyIssueErr_pending (s : State) (uid : Nat) (e : IssueErr) : (applyIssueErr s uid e).pending = s.pending := by
  simp only [applyIssueErr]
  (repeat' split) <;> simp only [State.pending_setCore, coreHalt_pending, indexTickGen_pending]

theorem issueSlots_pending {s : State} {uid : Nat} {b : Bundle} {last : Bool} {t : State} (h : issueSlots s uid b last = .ok t) :
    t.pending = s.pending := by
  unfold issueSlots at h
  extract_lets c0 at h
  split at h
  next => cases h
  split at h
  next => cases h
  next s1 h1 =>
  split at h
  next => cases h
  next s2 h2 =>
  split at h
  next => cases h
  next s3 h3 =>
  have h3 : s3.pending = s2.pending := by
    split at h3
    · exact issueV_pending h3
    · cases h3; rfl
  split at h
  next => cases h
  next s4 h4 =>
  split at h
  next => cases h
  next s5 h5 =>
  split at h
  next => cases h
  next s6 h6 =>
  split at h
  next => cases h
  next s7 h7 =>
  have h7 : s7.pending = s6.pending := by
    split at h7
    · cases h7; exact issueCsrr_pending ..
    · exact issueS_pending h7
  rw [issueY_pending h, h7, issueT_pending h6, issueL_pending h5, issueL_pending h4, vTick_pending, h3, shadowTick_pending h2, issueM_pending h1]

@[simp] theorem endCycle_pending (s : State) (uid : Nat) : (endCycle s uid).pending = s.pending := by
  simp only [endCycle, State.modCore_pending, arrayTick_pending, indexTick_pending]

@[simp] theorem frozenStop_pending (s : State) (uid : Nat) : (frozenStop s uid).pending = s.pending := by
  simp only [frozenStop, State.pending_setCore, State.pending_ite, ite_self]

@[simp] theorem beginCycle_pending (s : State) (uid : Nat) : (beginCycle s uid).pending = s.pending := by
  simp only [beginCycle, State.modCore_pending, tileTouch_pending, landCycle_pending, packRead_pending, drainTick_pending, State.pending_ite,
    ite_self]

@[simp] theorem idleCycle_pending (s : State) (uid : Nat) : (idleCycle s uid).pending = s.pending := by
  unfold idleCycle
  split
  · rw [endCycle_pending, vTick_pending, applyIssueErr_pending]
  · exact applyIssueErr_pending ..
  · next t h => rw [endCycle_pending, vTick_pending, shadowTick_pending h]

@[simp] theorem freezeMisses_pending (s : State) (uid : Nat) (b : Bundle) (f : Freeze) (rd : Nat × GrpRead) :
    (freezeMisses s uid b f rd).pending = s.pending := by
  simp only [freezeMisses, applyIssueErr_pending, foldl_pending, forall_eq', implies_true]

@[simp] theorem coreCycle_pending (s : State) (uid : Nat) : (coreCycle s uid).pending = s.pending := by
  simp only [coreCycle, State.pending_ite, frozenStop_pending, beginCycle_pending]
  split
  · rfl
  split
  · rfl
  split
  · rw [State.pending_setCore, beginCycle_pending]
  rw [State.pending_ite, coreHalt_pending, beginCycle_pending]
  split
  · rfl
  split
  · rw [coreHalt_pending, beginCycle_pending]
  split
  · rw [freezeMisses_pending, beginCycle_pending]
  · rw [applyIssueErr_pending, beginCycle_pending]
  · next t h => rw [endCycle_pending, State.modCore_pending, issueSlots_pending h, beginCycle_pending]

theorem issueOne_pending (s : State) (uid : Nat) {f : State → Except IssueErr State} (hf : ∀ t, f s = .ok t → t.pending = s.pending) :
    (issueOne s uid f).pending = s.pending := by
  unfold issueOne
  split
  · rfl
  split
  next t ht => exact hf t ht
  next => exact applyIssueErr_pending ..

@[simp] theorem landEccOther_pending (s : State) (uid : Nat) (u : Upset) : (landEccOther s uid u).pending = s.pending := by
  simp only [landEccOther, State.pending_ite]
  (repeat' split) <;> simp only [State.modCore_pending, spadEcc_pending, drainUe_pending]

@[simp] theorem landEcc_pending (s : State) (uid : Nat) (u : Upset) : (landEcc s uid u).pending = s.pending := by
  simp only [landEcc]
  (repeat' split) <;> simp only [State.modCore_pending, spadEcc_pending, landEccOther_pending]

@[simp] theorem landingCycle_pending (s : State) (uid : Nat) (ecc : Option Upset) : (landingCycle s uid ecc).pending = s.pending := by
  unfold landingCycle
  split <;> simp only [beginCycle_pending, idleCycle_pending, landEcc_pending, State.pending_ite, ite_self]

@[simp] theorem shadowDrain_pending (n : Nat) (s : State) (uid : Nat) : (shadowDrain n s uid).pending = s.pending := by
  induction n generalizing s with
  | zero => rfl
  | succ n ih =>
    unfold shadowDrain
    split
    · split
      · rfl
      split
      · next t h => rw [ih, shadowRow_pending h, State.pending_ite, State.nextCycle_pending, ite_self]
      · rw [applyIssueErr_pending, State.modCore_pending]
      · exact applyIssueErr_pending ..
    · rfl

@[simp] theorem freezeEnds_pending (s : State) (uid : Nat) : (freezeEnds s uid).pending = s.pending := by
  simp only [freezeEnds, State.pending_setCore, shadowDrain_pending, State.pending_ite, ite_self]

@[simp] theorem rescaleEnds_pending (s : State) (uid : Nat) : (rescaleEnds s uid).pending = s.pending := by
  simp only [rescaleEnds, State.modCore_pending, State.pending_ite, ite_self]

@[simp] theorem indexArrives_pending (s : State) (uid g : Nat) : (indexArrives s uid g).pending = s.pending := by
  simp only [indexArrives, State.pending_ite]
  (repeat' split) <;> simp only [State.pending_setCore, State.nextCycle_pending, groupUe_pending]

/-! ### The device address space (01) -/

@[simp] theorem hbmWrite_pending (s : State) (dpa : Nat) (bs : List Byte) : (hbmWrite s dpa bs).pending = s.pending := by
  simp only [hbmWrite]

@[simp] theorem hbmZero_pending (s : State) (dpa n : Nat) : (hbmZero s dpa n).pending = s.pending := by
  simp only [hbmZero]

@[simp] theorem hbmEcc_pending (s : State) (part dpa syn : Nat) (bad : Bool) : (hbmEcc s part dpa syn bad).1.pending = s.pending := by
  simp only [hbmEcc]
  split <;> simp only [errRaise_pending]

/-- For a match on the event's outcome. -/
theorem spadEcc_eq_pending {s : State} {tile ll syn : Nat} {bad : Bool} {x : State × EccOut} (h : spadEcc s tile ll syn bad = x) :
    x.1.pending = s.pending :=
  h ▸ spadEcc_pending ..

theorem hbmEcc_eq_pending {s : State} {part at_ syn : Nat} {bad : Bool} {x : State × EccOut} (h : hbmEcc s part at_ syn bad = x) :
    x.1.pending = s.pending :=
  h ▸ hbmEcc_pending ..

@[simp] theorem hbmUeAlone_pending (s : State) (part dpa syms : Nat) (esc : Option Nat) : (hbmUeAlone s part dpa syms esc).pending = s.pending := by
  simp only [hbmUeAlone, errRaise_pending]

@[simp] theorem hostPost_pending (s : State) (bus : Nat) (bs : List Byte) : (hostPost s bus bs).pending = s.pending := by
  simp only [hostPost, linkPost_pending]

@[simp] theorem dpaPut_pending (s : State) (p : Nat × List Byte) : (dpaPut s p).pending = s.pending := by
  unfold dpaPut
  split <;> simp only [spadWrite_pending, endpointTurn_pending, hbmWrite_pending, hostPost_pending, State.pending_ite, ite_self]

@[simp] theorem dpaTurn_pending (s : State) (a n : Nat) : (dpaTurn s a n).pending = s.pending := by
  refine foldl_pending ?_ _ s
  rintro t p _ rfl
  split <;> simp only [endpointTurn_pending]

@[simp] theorem dpaWrite_pending (s : State) (a : Nat) (bs : List Byte) : (dpaWrite s a bs).pending = s.pending := by
  simp only [dpaWrite, dpaPut_pending, foldl_pending, forall_eq', implies_true]

@[simp] theorem reqIssue_pending (n : Nat) (s : State) : (reqIssue n s).pending = s.pending := by
  induction n generalizing s with
  | zero => rfl
  | succ n ih =>
    unfold reqIssue
    split <;> simp only [State.pending_ite, ih, ite_self]

@[simp] theorem reqPump_pending (s : State) : (reqPump s).pending = s.pending := by
  simp only [reqPump, reqIssue_pending]

@[simp] theorem hostAsk_pending (s : State) (kind : ReqFor) (addr len : Nat) : (hostAsk s kind addr len).pending = s.pending := by
  simp only [hostAsk, reqPump_pending]

@[simp] theorem dropReq_pending (s : State) (p : HostReq → Bool) : (dropReq s p).pending = s.pending := by
  simp only [dropReq, reqPump_pending]

@[simp] theorem dropReqs_pending (s : State) (p : ReqFor → Bool) : (dropReqs s p).pending = s.pending := by
  simp only [dropReqs, reqPump_pending]

/-! ### Ring registers (03) -/

@[simp] theorem State.putRing_pending (s : State) (r : Nat) (g : RingSt) : (s.putRing r g).pending = s.pending := by
  simp only [State.putRing, State.wrAll_pending]

@[simp] theorem State.modRing_pending (s : State) (r : Nat) (f : RingSt → RingSt) : (s.modRing r f).pending = s.pending := by
  simp only [State.modRing, State.putRing_pending]

/-! ### The tollhouse's status (16) -/

@[simp] theorem tollShow_pending (s : State) : (tollShow s).pending = s.pending := by
  simp only [tollShow, State.wrAll_pending]

@[simp] theorem State.putTrust_pending (s : State) (t : TrustSt) : (s.putTrust t).pending = s.pending := by
  simp only [State.putTrust, tollShow_pending]

@[simp] theorem State.modTrust_pending (s : State) (f : TrustSt → TrustSt) : (s.modTrust f).pending = s.pending := by
  simp only [State.modTrust, State.putTrust_pending]

@[simp] theorem attServe_pending (s : State) : (attServe s).pending = s.pending := by
  simp only [attServe, State.putTrust_pending]

@[simp] theorem attPush_pending (s : State) (q : AttReq) : (attPush s q).pending = s.pending := by
  simp only [attPush, State.putTrust_pending, attServe_pending]

@[simp] theorem attFill_pending (s : State) : (attFill s).pending = s.pending := by
  simp only [attFill, attPush_pending, foldl_pending, forall_eq', implies_true, State.pending_ite, ite_self]

@[simp] theorem attDrop_pending (s : State) (p : AttReq → Bool) : (attDrop s p).pending = s.pending := by
  simp only [attDrop, State.putTrust_pending, attServe_pending, attFill_pending]

/-! ### What the commands of a ring share (03) -/

@[simp] theorem cplWrite_pending (s : State) (r c status opcode tag result : Nat) :
    (cplWrite s r c status opcode tag result).pending = s.pending := by
  simp only [cplWrite, hostPost_pending]

@[simp] theorem ringIrq_pending (s : State) (r : Nat) (halting : Bool) : (ringIrq s r halting).pending = s.pending := by
  simp only [ringIrq, msixRaise_pending, State.putRing_pending, State.pending_ite, ite_self]

@[simp] theorem dropOut_pending (s : State) (r : Nat) (p : Nat → Bool) : (dropOut s r p).pending = s.pending := by
  simp only [dropOut, dropReqs_pending, State.modRing_pending, attDrop_pending]

@[simp] theorem ringStop_pending (s : State) (r k : Nat) (kind : HaltKind) (status : Option Nat) :
    (ringStop s r k kind status).pending = s.pending := by
  simp only [ringStop, State.wrAll_pending, dropReqs_pending, State.putRing_pending]

@[simp] theorem setWork_pending (s : State) (r c : Nat) (w : Work) : (setWork s r c w).pending = s.pending := by
  simp only [setWork, State.modRing_pending]

@[simp] theorem ringErrOne_pending (s : State) (r : Nat) (hw : Bool) (e : ErrIn) : (ringErrOne s r hw e).pending = s.pending := by
  simp only [ringErrOne, errRaise_pending, State.modRing_pending]

@[simp] theorem ringFlush_pending (s : State) (r : Nat) : (ringFlush s r).pending = s.pending := by
  refine foldl_pending ?_ _ s
  rintro t d _ rfl
  split <;> simp only [State.pending_ite, setWork_pending, ringErrOne_pending, ite_self]

@[simp] theorem ringErr_pending (s : State) (r : Nat) (hw : Bool) (e : ErrIn) : (ringErr s r hw e).1.pending = s.pending := by
  simp only [ringErr, ringErrOne_pending, ringFlush_pending]

@[simp] theorem ringEntry_pending (s : State) (r c status addr : Nat) (q4 : List Nat) : (ringEntry s r c status addr q4).pending = s.pending := by
  simp only [ringEntry, ringErr_pending]

@[simp] theorem ringUe_pending (s : State) (r count addr : Nat) (esc : Option Nat) : (ringUe s r count addr esc).1.pending = s.pending := by
  simp only [ringUe, ringErr_pending]

@[simp] theorem ringSettle_pending (s : State) (r : Nat) : (ringSettle s r).pending = s.pending := by
  unfold ringSettle
  split <;> simp only [cplWrite_pending, ringIrq_pending, ringStop_pending, State.pending_ite, ite_self]

@[simp] theorem ringHaltAt_pending (s : State) (r : Nat) (d : Dispatched) (status result addr : Nat) (entry : Option Nat) :
    (ringHaltAt s r d status result addr entry).pending = s.pending := by
  unfold ringHaltAt
  split <;> simp only [dropReqs_pending, State.putRing_pending, State.modRing_pending, ringEntry_pending, ringSettle_pending, State.pending_ite,
    ite_self]

@[simp] theorem ringStart_pending (s : State) (r : Nat) (f : Fetched) (w : Work) : (ringStart s r f w).pending = s.pending := by
  simp only [ringStart, State.modRing_pending]

@[simp] theorem ringJudge_pending (n : Nat) (s : State) (r : Nat) : (ringJudge n s r).pending = s.pending := by
  induction n generalizing s with
  | zero => rfl
  | succ n ih =>
    unfold ringJudge
    split
    · split <;> simp only [ih, ringStart_pending]
    · rfl

@[simp] theorem ringDone_pending (s : State) (r : Nat) (d : Dispatched) (status result : Nat) :
    (ringDone s r d status result).pending = s.pending := by
  simp only [ringDone, State.pending_wr, State.putRing_pending, cplWrite_pending, ringIrq_pending, ringSettle_pending, ringJudge_pending,
    State.pending_ite, ite_self]

theorem ringExec_pending (s : State) (r : Nat) (k : DClass) {body : State → Fetched → State × Work} (hb : ∀ t f, (body t f).1.pending = t.pending) :
    (ringExec s r k body).pending = s.pending := by
  unfold ringExec
  split
  · split
    · rw [ringJudge_pending, ringStart_pending, hb]
    · rfl
  · rfl

@[simp] theorem settleWork_pending (s : State) (r c : Nat) (w0 w : Work) : (settleWork s r c w0 w).pending = s.pending := by
  simp only [settleWork, State.modRing_pending]

@[simp] theorem mapWork_pending (s : State) (f : Nat → Dispatched → Work) : (mapWork s f).pending = s.pending := by
  simp only [mapWork]

/-! ### Barges (09) -/

@[simp] theorem State.modBarge_pending (s : State) (id : Nat) (f : Barge → Barge) : (s.modBarge id f).pending = s.pending := by
  simp only [State.modBarge]

@[simp] theorem State.dropBarge_pending (s : State) (id : Nat) : (s.dropBarge id).pending = s.pending := by
  simp only [State.dropBarge]

@[simp] theorem bargeFail_pending (s : State) (b : Barge) (status ix : Nat) : (bargeFail s b status ix).pending = s.pending := by
  unfold bargeFail
  split <;> simp only [haltFlight_pending, settleWork_pending, State.modBarge_pending]

@[simp] theorem bargeHalt_pending (s : State) (b : Barge) (w cause detail addr status : Nat) (hw : Bool) (q4 : Option Nat) (esc : Bool) :
    (bargeHalt s b w cause detail addr status hw q4 esc).pending = s.pending := by
  simp only [bargeHalt]
  split <;> simp only [errRaise_pending, ringErr_pending, bargeFail_pending]

@[simp] theorem bargeHbmUe_pending (s : State) (b : Barge) (dpa syms : Nat) (esc : Option Nat) :
    (bargeHbmUe s b dpa syms esc).pending = s.pending := by
  simp only [bargeHbmUe, bargeHalt_pending]

@[simp] theorem bargeSpadUe_pending (s : State) (b : Barge) (tile ll : Nat) (esc : Option Nat) :
    (bargeSpadUe s b tile ll esc).pending = s.pending := by
  simp only [bargeSpadUe, noteUe_pending, bargeHalt_pending]

@[simp] theorem gateAnswers_pending (s : State) (b a : TileSt) : (gateAnswers s b a).pending = s.pending := by
  refine foldl_pending ?_ _ s
  rintro t o _ rfl
  split <;> simp only [settleWork_pending]

@[simp] theorem stampAdded_pending (s : State) (tile : Nat) : (stampAdded s tile).pending = s.pending := by
  simp only [stampAdded]

@[simp] theorem gateAll_pending (s : State) (tile : Nat) : (gateAll s tile).pending = s.pending := by
  simp only [gateAll, State.pending_setTile, gateAnswers_pending, stampAdded_pending, State.pending_ite, ite_self]

@[simp] theorem gateUnit_pending (s : State) (tile : Nat) : (gateUnit s tile).pending = s.pending := by
  simp only [gateUnit, gateAll_pending, State.pending_ite, ite_self]

@[simp] theorem gatePush_pending (s : State) (tile : Nat) (o : GateOp) : (gatePush s tile o).pending = s.pending := by
  simp only [gatePush, State.modTile_pending]

@[simp] theorem gateAddNow_pending (s : State) (tile g n : Nat) : (gateAddNow s tile g n).pending = s.pending := by
  simp only [gateAddNow, gateUnit_pending, gatePush_pending]

@[simp] theorem pieceSend_pending (s : State) (b : Barge) (k : Nat) (bytes : List Byte) : (pieceSend s b k bytes).pending = s.pending := by
  simp only [pieceSend, State.modBarge_pending]

@[simp] theorem bargeRelease_pending (s : State) (b : Barge) : (bargeRelease s b).pending = s.pending := by
  unfold bargeRelease
  split <;> simp only [gateAddNow_pending, State.pending_ite, ite_self]

@[simp] theorem piecePresent_pending (s : State) (tile : Nat) (who : Requester) (write : Bool) (segs : List (Nat × Nat)) :
    (piecePresent s tile who write segs).2.pending = s.pending := by
  simp only [piecePresent]
  (repeat' split) <;> simp only [State.pending_setTile, State.nextCycle_pending, present_pending, deny_pending]

@[simp] theorem pieceQueue_pending (s : State) (tile : Nat) (who : Requester) (write : Bool) (segs : List (Nat × Nat)) :
    (pieceQueue s tile who write segs).pending = s.pending := by
  simp only [pieceQueue, deny_pending]

@[simp] theorem writeQueue_pending (s : State) (tile : Nat) (who : Requester) (o n : Nat) : (writeQueue s tile who o n).pending = s.pending := by
  simp only [writeQueue, pieceQueue_pending, State.pending_ite, ite_self]

@[simp] theorem writePresent_pending (s : State) (tile : Nat) (who : Requester) (o n : Nat) :
    (writePresent s tile who o n).2.pending = s.pending := by
  simp only [writePresent]
  (repeat' split) <;> simp only [piecePresent_pending, pieceQueue_pending]

@[simp] theorem pieceFromHbm_pending (s : State) (b : Barge) (k : Nat) (ecc : Option Upset) : (pieceFromHbm s b k ecc).pending = s.pending := by
  simp only [pieceFromHbm]
  (repeat' split) <;> simp only [hbmEcc_pending, State.modBarge_pending, bargeHbmUe_pending, pieceSend_pending, bargeRelease_pending]

@[simp] theorem pieceFromSpad_pending (s : State) (b : Barge) (k : Nat) (ecc : Option Upset) : (pieceFromSpad s b k ecc).pending = s.pending := by
  simp only [pieceFromSpad]
  (repeat' split) <;> simp only [spadEcc_pending, State.modBarge_pending, bargeSpadUe_pending, piecePresent_pending, pieceQueue_pending,
    pieceFromHbm_pending]

@[simp] theorem pieceFromHost_pending (s : State) (b : Barge) (k : Nat) : (pieceFromHost s b k).pending = s.pending := by
  simp only [pieceFromHost]
  split <;> simp only [hostAsk_pending, State.modBarge_pending, bargeHalt_pending, foldl_pending, forall_eq', implies_true, State.pending_ite,
    ite_self]

@[simp] theorem pieceRead_pending (s : State) (id : Nat) (ecc : Option Upset) : (pieceRead s id ecc).pending = s.pending := by
  simp only [pieceRead]
  (repeat' split) <;> simp only [bargeHalt_pending, pieceFromHbm_pending, pieceFromSpad_pending, pieceFromHost_pending]

@[simp] theorem pieceArrives_pending (s : State) (id k i : Nat) (data : Option (List Byte)) : (pieceArrives s id k i data).pending = s.pending := by
  simp only [pieceArrives]
  (repeat' split) <;> simp only [State.modBarge_pending, bargeHalt_pending, pieceSend_pending, bargeRelease_pending]

@[simp] theorem pieceWritten_pending (s : State) (id n : Nat) : (pieceWritten s id n).pending = s.pending := by
  simp only [pieceWritten, State.modBarge_pending]

@[simp] theorem originate_pending (s : State) (m : RemoteMsg) : (originate s m).pending = s.pending := by
  simp only [originate]

@[simp] theorem pieceRemote_pending (s : State) (b : Barge) (e dpa n cls : Nat) (body : Nat → List Byte) :
    (pieceRemote s b e dpa n cls body).pending = s.pending := by
  simp only [pieceRemote, State.modBarge_pending, bargeHalt_pending, originate_pending, State.pending_ite, ite_self]

@[simp] theorem pieceLand_pending (s : State) (id dpa : Nat) (bytes : List Byte) (ecc : Option Upset) :
    (pieceLand s id dpa bytes ecc).2.pending = s.pending := by
  simp only [pieceLand]
  (repeat' split) <;> simp only [spadWrite_pending, spadEcc_pending, hbmWrite_pending, hbmEcc_pending, hostPost_pending, State.modBarge_pending,
    bargeHalt_pending, bargeHbmUe_pending, bargeSpadUe_pending, writePresent_pending, pieceWritten_pending, pieceRemote_pending]

@[simp] theorem bargeAdmit_pending (s : State) (id : Nat) : (bargeAdmit s id).pending = s.pending := by
  simp only [bargeAdmit]
  (repeat' split) <;> simp only [State.modTile_pending, State.modBarge_pending]

@[simp] theorem standingFire_pending (s : State) (tile ix : Nat) : (standingFire s tile ix).pending = s.pending := by
  simp only [standingFire, State.pending_ite]
  (repeat' split) <;> simp only [State.modTile_pending, bargeHalt_pending]

@[simp] theorem bargeLeaves_pending (s : State) (b : Barge) : (bargeLeaves s b).pending = s.pending := by
  unfold bargeLeaves
  split <;> simp only [State.modRing_pending, State.dropBarge_pending]

@[simp] theorem bargeRecorded_pending (s : State) (b : Barge) (r c : Nat) : (bargeRecorded s b r c).pending = s.pending := by
  simp only [bargeRecorded, settleWork_pending, State.modBarge_pending, State.dropBarge_pending, State.pending_ite, ite_self]

@[simp] theorem bargeComplete_pending (s : State) (id : Nat) : (bargeComplete s id).pending = s.pending := by
  simp only [bargeComplete]
  (repeat' split) <;> simp only [State.modTile_pending, State.dropBarge_pending, gateAddNow_pending, bargeLeaves_pending, bargeRecorded_pending]

/-! ### Images (09) -/

@[simp] theorem imgEnter_pending (s : State) (part id dst : Nat) (bytes : List Byte) : (imgEnter s part id dst bytes).1.pending = s.pending := by
  simp only [imgEnter, hbmWrite_pending]
  (repeat' split) <;> simp only [hbmWrite_pending]

/-! ### Flights (09) -/

@[simp] theorem clockRefresh_pending (s : State) : (clockRefresh s).pending = s.pending := by
  simp only [clockRefresh, State.wrAll_pending]

@[simp] theorem judgeLaunch_pending (s : State) (f : Flight) (status result : Nat) (entry : Option Nat) :
    (judgeLaunch s f status result entry).pending = s.pending := by
  simp only [judgeLaunch, settleWork_pending, State.pending_ite, ite_self]

@[simp] theorem judgeStops_pending (s : State) (part fid n : Nat) : (judgeStops s part fid n).pending = s.pending := by
  simp only [judgeStops, mapWork_pending]

@[simp] theorem putLedger_pending (s : State) (i : Nat) (d : List Byte) : (putLedger s i d).pending = s.pending := by
  simp only [putLedger, State.pending_setReg, foldl_pending, forall_eq', implies_true]

@[simp] theorem ledgerExtend_pending (s : State) (i kind : Nat) (d : List Byte) : (ledgerExtend s i kind d).pending = s.pending := by
  simp only [ledgerExtend, State.pending_wr, putLedger_pending]

@[simp] theorem clearCoreRegs_pending (s : State) (uid : Nat) : (clearCoreRegs s uid).pending = s.pending := by
  simp only [clearCoreRegs, State.pending_setReg, foldl_pending, forall_eq', implies_true]

@[simp] theorem launchCopy_pending (s : State) (f : Flight) : (launchCopy s f).pending = s.pending := by
  simp only [launchCopy, State.pending_setCore, clearCoreRegs_pending, foldl_pending, forall_eq', implies_true]

@[simp] theorem launchGates_pending (s : State) (f : Flight) : (launchGates s f).pending = s.pending := by
  simp only [launchGates, State.setGate_pending, foldl_pending, forall_eq', implies_true]

@[simp] theorem launchArm_pending (s : State) (f : Flight) : (launchArm s f).pending = s.pending := by
  simp only [launchArm, State.modTile_pending, foldl_pending, forall_eq', implies_true]

@[simp] theorem dumpPut_pending (s : State) (a len : Nat) (l : List (Nat × List Byte)) : (dumpPut s a len l).pending = s.pending := by
  simp only [dumpPut, hbmWrite_pending, hbmZero_pending, foldl_pending, forall_eq', implies_true]

@[simp] theorem dumpFails_pending (s : State) (d : Dump) (ue : Nat) : (dumpFails s d ue).pending = s.pending := by
  simp only [dumpFails]
  (repeat' split) <;> simp only [ringUe_pending, settleWork_pending]

@[simp] theorem dumpWrite_pending (s : State) (d : Dump) (a len : Nat) (l : List (Nat × List Byte)) :
    (dumpWrite s d a len l).pending = s.pending := by
  simp only [dumpWrite, State.pending_ite]
  (repeat' split) <;> simp only [dumpPut_pending, dumpFails_pending]

@[simp] theorem coreDumpTo_pending (s : State) (d : Dump) (uid : Nat) : (coreDumpTo s d uid).pending = s.pending := by
  simp only [coreDumpTo, dumpWrite_pending, State.pending_ite, ite_self]

@[simp] theorem coreDump_pending (s : State) (uid : Nat) : (coreDump s uid).pending = s.pending := by
  simp only [coreDump, coreDumpTo_pending, foldl_pending, forall_eq', implies_true]

@[simp] theorem coreDumpDone_pending (s : State) (f : Flight) (d : Dump) : (coreDumpDone s f d).pending = s.pending := by
  simp only [coreDumpDone, coreDumpTo_pending, foldl_pending, forall_eq', implies_true]

@[simp] theorem dumpUe_pending (s : State) (d : Dump) (tile ll : Nat) (esc : Option Nat) : (dumpUe s d tile ll esc).pending = s.pending := by
  simp only [dumpUe, noteUe_pending, spadUeAlone_pending, ringUe_pending, settleWork_pending, State.pending_ite, ite_self]

@[simp] theorem dumpUes_pending (s : State) (d : Dump) (tile : Nat) (ecc : Option (Nat × Upset)) : (dumpUes s d tile ecc).pending = s.pending := by
  simp only [dumpUes, dumpUe_pending, foldl_pending, forall_eq', implies_true]
  (repeat' split) <;> simp only [spadEcc_pending]

@[simp] theorem dumpTiles_pending (s : State) (f : Flight) (d : Dump) (ecc : Option (Nat × Upset)) :
    (dumpTiles s f d ecc).1.pending = s.pending := by
  simp only [dumpTiles]
  split <;> simp only [dumpWrite_pending, dumpUes_pending, foldl_pending, forall_eq', implies_true]

@[simp] theorem dumpEnd_pending (s : State) (f : Flight) (ecc : Option (Nat × Upset)) : (dumpEnd s f ecc).pending = s.pending := by
  simp only [dumpEnd, settleWork_pending, dumpTiles_pending, foldl_pending, forall_eq', implies_true, State.pending_ite, ite_self]

@[simp] theorem disarm_pending (s : State) (part fid : Nat) (tiles : List Nat) : (disarm s part fid tiles).pending = s.pending := by
  simp only [disarm, State.modTile_pending, modFlight_pending, foldl_pending, forall_eq', implies_true]

@[simp] theorem unarm_pending (s : State) (part fid : Nat) (tiles : List Nat) : (unarm s part fid tiles).pending = s.pending := by
  simp only [unarm, State.modTile_pending, foldl_pending, forall_eq', implies_true]

@[simp] theorem dropFirings_pending (s : State) (part fid tile : Nat) : (dropFirings s part fid tile).pending = s.pending := by
  simp only [dropFirings]

@[simp] theorem flightGone_pending (s : State) (f : Flight) (status result stopped : Nat) (entry : Option Nat) :
    (flightGone s f status result stopped entry).pending = s.pending := by
  simp only [flightGone, State.modCore_pending, clockRefresh_pending, judgeLaunch_pending, judgeStops_pending, unarm_pending, foldl_pending,
    forall_eq', implies_true, State.pending_ite, ite_self]

@[simp] theorem flightStop_pending (s : State) (f : Flight) (k : StopKind) : (flightStop s f k).pending = s.pending := by
  simp only [flightStop, modFlight_pending, dropFirings_pending, flightGone_pending, foldl_pending, forall_eq', implies_true, State.pending_ite,
    ite_self]

@[simp] theorem stopFlights_pending (s : State) (part : Nat) : (stopFlights s part).pending = s.pending := by
  simp only [stopFlights, flightStop_pending, foldl_pending, forall_eq', implies_true]

@[simp] theorem noticeCore_pending (s : State) (uid : Nat) : (noticeCore s uid).pending = s.pending := by
  simp only [noticeCore, State.modCore_pending]

@[simp] theorem clearRun_pending (s : State) (f : Flight) (status : Nat) : (clearRun s f status).pending = s.pending := by
  simp only [clearRun, State.pending_wr, ledgerExtend_pending, State.pending_ite, ite_self]

@[simp] theorem flightEnd_pending (s : State) (part fid : Nat) (ecc : Option (Nat × Upset)) : (flightEnd s part fid ecc).pending = s.pending := by
  unfold flightEnd
  split <;> simp only [dumpEnd_pending, dropFirings_pending, flightGone_pending, clearRun_pending, foldl_pending, forall_eq', implies_true,
    State.pending_ite, ite_self]

/-! ### What befalls a core (04, 05) -/

@[simp] theorem settleCore_pending (s : State) (uid : Nat) : (settleCore s uid).pending = s.pending := by
  simp only [settleCore, State.modCore_pending, coreDump_pending, State.pending_ite, ite_self]

@[simp] theorem bundleIssue_pending (s : State) (uid : Nat) : (bundleIssue s uid).pending = s.pending := by
  simp only [bundleIssue, wakeTiles_pending, coreCycle_pending, State.pending_ite, ite_self]

@[simp] theorem waitTimeout_pending (s : State) (uid : Nat) : (waitTimeout s uid).pending = s.pending := by
  simp only [waitTimeout]
  split <;> simp only [coreHalt_pending, State.pending_ite, ite_self]

@[simp] theorem scrubNext_pending (s : State) (tile bank line : Nat) : (scrubNext s tile bank line).pending = s.pending := by
  simp only [scrubNext, State.inc_pending, State.pending_setTile, State.pending_ite, ite_self]

@[simp] theorem scrubClaim_pending (s : State) (tile bank : Nat) (ecc : Option Upset) : (scrubClaim s tile bank ecc).pending = s.pending := by
  simp only [scrubClaim, State.pending_ite]
  (repeat' split) <;> simp only [State.incBy_pending, State.pending_setTile, State.modTile_pending, spadEcc_pending, spadUeAlone_pending,
    scrubNext_pending, foldl_pending, forall_eq', implies_true]

/-! ### The commands of flights (03, 09) -/

@[simp] theorem imageArrive_pending (s : State) (r count : Nat) (q : List Nat) (bytes : List Byte) :
    (imageArrive s r count q bytes).1.pending = s.pending := by
  simp only [imageArrive]
  split <;> simp only [ringUe_pending, imgEnter_pending]

@[simp] theorem imageLoadBody_pending (r : Nat) (ecc : Option Upset) (s : State) (f : Fetched) :
    (imageLoadBody r ecc s f).1.pending = s.pending := by
  unfold imageLoadBody
  dsimp only
  split
  · rfl
  split
  · rfl
  split
  · split
    · rfl
    · exact hostAsk_pending ..
  · split <;> simp only [ringUe_pending, noteUe_pending, imageArrive_pending, dpaTurn_pending] <;> split <;>
      simp only [hbmEcc_pending, spadEcc_pending]

@[simp] theorem launchBody_pending (r : Nat) (atStart : Bool) (s : State) (f : Fetched) : (launchBody r atStart s f).1.pending = s.pending := by
  simp only [launchBody]
  (repeat' split) <;> rfl

@[simp] theorem modLaunch_pending (s : State) (r count : Nat) (g : Flight → Flight) : (modLaunch s r count g).pending = s.pending := by
  unfold modLaunch
  split <;> rfl

@[simp] theorem launchStep_pending (s : State) (r count : Nat) (ecc : Option Upset) : (launchStep s r count ecc).pending = s.pending := by
  simp only [launchStep, State.modCore_pending, foldl_pending, forall_eq', implies_true]
  (repeat' split) <;> simp only [State.pending_wr, hbmEcc_pending, ringUe_pending, clockRefresh_pending, judgeLaunch_pending, launchCopy_pending,
    launchGates_pending, launchArm_pending, flightGone_pending, modLaunch_pending, foldl_pending, forall_eq', implies_true, State.pending_ite,
    ite_self]

@[simp] theorem applyDumps_pending (s : State) (part fid : Nat) : (applyDumps s part fid).pending = s.pending := by
  simp only [applyDumps]

@[simp] theorem release_pending (s : State) (r count : Nat) : (release s r count).pending = s.pending := by
  unfold release
  split <;> simp only [State.modCore_pending, wakeTiles_pending, coreCycle_pending, modLaunch_pending, applyDumps_pending, foldl_pending,
    forall_eq', implies_true, State.pending_ite, ite_self]

@[simp] theorem stopBody_pending (r : Nat) (k : StopKind) (s : State) (f : Fetched) : (stopBody r k s f).1.pending = s.pending := by
  simp only [stopBody]
  (repeat' split) <;> simp only [flightStop_pending]

@[simp] theorem notice_pending (s : State) (part fid tile : Nat) : (notice s part fid tile).pending = s.pending := by
  unfold notice
  split <;> simp only [modFlight_pending, disarm_pending, dropFirings_pending, noticeCore_pending, foldl_pending, forall_eq', implies_true,
    State.pending_ite, ite_self]

@[simp] theorem dumpBody_pending (r : Nat) (atMile : Bool) (s : State) (f : Fetched) : (dumpBody r atMile s f).1.pending = s.pending := by
  simp only [dumpBody]
  (repeat' split) <;> simp only [coreDumpDone_pending]

/-! ### Gates, fences and wipes (03) -/

@[simp] theorem gateSend_pending (s : State) (r count w : Nat) (load : Nat → MeshLoad) : (gateSend s r count w load).pending = s.pending := by
  simp only [gateSend]

@[simp] theorem gateSetBody_pending (r : Nat) (s : State) (f : Fetched) : (gateSetBody r s f).1.pending = s.pending := by
  simp only [gateSetBody]
  (repeat' split) <;> simp only [gateSend_pending]

@[simp] theorem gateAddBody_pending (r : Nat) (s : State) (f : Fetched) : (gateAddBody r s f).1.pending = s.pending := by
  simp only [gateAddBody]
  (repeat' split) <;> simp only [gateSend_pending]

@[simp] theorem gateWaitBody_pending (r : Nat) (s : State) (f : Fetched) : (gateWaitBody r s f).1.pending = s.pending := by
  simp only [gateWaitBody]
  (repeat' split) <;> rfl

@[simp] theorem fenceBody_pending (other : Bool) (s : State) (f : Fetched) : (fenceBody other s f).1.pending = s.pending := by
  unfold fenceBody
  split <;> rfl

@[simp] theorem wipeDone_pending (s : State) (part a n : Nat) : (wipeDone s part a n).pending = s.pending := by
  simp only [wipeDone, hbmZero_pending, foldl_pending, forall_eq', implies_true]

/-! ### Group entries (10) -/

@[simp] theorem holdSync_pending (s : State) (n : Nat) : (holdSync s n).pending = s.pending := by
  simp only [holdSync, State.pending_wr, State.pending_ite, ite_self]

@[simp] theorem bucketFree_pending (s : State) (b : Bucket) : (bucketFree s b).pending = s.pending := by
  simp only [bucketFree, holdSync_pending]

@[simp] theorem State.putBucket_pending (s : State) (b : Bucket) : (s.putBucket b).pending = s.pending := by
  simp only [State.putBucket, holdSync_pending]

@[simp] theorem bufferHalt_pending (s : State) (b : Bucket) (status : Nat) : (bufferHalt s b status).pending = s.pending := by
  unfold bufferHalt
  split <;> simp only [settleWork_pending, bucketFree_pending]

@[simp] theorem bufArrives_pending (s : State) (r c addr len : Nat) (data : Option (List Byte)) :
    (bufArrives s r c addr len data).pending = s.pending := by
  simp only [bufArrives]
  (repeat' split) <;> simp only [State.putBucket_pending, bufferHalt_pending]

/-! ### The commands of barges and the mesh (01, 09) -/

@[simp] theorem bargeBody_pending (r : Nat) (s : State) (f : Fetched) : (bargeBody r s f).1.pending = s.pending := by
  simp only [bargeBody]
  (repeat' split) <;> rfl

@[simp] theorem meshDrop_pending (s : State) (x : MeshX) : (meshDrop s x).pending = s.pending := by
  simp only [meshDrop]
  (repeat' split) <;> simp only [errRaise_pending, coreHalt_pending, setWork_pending, ringErr_pending, State.modBarge_pending, bargeHalt_pending]

@[simp] theorem meshTake_pending (s : State) (i : Nat) : (meshTake s i).pending = s.pending := by
  simp only [meshTake]

@[simp] theorem meshDeliver_pending (s : State) (i : Nat) (ecc : Option Upset) : (meshDeliver s i ecc).pending = s.pending := by
  simp only [meshDeliver]
  (repeat' split) <;> simp only [gatePush_pending, pieceLand_pending, meshDrop_pending, meshTake_pending]

/-! ### Register writes (18) -/

@[simp] theorem State.modPort_pending (s : State) (p : Nat) (f : PortSt → PortSt) : (s.modPort p f).pending = s.pending := by
  simp only [State.modPort, State.pending_putPort]

@[simp] theorem showPending_pending (s : State) : (showPending s).pending = s.pending := by
  simp only [showPending, State.pending_wr]

@[simp] theorem showRing_pending (s : State) (off : Nat) : (showRing s off).pending = s.pending := by
  unfold showRing
  split <;> simp only [State.putRing_pending]

@[simp] theorem pend_pending (s : State) (off v : Nat) : (pend s off v).pending = s.pending := by
  simp only [pend, showPending_pending, showRing_pending]

@[simp] theorem writeNow_pending (s : State) (off : Nat) (i : RegInfo) (m v ones : Nat) : (writeNow s off i m v ones).pending = s.pending := by
  simp only [writeNow, State.pending_setReg, State.pending_wr, State.pending_ite, ite_self]

@[simp] theorem noteValid_pending (s : State) (off half v : Nat) : (noteValid s off half v).pending = s.pending := by
  simp only [noteValid, State.pending_ite, ite_self]

@[simp] theorem regWrite_pending (s : State) (off n data : Nat) : (regWrite s off n data).pending = s.pending := by
  simp only [regWrite]
  split <;> simp only [State.pending_wr, State.inc_pending, pend_pending, writeNow_pending, noteValid_pending, State.pending_ite, ite_self]

@[simp] theorem applyPending_pending (s : State) (mine : Nat → Bool) : (applyPending s mine).pending = s.pending := by
  simp only [applyPending]
  rw [foldl_pending, showPending_pending, foldl_pending]
  · rintro t p _ rfl
    split <;> simp only [writeNow_pending]
  · rintro t p _ rfl
    exact showRing_pending ..

@[simp] theorem stagedWrite_pending (s : State) (off val mask : Nat) : (stagedWrite s off val mask).pending = s.pending := by
  unfold stagedWrite
  split <;> simp only [showRing_pending, writeNow_pending]

theorem stagedLand_pending {act : State → Nat → Nat → Nat → State} (ha : ∀ t a b c, (act t a b c).pending = t.pending) (s : State) (r : Nat)
    (q : List Nat) : (stagedLand act s r q).1.pending = s.pending := by
  unfold stagedLand
  split
  · rfl
  · rw [ha, stagedWrite_pending]

theorem blkApply_pending {act : State → Nat → Nat → Nat → State} (ha : ∀ t a b c, (act t a b c).pending = t.pending) (s : State) (b : Blk) :
    (blkApply act s b).pending = s.pending := by
  unfold blkApply
  rw [foldl_pending, applyPending_pending]
  rintro t x _ rfl
  rw [setWork_pending, stagedLand_pending ha]

@[simp] theorem noAct_pending (s : State) (a b c : Nat) : (noAct s a b c).pending = s.pending := by
  simp only [noAct]

/-! ### The events of the rings (03) -/

@[simp] theorem doorbellHalt_pending (s : State) (r status : Nat) (kind : HaltKind) : (doorbellHalt s r status kind).pending = s.pending := by
  simp only [doorbellHalt, ringIrq_pending, ringStop_pending, ringEntry_pending, State.pending_ite, ite_self]

@[simp] theorem doorbellRefused_pending (s : State) (r : Nat) : (doorbellRefused s r).pending = s.pending := by
  simp only [doorbellRefused, doorbellHalt_pending, State.pending_ite, ite_self]

@[simp] theorem doorbellAsk_pending (s : State) (r : Nat) : (doorbellAsk s r).pending = s.pending := by
  simp only [doorbellAsk, hostAsk_pending, doorbellRefused_pending, State.pending_ite, ite_self]

@[simp] theorem doorbellGot_pending (s : State) (r word : Nat) : (doorbellGot s r word).pending = s.pending := by
  simp only [doorbellGot, State.putRing_pending, doorbellHalt_pending, State.pending_ite, ite_self]

@[simp] theorem doorbellReturn_pending (s : State) (r : Nat) (status : CplStatus) (word : Nat) :
    (doorbellReturn s r status word).pending = s.pending := by
  simp only [doorbellReturn, dropReq_pending, doorbellRefused_pending, doorbellGot_pending, State.pending_ite, ite_self]

@[simp] theorem ringOn_pending (s : State) (r : Nat) : (ringOn s r).pending = s.pending := by
  simp only [ringOn, State.pending_wr, State.wrAll_pending, dropReqs_pending, State.putRing_pending, State.modRing_pending, doorbellAsk_pending,
    State.pending_ite, ite_self]

@[simp] theorem ringOff_pending (s : State) (r : Nat) : (ringOff s r).pending = s.pending := by
  simp only [ringOff, dropReqs_pending, State.putRing_pending, dropOut_pending]

@[simp] theorem ringApply_pending (s : State) (r : Nat) : (ringApply s r).pending = s.pending := by
  simp only [ringApply, State.pending_ite, ringOn_pending, ringOff_pending, blkApply_pending noAct_pending, ite_self]

@[simp] theorem ringEnable_pending (s : State) (r : Nat) : (ringEnable s r).pending = s.pending := by
  unfold ringEnable
  split <;> simp only [ringApply_pending, State.pending_ite, ite_self]

@[simp] theorem ringDisable_pending (s : State) (r : Nat) : (ringDisable s r).pending = s.pending := by
  unfold ringDisable
  split <;> simp only [ringApply_pending, State.pending_ite, ite_self]

@[simp] theorem bitmapRefused_pending (s : State) (p : Nat) (cas : Bool) : (bitmapRefused s p cas).pending = s.pending := by
  simp only [bitmapRefused, errRaise_pending]

@[simp] theorem summaryPoll_pending (s : State) (p : Nat) : (summaryPoll s p).pending = s.pending := by
  simp only [summaryPoll, hostAsk_pending, bitmapRefused_pending, State.pending_ite, ite_self]

@[simp] theorem casWord_pending (s : State) (p base w v : Nat) : (casWord s p base w v).pending = s.pending := by
  simp only [casWord, hostAsk_pending, State.modRing_pending, foldl_pending, forall_eq', implies_true, State.pending_ite, ite_self]

@[simp] theorem bitmapReturn_pending (s : State) (p : Nat) (status : CplStatus) (words : List Nat) :
    (bitmapReturn s p status words).pending = s.pending := by
  simp only [bitmapReturn]
  split <;> simp only [dropReq_pending, bitmapRefused_pending, casWord_pending, foldl_pending, forall_eq', implies_true, State.pending_ite,
    ite_self]

@[simp] theorem readDoorbells_pending (s : State) (p w seen : Nat) : (readDoorbells s p w seen).pending = s.pending := by
  simp only [readDoorbells, State.inc_pending, doorbellAsk_pending, foldl_pending, forall_eq', implies_true, State.pending_ite, ite_self]

@[simp] theorem casReturn_pending (s : State) (p w : Nat) (status : CplStatus) : (casReturn s p w status).pending = s.pending := by
  unfold casReturn
  split <;> simp only [dropReq_pending, bitmapRefused_pending, readDoorbells_pending, State.pending_ite, ite_self]

@[simp] theorem pollBackoff_pending (s : State) (p : Nat) : (pollBackoff s p).pending = s.pending := by
  simp only [pollBackoff, State.pending_ite, ite_self]

@[simp] theorem addFetched_pending (s : State) (r : Nat) (l : List Fetched) : (addFetched s r l).pending = s.pending := by
  simp only [addFetched, State.modRing_pending, ringJudge_pending]

@[simp] theorem fetchRead_pending (s : State) (r c n : Nat) : (fetchRead s r c n).pending = s.pending := by
  simp only [fetchRead, hostAsk_pending, addFetched_pending, State.pending_ite, ite_self]

@[simp] theorem descFetch_pending (s : State) : (descFetch s).pending = s.pending := by
  delta descFetch
  cases nextTurn s with
  | none => rfl
  | some r =>
    dsimp only
    rw [State.pending_ite, fetchRead_pending, fetchRead_pending, State.modRing_pending, ite_self]

@[simp] theorem descReturn_pending (s : State) (r : Nat) (status : CplStatus) (descs : List (List Nat)) :
    (descReturn s r status descs).pending = s.pending := by
  unfold descReturn
  split <;> simp only [dropReq_pending, addFetched_pending]

@[simp] theorem descComplete_pending (s : State) (r count : Nat) : (descComplete s r count).pending = s.pending := by
  simp only [descComplete]
  (repeat' split) <;> simp only [ringHaltAt_pending, ringDone_pending, wipeDone_pending]

@[simp] theorem holdoffEnd_pending (s : State) (r : Nat) : (holdoffEnd s r).pending = s.pending := by
  simp only [holdoffEnd, msixRaise_pending, State.putRing_pending, State.pending_ite, ite_self]

@[simp] theorem descTimeout_pending (s : State) (r count : Nat) : (descTimeout s r count).pending = s.pending := by
  simp only [descTimeout]
  (repeat' split) <;> simp only [setWork_pending, ringErr_pending, descComplete_pending]

/-! ### The UCIe link (02) -/

@[simp] theorem ucieEvent_pending (s : State) (code trained : Nat) : (ucieEvent s code trained).pending = s.pending := by
  simp only [ucieEvent, State.pending_setReg, errRaise_pending]

@[simp] theorem hostUsersFault_pending (s : State) : (hostUsersFault s).pending = s.pending := by
  simp only [hostUsersFault]
  rw [foldl_pending, foldl_pending]
  · rintro t b _ rfl
    rw [bargeHalt_pending, State.modBarge_pending]
  · rintro t n _ rfl
    refine foldl_pending ?_ _ t
    rintro u p _ rfl
    split <;> simp only [State.pending_ite, bargeHalt_pending, ite_self]

@[simp] theorem ringHaltQuiet_pending (s : State) (r k : Nat) (kind : HaltKind) (p : Nat → Bool) :
    (ringHaltQuiet s r k kind p).pending = s.pending := by
  simp only [ringHaltQuiet, dropOut_pending, ringStop_pending]

/-- What the loss of DL_Active does to the link. -/
def dlLossLink (s : State) : State :=
  { s with dlActive := false, link := { s.link with step := none, stalled := false, held := [] } }
/-- Then to the modules' registers, with the event. -/
def dlLossModules (s : State) : State :=
  ucieEvent ((dlLossLink s).wrAll [(fWidth, 0), (fModState 0, if s.rd (fModState 0) = modHeld then modHeld else modDown),
    (fModState 1, if s.rd (fModState 1) = modHeld then modHeld else modDown)]) 0x05 0
/-- Then to the rings in service. -/
def dlLossRings (s : State) (unacked : List (Nat × Nat)) : State :=
  (List.range 1024).foldl (fun t r =>
    if (t.ring r).st = 0 then t
    else (ringHaltQuiet t r (firstIncomplete t r unacked) .reenable fun _ => true).modRing r fun g => { g with after := [] }) s
/-- Then to the requests under way, a start block's among them. -/
def dlLossReqs (s : State) : State :=
  let lostBlock := asked s fun k => decide (k = ReqFor.startBlock)
  let s4 := { s with reqs := [], reqWait := [] }
  if lostBlock then { s4 with parts := { s4.parts with op := none } }.wrAll [(⟨0x1440, 1, 1⟩, 1), (⟨0x1440, 0, 0⟩, 0)] else s4

/-- The stages apart, because the kernel cannot reduce the record updates of the later ones over the earlier ones' folds. -/
theorem dlLoss_eq (s : State) (unacked : List (Nat × Nat)) :
    dlLoss s unacked = if !s.dlActive then s else dlLossReqs (dlLossRings (hostUsersFault (dlLossModules s)) unacked) := by
  unfold dlLoss dlLossReqs dlLossRings dlLossModules dlLossLink
  with_reducible rfl

theorem dlLossModules_pending (s : State) : (dlLossModules s).pending = s.pending := by
  rw [dlLossModules, ucieEvent_pending, State.wrAll_pending, dlLossLink]

theorem dlLossRings_pending (s : State) (unacked : List (Nat × Nat)) : (dlLossRings s unacked).pending = s.pending := by
  refine foldl_pending ?_ _ _
  rintro t r _ rfl
  simp only [State.pending_ite, State.modRing_pending, ringHaltQuiet_pending, ite_self]

theorem dlLossReqs_pending (s : State) : (dlLossReqs s).pending = s.pending := by
  simp only [dlLossReqs, State.pending_ite, State.wrAll_pending, ite_self]

@[simp] theorem dlLoss_pending (s : State) (unacked : List (Nat × Nat)) : (dlLoss s unacked).pending = s.pending := by
  rw [dlLoss_eq, State.pending_ite, dlLossReqs_pending, dlLossRings_pending, hostUsersFault_pending, dlLossModules_pending, ite_self]

@[simp] theorem linkLost_pending (s : State) : (linkLost s).pending = s.pending := by
  simp only [linkLost, errFatal_pending, dlLoss_pending]

@[simp] theorem attemptStart_pending (s : State) (keep : Bool) : (attemptStart s keep).pending = s.pending := by
  simp only [attemptStart, State.inc_pending, State.wrAll_pending, State.pending_ite, ite_self]

@[simp] theorem maskExchange_pending (s : State) (remote : Nat) : (maskExchange s remote).pending = s.pending := by
  simp only [maskExchange, State.wrAll_pending, ucieEvent_pending, linkLost_pending, State.pending_ite, ite_self]

@[simp] theorem paramExchange_pending (s : State) (profile : Nat) : (paramExchange s profile).pending = s.pending := by
  simp only [paramExchange, State.pending_setReg, State.pending_wr, ledgerExtend_pending, ucieEvent_pending, State.pending_ite, ite_self]

@[simp] theorem laneRepairs_pending (s : State) (repairs : List Nat) : (laneRepairs s repairs).pending = s.pending := by
  simp only [laneRepairs, State.pending_wr, ucieEvent_pending, foldl_pending, forall_eq', implies_true, State.pending_ite, ite_self]

@[simp] theorem startFault_pending (s : State) : (startFault s).pending = s.pending := by
  simp only [startFault, State.wrAll_pending]

theorem answer_pending (s : State) (q : HostReq) (data : Option (List Byte)) {start : State → Option (List Byte) → State}
    (hs : ∀ t d, (start t d).pending = t.pending) : (answer s q data start).pending = s.pending := by
  unfold answer
  split
  · exact pieceArrives_pending ..
  · split
    · rw [settleWork_pending, imageArrive_pending]
    · rfl
  · exact settleWork_pending ..
  · exact bitmapRefused_pending ..
  · rw [readDoorbells_pending, bitmapRefused_pending]
  · exact doorbellRefused_pending ..
  · exact addFetched_pending ..
  · exact bufArrives_pending ..
  · exact hs ..

@[simp] theorem waitFaults_pending (s : State) : (waitFaults s).pending = s.pending := by
  simp only [waitFaults, startFault_pending, answer_pending, foldl_pending, forall_eq', implies_true]

@[simp] theorem linkUp_pending (s : State) : (linkUp s).pending = s.pending := by
  simp only [linkUp, State.wrAll_pending, reqPump_pending, ringJudge_pending, waitFaults_pending, foldl_pending, forall_eq', implies_true]

@[simp] theorem trainStep_pending (s : State) (profile : Nat) (repairs : List Nat) : (trainStep s profile repairs).pending = s.pending := by
  simp only [trainStep, State.pending_ite]
  (repeat' split) <;> simp only [paramExchange_pending, laneRepairs_pending, linkUp_pending]

@[simp] theorem chargeModule_pending (s : State) (m : Nat) : (chargeModule s m).pending = s.pending := by
  simp only [chargeModule, State.pending_wr, ucieEvent_pending, State.pending_ite, ite_self]

@[simp] theorem attemptFails_pending (s : State) (failed : Nat) : (attemptFails s failed).pending = s.pending := by
  simp only [attemptFails, State.wrAll_pending, ucieEvent_pending, linkLost_pending, chargeModule_pending, foldl_pending, forall_eq', implies_true,
    State.pending_ite, ite_self]

@[simp] theorem laneFailure_pending (s : State) (half : Nat) : (laneFailure s half).pending = s.pending := by
  simp only [laneFailure, State.pending_wr, ucieEvent_pending, attemptStart_pending, State.pending_ite, ite_self]

@[simp] theorem cplTimeout_pending (s : State) (tag : Nat) : (cplTimeout s tag).pending = s.pending := by
  unfold cplTimeout
  split
  · rfl
  · rw [answer_pending (hs := fun t _ => startFault_pending t), dropReq_pending]

@[simp] theorem readCompletion_pending (s : State) (tag : Nat) (st : CplStatus) (d : List Byte) :
    (readCompletion s tag st d).pending = s.pending := by
  unfold readCompletion
  split
  · rfl
  · split
    case h_4 => rfl
    all_goals rw [answer_pending (hs := fun _ _ => rfl), dropReq_pending]

@[simp] theorem msixWrite_pending (s : State) (off size data : Nat) : (msixWrite s off size data).pending = s.pending := by
  simp only [msixWrite, msixRaise_pending, State.pending_ite, ite_self]

@[simp] theorem flr_pending (s : State) : (flr s).pending = s.pending := by
  simp only [flr, State.pending_wr, dropReqs_pending, stopFlights_pending, showPending_pending, ringOff_pending, foldl_pending, forall_eq',
    implies_true, State.pending_ite, ite_self]

@[simp] theorem d3hot_pending (s : State) : (d3hot s).pending = s.pending := by
  simp only [d3hot, ringHaltQuiet_pending, foldl_pending, forall_eq', implies_true, State.pending_ite, ite_self]

@[simp] theorem d0_pending (s : State) : (d0 s).pending = s.pending := by
  simp only [d0, State.pending_ite, ite_self]

/-! ### The tollhouse (16) -/

@[simp] theorem extendProvision_pending (s : State) : (extendProvision s).pending = s.pending := by
  simp only [extendProvision, ledgerExtend_pending]

@[simp] theorem State.measAt_pending (s : State) (n : Nat) : (s.measAt n).pending = s.pending := by
  simp only [State.measAt, State.putTrust_pending]

@[simp] theorem flashShow_pending (s : State) : (flashShow s).pending = s.pending := by
  simp only [flashShow, State.wrAll_pending]

@[simp] theorem enterRecovery_pending (s : State) : (enterRecovery s).pending = s.pending := by
  simp only [enterRecovery, State.putTrust_pending, flashShow_pending]

@[simp] theorem lkRelease_pending (s : State) : (lkRelease s).pending = s.pending := by
  simp only [lkRelease, State.putTrust_pending]

@[simp] theorem measureStep_pending (s : State) (cold : Bool) : (measureStep s cold).pending = s.pending := by
  simp only [measureStep]
  split <;> simp only [State.modTrust_pending, ledgerExtend_pending, extendProvision_pending, State.measAt_pending, enterRecovery_pending,
    lkRelease_pending, foldl_pending, forall_eq', implies_true, State.pending_ite, ite_self]

@[simp] theorem pldmTransfer_pending (s : State) (slot : Nat) (image : Option (List Byte)) : (pldmTransfer s slot image).pending = s.pending := by
  unfold pldmTransfer
  split <;> simp only [State.putTrust_pending, State.pending_ite, ite_self]

@[simp] theorem pldmActivate_pending (s : State) (cold : Bool) : (pldmActivate s cold).pending = s.pending := by
  unfold pldmActivate
  split <;> simp only [State.putTrust_pending, State.pending_ite, ite_self]

@[simp] theorem pldmCommit_pending (s : State) : (pldmCommit s).pending = s.pending := by
  simp only [pldmCommit, State.putTrust_pending, State.pending_ite, ite_self]

@[simp] theorem commitExpiry_pending (s : State) : (commitExpiry s).pending = s.pending := by
  simp only [commitExpiry, State.putTrust_pending, State.pending_ite, ite_self]

@[simp] theorem deliverRing_pending (s : State) (r count dpa room : Nat) (bytes : List Byte) :
    (deliverRing s r count dpa room bytes).1.pending = s.pending := by
  simp only [deliverRing]
  (repeat' split) <;> simp only [dpaWrite_pending, ringUe_pending]

@[simp] theorem dropAtts_pending (s : State) (p : State → Nat → Bool) : (dropAtts s p).pending = s.pending := by
  simp only [dropAtts, State.putTrust_pending, attServe_pending]

@[simp] theorem attSigned_pending (s : State) : (attSigned s).pending = s.pending := by
  simp only [attSigned, State.putTrust_pending, State.modPort_pending]
  (repeat' split) <;> simp only [State.putTrust_pending, attServe_pending, attFill_pending, setWork_pending, deliverRing_pending]

@[simp] theorem attBody_pending (r : Nat) (s : State) (f : Fetched) : (attBody r s f).1.pending = s.pending := by
  simp only [attBody]
  (repeat' split) <;> simp only [attPush_pending]

@[simp] theorem chainBody_pending (r : Nat) (s : State) (f : Fetched) : (chainBody r s f).1.pending = s.pending := by
  simp only [chainBody]
  (repeat' split) <;> simp only [deliverRing_pending]

@[simp] theorem withLik_pending (s : State) : (withLik s).pending = s.pending := by
  simp only [withLik, State.putTrust_pending, State.pending_ite, ite_self]

@[simp] theorem provisionRequest_pending (s : State) : (provisionRequest s).pending = s.pending := by
  simp only [provisionRequest, attPush_pending, withLik_pending, State.pending_ite, ite_self]

@[simp] theorem provisionWrite_pending (s : State) (root chain sig : List Byte) : (provisionWrite s root chain sig).pending = s.pending := by
  simp only [provisionWrite, State.putTrust_pending, extendProvision_pending, State.pending_ite, ite_self]

/-! ### What ports and routing share (11, 13) -/

@[simp] theorem lnkEvent_pending (s : State) (p code group step : Nat) : (lnkEvent s p code group step).pending = s.pending := by
  simp only [lnkEvent, State.pending_setReg]

@[simp] theorem portEvent_pending (s : State) (p code group step : Nat) : (portEvent s p code group step).pending = s.pending := by
  simp only [portEvent, errRaise_pending, lnkEvent_pending]

@[simp] theorem optEvent_pending (s : State) (p code lane pos : Nat) : (optEvent s p code lane pos).pending = s.pending := by
  simp only [optEvent, State.pending_setReg, errRaise_pending]

@[simp] theorem withdraw_pending (s : State) (p : Nat) : (withdraw s p).pending = s.pending := by
  simp only [withdraw, State.pending_setReg, foldl_pending, forall_eq', implies_true, State.pending_ite, ite_self]

@[simp] theorem learn_pending (s : State) (p m : Nat) : (learn s p m).pending = s.pending := by
  simp only [learn, State.pending_ite]
  (repeat' split) <;> simp only [State.pending_setReg, State.inc_pending]

@[simp] theorem mileEvent_pending (s : State) (code : Nat) : (mileEvent s code).pending = s.pending := by
  simp only [mileEvent, State.pending_wr, errRaise_pending]

@[simp] theorem chooseUpstream_pending (s : State) : (chooseUpstream s).pending = s.pending := by
  simp only [chooseUpstream]
  split <;> simp only [State.wrAll_pending, mileEvent_pending, State.pending_ite, ite_self]

@[simp] theorem postHalt_pending (s : State) (b : Bucket) (waits : Work) (status : Nat) (hw : Bool) :
    (postHalt s b waits status hw).pending = s.pending := by
  unfold postHalt
  split <;> simp only [State.inc_pending, ringErr_pending, settleWork_pending]

@[simp] theorem bucketHalt_pending (s : State) (b : Bucket) (status : Nat) (hw : Bool) : (bucketHalt s b status hw).pending = s.pending := by
  simp only [bucketHalt, bucketFree_pending, postHalt_pending]

@[simp] theorem outsideHalt_pending (s : State) (x : Nat × Dispatched × PostCap) (status : Nat) (hw : Bool) :
    (outsideHalt s x status hw).pending = s.pending := by
  simp only [outsideHalt, postHalt_pending]

/-! ### The link layer of a port (11) -/

@[simp] theorem sparesShow_pending (s : State) (p : Nat) : (sparesShow s p).pending = s.pending := by
  simp only [sparesShow, State.pending_wr, State.wrAll_pending]

@[simp] theorem swapRecord_pending (s : State) (p : Nat) : (swapRecord s p).pending = s.pending := by
  simp only [swapRecord, sparesShow_pending]

@[simp] theorem laserOn_pending (s : State) (p j : Nat) : (laserOn s p j).pending = s.pending := by
  simp only [laserOn, State.pending_wr, State.pending_ite, ite_self]

@[simp] theorem laserOff_pending (s : State) (p j : Nat) : (laserOff s p j).pending = s.pending := by
  simp only [laserOff, State.pending_wr, State.modPort_pending, State.pending_ite, ite_self]

@[simp] theorem portLight_pending (s : State) (p : Nat) (on : Bool) : (portLight s p on).pending = s.pending := by
  simp only [portLight, State.wrAll_pending, laserOn_pending, laserOff_pending, foldl_pending, forall_eq', implies_true, State.pending_ite,
    ite_self]

@[simp] theorem fresh_pending (s : State) (n : Nat) : (fresh s n).2.pending = s.pending := by
  simp only [fresh]

@[simp] theorem putLine_pending (s : State) (p : Nat) (bytes : List Byte) : (putLine s p bytes).pending = s.pending := by
  simp only [putLine, State.modPort_pending]

@[simp] theorem sendFlit_pending (s : State) (p typ vc som len : Nat) (payload : List Byte) :
    (sendFlit s p typ vc som len payload).pending = s.pending := by
  simp only [sendFlit, State.pending_wr, State.modPort_pending, putLine_pending, State.pending_ite, ite_self]

@[simp] theorem resend_pending (s : State) (p i : Nat) : (resend s p i).pending = s.pending := by
  simp only [resend]
  split <;> simp only [State.pending_putPort, State.modPort_pending, putLine_pending]

@[simp] theorem swapRefused_pending (s : State) (p k : Nat) : (swapRefused s p k).pending = s.pending := by
  unfold swapRefused
  split <;> simp only [State.pending_wr, State.modPort_pending, State.pending_ite, ite_self]

@[simp] theorem announceNext_pending (n : Nat) (s : State) (p : Nat) : (announceNext n s p).pending = s.pending := by
  induction n generalizing s with
  | zero => rfl
  | succ n ih =>
    unfold announceNext
    dsimp only
    split
    · simp only [State.pending_ite, ih, State.pending_putPort, State.pending_wr, swapRefused_pending, portEvent_pending, ite_self]
    · rfl

@[simp] theorem laneAsk_pending (s : State) (p k : Nat) (retire : Bool) : (laneAsk s p k retire).pending = s.pending := by
  simp only [laneAsk, State.modPort_pending, announceNext_pending, State.pending_ite, ite_self]

@[simp] theorem xtPortDown_pending (s : State) (p : Nat) : (xtPortDown s p).pending = s.pending := by
  simp only [xtPortDown, State.pending_wr, State.pending_ite, ite_self]

@[simp] theorem swapPortDown_pending (s0 : State) (p : Nat) : (swapPortDown s0 p).pending = s0.pending := by
  simp only [swapPortDown]
  split <;> simp only [State.pending_wr, State.wrAll_pending, State.modPort_pending, swapRecord_pending, xtPortDown_pending, State.pending_ite,
    ite_self]

@[simp] theorem haltLaunches_pending (s : State) (p : Nat) (hw : Nat → Bool) : (haltLaunches s p hw).pending = s.pending := by
  simp only [haltLaunches, ringErr_pending, settleWork_pending, foldl_pending, forall_eq', implies_true, State.pending_ite, ite_self]

@[simp] theorem haltUsers_pending (s : State) (p : Nat) (hw : Bool) : (haltUsers s p hw).pending = s.pending := by
  simp only [haltUsers, bargeHalt_pending, bucketHalt_pending, outsideHalt_pending, haltLaunches_pending, foldl_pending, forall_eq', implies_true]

@[simp] theorem portDiscard_pending (s : State) (p : Nat) : (portDiscard s p).pending = s.pending := by
  simp only [portDiscard, State.incBy_pending, State.pending_putPort]

@[simp] theorem portShow_pending (s : State) (p st step : Nat) : (portShow s p st step).pending = s.pending := by
  simp only [portShow, State.wrAll_pending]

@[simp] theorem portDown_pending (s : State) (p code group : Nat) (off : Bool) : (portDown s p code group off).pending = s.pending := by
  simp only [portDown, errRaise_pending, lnkEvent_pending, withdraw_pending, chooseUpstream_pending, portLight_pending, swapPortDown_pending,
    haltUsers_pending, portDiscard_pending, portShow_pending, State.pending_ite, ite_self]

@[simp] theorem portOff_pending (s : State) (p : Nat) : (portOff s p).pending = s.pending := by
  simp only [portOff, portLight_pending, swapPortDown_pending, portDiscard_pending, portShow_pending]

@[simp] theorem hailBegin_pending (s : State) (p : Nat) : (hailBegin s p).pending = s.pending := by
  simp only [hailBegin, State.modPort_pending, portLight_pending, portShow_pending, State.pending_ite, ite_self]

@[simp] theorem feedData_pending (s : State) (p vc : Nat) (som : Bool) (payload : List Byte) :
    (feedData s p vc som payload).pending = s.pending := by
  simp only [feedData, State.pending_putPort]
  split <;> simp only [State.pending_putPort, State.pending_ite, ite_self]

@[simp] theorem deliverFlit_pending (s : State) (p : Nat) (head plain : List Byte) : (deliverFlit s p head plain).pending = s.pending := by
  simp only [deliverFlit]
  split <;> simp only [State.inc_pending, State.modPort_pending, feedData_pending, State.pending_ite, ite_self]

@[simp] theorem takeControl_pending (s : State) (p w : Nat) : (takeControl s p w).pending = s.pending := by
  simp only [takeControl, State.modPort_pending]

@[simp] theorem startReplay_pending (s : State) (p : Nat) : (startReplay s p).pending = s.pending := by
  unfold startReplay
  split <;> simp only [State.inc_pending, State.modPort_pending, portDown_pending]

@[simp] theorem rekeySwitch_pending (s : State) (p : Nat) : (rekeySwitch s p).pending = s.pending := by
  simp only [rekeySwitch]
  (repeat' split) <;> simp only [State.wrAll_pending, State.modPort_pending, portEvent_pending]

@[simp] theorem frameDone_pending (s : State) (p : Nat) : (frameDone s p).pending = s.pending := by
  simp only [frameDone, State.inc_pending, errRaise_pending, State.pending_putPort, State.modPort_pending, portDown_pending, deliverFlit_pending,
    takeControl_pending, startReplay_pending, rekeySwitch_pending, foldl_pending, forall_eq', implies_true, State.pending_ite, ite_self]

@[simp] theorem flitTake_pending (s : State) (p : Nat) (bytes : List Byte) : (flitTake s p bytes).pending = s.pending := by
  simp only [flitTake, State.inc_pending, State.pending_putPort, State.modPort_pending, frameDone_pending, State.pending_ite, ite_self]

@[simp] theorem mergeFlits_pending (n : Nat) (s : State) (p : Nat) : (mergeFlits n s p).pending = s.pending := by
  induction n generalizing s with
  | zero => rfl
  | succ n ih =>
    unfold mergeFlits
    dsimp only
    split
    · simp only [State.pending_ite, ih, flitTake_pending, State.pending_putPort, ite_self]
    · rfl

@[simp] theorem fecCount_pending (s : State) (p group fecCorr : Nat) (fecBad : Bool) : (fecCount s p group fecCorr fecBad).pending = s.pending := by
  simp only [fecCount, State.inc_pending, State.incBy_pending, State.modPort_pending, State.pending_ite, ite_self]

@[simp] theorem flitArrives_pending (s : State) (p group fecCorr : Nat) (fecBad : Bool) (bytes : List Byte) :
    (flitArrives s p group fecCorr fecBad bytes).pending = s.pending := by
  simp only [flitArrives, State.modPort_pending, mergeFlits_pending, fecCount_pending, State.pending_ite, ite_self]

@[simp] theorem rekeyOffer_pending (s : State) (p : Nat) : (rekeyOffer s p).pending = s.pending := by
  simp only [rekeyOffer, State.pending_putPort, fresh_pending, State.pending_ite, ite_self]

@[simp] theorem rekeyAgree_pending (s : State) (p : Nat) (priv his : List Byte) (frame : Nat) :
    (rekeyAgree s p priv his frame).pending = s.pending := by
  simp only [rekeyAgree, State.pending_wr, State.inc_pending, State.pending_putPort, rekeySwitch_pending]

@[simp] theorem goDark_pending (s0 : State) (p : Nat) : (goDark s0 p).pending = s0.pending := by
  simp only [goDark, State.pending_putPort, chooseUpstream_pending, portLight_pending, swapPortDown_pending, portShow_pending]

@[simp] theorem afterFrame_pending (s : State) (p : Nat) : (afterFrame s p).pending = s.pending := by
  simp only [afterFrame, portDown_pending, rekeySwitch_pending, rekeyOffer_pending, State.pending_ite, ite_self]

@[simp] theorem flitSend_pending (s0 : State) (p : Nat) : (flitSend s0 p).pending = s0.pending := by
  simp only [flitSend, State.pending_ite]
  (repeat' split) <;> simp only [State.pending_putPort, State.modPort_pending, putLine_pending, sendFlit_pending, resend_pending,
    afterFrame_pending]

@[simp] theorem creditBack_pending (s : State) (p vc n : Nat) : (creditBack s p vc n).pending = s.pending := by
  simp only [creditBack, State.modPort_pending]

theorem takeCtl_pending {s : State} {p : Nat} {kind : Nat} {t : State} (h : takeCtl s p kind = some t) : t.pending = s.pending := by
  unfold takeCtl at h
  extract_lets g at h
  split at h <;> cases h
  exact State.pending_putPort ..

/-! ### Optics (12) -/

@[simp] theorem inRange_pending (s : State) (p : Nat) (rings : List Nat) : (inRange s p rings).pending = s.pending := by
  simp only [inRange, State.modPort_pending]

@[simp] theorem swapWarm_pending (s : State) (p : Nat) (w : SwapSt) : (swapWarm s p w).pending = s.pending := by
  simp only [swapWarm, State.pending_wr, laserOn_pending, laserOff_pending, inRange_pending, foldl_pending, forall_eq', implies_true,
    State.pending_ite, ite_self]

@[simp] theorem xtStop_pending (s : State) (p : Nat) : (xtStop s p).pending = s.pending := by
  simp only [xtStop, State.pending_wr, State.modPort_pending, State.pending_ite, ite_self]

@[simp] theorem xtStart_pending (s : State) (p : Nat) : (xtStart s p).pending = s.pending := by
  simp only [xtStart, State.pending_wr, State.pending_putPort, State.pending_ite, ite_self]

@[simp] theorem xtResume_pending (s : State) (p : Nat) : (xtResume s p).pending = s.pending := by
  simp only [xtResume, xtStart_pending, State.pending_ite, ite_self]

@[simp] theorem swapBegin_pending (s : State) (p : Nat) (w : SwapSt) : (swapBegin s p w).pending = s.pending := by
  simp only [swapBegin, State.pending_wr, State.modPort_pending, laneAsk_pending, swapWarm_pending, xtStop_pending, xtResume_pending,
    State.pending_ite, ite_self]

@[simp] theorem swapAsk_pending (s : State) (p k : Nat) : (swapAsk s p k).pending = s.pending := by
  unfold swapAsk
  split <;> simp only [State.pending_putPort, State.modPort_pending, portEvent_pending, optEvent_pending, swapBegin_pending, State.pending_ite,
    ite_self]

@[simp] theorem swapAskAll_pending (s : State) (p : Nat) (l : List Nat) : (swapAskAll s p l).pending = s.pending := by
  simp only [swapAskAll, swapAsk_pending, foldl_pending, forall_eq', implies_true]

@[simp] theorem relockNext_pending (s : State) (p : Nat) : (relockNext s p).pending = s.pending := by
  simp only [relockNext, State.pending_ite]
  (repeat' split) <;> simp only [swapBegin_pending]

@[simp] theorem swapNext_pending (s : State) (p : Nat) : (swapNext s p).pending = s.pending := by
  simp only [swapNext, xtResume_pending, swapAskAll_pending, relockNext_pending]

@[simp] theorem swapDone_pending (s : State) (p : Nat) (w : SwapSt) : (swapDone s p w).pending = s.pending := by
  simp only [swapDone, State.pending_wr, State.wrAll_pending, State.modPort_pending, optEvent_pending, swapRecord_pending, swapNext_pending,
    State.pending_ite, ite_self]

@[simp] theorem swapStep_pending (s : State) (p : Nat) : (swapStep s p).pending = s.pending := by
  simp only [swapStep]
  (repeat' split) <;> simp only [State.pending_wr, inRange_pending, foldl_pending, forall_eq', implies_true]

@[simp] theorem ringRange_pending (s : State) (p ring : Nat) : (ringRange s p ring).pending = s.pending := by
  simp only [ringRange, State.pending_wr, State.modPort_pending, optEvent_pending]

@[simp] theorem swapFails_pending (s : State) (p : Nat) : (swapFails s p).pending = s.pending := by
  unfold swapFails
  split <;> simp only [State.pending_wr, State.modPort_pending, optEvent_pending, sparesShow_pending, swapRecord_pending, laserOff_pending,
    swapWarm_pending, swapNext_pending, ringRange_pending, foldl_pending, forall_eq', implies_true, State.pending_ite, ite_self]

@[simp] theorem txLinePass_pending (s : State) (p : Nat) : (txLinePass s p).pending = s.pending := by
  simp only [txLinePass]
  (repeat' split) <;> simp only [State.pending_wr, State.inc_pending, State.pending_putPort, portEvent_pending, announceNext_pending,
    laneAsk_pending, swapWarm_pending, xtResume_pending, relockNext_pending, swapDone_pending]

@[simp] theorem rxLinePass_pending (s : State) (p : Nat) : (rxLinePass s p).pending = s.pending := by
  simp only [rxLinePass]
  split <;> simp only [State.pending_wr, State.pending_putPort, portDown_pending, xtResume_pending, State.pending_ite, ite_self]

@[simp] theorem reportArrives_pending (s : State) (p : Nat) (pl : List Byte) : (reportArrives s p pl).pending = s.pending := by
  simp only [reportArrives, State.wrAll_pending, State.modPort_pending, laneAsk_pending, swapAskAll_pending, relockNext_pending, foldl_pending,
    forall_eq', implies_true, State.pending_ite, ite_self]

@[simp] theorem biasAdjust_pending (s : State) (p : Nat) (need : List Int) : (biasAdjust s p need).pending = s.pending := by
  simp only [biasAdjust, State.pending_wr, optEvent_pending, swapAskAll_pending, foldl_pending, forall_eq', implies_true, State.pending_ite,
    ite_self]

@[simp] theorem swapNow_pending (s : State) (p : Nat) : (swapNow s p).pending = s.pending := by
  simp only [swapNow, optEvent_pending, swapAsk_pending, State.pending_ite, ite_self]

@[simp] theorem driveGroup_pending (s : State) (p g : Nat) : (driveGroup s p g).pending = s.pending := by
  delta driveGroup
  cases drives s p g with
  | none => rfl
  | some h =>
    dsimp only
    rw [foldl_pending]
    rintro t i _ rfl
    exact State.pending_wr ..

@[simp] theorem headroom_pending (s : State) (p : Nat) : (headroom s p).pending = s.pending := by
  simp only [headroom, State.pending_wr]

@[simp] theorem ringLost_pending (s : State) (p ring : Nat) : (ringLost s p ring).pending = s.pending := by
  simp only [ringLost, State.pending_wr, State.inc_pending, State.modPort_pending, laneAsk_pending, State.pending_ite, ite_self]

@[simp] theorem ringLoop_pending (s : State) (p ring : Nat) (err : Int) : (ringLoop s p ring err).pending = s.pending := by
  simp only [ringLoop, State.pending_wr, State.pending_putPort, ringLost_pending, State.pending_ite, ite_self]

@[simp] theorem ringClamp_pending (s : State) (p ring : Nat) (err : Int) : (ringClamp s p ring err).pending = s.pending := by
  simp only [ringClamp, ringLost_pending, State.pending_ite, ite_self]

@[simp] theorem lockUpdate_pending (s : State) (p : Nat) (errs : List Int) : (lockUpdate s p errs).pending = s.pending := by
  simp only [lockUpdate, driveGroup_pending, headroom_pending, ringLoop_pending, ringClamp_pending, foldl_pending, forall_eq', implies_true,
    State.pending_ite, ite_self]

@[simp] theorem rangeRetry_pending (s : State) (p ring : Nat) : (rangeRetry s p ring).pending = s.pending := by
  simp only [rangeRetry, State.pending_wr, inRange_pending, relockNext_pending, State.pending_ite, ite_self]

@[simp] theorem matrixPut_pending (s : State) (p g : Nat) (m : Nat → Nat → Nat) : (matrixPut s p g m).pending = s.pending := by
  simp only [matrixPut, State.pending_wr, foldl_pending, forall_eq', implies_true]

@[simp] theorem matricesRejected_pending (s : State) (p : Nat) (bad : List Nat) : (matricesRejected s p bad).pending = s.pending := by
  simp only [matricesRejected, State.pending_wr, optEvent_pending, foldl_pending, forall_eq', implies_true]

@[simp] theorem xtEnd_pending (s : State) (p : Nat) (c : List Nat × List Int) : (xtEnd s p c).pending = s.pending := by
  simp only [xtEnd, State.pending_wr, driveGroup_pending, matrixPut_pending, matricesRejected_pending, foldl_pending, forall_eq', implies_true,
    State.pending_ite, ite_self]

@[simp] theorem laneLevels_pending (s : State) (p l : Nat) (r : LaneRead) : (laneLevels s p l r).pending = s.pending := by
  simp only [laneLevels, State.wrAll_pending, State.modPort_pending]

@[simp] theorem laneCalib_pending (s : State) (p l : Nat) (r : LaneRead) : (laneCalib s p l r).pending = s.pending := by
  simp only [laneCalib, State.wrAll_pending, State.modPort_pending, laneLevels_pending]

@[simp] theorem adaptLane_pending (s : State) (p l : Nat) (r : LaneRead) : (adaptLane s p l r).pending = s.pending := by
  simp only [adaptLane, State.pending_wr, laneLevels_pending]

@[simp] theorem adapt_pending (s : State) (p : Nat) (lanes : List LaneRead) (bers bad clean : List Nat) :
    (adapt s p lanes bers bad clean).pending = s.pending := by
  simp only [adapt, State.pending_wr, State.incBy_pending, State.modPort_pending, adaptLane_pending, foldl_pending, forall_eq', implies_true,
    State.pending_ite, ite_self]

@[simp] theorem partnerSwap_pending (s : State) (p k : Nat) (l : List (Option LaneRead)) : (partnerSwap s p k l).pending = s.pending := by
  refine foldl_pending ?_ _ _
  rintro t i _ rfl
  split
  · rw [laneCalib_pending, inRange_pending, State.pending_wr]
  · rw [ringRange_pending]

/-! ### The milestone counter (13) -/

@[simp] theorem mileWrap_pending (s : State) : (mileWrap s).pending = s.pending := by
  simp only [mileWrap]

@[simp] theorem stampAll_pending (s : State) : (stampAll s).pending = s.pending := by
  simp only [stampAll, State.modPort_pending, foldl_pending, forall_eq', implies_true, State.pending_ite, ite_self]

@[simp] theorem mileJump_pending (s : State) (n : Nat) : (mileJump s n).pending = s.pending := by
  simp only [mileJump, mileWrap_pending, stampAll_pending, State.pending_ite, ite_self]

@[simp] theorem offsetsMoved_pending (s : State) (n : Int) : (offsetsMoved s n).pending = s.pending := by
  simp only [offsetsMoved]

@[simp] theorem mileCorrect_pending (s : State) (off : Int) : (mileCorrect s off).pending = s.pending := by
  simp only [mileCorrect, State.pending_wr, mileEvent_pending, mileJump_pending, offsetsMoved_pending, State.pending_ite, ite_self]

@[simp] theorem mileFollow_pending (s : State) (p : Nat) : (mileFollow s p).pending = s.pending := by
  simp only [mileFollow, State.pending_wr, State.modPort_pending, mileCorrect_pending, State.pending_ite, ite_self]

@[simp] theorem stampArrives_pending (s : State) (p t1 : Nat) (back : Option (Nat × Nat)) (refModule hops : Nat) :
    (stampArrives s p t1 back refModule hops).pending = s.pending := by
  unfold stampArrives
  split
  next => rfl
  next t ht => rw [mileFollow_pending, chooseUpstream_pending, State.modPort_pending, takeCtl_pending ht]

@[simp] theorem mileApply_pending (s : State) : (mileApply s).pending = s.pending := by
  simp only [mileApply, State.pending_wr, State.wrAll_pending, applyPending_pending, chooseUpstream_pending, mileJump_pending, State.pending_ite,
    ite_self]

/-! ### Control messages and hail (11) -/

@[simp] theorem ackTimeout_pending (s : State) (p : Nat) : (ackTimeout s p).pending = s.pending := by
  simp only [ackTimeout]
  split <;> simp only [startReplay_pending, State.pending_ite, ite_self]

@[simp] theorem announced_pending (s : State) (p kind group line : Nat) : (announced s p kind group line).pending = s.pending := by
  unfold announced
  cases ht : takeCtl s p kind with
  | none => rfl
  | some t =>
    rw [← takeCtl_pending ht]
    dsimp only
    split
    · exact portDown_pending ..
    · exact (State.pending_wr ..).trans (State.pending_putPort ..)

@[simp] theorem testReported_pending (s : State) (p group : Nat) (clean : Bool) : (testReported s p group clean).pending = s.pending := by
  unfold testReported
  split
  next => rfl
  next t ht =>
    split
    · exact takeCtl_pending ht
    split <;> simp only [State.pending_ite, laneAsk_pending, State.pending_wr, ite_self, takeCtl_pending ht]

@[simp] theorem rekeyOffered_pending (s : State) (p : Nat) (key : List Byte) (frame : Nat) : (rekeyOffered s p key frame).pending = s.pending := by
  unfold rekeyOffered
  split
  next => rfl
  next t ht =>
    dsimp only
    split
    · split <;> simp only [State.pending_ite, State.modPort_pending, rekeyAgree_pending, State.pending_putPort, fresh_pending, ite_self,
        takeCtl_pending ht]
    · rw [State.pending_putPort, takeCtl_pending ht]

@[simp] theorem rekeyAccepted_pending (s : State) (p : Nat) (key : List Byte) : (rekeyAccepted s p key).pending = s.pending := by
  unfold rekeyAccepted
  split
  next => rfl
  next t ht => split <;> simp only [rekeyAgree_pending, takeCtl_pending ht]

@[simp] theorem rekeyDeclined_pending (s : State) (p : Nat) : (rekeyDeclined s p).pending = s.pending := by
  unfold rekeyDeclined
  split
  next => rfl
  next t ht => split <;> simp only [State.modPort_pending, rekeyAgree_pending, takeCtl_pending ht]

@[simp] theorem rekeyDue_pending (s : State) (p : Nat) : (rekeyDue s p).pending = s.pending := by
  simp only [rekeyDue, rekeyOffer_pending, State.pending_ite, ite_self]

@[simp] theorem rekeyAgain_pending (s : State) (p : Nat) : (rekeyAgain s p).pending = s.pending := by
  simp only [rekeyAgain, rekeyOffer_pending, State.pending_ite, ite_self]

@[simp] theorem darkMessage_pending (s : State) (p : Nat) (ack voted : Bool) : (darkMessage s p ack voted).pending = s.pending := by
  unfold darkMessage
  split
  next => rfl
  next t ht => simp only [State.pending_ite, goDark_pending, State.pending_putPort, ite_self, takeCtl_pending ht]

@[simp] theorem hailFail_pending (s : State) (p : Nat) (refused : Bool) : (hailFail s p refused).pending = s.pending := by
  simp only [hailFail, State.wrAll_pending, State.modPort_pending, portEvent_pending, chooseUpstream_pending]

@[simp] theorem hailSay_pending (s : State) (p step : Nat) (parts : List (List Byte)) : (hailSay s p step parts).pending = s.pending := by
  simp only [hailSay, State.modPort_pending]

@[simp] theorem helloSay_pending (s : State) (p : Nat) : (helloSay s p).pending = s.pending := by
  simp only [helloSay, State.modPort_pending, fresh_pending, hailSay_pending]

@[simp] theorem authSay_pending (s : State) (p : Nat) : (authSay s p).pending = s.pending := by
  simp only [authSay, State.pending_putPort, hailSay_pending]

@[simp] theorem lightSeen_pending (s : State) (p : Nat) : (lightSeen s p).pending = s.pending := by
  simp only [lightSeen, State.pending_wr, State.inc_pending, hailBegin_pending, helloSay_pending, State.pending_ite, ite_self]

@[simp] theorem reportTry_pending (s : State) (p : Nat) : (reportTry s p).pending = s.pending := by
  unfold reportTry
  split <;> simp only [attPush_pending, State.modPort_pending, State.pending_ite, ite_self]

@[simp] theorem hailHello_pending (s : State) (p : Nat) (h : HailInfo) : (hailHello s p h).pending = s.pending := by
  simp only [hailHello, State.pending_wr, State.modPort_pending, authSay_pending, reportTry_pending]

@[simp] theorem hailAuth_pending (s0 : State) (p : Nat) (h : HailInfo) : (hailAuth s0 p h).pending = s0.pending := by
  simp only [hailAuth, State.pending_wr, State.modPort_pending, hailFail_pending, reportTry_pending, State.pending_ite, ite_self]

@[simp] theorem hailKeys_pending (s : State) (p : Nat) : (hailKeys s p).pending = s.pending := by
  simp only [hailKeys, State.pending_wr, State.inc_pending, State.wrAll_pending, State.pending_putPort, foldl_pending, forall_eq', implies_true,
    State.pending_ite, ite_self]

@[simp] theorem hailLanes_pending (s : State) (p : Nat) (h : HailInfo) : (hailLanes s p h).pending = s.pending := by
  simp only [hailLanes, State.pending_wr, State.wrAll_pending, State.modPort_pending, driveGroup_pending, headroom_pending, matrixPut_pending,
    matricesRejected_pending, laneCalib_pending, foldl_pending, forall_eq', implies_true, State.pending_ite, ite_self]

theorem hailStart_pending (s : State) (p : Nat) (h : HailInfo) {app : State → State} (ha : ∀ t, (app t).pending = t.pending) :
    (hailStart s p h app).pending = s.pending := by
  unfold hailStart
  extract_lets s1 sum s2 grant s3
  have h2 : s2.pending = s.pending := by
    unfold s2
    rw [State.pending_ite, State.pending_wr, State.pending_setReg, ite_self, ha]
  split
  · rfl
  split
  · exact ha s
  · rw [State.wrAll_pending, State.modPort_pending, hailSay_pending, h2]

@[simp] theorem hailMile_pending (s : State) (p : Nat) (h : HailInfo) : (hailMile s p h).pending = s.pending := by
  simp only [hailMile, State.pending_wr, State.modPort_pending, chooseUpstream_pending, mileFollow_pending, hailSay_pending]

@[simp] theorem hailAdmit_pending (s : State) (p : Nat) (h : HailInfo) : (hailAdmit s p h).pending = s.pending := by
  simp only [hailAdmit, State.wrAll_pending, State.modPort_pending, portEvent_pending, learn_pending, xtResume_pending, hailFail_pending,
    State.pending_ite, ite_self]

theorem hailStep_pending (s : State) (p : Nat) (h : HailInfo) {app : State → State} (ha : ∀ t, (app t).pending = t.pending) :
    (hailStep s p h app).pending = s.pending := by
  unfold hailStep
  split
  · rfl
  split
  · exact hailHello_pending ..
  · exact hailAuth_pending ..
  · exact hailKeys_pending ..
  · exact hailLanes_pending ..
  · exact hailStart_pending _ _ _ ha
  · exact hailMile_pending ..
  · exact hailAdmit_pending ..
  · rfl

@[simp] theorem hailTimeout_pending (s : State) (p : Nat) : (hailTimeout s p).pending = s.pending := by
  simp only [hailTimeout, hailFail_pending, State.pending_ite, ite_self]

@[simp] theorem backoffOver_pending (s : State) (p : Nat) : (backoffOver s p).pending = s.pending := by
  simp only [backoffOver, State.wrAll_pending, State.modPort_pending, State.pending_ite, ite_self]

@[simp] theorem toneHeard_pending (s : State) (p : Nat) : (toneHeard s p).pending = s.pending := by
  simp only [toneHeard, hailBegin_pending, State.pending_ite, ite_self]

@[simp] theorem toneOver_pending (s : State) (p : Nat) : (toneOver s p).pending = s.pending := by
  simp only [toneOver, State.modPort_pending, portEvent_pending, State.pending_ite, ite_self]

@[simp] theorem lnkEnable_pending (s : State) (p : Nat) (on : Bool) : (lnkEnable s p on).pending = s.pending := by
  simp only [lnkEnable, State.pending_wr, portDown_pending, portOff_pending, hailBegin_pending, State.pending_ite, ite_self]

@[simp] theorem lnkRehail_pending (s : State) (p : Nat) : (lnkRehail s p).pending = s.pending := by
  simp only [lnkRehail, portDown_pending, hailBegin_pending, State.pending_ite, ite_self]

/-! ### Routing (13) -/

@[simp] theorem routeDrop_pending (s : State) (p vc flits : Nat) : (routeDrop s p vc flits).pending = s.pending := by
  simp only [routeDrop, State.inc_pending, creditBack_pending]

@[simp] theorem egress_pending (s : State) (e vc : Nat) (bytes : List Byte) (wharf : Option Nat) :
    (egress s e vc bytes wharf).pending = s.pending := by
  simp only [egress, State.modPort_pending]

@[simp] theorem deliver_pending (s : State) (port : Option Nat) (home vc part cls srcModule srcPart flits : Nat) (body : List Byte) :
    (deliver s port home vc part cls srcModule srcPart flits body).pending = s.pending := by
  simp only [deliver, State.pending_ite]
  (repeat' split) <;> simp only [State.inc_pending, creditBack_pending]

@[simp] theorem routeArrived_pending (s : State) (p vc : Nat) : (routeArrived s p vc).pending = s.pending := by
  simp only [routeArrived]
  (repeat' split) <;> simp only [State.modPort_pending, creditBack_pending, routeDrop_pending, egress_pending, deliver_pending]

@[simp] theorem originFail_pending (s : State) (m : RemoteMsg) : (originFail s m).pending = s.pending := by
  simp only [originFail]
  (repeat' split) <;> simp only [State.modBarge_pending, bargeHalt_pending]

@[simp] theorem routeLocal_pending (s : State) (vc : Nat) : (routeLocal s vc).pending = s.pending := by
  simp only [routeLocal]
  (repeat' split) <;> simp only [State.inc_pending, pieceWritten_pending, egress_pending, deliver_pending, originFail_pending]

@[simp] theorem messageRoute_pending (s : State) (src vc : Nat) : (messageRoute s src vc).pending = s.pending := by
  simp only [messageRoute, routeArrived_pending, routeLocal_pending, State.pending_ite, ite_self]

@[simp] theorem remoteTake_pending (s : State) (i : Nat) (m : RemoteIn) : (remoteTake s i m).pending = s.pending := by
  unfold remoteTake
  split <;> simp only [creditBack_pending]

@[simp] theorem remoteDrop_pending (s : State) (m : RemoteIn) (addr : Nat) : (remoteDrop s m addr).pending = s.pending := by
  unfold remoteDrop
  split <;> simp only [State.inc_pending, errRaise_pending]

@[simp] theorem remoteUe_pending (s : State) (m : RemoteIn) (ue : Nat × Nat) (esc : Option Nat) : (remoteUe s m ue esc).pending = s.pending := by
  simp only [remoteUe, errRaise_pending]

@[simp] theorem remoteSpadUe_pending (s : State) (m : RemoteIn) (tile ll : Nat) (esc : Option Nat) :
    (remoteSpadUe s m tile ll esc).pending = s.pending := by
  simp only [remoteSpadUe, errRaise_pending, noteUe_pending]

@[simp] theorem remoteEvent_pending (s : State) (m : RemoteIn) (loc : Loc) (u : Upset) : (remoteEvent s m loc u).2.pending = s.pending := by
  unfold remoteEvent
  split
  · split
    next h => rw [remoteSpadUe_pending, spadEcc_eq_pending h]
    next h => exact spadEcc_eq_pending h
  · split
    next h => rw [remoteUe_pending, hbmEcc_eq_pending h]
    next h => exact hbmEcc_eq_pending h
  · rfl

theorem remoteBad_pending {s : State} {m : RemoteIn} {dpa : Nat} {n : Nat} {t : State} (h : remoteBad s m dpa n = some t) :
    t.pending = s.pending := by
  obtain ⟨l₁, x, l₂, _, hx, _⟩ := List.findSome?_eq_some_iff.1 h
  split at hx
  · obtain ⟨ll, _, rfl⟩ := Option.map_eq_some_iff.1 hx
    exact remoteSpadUe_pending ..
  · obtain ⟨ue, _, rfl⟩ := Option.map_eq_some_iff.1 hx
    exact remoteUe_pending ..
  · cases hx

@[simp] theorem remoteLand_pending (m : RemoteIn) (l : List Posted) (ecc : Option Upset) (s : State) :
    (remoteLand m l ecc s).2.2.pending = s.pending := by
  induction l generalizing ecc s with
  | nil => rfl
  | cons x r ih =>
    unfold remoteLand
    extract_lets loc p e
    have hp : p.2.pending = s.pending := by
      unfold p loc
      split
      · exact writePresent_pending ..
      · rfl
    have he : e.2.pending = s.pending := by
      unfold e
      split
      · rw [remoteEvent_pending, hp]
      · exact hp
    split
    · exact hp
    split
    · exact he
    split
    next h => rw [remoteBad_pending h, he]
    next =>
      dsimp only
      split
      · split
        · rw [writeQueue_pending, spadWrite_pending, he]
        · rw [spadWrite_pending, he]
      · rw [spadWrite_pending, he]
    next => rw [ih, dpaPut_pending, he]

@[simp] theorem remoteWriteAt_pending (s : State) (i : Nat) (ecc : Option Upset) : (remoteWriteAt s i ecc).pending = s.pending := by
  unfold remoteWriteAt
  split <;> simp only [remoteTake_pending, remoteDrop_pending, remoteLand_pending, State.pending_ite, ite_self]

@[simp] theorem remoteAddAt_pending (s : State) (i : Nat) : (remoteAddAt s i).pending = s.pending := by
  simp only [remoteAddAt]
  (repeat' split) <;> simp only [gateAddNow_pending, remoteTake_pending, remoteDrop_pending]

/-! ### Segments (10) -/

@[simp] theorem bufWrite_pending (s : State) (p : PostSt) (a : Nat) (bs : List Byte) : (bufWrite s p a bs).1.pending = s.pending := by
  simp only [bufWrite, dpaWrite_pending]

@[simp] theorem sendBody_pending (s : State) (n : Nat) (dst : Nat × Nat) (body : List Byte) (wharf : Nat) :
    (sendBody s n dst body wharf).pending = s.pending := by
  simp only [sendBody, originate_pending]

@[simp] theorem sendSeg_pending (s : State) (b : Bucket) (g : Seg) (dst : Nat × Nat) : (sendSeg s b g dst).pending = s.pending := by
  simp only [sendSeg, sendBody_pending]

@[simp] theorem holdSeg_pending (s : State) (b : Bucket) (g : Seg) : (holdSeg s b g).pending = s.pending := by
  simp only [holdSeg, State.putBucket_pending]

/-! ### The bucket state machine (10) -/

@[simp] theorem sendAll_pending (s : State) (b : Bucket) (g : Seg) (dsts : List (Nat × Nat)) : (sendAll s b g dsts).pending = s.pending := by
  simp only [sendAll, sendSeg_pending, foldl_pending, forall_eq', implies_true]

theorem writeResult_pending {s : State} {b : Bucket} {g : Seg} {t : State} (h : writeResult s b g = some t) : t.pending = s.pending := by
  unfold writeResult at h
  split at h
  · cases h; rfl
  extract_lets n a at h
  split at h <;> cases h
  exact dpaWrite_pending ..

theorem writeAll_pending {s : State} {b : Bucket} {l : List Seg} {t : State} (h : writeAll s b l = some t) : t.pending = s.pending := by
  induction l generalizing s with
  | nil => cases h; rfl
  | cons g l ih =>
    cases hg : writeResult s b g with
    | none =>
      rw [writeAll, List.foldl_cons, Option.bind_some, hg, List.foldl_fixed' fun _ => rfl] at h
      cases h
    | some u =>
      rw [writeAll, List.foldl_cons, Option.bind_some, hg] at h
      rw [ih h, writeResult_pending hg]

@[simp] theorem resultStuck_pending (s : State) (b : Bucket) : (resultStuck s b).pending = s.pending := by
  simp only [resultStuck, State.putBucket_pending, bufferHalt_pending, State.pending_ite, ite_self]

@[simp] theorem finish_pending (s : State) (b : Bucket) : (finish s b).pending = s.pending := by
  simp only [finish, State.pending_ite]
  (repeat' split) <;> simp only [State.inc_pending, hbmWrite_pending, settleWork_pending, gateAddNow_pending, bucketFree_pending,
    State.putBucket_pending, bufferHalt_pending]

@[simp] theorem missOne_pending (s : State) (b : Bucket) (g : Seg) : (missOne s b g).1.pending = s.pending := by
  simp only [missOne]
  (repeat' split) <;> simp only [sendSeg_pending]

@[simp] theorem missFlush_pending (s : State) (b : Bucket) : (missFlush s b).pending = s.pending := by
  simp only [missFlush, State.putBucket_pending, missOne_pending, foldlFst_pending, forall_eq', implies_true]

/-- Apart from its use, where the segments are such that the kernel must not reduce them. -/
theorem sendSegs_pending (s : State) (b : Bucket) (l : List Seg) (d : Nat × Nat) :
    (l.foldl (fun t g => sendSeg t b g d) s).pending = s.pending := by
  refine foldl_pending ?_ l s
  rintro t g _ rfl
  exact sendSeg_pending ..

@[simp] theorem missStart_pending (s : State) (b : Bucket) : (missStart s b).pending = s.pending := by
  unfold missStart
  extract_lets segs
  cases sendTo s b.grp b.bucket with
  | none =>
    dsimp only
    exact State.putBucket_pending ..
  | some d =>
    dsimp only
    exact (State.putBucket_pending ..).trans ((sendSeg_pending ..).trans (sendSegs_pending ..))

@[simp] theorem passStart_pending (s : State) (b : Bucket) (fmt exponent rep : Nat) : (passStart s b fmt exponent rep).pending = s.pending := by
  simp only [passStart, State.putBucket_pending, missFlush_pending, missStart_pending, State.pending_ite, ite_self]

@[simp] theorem passDecide_pending (s : State) (b : Bucket) : (passDecide s b).pending = s.pending := by
  unfold passDecide
  extract_lets t s0 last e fall fmt ex src note s1
  split
  · split
    next => rfl
    next segs _ =>
    extract_lets s1 s2 b1
    have h0 : s0.pending = s.pending := by
      unfold s0
      split
      · exact dpaTurn_pending ..
      · rfl
    have h1 : s1.pending = s0.pending := foldl_pending (by rintro u g _ rfl; exact sendAll_pending ..) _ _
    have h2 : s2.pending = s.pending := (sendAll_pending ..).trans (h1.trans h0)
    split
    next s3 h3 =>
      have h3 : s3.pending = s2.pending := by
        split at h3
        · exact writeAll_pending h3
        · rw [Option.some.inj h3]
      rw [finish_pending, State.putBucket_pending, h3, h2]
    next => rw [resultStuck_pending, h2]
  · rw [passStart_pending, sendAll_pending, State.inc_pending]

@[simp] theorem passEnd_pending (s : State) (b : Bucket) : (passEnd s b).pending = s.pending := by
  simp only [passEnd, passDecide_pending, State.pending_ite, ite_self]
  (repeat' split) <;> simp only [State.putBucket_pending, sendSeg_pending, passDecide_pending]

@[simp] theorem passAnew_pending (s : State) (b : Bucket) (fmt exponent rep : Nat) : (passAnew s b fmt exponent rep).pending = s.pending := by
  simp only [passAnew]
  split <;> simp only [passStart_pending, passEnd_pending, State.pending_ite, ite_self]

@[simp] theorem missDo_pending (s : State) (b : Bucket) : (missDo s b).pending = s.pending := by
  simp only [missDo, State.putBucket_pending, passEnd_pending, State.pending_ite]
  (repeat' split) <;> simp only [State.putBucket_pending, sendSeg_pending, missFlush_pending, missStart_pending, passEnd_pending]

@[simp] theorem slotTaken_pending (s : State) (n t k : Nat) : (slotTaken s n t k).pending = s.pending := by
  simp only [slotTaken]

@[simp] theorem bufAsk_pending (s : State) (b : Bucket) (p : PostSt) (rs : List (Nat × Nat)) : (bufAsk s b p rs).pending = s.pending := by
  simp only [bufAsk, bufferHalt_pending, State.pending_ite]
  (repeat' split) <;> simp only [hostAsk_pending]

theorem adderDo_pending {s : State} {b : Bucket} {p : PostSt} {l : Landed} {x : State × PostSt × Landed} (h : adderDo s b p l = some x) :
    x.1.pending = s.pending := by
  unfold adderDo at h
  extract_lets e n w useL useO rs own p' loc o mx s0 at_ at h
  split at h
  · cases h
  obtain ⟨pl, _, rfl⟩ := Option.map_eq_some_iff.1 h
  extract_lets r fault l1 y
  have h0 : s0.pending = s.pending := by
    unfold s0
    split
    · exact endpointTurn_pending ..
    · rfl
  have hy : y.1.pending = s.pending := by
    rw [bufWrite_pending, foldl_pending, h0]
    rintro u r _ rfl
    exact dpaTurn_pending ..
  dsimp only
  split
  · exact hy
  · rw [spadWrite_pending, spadWrite_pending, endpointTurn_pending, hy]

@[simp] theorem setLanded_pending (s : State) (b : Bucket) (l : Landed) : (setLanded s b l).pending = s.pending := by
  simp only [setLanded, State.putBucket_pending]

@[simp] theorem adderRun_pending (n : Nat) (s : State) (t : Nat) : (adderRun n s t).pending = s.pending := by
  induction n generalizing s with
  | zero => rfl
  | succ n ih =>
    unfold adderRun
    split
    · rfl
    split
    next => rfl
    next => rw [ih, gateAddNow_pending]
    next b l _ _ =>
      split
      next => rfl
      next s1 p1 l1 h1 =>
        obtain ⟨p, _, h1⟩ := Option.bind_eq_some_iff.1 h1
        rw [ih, gateAddNow_pending, setLanded_pending, adderDo_pending h1]

@[simp] theorem addersOf_pending (s : State) (t : Nat) : (addersOf s t).pending = s.pending := by
  simp only [addersOf, adderRun_pending]

@[simp] theorem landHeld_pending (s : State) (b : Bucket) (g : Seg) : (landHeld s b g).pending = s.pending := by
  simp only [landHeld, State.putBucket_pending, passEnd_pending]

@[simp] theorem landOne_pending (s : State) (b : Bucket) (p : PostSt) (op : Nat) (first : Bool) (g : Seg) (b1 : Bucket) :
    (landOne s b p op first g b1).pending = s.pending := by
  unfold landOne
  split
  · extract_lets l
    split
    next s1 p1 l1 h => rw [State.putBucket_pending, adderDo_pending h]
    next => exact bufAsk_pending ..
  next t _ =>
    extract_lets k wharf s1 b2 bytes s2
    split
    · rfl
    have h2 : s2.pending = s.pending := by
      rw [spadWrite_pending, endpointTurn_pending, State.putBucket_pending, slotTaken_pending]
    rw [addersOf_pending, gateAddNow_pending]
    exact h2

@[simp] theorem exchEcc_pending (s : State) (i : Nat) (ecc : Option Upset) : (exchEcc s i ecc).pending = s.pending := by
  unfold exchEcc
  split
  · split
    · split
      next h => rw [spadUeAlone_pending, spadEcc_eq_pending h]
      next h => exact spadEcc_eq_pending h
    · split
      · rfl
      split
      next h => rw [hbmUeAlone_pending, hbmEcc_eq_pending h]
      next h => exact hbmEcc_eq_pending h
  · rfl

@[simp] theorem segEcc_pending (s : State) (t : SegTurn) : (segEcc s t).pending = s.pending := by
  simp only [segEcc]
  (repeat' split) <;> simp only [exchEcc_pending]

@[simp] theorem slotEcc_pending (s : State) (t : TileTurn) : (slotEcc s t).pending = s.pending := by
  unfold slotEcc
  split
  · split
    next h => rw [spadUeAlone_pending, spadEcc_eq_pending h]
    next h => exact spadEcc_eq_pending h
  · rfl

@[simp] theorem bufNext_pending (s : State) (b : Bucket) (p : PostSt) : (bufNext s b p).pending = s.pending := by
  simp only [bufNext, bufAsk_pending, State.pending_ite, ite_self]

@[simp] theorem slotLand_pending (s : State) (i : Nat) : (slotLand s i).pending = s.pending := by
  simp only [slotLand]
  (repeat' split) <;> simp only [addersOf_pending, landHeld_pending, landOne_pending, bufNext_pending]

@[simp] theorem contribute_pending (s : State) (b : Bucket) (p : PostSt) : (contribute s b p).pending = s.pending := by
  unfold contribute
  split <;> simp only [dpaTurn_pending, State.putBucket_pending, bufferHalt_pending, sendSeg_pending, bufAsk_pending, State.pending_ite, ite_self]

@[simp] theorem forwardOne_pending (s : State) (b : Bucket) (p : PostSt) (l : Landed) (rest : List Landed) :
    (forwardOne s b p l rest).pending = s.pending := by
  simp only [forwardOne, State.putBucket_pending, passEnd_pending]
  (repeat' split) <;> simp only [endpointTurn_pending, dpaTurn_pending, sendSeg_pending]

@[simp] theorem segForward_pending (s : State) (i : Nat) : (segForward s i).pending = s.pending := by
  simp only [segForward]
  (repeat' split) <;> simp only [finish_pending, passEnd_pending, addersOf_pending, contribute_pending, forwardOne_pending]

@[simp] theorem segDrop_pending (s : State) (m : SegIn) : (segDrop s m).pending = s.pending := by
  unfold segDrop
  split <;> simp only [State.inc_pending]

theorem segTake_pending (s : State) (i kind : Nat) {f : State → Nat → SegIn → Seg → Option State}
    (hf : ∀ t n m g u, f t n m g = some u → u.pending = t.pending) : (segTake s i kind f).pending = s.pending := by
  unfold segTake
  split
  · rfl
  split
  · rfl
  extract_lets s0 s1
  have h1 : s1.pending = s.pending := by
    unfold s1
    split
    · exact creditBack_pending ..
    · rfl
  split
  · rw [segDrop_pending, h1]
  · exact getD_pending (fun t ht => (hf _ _ _ _ _ ht).trans h1) rfl

theorem entryFor_pending {s : State} {n : Nat} {m : SegIn} {g : Seg} {x : Bucket × State} (h : entryFor s n m g = some x) :
    x.2.pending = s.pending := by
  unfold entryFor at h
  split at h
  · cases h; rfl
  split at h <;> cases h
  rfl

theorem holdOr_pending {s : State} {b : Bucket} {g : Seg} {t : State} (h : holdOr s b g = some t) : t.pending = s.pending := by
  unfold holdOr at h
  split at h <;> cases h
  exact holdSeg_pending ..

theorem landOr_pending {s : State} {b : Bucket} {g : Seg} {t : State} (h : landOr s b g = some t) : t.pending = s.pending := by
  unfold landOr at h
  split at h
  · split at h
    · cases h; exact landOne_pending ..
    · exact holdOr_pending h
  · exact holdOr_pending h

theorem onPartial_pending {s : State} {n : Nat} {m : SegIn} {g : Seg} {t : State} (h : onPartial s n m g = some t) : t.pending = s.pending := by
  unfold onPartial at h
  split at h
  · cases h; exact segDrop_pending ..
  obtain ⟨x, hx, h⟩ := Option.bind_eq_some_iff.1 h
  rw [← entryFor_pending hx]
  extract_lets b r at h
  split at h
  · split at h <;> cases h
    rw [passEnd_pending, State.putBucket_pending, missOne_pending]
  · exact landOr_pending h

theorem relayUp_pending {s t : State} {n : Nat} {m : SegIn} {x : Bucket × State} (h : relayUp s n m x = some t) : t.pending = x.2.pending := by
  cases h
  split
  · exact sendBody_pending ..
  · rfl

theorem onContribution_pending {s : State} {n : Nat} {m : SegIn} {g : Seg} {t : State} (h : onContribution s n m g = some t) :
    t.pending = s.pending := by
  unfold onContribution at h
  split at h
  · cases h; exact segDrop_pending ..
  obtain ⟨x, hx, h⟩ := Option.bind_eq_some_iff.1 h
  split at h
  · rw [landOr_pending h, entryFor_pending hx]
  split at h
  · rw [relayUp_pending h, entryFor_pending hx]
  · cases h; exact segDrop_pending ..

theorem onNotice_pending {s : State} {n : Nat} {m : SegIn} {g : Seg} {t : State} (h : onNotice s n m g = some t) : t.pending = s.pending := by
  unfold onNotice at h
  split at h
  · cases h; exact segDrop_pending ..
  obtain ⟨x, hx, h⟩ := Option.bind_eq_some_iff.1 h
  split at h
  · cases h
    rw [passEnd_pending, State.putBucket_pending, entryFor_pending hx]
  split at h
  · rw [relayUp_pending h, entryFor_pending hx]
  · cases h; exact segDrop_pending ..

theorem onResult_pending {s : State} {n : Nat} {m : SegIn} {g : Seg} {t : State} (h : onResult s n m g = some t) : t.pending = s.pending := by
  obtain ⟨x, hx, h⟩ := Option.bind_eq_some_iff.1 h
  rw [← entryFor_pending hx]
  extract_lets b b1 at h
  split at h
  · exact holdOr_pending h
  split at h <;> cases h
  split
  next t ht => rw [finish_pending, State.putBucket_pending, sendAll_pending, writeResult_pending ht]
  next => exact resultStuck_pending ..

theorem onRepeat_pending {s : State} {n : Nat} {m : SegIn} {g : Seg} {t : State} (h : onRepeat s n m g = some t) : t.pending = s.pending := by
  obtain ⟨x, hx, h⟩ := Option.bind_eq_some_iff.1 h
  rw [← entryFor_pending hx]
  extract_lets b s1 at h
  split at h
  · exact holdOr_pending h
  cases h
  rw [passAnew_pending, State.pending_ite, State.inc_pending, ite_self, sendAll_pending]

theorem onTrailer_pending {s : State} {n : Nat} {m : SegIn} {g : Seg} {t : State} (h : onTrailer s n m g = some t) : t.pending = s.pending := by
  obtain ⟨x, hx, h⟩ := Option.bind_eq_some_iff.1 h
  rw [← entryFor_pending hx]
  extract_lets b b1 b2 at h
  split at h
  · split at h <;> cases h
    rw [finish_pending, State.putBucket_pending, sendAll_pending]
  split at h
  · cases h
    rw [passEnd_pending, State.putBucket_pending]
  · exact holdOr_pending h

@[simp] theorem stepDiscard_pending (s : State) (n step : Nat) : (stepDiscard s n step).pending = s.pending := by
  refine foldl_pending ?_ _ _
  rintro t b _ rfl
  split
  · rw [settleWork_pending, bucketFree_pending]
  · rw [bucketFree_pending]

@[simp] theorem addBucket_pending (s : State) (b : Bucket) : (addBucket s b).pending = s.pending := by
  simp only [addBucket, State.putBucket_pending, State.pending_ite, ite_self]

theorem postEnter_pending {s : State} {c : PostCap} {r : Nat} {count : Nat} {t0 : Nat} {q : List Nat} {t : State} (h : postEnter s c r count t0 q =
    some t) :
    t.pending = s.pending := by
  unfold postEnter at h
  extract_lets n b s1 s2 at h
  have h1 : s1.pending = s.pending := addBucket_pending ..
  have h2 : s2.pending = s.pending := by
    unfold s2
    rw [State.pending_ite, missDo_pending, ite_self, h1]
  split at h
  · cases h
  split at h
  · cases h; rw [State.putBucket_pending, h1]
  split at h
  · rw [← Option.some.inj h, h2]
  next b2 _ =>
    extract_lets b3 s3 writes b4 at h
    have h3 : s3.pending = s.pending := (State.putBucket_pending ..).trans h2
    split at h
    · cases h
    split at h
    · split at h
      next s4 h4 => cases h; rw [finish_pending, State.putBucket_pending, writeAll_pending h4, h3]
      next => cases h; rw [resultStuck_pending, h3]
    · rw [← Option.some.inj h, h3]

@[simp] theorem postBody_pending (r : Nat) (s : State) (f : Fetched) : (postBody r s f).1.pending = s.pending := by
  simp only [postBody]
  split <;> simp only [stepDiscard_pending]

@[simp] theorem missNow_pending (s : State) (n : Nat) (q : List Nat) : (missNow s n q).pending = s.pending := by
  simp only [missNow, missDo_pending, addBucket_pending, State.pending_ite, ite_self]

@[simp] theorem postPlace_pending (s : State) (r : Nat) (x : Dispatched × PostCap) : (postPlace s r x).pending = s.pending := by
  refine getD_pending (fun t ht => ?_) ?_
  · rw [postEnter_pending ht, setWork_pending]
  · rw [State.pending_ite, missNow_pending, ite_self]

@[simp] theorem postRun_pending (s : State) (r : Nat) : (postRun s r).pending = s.pending := by
  simp only [postRun, ringExec_pending, postBody_pending, postPlace_pending, foldl_pending, forall_eq', implies_true, State.pending_ite, ite_self]

@[simp] theorem deadlinePass_pending (s : State) (r count : Nat) : (deadlinePass s r count).pending = s.pending := by
  simp only [deadlinePass]
  (repeat' split) <;> simp only [missNow_pending]

@[simp] theorem resultTimeout_pending (s : State) (r count : Nat) : (resultTimeout s r count).pending = s.pending := by
  simp only [resultTimeout]
  (repeat' split) <;> simp only [bucketHalt_pending, outsideHalt_pending]

/-! ### Power domains (15) -/

@[simp] theorem portVote_pending (s : State) (low : Bool) (p : Nat) : (portVote s low p).pending = s.pending := by
  simp only [portVote, State.modPort_pending, State.pending_ite, ite_self]

@[simp] theorem voteRefresh_pending (s : State) : (voteRefresh s).pending = s.pending := by
  simp only [voteRefresh, State.wrAll_pending, portVote_pending, foldl_pending, forall_eq', implies_true, State.pending_ite, ite_self]

@[simp] theorem domLow_pending (s : State) (d : Nat) : (domLow s d).pending = s.pending := by
  simp only [domLow, State.pending_wr, State.modCore_pending, foldl_pending, forall_eq', implies_true, State.pending_ite, ite_self]

@[simp] theorem domUpAgain_pending (s : State) (d : Nat) : (domUpAgain s d).pending = s.pending := by
  simp only [domUpAgain, State.pending_wr, foldl_pending, forall_eq', implies_true, State.pending_ite, ite_self]

@[simp] theorem setDom_pending (s : State) (d : Nat) (f : DomForm) : (setDom s d f).pending = s.pending := by
  simp only [setDom]

@[simp] theorem domDone_pending (s : State) (d : Nat) : (domDone s d).pending = s.pending := by
  simp only [domDone, State.pending_ite]
  (repeat' split) <;> simp only [clockRefresh_pending, domLow_pending, domUpAgain_pending, setDom_pending]

/-! ### Partitions and warm resets (16) -/

@[simp] theorem partGo_pending (s : State) (block : Nat) : (partGo s block).pending = s.pending := by
  simp only [partGo, State.pending_wr, State.wrAll_pending, hostAsk_pending, startFault_pending, State.pending_ite, ite_self]

@[simp] theorem partRecord_pending (s : State) (op : PartOp) (status result : Nat) : (partRecord s op status result).pending = s.pending := by
  simp only [partRecord, State.pending_wr, hostPost_pending, State.pending_ite, ite_self]

@[simp] theorem startBegin_pending (s : State) (op : PartOp) : (startBegin s op).pending = s.pending := by
  simp only [startBegin, State.wrAll_pending]

@[simp] theorem stopBegin_pending (s : State) (op : PartOp) : (stopBegin s op).pending = s.pending := by
  simp only [stopBegin, State.pending_wr, stopFlights_pending, bucketFree_pending, ringOff_pending, dropAtts_pending, foldl_pending, forall_eq',
    implies_true, State.pending_ite, ite_self]

@[simp] theorem blockReturn_pending (s : State) (status : CplStatus) (data : List Byte) : (blockReturn s status data).pending = s.pending := by
  simp only [blockReturn, State.pending_wr, dropReq_pending, startFault_pending, partRecord_pending, startBegin_pending, stopBegin_pending,
    State.pending_ite, ite_self]

@[simp] theorem scrubQuad_pending (s : State) (q : Nat) : (scrubQuad s q).pending = s.pending := by
  simp only [scrubQuad, State.inc_pending, State.wrAll_pending, foldl_pending, forall_eq', implies_true]

@[simp] theorem scrubDone_pending (s : State) (op : PartOp) : (scrubDone s op).pending = s.pending := by
  simp only [scrubDone, scrubQuad_pending, foldl_pending, forall_eq', implies_true]

@[simp] theorem castUp_pending (s : State) (d : Nat) : (castUp s d).pending = s.pending := by
  simp only [castUp, setDom_pending]

@[simp] theorem trapsClear_pending (s : State) (tiles : List Nat) : (trapsClear s tiles).pending = s.pending := by
  refine foldl_pending ?_ _ _
  rintro t n _ rfl
  refine foldl_pending ?_ _ _
  rintro u k _ rfl
  refine foldl_pending ?_ _ _
  rintro v i _ rfl
  exact State.pending_setReg ..

@[simp] theorem partRelease_pending (s : State) (p quads : Nat) (measured : List Byte) (warm : Bool) :
    (partRelease s p quads measured warm).pending = s.pending := by
  simp only [partRelease, State.wrAll_pending, State.modTile_pending, ledgerExtend_pending, bucketFree_pending, State.modPort_pending,
    castUp_pending, trapsClear_pending, foldl_pending, forall_eq', implies_true, State.pending_ite, ite_self]

@[simp] theorem startStep_pending (s : State) : (startStep s).pending = s.pending := by
  simp only [startStep, State.pending_ite]
  (repeat' split) <;> simp only [State.pending_wr, partRecord_pending, scrubDone_pending, partRelease_pending]

@[simp] theorem stopDrained_pending (s : State) : (stopDrained s).pending = s.pending := by
  simp only [stopDrained, State.pending_ite]
  (repeat' split) <;> simp only [State.wrAll_pending, ledgerExtend_pending, partRecord_pending]

@[simp] theorem warmRequest_pending (s : State) : (warmRequest s).pending = s.pending := by
  simp only [warmRequest, State.pending_wr, State.putTrust_pending, stopFlights_pending, ringOff_pending, dropAtts_pending, portDown_pending,
    foldl_pending, forall_eq', implies_true, State.pending_ite, ite_self]

@[simp] theorem warmWrite_pending (s : State) (data : Nat) : (warmWrite s data).pending = s.pending := by
  simp only [warmWrite, warmRequest_pending, State.pending_ite, ite_self]

@[simp] theorem warmQuiet_pending (s : State) : (warmQuiet s).pending = s.pending := by
  simp only [warmQuiet, State.putTrust_pending, domLow_pending, setDom_pending, foldl_pending, forall_eq', implies_true, State.pending_ite,
    ite_self]

@[simp] theorem warmMeasure_pending (s : State) : (warmMeasure s).pending = s.pending := by
  simp only [warmMeasure, State.putTrust_pending, measureStep_pending, State.pending_ite, ite_self]

@[simp] theorem condemn_pending (s : State) (site : Nat) : (condemn s site).pending = s.pending := by
  simp only [condemn, State.pending_ite, ite_self]

@[simp] theorem tileFails_pending (s : State) (n : Nat) : (tileFails s n).pending = s.pending := by
  simp only [tileFails, errFatal_pending, condemn_pending]

@[simp] theorem warmTest_pending (s : State) (failed : List Nat) : (warmTest s failed).pending = s.pending := by
  simp only [warmTest, State.putTrust_pending, tileFails_pending, foldl_pending, forall_eq', implies_true, State.pending_ite, ite_self]

@[simp] theorem warmRestart_pending (s : State) : (warmRestart s).pending = s.pending := by
  simp only [warmRestart, State.pending_wr, State.putTrust_pending, hailBegin_pending, domUpAgain_pending, setDom_pending, partRelease_pending,
    foldl_pending, forall_eq', implies_true, State.pending_ite, ite_self]

@[simp] theorem warmStep_pending (s : State) (failed : List Nat) : (warmStep s failed).pending = s.pending := by
  simp only [warmStep, State.pending_ite]
  (repeat' split) <;> simp only [warmQuiet_pending, warmMeasure_pending, warmTest_pending, warmRestart_pending]

/-! ### Power, clocks and heat (15) -/

@[simp] theorem limitEvent_pending (s : State) (w code : Nat) : (limitEvent s w code).pending = s.pending := by
  simp only [limitEvent, errRaise_pending]

@[simp] theorem shutdown_pending (s : State) (w code : Nat) : (shutdown s w code).pending = s.pending := by
  simp only [shutdown, errFatal_pending]

@[simp] theorem railsFall_pending (s : State) (keep : Rail → Bool) : (railsFall s keep).pending = s.pending := by
  simp only [railsFall]

@[simp] theorem unpowered_pending (s : State) : (unpowered s).pending = s.pending := by
  simp only [unpowered]

@[simp] theorem railsGone_pending (s : State) : (railsGone s).pending = s.pending := by
  simp only [railsGone, unpowered_pending]

@[simp] theorem powerUp_pending (s : State) : (powerUp s).pending = s.pending := by
  simp only [powerUp, State.wrAll_pending, State.pending_modPower, unpowered_pending, State.pending_ite, ite_self]

@[simp] theorem wearRestore_pending (s : State) : (wearRestore s).pending = s.pending := by
  unfold wearRestore
  split <;> simp only [State.pending_setReg, State.pending_wr, State.modPort_pending, sparesShow_pending, foldl_pending, forall_eq', implies_true]

@[simp] theorem rowFound_pending (s : State) (uid row : Nat) : (rowFound s uid row).1.pending = s.pending := by
  simp only [rowFound, State.wrAll_pending]
  (repeat' split) <;> simp only [State.pending_wr]

@[simp] theorem rowsNone_pending (s : State) : (rowsNone s).pending = s.pending := by
  simp only [rowsNone, State.pending_wr, foldl_pending, forall_eq', implies_true, State.pending_ite, ite_self]

@[simp] theorem rowsFresh_pending (s : State) (tile : Nat) : (rowsFresh s tile).pending = s.pending := by
  simp only [rowsFresh, State.wrAll_pending, foldl_pending, forall_eq', implies_true]

@[simp] theorem spareStep_pending (s : State) (q : Nat) (ok : Bool) : (spareStep s q ok).pending = s.pending := by
  unfold spareStep
  split <;> simp only [State.pending_wr, State.wrAll_pending, rowsFresh_pending, State.pending_ite, ite_self]

@[simp] theorem selfTest_pending (s : State) (x : SelfTest) : (selfTest s x).pending = s.pending := by
  simp only [selfTest, errFatal_pending, hailBegin_pending, condemn_pending, State.pending_modPower, rowFound_pending, rowsNone_pending,
    spareStep_pending, foldl_pending, foldlFst_pending, forall_eq', implies_true, State.pending_ite, ite_self]

@[simp] theorem powerStep_pending (s : State) (x : SelfTest) : (powerStep s x).pending = s.pending := by
  simp only [powerStep, State.pending_ite]
  (repeat' split) <;> simp only [State.wrAll_pending, tollShow_pending, clockRefresh_pending, flashShow_pending, measureStep_pending,
    State.pending_modPower, wearRestore_pending, selfTest_pending]

@[simp] theorem shutdownOpen_pending (s : State) : (shutdownOpen s).pending = s.pending := by
  simp only [shutdownOpen, shutdown_pending]

@[simp] theorem powerTimeout_pending (s : State) : (powerTimeout s).pending = s.pending := by
  simp only [powerTimeout, State.pending_ite]
  (repeat' split) <;> simp only [enterRecovery_pending, shutdown_pending, shutdownOpen_pending]

@[simp] theorem inputChange_pending (s : State) (mv : Nat) : (inputChange s mv).pending = s.pending := by
  simp only [inputChange, State.pending_wr, State.pending_modPower, railsGone_pending, State.pending_ite, ite_self]

@[simp] theorem overVoltage_pending (s : State) : (overVoltage s).pending = s.pending := by
  simp only [overVoltage, shutdown_pending, State.pending_ite, ite_self]

@[simp] theorem underVoltage_pending (s : State) : (underVoltage s).pending = s.pending := by
  simp only [underVoltage, shutdown_pending, State.pending_ite, ite_self]

@[simp] theorem sagEntry_pending (s : State) : (sagEntry s).pending = s.pending := by
  simp only [sagEntry, State.pending_wr, State.wrAll_pending, clockRefresh_pending, limitEvent_pending, State.pending_modPower, State.pending_ite,
    ite_self]

@[simp] theorem sagExit_pending (s : State) : (sagExit s).pending = s.pending := by
  simp only [sagExit, State.pending_wr, State.pending_modPower, State.pending_ite, ite_self]

@[simp] theorem poolExchange_pending (s : State) (eff other input : Nat) : (poolExchange s eff other input).pending = s.pending := by
  simp only [poolExchange, State.wrAll_pending, limitEvent_pending, State.pending_modPower, foldl_pending, forall_eq', implies_true,
    State.pending_ite, ite_self]

@[simp] theorem tileDemand_pending (s : State) (t mw : Nat) : (tileDemand s t mw).pending = s.pending := by
  simp only [tileDemand, State.pending_modPower, State.pending_ite, ite_self]

@[simp] theorem tileGrant_pending (s : State) (t : Nat) : (tileGrant s t).pending = s.pending := by
  simp only [tileGrant, clockRefresh_pending, State.pending_modPower, State.pending_ite, ite_self]

@[simp] theorem clockStep_pending (s : State) (t mw : Nat) : (clockStep s t mw).pending = s.pending := by
  simp only [clockStep, State.pending_wr, clockRefresh_pending, limitEvent_pending, State.pending_modPower, State.pending_ite, ite_self]

@[simp] theorem droopTrip_pending (s : State) (t : Nat) (x : Droop) : (droopTrip s t x).pending = s.pending := by
  simp only [droopTrip, State.inc_pending, State.pending_modPower, State.pending_ite, ite_self]

@[simp] theorem droopClear_pending (s : State) (t : Nat) : (droopClear s t).pending = s.pending := by
  unfold droopClear
  split <;> simp only [limitEvent_pending, State.pending_modPower, State.pending_ite, ite_self]

@[simp] theorem heatCeiling_pending (s : State) (k c : Nat) : (heatCeiling s k c).pending = s.pending := by
  simp only [heatCeiling, State.pending_wr, State.pending_modPower, State.pending_ite, ite_self]

@[simp] theorem thermalCut_pending (s : State) (k : Nat) : (thermalCut s k).pending = s.pending := by
  simp only [thermalCut, clockRefresh_pending, limitEvent_pending, State.pending_modPower, heatCeiling_pending]

@[simp] theorem heatAct_pending (s : State) (k h : Nat) : (heatAct s k h).pending = s.pending := by
  simp only [heatAct, State.pending_modPower, thermalCut_pending, State.pending_ite, ite_self]

@[simp] theorem shutdownTemp_pending (s : State) (key : Nat) (hot : Bool) (ticks w code : Nat) :
    (shutdownTemp s key hot ticks w code).pending = s.pending := by
  simp only [shutdownTemp, shutdown_pending, State.pending_modPower, State.pending_ite, ite_self]

@[simp] theorem showHot_pending (s : State) : (showHot s).pending = s.pending := by
  simp only [showHot, State.wrAll_pending]

@[simp] theorem sampleTile_pending (s : State) (t : Nat) (l : List Nat) : (sampleTile s t l).pending = s.pending := by
  simp only [sampleTile, State.pending_wr, State.pending_modPower, heatAct_pending, shutdownTemp_pending, showHot_pending, State.pending_ite,
    ite_self]

@[simp] theorem sampleWharf_pending (s : State) (w temp : Nat) : (sampleWharf s w temp).pending = s.pending := by
  simp only [sampleWharf, State.pending_modPower, heatAct_pending, shutdownTemp_pending, State.pending_ite, ite_self]

@[simp] theorem sampleStack_pending (s : State) (st temp : Nat) : (sampleStack s st temp).pending = s.pending := by
  simp only [sampleStack, limitEvent_pending, State.pending_modPower, shutdownTemp_pending, State.pending_ite, ite_self]

@[simp] theorem sampleChiplet_pending (s : State) (p temp : Nat) : (sampleChiplet s p temp).pending = s.pending := by
  simp only [sampleChiplet, State.pending_wr, State.pending_modPower, State.pending_ite, ite_self]

@[simp] theorem sampleBank_pending (s : State) (p panel temp : Nat) : (sampleBank s p panel temp).pending = s.pending := by
  simp only [sampleBank, State.pending_wr, optEvent_pending, State.pending_modPower, State.pending_ite, ite_self]

@[simp] theorem thermal_pending (s : State) (x : Sample) : (thermal s x).pending = s.pending := by
  simp only [thermal, State.pending_ite]
  (repeat' split) <;> simp only [sampleTile_pending, sampleWharf_pending, sampleStack_pending, sampleChiplet_pending, sampleBank_pending]

@[simp] theorem recheck_pending (s : State) (k : Nat) : (recheck s k).pending = s.pending := by
  simp only [recheck, State.pending_modPower, thermalCut_pending, State.pending_ite, ite_self]

@[simp] theorem restoreStep_pending (s : State) (k : Nat) : (restoreStep s k).pending = s.pending := by
  simp only [restoreStep, clockRefresh_pending, State.pending_modPower, heatCeiling_pending, State.pending_ite, ite_self]

@[simp] theorem capSet_pending (s : State) (peak sustained : Nat) : (capSet s peak sustained).pending = s.pending := by
  simp only [capSet, State.wrAll_pending]

@[simp] theorem wakeCast_pending (s : State) : (wakeCast s).pending = s.pending := by
  simp only [wakeCast, State.pending_modPower, State.pending_ite, ite_self]

@[simp] theorem wakeEnds_pending (s : State) : (wakeEnds s).pending = s.pending := by
  simp only [wakeEnds, State.pending_modPower]

@[simp] theorem boardWake_pending (s : State) : (boardWake s).pending = s.pending := by
  simp only [boardWake, State.pending_modPower, State.pending_ite, ite_self]

@[simp] theorem hwFails_pending (s : State) (x : HwFail) : (hwFails s x).pending = s.pending := by
  unfold hwFails
  split <;> simp only [errFatal_pending, tileFails_pending]

@[simp] theorem fatalRings_pending (s : State) : (fatalRings s).pending = s.pending := by
  simp only [fatalRings, dropReqs_pending, State.putRing_pending, foldl_pending, forall_eq', implies_true, State.pending_ite, ite_self]

@[simp] theorem fatalAlert_pending (s : State) : (fatalAlert s).pending = s.pending := by
  simp only [fatalAlert, msixRaise_pending, railsFall_pending, foldl_pending, forall_eq', implies_true, State.pending_ite, ite_self]

@[simp] theorem fatalNext_pending (s : State) : (fatalNext s).pending = s.pending := by
  unfold fatalNext
  split
  · rfl
  · rfl
  · rw [State.pending_fatalStep, chooseUpstream_pending, foldl_pending]
    rintro t p _ rfl
    exact portOff_pending t p
  · rw [State.pending_fatalStep, fatalRings_pending]
  · rw [State.pending_fatalStep, fatalAlert_pending]
  · rfl

/-! ### Settings and telemetry (18) -/

@[simp] theorem stagedAct_pending (s : State) (off val mask : Nat) : (stagedAct s off val mask).pending = s.pending := by
  simp only [stagedAct, xtStart_pending, swapNow_pending, lnkEnable_pending, lnkRehail_pending, State.pending_ite, ite_self]

@[simp] theorem stagedBody_pending (r : Nat) (s : State) (f : Fetched) : (stagedBody r s f).1.pending = s.pending := by
  unfold stagedBody
  dsimp only
  split
  · rfl
  split
  · split
    · exact stagedLand_pending stagedAct_pending ..
    · rfl
  · rfl
  · rfl

@[simp] theorem summaryApply_pending (s : State) (p : Nat) : (summaryApply s p).pending = s.pending := by
  have h : (blkApply noAct s (.summary p)).pending = s.pending := blkApply_pending noAct_pending ..
  unfold summaryApply
  simp only [State.pending_ite, h, ite_self]

@[simp] theorem groupApply_pending (s : State) (n : Nat) : (groupApply s n).pending = s.pending := by
  have h : (blkApply noAct s (.rgrp n)).pending = s.pending := blkApply_pending noAct_pending ..
  unfold groupApply
  simp only [State.pending_ite, State.pending_setReg, h, ite_self]

@[simp] theorem stApply_pending (s : State) (b : Blk) : (stApply s b).pending = s.pending := by
  cases b <;> simp only [stApply, State.pending_ite, ringApply_pending, summaryApply_pending, blkApply_pending noAct_pending, groupApply_pending,
    blkApply_pending stagedAct_pending, mileApply_pending, ite_self]

@[simp] theorem stagedTimeout_pending (s : State) (r count : Nat) : (stagedTimeout s r count).pending = s.pending := by
  simp only [stagedTimeout]
  (repeat' split) <;> simp only [setWork_pending, stApply_pending]

@[simp] theorem telemetryBody_pending (r : Nat) (s : State) (f : Fetched) : (telemetryBody r s f).1.pending = s.pending := by
  simp only [telemetryBody, deliverRing_pending]
  (repeat' split) <;> simp only [deliverRing_pending]

/-! ### Background work (17) -/

@[simp] theorem dropBgVote_pending (s : State) : (dropBgVote s).pending = s.pending := by
  simp only [dropBgVote, State.pending_modPower]

@[simp] theorem scrubAdvance_pending (s : State) (st : Nat) : (scrubAdvance s st).pending = s.pending := by
  simp only [scrubAdvance, State.inc_pending, State.wrAll_pending, dropBgVote_pending, State.pending_ite, ite_self]

@[simp] theorem scrubUe_pending (s : State) (st dpa k : Nat) (esc : Option Nat) : (scrubUe s st dpa k esc).pending = s.pending := by
  simp only [scrubUe, State.inc_pending, hbmUeAlone_pending]

@[simp] theorem scrubWord_pending (known : List Nat) (s : State) (st w0 : Nat) (e : Upset) : (scrubWord known s st w0 e).pending = s.pending := by
  simp only [scrubWord, State.pending_ite]
  (repeat' split) <;> simp only [State.inc_pending, hbmEcc_pending, scrubUe_pending]

@[simp] theorem scrubRead_pending (s : State) (st : Nat) (ecc : List Upset) : (scrubRead s st ecc).pending = s.pending := by
  simp only [scrubRead, scrubUe_pending, scrubWord_pending, foldl_pending, forall_eq', implies_true]

@[simp] theorem scrubBurst_pending (s : State) (st : Nat) (ecc : List Upset) : (scrubBurst s st ecc).pending = s.pending := by
  simp only [scrubBurst, scrubAdvance_pending, scrubRead_pending, State.pending_ite, ite_self]

@[simp] theorem scrubDeadline_pending (s : State) (st : Nat) : (scrubDeadline s st).pending = s.pending := by
  simp only [scrubDeadline, State.pending_wr, State.pending_modPower, State.pending_ite, ite_self]

@[simp] theorem scrubDeadlines_pending (s : State) : (scrubDeadlines s).pending = s.pending := by
  simp only [scrubDeadlines, scrubDeadline_pending, foldl_pending, forall_eq', implies_true]

@[simp] theorem hbmTrain_pending (s : State) (st ch : Nat) : (hbmTrain s st ch).pending = s.pending := by
  simp only [hbmTrain, State.pending_ite, ite_self]

@[simp] theorem sensorTrim_pending (s : State) (tile key value ticks : Nat) : (sensorTrim s tile key value ticks).pending = s.pending := by
  simp only [sensorTrim, State.pending_ite, ite_self]

@[simp] theorem hbmWriteBack_pending (s : State) (word : Nat) : (hbmWriteBack s word).pending = s.pending := by
  simp only [hbmWriteBack]

@[simp] theorem litHour_pending (s : State) : (litHour s).pending = s.pending := by
  simp only [litHour, State.inc_pending, foldl_pending, forall_eq', implies_true, State.pending_ite, ite_self]

@[simp] theorem wearHour_pending (s : State) (day : Bool) : (wearHour s day).pending = s.pending := by
  simp only [wearHour, State.pending_wr, litHour_pending, foldl_pending, forall_eq', implies_true, State.pending_ite, ite_self]

@[simp] theorem flashWrite_pending (s : State) : (flashWrite s).pending = s.pending := by
  simp only [flashWrite, State.pending_ite]
  (repeat' split) <;> simp only [flashShow_pending]

@[simp] theorem telemetrySample_pending (s : State) : (telemetrySample s).pending = s.pending := by
  simp only [telemetrySample, State.pending_ite, ite_self]

/-! ### The commands of the link (02) -/

@[simp] theorem badAccess_pending (s : State) (isWrite : Bool) : (badAccess s isWrite).pending = s.pending := by
  simp only [badAccess, State.inc_pending, State.pending_ite, ite_self]

theorem barWrite_pending (s : State) (off size : Nat) {f : State → State} (hf : ∀ t, (f t).pending = t.pending) :
    (barWrite s off size f).pending = s.pending := by
  unfold barWrite
  rw [State.pending_ite, State.pending_ite, hf, badAccess_pending, ite_self, ite_self]

@[simp] theorem moduleShow_pending (s : State) (off : Nat) : (moduleShow s off).pending = s.pending := by
  simp only [moduleShow, chooseUpstream_pending, State.pending_ite, ite_self]

/-! ### The commands of the ports (11) -/

@[simp] theorem darkAfter_pending (s : State) (p : Nat) : (darkAfter s p).pending = s.pending := by
  simp only [darkAfter, State.pending_putPort, goDark_pending, State.pending_ite, ite_self]

/-! ### The commands of the tollhouse (16) -/

@[simp] theorem bmcReport_pending (s : State) (nonce : List Byte) : (bmcReport s nonce).pending = s.pending := by
  simp only [bmcReport, attPush_pending, State.pending_ite, ite_self]

/-! ### The commands -/

/-- An outcome of a command is `run` of a state whose queue is the given state's. -/
def Answers (c : Instr) (s : State) (o : Out) : Prop := ∃ t, o = run c t ∧ t.pending = s.pending

theorem answers_run {c : Instr} {s t : State} (h : t.pending = s.pending) : Answers c s (run c t) := ⟨t, rfl, h⟩

theorem answers_runV {c : Instr} {s t : State} (h : t.pending = s.pending) : Answers c s (runV c t) :=
  answers_run ((voteRefresh_pending t).trans h)

/-- The command of `runVIf` is judged by a condition which is its well-formedness. -/
theorem answers_runVIf {c : Instr} {s t : State} (h : t.pending = s.pending) : Answers c s (runVIf c.wf t) := answers_runV h

theorem exec_answers (c : Instr) (s : State) : Answers c s (exec c s) := by
  cases c with
  | sadd | ssub | sand | sor | sxor | sshl | sshr | ssra | smin | smax | scmpeq | scmplt | scmpltu | saddi | ssubi | sandi | sori | sxori | sshli
  | sshri | ssrai | smini | smaxi | scmpeqi | scmplti | scmpltui | smul | smulhu | smulhs | sld | sst | scsrr | scsrw | br | brz | brnz | bri
  | brl =>
    exact answers_run (issueOne_pending _ _ fun _ => issueS_pending)
  | vadd | vsub | vmul | vfma | vmax | vmin | vabs | vneg | vsel | vmov | vscale | vcvt | vcmplt | vcmpeq | viadd | visub | vimul | vand | vor
  | vxor | vshl | vshr | vbcast | vexp | vlog | vrcp | vrsqrt | vtanh | vexpsub | vnorm | vrsum | vrmax | vrmin | vrsegsum | vrsegmax | vrsegmin
  | vcompress | vexpand | vopt0 | vopt1 | vopt2 | vopt3 =>
    exact answers_run (issueOne_pending _ _ fun _ => issueV_pending)
  | mmul | mswap | mshadow => exact answers_run (issueOne_pending _ _ fun _ => issueM_pending)
  | lfeed | lvec | lscl | lbind | lbase | lskip | lbind3 | lbase3 => exact answers_run (issueOne_pending _ _ fun _ => issueL_pending)
  | tvec | tvec16 | tvec8 | tscl | tbind | tbase | tskip => exact answers_run (issueOne_pending _ _ fun _ => issueT_pending)
  | ginc | gadd | gwait | gread | mwait | mread => exact answers_run (issueOne_pending _ _ fun _ => issueY_pending)
  | bundleIssue => exact answers_run (bundleIssue_pending ..)
  | operationLanding => exact answers_run (by rw [settleCore_pending, landingCycle_pending])
  | freezeEnd => exact answers_run (freezeEnds_pending ..)
  | rescaleFreezeEnd => exact answers_run (rescaleEnds_pending ..)
  | coreWaitTimeout => exact answers_run (waitTimeout_pending ..)
  | requestGrant => exact answers_run (grantRequest_pending ..)
  | patrolScrubClaim => exact answers_run (scrubClaim_pending ..)
  | indexGroupArrival => exact answers_run (indexArrives_pending ..)
  | imageLoad => exact answers_runV (ringExec_pending _ _ _ fun _ _ => imageLoadBody_pending ..)
  | flightLaunchAtEnd | flightLaunchAtStart => exact answers_runV (ringExec_pending _ _ _ fun _ _ => launchBody_pending ..)
  | flightStopAtEop | flightStopAtBundle => exact answers_runV (ringExec_pending _ _ _ fun _ _ => stopBody_pending ..)
  | barge => exact answers_runV (ringExec_pending _ _ _ fun _ _ => bargeBody_pending ..)
  | gateSet => exact answers_runV (ringExec_pending _ _ _ fun _ _ => gateSetBody_pending ..)
  | gateAdd => exact answers_runV (ringExec_pending _ _ _ fun _ _ => gateAddBody_pending ..)
  | gateWait => exact answers_runV (ringExec_pending _ _ _ fun _ _ => gateWaitBody_pending ..)
  | fenceThisRing | fenceOtherRing => exact answers_runV (ringExec_pending _ _ _ fun _ _ => fenceBody_pending ..)
  | haltAndDumpAtCount | haltAndDumpAtMilestone => exact answers_runV (ringExec_pending _ _ _ fun _ _ => dumpBody_pending ..)
  | noOperation | wipeAll | wipeRange => exact answers_runV (ringExec_pending _ _ _ fun _ _ => rfl)
  | launchStepDone => exact answers_runV (launchStep_pending ..)
  | flightRelease => exact answers_runV (release_pending ..)
  | flightEnd => exact answers_runV (flightEnd_pending ..)
  | gateUnitApply => exact answers_run (gateUnit_pending ..)
  | standingBargeFiring => exact answers_runV (by rw [State.pending_ite, standingFire_pending, ite_self])
  | bargeAdmission => exact answers_runV (bargeAdmit_pending ..)
  | bargePieceRead => exact answers_runV (pieceRead_pending ..)
  | bargeCompletion => exact answers_runV (bargeComplete_pending ..)
  | meshTransferDelivery => exact answers_runV (meshDeliver_pending ..)
  | haltNoticeArrival => exact answers_runV (by rw [addersOf_pending, slotEcc_pending, notice_pending])
  | ucieTrainingAttempt => exact answers_runV (by rw [maskExchange_pending, State.pending_ite, attemptStart_pending, ite_self])
  | ucieTrainingStepDone => exact answers_runV (trainStep_pending ..)
  | ucieAttemptTimeout => exact answers_runV (attemptFails_pending ..)
  | ucieLaneFailure => exact answers_runV (laneFailure_pending ..)
  | dlActiveLoss | hostResetN => exact answers_runV (dlLoss_pending ..)
  | cplTimeoutExpiry => exact answers_runV (cplTimeout_pending ..)
  | hostReadCompletion => exact answers_runV (readCompletion_pending ..)
  | barBadAccess => exact answers_runV (badAccess_pending ..)
  | registerWrite => exact answers_runV (barWrite_pending _ _ _ fun _ => by rw [moduleShow_pending, regWrite_pending])
  | msixTableWrite => exact answers_runV (barWrite_pending _ _ _ fun _ => msixWrite_pending ..)
  | ringEnable => exact answers_runV (ringEnable_pending ..)
  | ringDisable => exact answers_runV (ringDisable_pending ..)
  | summaryPoll => exact answers_runV (summaryPoll_pending ..)
  | pollBackoff => exact answers_runV (pollBackoff_pending ..)
  | summaryBitmapReturn => exact answers_runV (bitmapReturn_pending ..)
  | summaryCasReturn => exact answers_runV (casReturn_pending ..)
  | doorbellReadReturn => exact answers_runV (doorbellReturn_pending ..)
  | descriptorReadReturn => exact answers_runV (descReturn_pending ..)
  | descriptorComplete => exact answers_runV (descComplete_pending ..)
  | irqHoldoffExpiry => exact answers_runV (holdoffEnd_pending ..)
  | descriptorWaitTimeout => exact answers_runV (descTimeout_pending ..)
  | stagedSettingTimeout => exact answers_runV (stagedTimeout_pending ..)
  | attestationReportRequest => exact answers_runV (ringExec_pending _ _ _ fun _ _ => attBody_pending ..)
  | certificateChainRequest => exact answers_runV (ringExec_pending _ _ _ fun _ _ => chainBody_pending ..)
  | bmcAttestationReport => exact answers_runV (bmcReport_pending ..)
  | pldmFirmwareTransfer => exact answers_runV (pldmTransfer_pending ..)
  | pldmActivate => exact answers_runV (pldmActivate_pending ..)
  | provisionWrite => exact answers_runV (provisionWrite_pending ..)
  | warmReset => exact answers_runV (by rw [State.pending_ite, warmWrite_pending, ite_self])
  | warmResetStepDone => exact answers_runV (warmStep_pending ..)
  | partitionStart | partitionStop => exact answers_runV (by rw [State.pending_ite, partGo_pending, ite_self])
  | startBlockReturn => exact answers_runV (blockReturn_pending ..)
  | flitTransmit => exact answers_runV (by rw [darkAfter_pending, flitSend_pending])
  | lineSwitch => exact answers_runV (by rw [State.pending_ite, rxLinePass_pending, txLinePass_pending, ite_self])
  | flitReceive => exact answers_runV (flitArrives_pending ..)
  | ackTimeout => exact answers_runV (ackTimeout_pending ..)
  | retireAnnouncement | restoreAnnouncement => exact answers_runV (announced_pending ..)
  | testPatternReport => exact answers_runV (testReported_pending ..)
  | rekeyOffer => exact answers_runV (rekeyOffered_pending ..)
  | rekeyAccept => exact answers_runV (rekeyAccepted_pending ..)
  | rekeyDecline => exact answers_runV (rekeyDeclined_pending ..)
  | rekeyPeriodExpiry => exact answers_runV (rekeyDue_pending ..)
  | rekeyOfferRepeat => exact answers_runV (rekeyAgain_pending ..)
  | darkRequest => exact answers_runV (darkMessage_pending ..)
  | lossOfLight => exact answers_runV (by rw [State.pending_ite, portDown_pending, ite_self])
  | lightDetected => exact answers_runV (lightSeen_pending ..)
  | hailStepDone => exact answers_runV (hailStep_pending _ _ _ fun _ => blkApply_pending stagedAct_pending ..)
  | hailAttemptTimeout => exact answers_runV (hailTimeout_pending ..)
  | hailBackoffExpiry => exact answers_runV (backoffOver_pending ..)
  | wakeToneDetected => exact answers_runV (toneHeard_pending ..)
  | wakeToneTimeout => exact answers_runV (toneOver_pending ..)
  | lnkEnable => exact answers_runV (by rw [State.pending_ite, lnkEnable_pending, ite_self])
  | lnkRehail => exact answers_runV (by rw [State.pending_ite, lnkRehail_pending, ite_self])
  | receivedPowerReport =>
    refine answers_runV ?_
    split
    next t ht => rw [reportArrives_pending, takeCtl_pending ht]
    next => rfl
  | reportsAbsent => exact answers_runV (by rw [State.pending_ite, State.modPort_pending, optEvent_pending, ite_self])
  | biasAdjust => exact answers_runV (biasAdjust_pending ..)
  | swapNow => exact answers_runV (by rw [State.pending_ite, swapNow_pending, ite_self])
  | laserSwapStepDone =>
    refine answers_runV ?_
    split
    · rfl
    split
    · exact swapStep_pending ..
    · rw [State.pending_ite, partnerSwap_pending, ite_self]
  | spareLockTimeout => exact answers_runV (by rw [State.pending_ite, swapFails_pending, ite_self])
  | ringLockUpdate => exact answers_runV (lockUpdate_pending ..)
  | ringRangeRetry => exact answers_runV (rangeRetry_pending ..)
  | xtalkRecalibration =>
    refine answers_runV ?_
    split
    · rfl
    split
    · rw [State.pending_ite, xtStart_pending, ite_self]
    · rw [State.pending_ite, xtEnd_pending, ite_self]
  | xtalkNow => exact answers_runV (by rw [State.pending_ite, xtStart_pending, ite_self])
  | receiverAdapt => exact answers_runV (adapt_pending ..)
  | milestoneTimestamp => exact answers_runV (stampArrives_pending ..)
  | messageRoute => exact answers_runV (messageRoute_pending ..)
  | remoteWrite => exact answers_runV (remoteWriteAt_pending ..)
  | remoteGateAdd => exact answers_runV (remoteAddAt_pending ..)
  | reductionBucketPost => exact answers_runV (postRun_pending ..)
  | partialSegment => exact answers_runV ((segTake_pending _ _ _ fun _ _ _ _ _ => onPartial_pending).trans (segEcc_pending ..))
  | contributionSegment => exact answers_runV ((segTake_pending _ _ _ fun _ _ _ _ _ => onContribution_pending).trans (segEcc_pending ..))
  | missingNotice => exact answers_runV ((segTake_pending _ _ _ fun _ _ _ _ _ => onNotice_pending).trans (segEcc_pending ..))
  | resultSegment => exact answers_runV (segTake_pending _ _ _ fun _ _ _ _ _ => onResult_pending)
  | repeatNotice => exact answers_runV (segTake_pending _ _ _ fun _ _ _ _ _ => onRepeat_pending)
  | trailerSegment => exact answers_runV ((segTake_pending _ _ _ fun _ _ _ _ _ => onTrailer_pending).trans (segEcc_pending ..))
  | slotLanding => exact answers_runV (by rw [State.pending_ite, slotLand_pending, exchEcc_pending, ite_self])
  | segmentForward => exact answers_runV (by rw [State.pending_ite, segForward_pending, exchEcc_pending, ite_self])
  | bucketDeadline => exact answers_runV (deadlinePass_pending ..)
  | resultTimeout => exact answers_runV (resultTimeout_pending ..)
  | powerUpStepDone => exact answers_runV (powerStep_pending ..)
  | inputVoltageChange => exact answers_runV (inputChange_pending ..)
  | fatalHardwareFailure => exact answers_runV (hwFails_pending ..)
  | droopTrip => exact answers_runV (droopTrip_pending ..)
  | droopClear => exact answers_runV (droopClear_pending ..)
  | poolExchange => exact answers_runV (poolExchange_pending ..)
  | tileDemand => exact answers_runV (tileDemand_pending ..)
  | tileGrant => exact answers_runV (tileGrant_pending ..)
  | tileClockStep => exact answers_runV (clockStep_pending ..)
  | thermalSample => exact answers_runV (thermal_pending ..)
  | throttleRecheck => exact answers_runV (recheck_pending ..)
  | restoreStep => exact answers_runV (restoreStep_pending ..)
  | bmcCapSet => exact answers_runV (capSet_pending ..)
  | domainTransitionDone => exact answers_runV (domDone_pending ..)
  | stApply => exact answers_runV (by rw [State.pending_ite, stApply_pending, ite_self])
  | stagedSetting => exact answers_runV (ringExec_pending _ _ _ fun _ _ => stagedBody_pending ..)
  | telemetrySnapshot => exact answers_runV (ringExec_pending _ _ _ fun _ _ => telemetryBody_pending ..)
  | errqAck => exact answers_runV (by rw [State.pending_ite, State.pending_wr, ite_self])
  | hbmCorrectionWriteBack => exact answers_runV (hbmWriteBack_pending ..)
  | hbmScrubBurst => exact answers_runV (scrubBurst_pending ..)
  | hbmPeriodicTraining => exact answers_runV (hbmTrain_pending ..)
  | droopSensorTrim => exact answers_runV (sensorTrim_pending ..)
  | thermalSensorTrim => exact answers_runVIf (sensorTrim_pending ..)
  | wearAccounting => exact answers_runV (wearHour_pending ..)
  | snop | vnop | mnop | lnop | tnop | ynop => exact answers_run rfl
  | ucieRetrain => exact answers_runV (by rw [State.pending_ite, attemptStart_pending, ite_self])
  | ucieReleaseHold => exact answers_runV (by rw [State.pending_ite, attemptStart_pending, State.wrAll_pending, ite_self])
  | functionLevelReset => exact answers_runV (flr_pending ..)
  | d3hotEntry => exact answers_runV (d3hot_pending ..)
  | d0Return => exact answers_runV (d0_pending ..)
  | descriptorFetch => exact answers_runV (descFetch_pending ..)
  | attestationSigned => exact answers_runV (attSigned_pending ..)
  | bmcCertificateChain | laneRelock => exact answers_runV rfl
  | pldmCommit => exact answers_runV (pldmCommit_pending ..)
  | commitWindowExpiry => exact answers_runV (commitExpiry_pending ..)
  | provisionRequest => exact answers_runV (by rw [State.pending_ite, provisionRequest_pending, ite_self])
  | bmcFactoryReset => exact answers_runV (by rw [State.pending_ite, State.putTrust_pending, ite_self])
  | bmcWarmResetRequest => exact answers_runV (warmRequest_pending ..)
  | partitionStartStepDone => exact answers_runV (startStep_pending ..)
  | partitionStopDrained => exact answers_runV (stopDrained_pending ..)
  | milestoneWrap => exact answers_runV (by rw [State.pending_ite, mileJump_pending, ite_self])
  | mileRefSet => exact answers_runV (by rw [State.pending_ite, mileApply_pending, ite_self])
  | powerUp => exact answers_runV (powerUp_pending ..)
  | powerUpStepTimeout => exact answers_runV (powerTimeout_pending ..)
  | overVoltageTimeout => exact answers_runV (overVoltage_pending ..)
  | inputUnderVoltage => exact answers_runV (underVoltage_pending ..)
  | sagLimitEntry => exact answers_runV (sagEntry_pending ..)
  | sagLimitExit => exact answers_runV (sagExit_pending ..)
  | presentNHigh => exact answers_runV (railsGone_pending ..)
  | wakeN => exact answers_runV (boardWake_pending ..)
  | fatalShutdownStepDone => exact answers_runV (fatalNext_pending ..)
  | pwrWake => exact answers_runV (wakeCast_pending ..)
  | wakeVoteExpiry => exact answers_runV (wakeEnds_pending ..)
  | flashLogWrite => exact answers_runV (flashWrite_pending ..)
  | telemetrySample => exact answers_runV (telemetrySample_pending ..)
  | hbmScrubPassDeadline => exact answers_runV (scrubDeadlines_pending ..)

/-- Settles O2: `exec` answers `run` of the command, which judges its well-formedness, on a state that has the queue as it was. -/
theorem everyCommandAnswers : Obligations.EveryCommandAnswers := by
  intro c s
  obtain ⟨t, ht, hq⟩ := exec_answers c s
  rw [ht]
  exact ⟨fun h => ⟨t, run_of_wf h, hq⟩, run_of_not_wf⟩
end Sys2Proof.Machine

namespace Sys2Proof.Machine
open Sys2Proof

/-! ## O5: sites and quadrant interleave (01 R8, R19) -/

theorem siteLocal_siteIndex (x y : Nat) (hx : x < 8) : siteLocal (8 * y + x) = 4 * (y % 4) + x % 4 := by
  unfold siteLocal; omega

theorem siteQuad_siteIndex (x y : Nat) (hx : x < 8) :
    siteQuad (8 * y + x) = if y < 4 then (if x < 4 then 0 else 1) else (if x < 4 then 3 else 2) := by
  have hy : (8 * y + x) / 8 = y := by omega
  have hm : (8 * y + x) % 8 = x := by omega
  by_cases h : x < 4 <;> simp [siteQuad, hy, hm, h, ← not_lt]

theorem mem_quadSites_siteQuad : ∀ site < 64, site ∈ quadSites (siteQuad site) := by decide

/-- The granules of a quadrant's range go round its six stacks. -/
theorem hbmMap_quadrant {q dpa : Nat} (hlo : q * 0x2400000000 ≤ dpa) (hhi : dpa < (q + 1) * 0x2400000000) :
    hbmMap false dpa = ((quadStacks q).getD ((dpa - q * 0x2400000000) / 2 ^ 11 % 6) 0,
      (dpa - q * 0x2400000000) / 2 ^ 11 / 6 * 2 ^ 11 + (dpa - q * 0x2400000000) % 2 ^ 11) := by
  have hq : dpa / quadBytes = q := by unfold quadBytes; omega
  have hoff : dpa % quadBytes = dpa - q * 0x2400000000 := by unfold quadBytes; omega
  simp only [hbmMap, hq, hoff]
  rfl

/-- Settles O5: the coordinates of a site by division, the stack and stack address by the quotient and remainder of the quadrant's size. -/
theorem sitesAndQuadrantInterleave : Obligations.SitesAndQuadrantInterleave :=
  ⟨fun x y hx hy => ⟨siteLocal_siteIndex x y hx, siteQuad_siteIndex x y hx, mem_quadSites_siteQuad _ (by omega)⟩,
    fun _ _ _ hlo hhi => hbmMap_quadrant hlo hhi⟩

/-! ## What looking at the votes leaves alone (15 R288 to R290)

Every command of this family ends in `voteRefresh`, which writes the domains' forms, the ports' requests and the registers that show them. -/

section
variable {α : Type} (g : State → α)

theorem portVote_keeps (hport : ∀ s p f, g (State.modPort s p f) = g s) (s : State) (low : Bool) (p : Nat) : g (portVote s low p) = g s := by
  simp only [portVote, apply_ite g, hport, ite_self]

theorem voteRefresh_keeps (hpower : ∀ s p, g { s with power := p } = g s) (hport : ∀ s p f, g (State.modPort s p f) = g s)
    (hwr : ∀ s f v, g (State.wr s f v) = g s) (s : State) : g (voteRefresh s) = g s := by
  unfold voteRefresh
  split
  · rfl
  · refine (State.wrAll_keeps g hwr _ _).trans ?_
    exact List.foldlRecOn (motive := fun t => g t = g s) _ _ (hpower ..) fun _ ht p _ => (portVote_keeps g hport _ _ p).trans ht

end

@[simp] theorem voteRefresh_mesh (s : State) : (voteRefresh s).mesh = s.mesh :=
  voteRefresh_keeps State.mesh (fun _ _ => rfl) (fun _ _ _ => rfl) (fun _ _ _ => rfl) s
@[simp] theorem voteRefresh_barges (s : State) : (voteRefresh s).barges = s.barges :=
  voteRefresh_keeps State.barges (fun _ _ => rfl) (fun _ _ _ => rfl) (fun _ _ _ => rfl) s
@[simp] theorem voteRefresh_bargeNext (s : State) : (voteRefresh s).bargeNext = s.bargeNext :=
  voteRefresh_keeps State.bargeNext (fun _ _ => rfl) (fun _ _ _ => rfl) (fun _ _ _ => rfl) s
@[simp] theorem voteRefresh_cores (s : State) : (voteRefresh s).cores = s.cores :=
  voteRefresh_keeps State.cores (fun _ _ => rfl) (fun _ _ _ => rfl) (fun _ _ _ => rfl) s
@[simp] theorem voteRefresh_tiles (s : State) : (voteRefresh s).tiles = s.tiles :=
  voteRefresh_keeps State.tiles (fun _ _ => rfl) (fun _ _ _ => rfl) (fun _ _ _ => rfl) s
@[simp] theorem voteRefresh_rings (s : State) : (voteRefresh s).rings = s.rings :=
  voteRefresh_keeps State.rings (fun _ _ => rfl) (fun _ _ _ => rfl) (fun _ _ _ => rfl) s
@[simp] theorem voteRefresh_spad (s : State) : (voteRefresh s).spad = s.spad :=
  voteRefresh_keeps State.spad (fun _ _ => rfl) (fun _ _ _ => rfl) (fun _ _ _ => rfl) s
@[simp] theorem voteRefresh_hbm (s : State) : (voteRefresh s).hbm = s.hbm :=
  voteRefresh_keeps State.hbm (fun _ _ => rfl) (fun _ _ _ => rfl) (fun _ _ _ => rfl) s
@[simp] theorem voteRefresh_routerDrops (s : State) : (voteRefresh s).routerDrops = s.routerDrops :=
  voteRefresh_keeps State.routerDrops (fun _ _ => rfl) (fun _ _ _ => rfl) (fun _ _ _ => rfl) s

/-! ## O37: host accesses (01 R18; 09 R181) -/

/-- What still arrives for a barge that has failed puts nothing on the mesh (09 R181). -/
theorem pieceArrives_mesh_of_failed {s : State} {id : Nat} {b : Barge} (hb : s.barge id = some b) (hf : b.failed = true) (k i : Nat)
    (data : Option (List Byte)) : (pieceArrives s id k i data).mesh = s.mesh := by
  simp only [pieceArrives, hb, hf]
  split <;> rfl

/-- A barge of one 64-byte row from the host window to HBM whose only piece is still awaited, and which has failed meanwhile. -/
def failedBarge : Barge :=
  { id := 0, part := 0, engine := 0, chan := 0, src := hostWindow, dst := 0, rowBytes := 64, rows := 1, srcPitch := 0, dstPitch := 0,
    transpose := 0, done := none, release := none, origin := .dump, admitted := true, sent := 1, awaiting := [0], failed := true }

/-- Refutes O37: the clause on a barge piece does not ask that the barge has not failed. The data of a failed barge's piece are of no use (09
R181), so nothing goes to the mesh, where the clause has the piece handed on. -/
theorem not_hostAccessesAreAnswered : ¬ Obligations.HostAccessesAreAnswered := by
  intro h
  let q : HostReq := ⟨0, 0, 64, 0, .piece 0 0 0⟩
  let s : State := { reqs := [q], barges := [failedBarge] }
  obtain ⟨-, -, -, hpiece, -⟩ := h s
  obtain ⟨t, ht, -, hsent, -, hwhole⟩ := hpiece q 0 0 0 failedBarge (List.replicate 64 1#8) rfl rfl rfl rfl
  obtain ⟨hmesh, -⟩ := hsent _ (hwhole rfl rfl (by simp [failedBarge]))
  have hstay : t.mesh = [] := by
    obtain rfl : voteRefresh (readCompletion s 0 .ok (List.replicate 64 1#8)) = t := Host.Outcome.next.inj ht
    rw [voteRefresh_mesh]
    exact pieceArrives_mesh_of_failed (b := failedBarge) rfl rfl 0 0 _
  rw [hstay] at hmesh
  exact absurd hmesh (by decide)

end Sys2Proof.Machine

namespace Sys2Proof.Machine
open Sys2Proof

/-! ## O56: barges, standing barges and the mesh (01 R15; 09 R175 to R179) -/

/-! ### What recording an error leaves alone (14 R268 to R273) -/

/-- A part of the state that no error entry, its interrupt, its copy toward the failure log or the fatal sequence's start touches. -/
structure ApartFromErrors {α : Type} (g : State → α) : Prop where
  setReg : ∀ s o v, g (State.setReg s o v) = g s
  msixPend : ∀ s v, g { s with msixPend := v } = g s
  posted : ∀ s v, g { s with posted := v } = g s
  link : ∀ s v, g { s with link := v } = g s
  log : ∀ s v w, g { s with failBuf := v, back := w } = g s
  fatal : ∀ s k v, g { s with fatalStep := k, trust := v } = g s

section
variable {α : Type} {g : State → α}

theorem msixRaise_keeps (hg : ApartFromErrors g) (s : State) (vec : Nat) : g (msixRaise s vec) = g s := by
  simp only [msixRaise, linkPost, apply_ite g, hg.msixPend, hg.link, hg.posted, ite_self]

theorem wr_keeps (hg : ApartFromErrors g) (s : State) (f : Fld) (v : Nat) : g (s.wr f v) = g s := hg.setReg ..
theorem inc_keeps (hg : ApartFromErrors g) (s : State) (f : Fld) : g (s.inc f) = g s := wr_keeps hg ..

theorem setRegs_keeps {β : Type} (hg : ApartFromErrors g) (o : β → Nat) (v : β → Word64) (l : List β) (s : State) :
    g (l.foldl (fun t p => t.setReg (o p) (v p)) s) = g s :=
  List.foldlRecOn (motive := fun t => g t = g s) l _ rfl fun _ ht _ _ => (hg.setReg ..).trans ht

theorem errWrite_keeps (hg : ApartFromErrors g) (s : State) (e : ErrIn) : g (errWrite s e) = g s := by
  simp only [errWrite, wr_keeps hg, hg.setReg, setRegs_keeps hg, apply_ite g, inc_keeps hg, ite_self]

/-- The function and its result have names of their own here, as in `errCorrected_pending`: the kernel must not reduce the search that the
match is on. -/
theorem errCorrected_keeps (hg : ApartFromErrors g) (s : State) (e : ErrIn) : g (errCorrected s e) = g s := by
  suffices h : ∀ f u, f = errCorrected → f s e = u → g u = g s from h _ _ rfl rfl
  intro f u hf hu
  delta errCorrected at hf
  subst hf
  beta_reduce at hu
  split at hu
  · subst hu; exact wr_keeps hg ..
  · subst hu
    simp only [apply_ite g, inc_keeps hg, msixRaise_keeps hg, errWrite_keeps hg, ite_self]

theorem flashPut_keeps (hg : ApartFromErrors g) (s : State) (contained : Bool) (r : FlashRec) : g (flashPut s contained r) = g s := by
  simp only [flashPut, apply_ite g, inc_keeps hg, hg.log, ite_self]

theorem errSevere_keeps (hg : ApartFromErrors g) (s : State) (e : ErrIn) : g (errSevere s e) = g s := by
  simp only [errSevere, apply_ite g, hg.fatal, hg.setReg, msixRaise_keeps hg, flashPut_keeps hg, errWrite_keeps hg, ite_self]

theorem errRaise_keeps (hg : ApartFromErrors g) (s : State) (e : ErrIn) : g (errRaise s e) = g s := by
  simp only [errRaise, apply_ite g, errCorrected_keeps hg, errSevere_keeps hg, ite_self]

end

/-- The parts that a transfer on the mesh can change: the mesh itself, the tiles, both memories, the routers' counts. -/
def meshAndMemory (s : State) : List MeshX × Tbl TileSt × Tbl Byte × Tbl Byte × Tbl Nat := (s.mesh, s.tiles, s.spad, s.hbm, s.routerDrops)

theorem errRaise_meshAndMemory (s : State) (e : ErrIn) : meshAndMemory (errRaise s e) = meshAndMemory s :=
  errRaise_keeps ⟨fun _ _ _ => rfl, fun _ _ => rfl, fun _ _ => rfl, fun _ _ => rfl, fun _ _ _ => rfl, fun _ _ _ => rfl⟩ s e

/-! ### A ring's record written -/

@[simp] theorem State.putRing_barges (s : State) (r : Nat) (g : RingSt) : (s.putRing r g).barges = s.barges := rfl
@[simp] theorem State.putRing_tiles (s : State) (r : Nat) (g : RingSt) : (s.putRing r g).tiles = s.tiles := rfl
@[simp] theorem State.ring_putRing (s : State) (r : Nat) (g : RingSt) : (s.putRing r g).ring r = g := tget_tset_self ..

@[simp] theorem settleWork_barges (s : State) (r c : Nat) (w0 w : Work) : (settleWork s r c w0 w).barges = s.barges := rfl
@[simp] theorem settleWork_tiles (s : State) (r c : Nat) (w0 w : Work) : (settleWork s r c w0 w).tiles = s.tiles := rfl
/-- A descriptor that waits for the work takes its new one. -/
theorem mem_out_settleWork {s : State} {r c : Nat} {w0 w : Work} {d : Dispatched} (hd : d ∈ (s.ring r).out) (hc : d.count = c)
    (hw : d.work = w0) : { d with work := w } ∈ ((settleWork s r c w0 w).ring r).out := by
  unfold settleWork State.modRing
  rw [State.ring_putRing]
  exact List.mem_map.2 ⟨d, hd, if_pos ⟨hc, hw⟩⟩

/-! ### A gate raised by an engine (09 R175) -/

theorem gateApply_add (g n p : Nat) (who : Issuer) (v : BitVec 32) : gateApply [⟨g, false, n, p, who⟩] g v = v + BitVec.ofNat 32 n := by
  simp [gateApply, gatePorts, lsum]

/-- A tile with one gate raised, and no operation left in its cycle. -/
def TileSt.raised (t : TileSt) (g n : Nat) : TileSt :=
  { t with gateOps := [], gates := tset gate0 t.gates g (tget gate0 t.gates g + BitVec.ofNat 32 n) }

section
variable {s : State} {tile : Nat} (hf : s.isFatal = false) (hr : tileReady s tile = true) (hq : (s.tile tile).gateOps = [])
include hf hr hq

/-- At a tile that is up, with no other operation in the tile cycle, the increment is applied at once (log entry 16). -/
theorem gateAddNow_eq (g n : Nat) : gateAddNow s tile g n =
    stampAdded ((gatePush s tile ⟨g, false, n, 4, .none⟩).setTile tile ((s.tile tile).raised g n)) tile := by
  have hpush : (gatePush s tile ⟨g, false, n, 4, .none⟩).tile tile = { s.tile tile with gateOps := [⟨g, false, n, 4, .none⟩] } := by
    simp [gatePush, State.modTile, hq]
  have hf' : (gatePush s tile ⟨g, false, n, 4, .none⟩).isFatal = false := hf
  have hr' : tileReady (gatePush s tile ⟨g, false, n, 4, .none⟩) tile = true := hr
  simp [gateAddNow, gateUnit, hr', gateAll, hf', hpush, gateAnswers, gateApply_add, TileSt.raised]

theorem gateAddNow_barges (g n : Nat) : (gateAddNow s tile g n).barges = s.barges := by rw [gateAddNow_eq hf hr hq]; rfl
theorem gateAddNow_rings (g n : Nat) : (gateAddNow s tile g n).rings = s.rings := by rw [gateAddNow_eq hf hr hq]; rfl
theorem gate_gateAddNow (g n k j : Nat) :
    (gateAddNow s tile g n).gate k j = if k = tile ∧ j = g then s.gate k j + BitVec.ofNat 32 n else s.gate k j := by
  rw [gateAddNow_eq hf hr hq]
  show tget gate0 (State.tile (State.setTile (State.setTile s tile _) tile _) k).gates j = _
  by_cases hk : k = tile
  · subst hk
    by_cases hj : j = g <;> simp [TileSt.raised, tget_tset, State.gate, hj]
  · rw [State.tile_setTile_ne _ _ hk, State.tile_setTile_ne _ _ hk, if_neg fun h => hk h.1]; rfl

end

/-! ### Admission (09 R176; 15 R290) -/

theorem engineUp_iff {s : State} {e : Nat} : engineUp s e = true ↔ 60 ≤ e ∨ tileReady s e = true := by simp [engineUp]

theorem bargeAdmit_of_blocked {s : State} {b : Barge} (hb : s.barge b.id = some b)
    (h : placeFree s b.engine = false ∨ b.engine < 60 ∧ tileReady s b.engine = false) : bargeAdmit s b.id = s := by
  have hcond : placeFree s b.engine = false ∨ engineUp s b.engine = false := h.imp_right fun ⟨he, hr⟩ => by simp [engineUp, he, hr]
  simp only [bargeAdmit, hb]
  rcases hcond with hp | hu
  · simp [hp]
  · simp [hu]

theorem bargeAdmit_of_first {s : State} {b : Barge} {r c : Nat} (hf : s.isFatal = false) (hb : s.barge b.id = some b)
    (ho : b.origin = .ring r c) (ha : b.admitted = false) (hp : placeFree s b.engine = true) (hu : 60 ≤ b.engine ∨ tileReady s b.engine = true)
    (hfirst : s.barges.find? (fun x => decide (x.engine = b.engine) && !x.admitted) = some b) :
    bargeAdmit s b.id = s.modBarge b.id fun x => { x with admitted := true } := by
  simp [bargeAdmit, hb, ha, hf, engineUp_iff.2 hu, Barge.stopped, ho, hp, hfirst]

/-! ### The next piece (09 R178) -/

theorem bargeMaySend_up {s : State} {b : Barge} (h : bargeMaySend s b = true) :
    b.admitted = true ∧ (60 ≤ b.engine ∨ tileReady s b.engine = true) := by
  simp only [bargeMaySend, Bool.and_eq_true] at h
  obtain ⟨⟨⟨⟨⟨ha, hu⟩, -⟩, -⟩, -⟩, -⟩ := h
  exact ⟨ha, engineUp_iff.1 hu⟩

theorem hbmFirstUe_of_clean {s : State} (h : s.hbmUe = []) (a n : Nat) : hbmFirstUe s a n = none := by simp [hbmFirstUe, h]
theorem hbmPartUe_of_clean {s : State} (h : s.hbmUe = []) (a n : Nat) : hbmPartUe s a n = none := by simp [hbmPartUe, h]

/-- Where the source holds no uncorrectable codeword, the piece's bytes go to the mesh. -/
theorem pieceFromHbm_of_clean {s : State} {b : Barge} (hue : s.hbmUe = []) (hrel : b.release = none) (k : Nat) :
    pieceFromHbm s b k none = pieceSend (s.modBarge b.id fun x => { x with sent := x.sent + 1 }) b k
      ((b.pieceSrc k).flatMap fun p => dpaRead s p.1 p.2) := by
  have hnone : ((b.pieceSrc k).findSome? fun p => hbmFirstUe (s.modBarge b.id fun x => { x with sent := x.sent + 1 }) p.1 p.2) = none :=
    List.findSome?_eq_none_iff.2 fun p _ => hbmFirstUe_of_clean hue ..
  simp only [pieceFromHbm, hnone, bargeRelease, hrel]
  rfl

theorem pieceRead_of_hbm {s : State} {b : Barge} (hb : s.barge b.id = some b) (hsend : bargeMaySend s b = true)
    (hready : ∀ p ∈ b.pieceSrc b.sent, locReady s p.1 = true ∧ locReady s (p.1 + p.2 - 1) = true)
    (hloc : dpaLoc s ((b.pieceSrc b.sent).headD (0, 0)).1 = .hbm) : pieceRead s b.id none = pieceFromHbm s b b.sent none := by
  have hall : (b.pieceSrc b.sent).all (fun p => locReady s p.1 && locReady s (p.1 + p.2 - 1)) = true := by simpa using hready
  simp only [pieceRead, hb, hsend, hall, hloc]
  rfl

/-- Two changes of one barge, the second after the first. -/
theorem State.modBarge_modBarge (s : State) (id : Nat) {f h : Barge → Barge} (hid : ∀ x, (f x).id = x.id) :
    (s.modBarge id f).modBarge id h = s.modBarge id fun x => h (f x) := by
  simp only [State.modBarge, List.map_map]
  congr 1
  refine List.map_congr_left fun x _ => ?_
  by_cases hx : x.id = id <;> simp [hx, hid]

/-! ### Completion (09 R177 to R179) -/

/-- The state in which a barge's done gate has risen. -/
def doneRaised (s : State) (b : Barge) : State := b.done.elim s fun k => gateAddNow s (k / 4096) (k % 4096) 1

theorem bargeComplete_of_done {s : State} {b : Barge} {r c : Nat} (hf : s.isFatal = false) (hb : s.barge b.id = some b)
    (ho : b.origin = .ring r c) (ha : b.admitted = true) (hnf : b.failed = false) (hnc : b.complete = false) (hsent : b.pieces ≤ b.sent)
    (hwr : b.handed ≤ b.written) (haw : b.awaiting = [])
    (halone : ∀ x ∈ s.barges, x.id ≠ b.id → x.engine ≠ b.engine ∨ x.chan ≠ b.chan)
    (hdone : ∀ k, b.done = some k → tileReady s (k / 4096) = true) :
    bargeComplete s b.id = bargeRecorded (doneRaised s b) b r c := by
  have hearlier : ((s.barges.takeWhile fun x => decide (x.id ≠ b.id)).any fun x =>
      decide (x.engine = b.engine) && decide (x.chan = b.chan) && !x.complete) = false := by
    refine List.any_eq_false.2 fun x hx => ?_
    have hne := halone x (List.takeWhile_sublist _ |>.mem hx) (by simpa using List.mem_takeWhile_imp hx)
    rcases hne with he | hc
    · simp [he]
    · simp [hc]
  have hup : (b.done.any fun k => !tileReady s (k / 4096)) = false := by
    cases hk : b.done with
    | none => rfl
    | some k => simp [hdone k hk]
  simp only [bargeComplete, hb, hnc, haw, hnf, ha, hearlier, hf, hup, Nat.not_lt.2 hsent, Nat.not_lt.2 hwr, ho, List.isEmpty_nil, Bool.not_true,
    Bool.false_eq_true, or_self, if_false, doneRaised]
  cases b.done <;> rfl

theorem bargeComplete_of_done_down {s : State} {b : Barge} {k : Nat} (hb : s.barge b.id = some b) (hnf : b.failed = false)
    (hk : b.done = some k) (hdown : tileReady s (k / 4096) = false) : bargeComplete s b.id = s := by
  simp only [bargeComplete, hb, hnf, hk]
  split
  · rfl
  · simp [hdown]

section
variable {s : State} {b : Barge} (hf : s.isFatal = false)
  (hdone : ∀ k, b.done = some k → (s.tile (k / 4096)).gateOps = [] ∧ tileReady s (k / 4096) = true)
include hf hdone

theorem doneRaised_barges : (doneRaised s b).barges = s.barges := by
  unfold doneRaised
  cases hk : b.done with
  | none => rfl
  | some k => exact gateAddNow_barges hf (hdone k hk).2 (hdone k hk).1 ..
theorem doneRaised_rings : (doneRaised s b).rings = s.rings := by
  unfold doneRaised
  cases hk : b.done with
  | none => rfl
  | some k => exact gateAddNow_rings hf (hdone k hk).2 (hdone k hk).1 ..
theorem gate_doneRaised {k : Nat} (hk : b.done = some k) (n g : Nat) :
    (doneRaised s b).gate n g = if n = k / 4096 ∧ g = k % 4096 then s.gate n g + 1 else s.gate n g := by
  rw [doneRaised, hk]
  exact gate_gateAddNow hf (hdone k hk).2 (hdone k hk).1 ..

end

theorem bargeRecorded_tiles (s : State) (b : Barge) (r c : Nat) : (bargeRecorded s b r c).tiles = s.tiles := by
  unfold bargeRecorded
  split <;> rfl

theorem any_waits_iff (l : List Dispatched) (c : Nat) (w : Work) :
    (l.any fun d => decide (d.count = c) && decide (d.work = w)) = true ↔ ∃ d ∈ l, d.count = c ∧ d.work = w := by simp

theorem bargeRecorded_barges (s : State) (b : Barge) (r c : Nat) : (bargeRecorded s b r c).barges =
    if (s.ring r).out.any fun d => decide (d.count = c) && decide (d.work = .barge b.id)
    then s.barges.map fun x => if x.id = b.id then { x with complete := true } else x else s.barges.filter fun x => decide (x.id ≠ b.id) := by
  unfold bargeRecorded
  split <;> rfl

theorem mem_out_bargeRecorded {s : State} {b : Barge} {r c : Nat} {d : Dispatched} (hd : d ∈ (s.ring r).out) (hc : d.count = c)
    (hw : d.work = .barge b.id) : { d with work := .judged 0 (b.rows * b.rowBytes) none } ∈ ((bargeRecorded s b r c).ring r).out := by
  unfold bargeRecorded
  rw [if_pos ((any_waits_iff ..).2 ⟨d, hd, hc, hw⟩)]
  exact mem_out_settleWork (s := s.modBarge b.id _) hd hc hw

/-! ### Standing barges (09 R176, R179) -/

theorem standingFire_of_down {s : State} {tile : Nat} (hr : tileReady s tile = false) (ix : Nat) : standingFire s tile ix = s := by
  simp [standingFire, hr]

/-- A firing stands before the first ready barge that gives way to it. -/
theorem firingIn_eq (l : List Barge) (a : Barge) (ix : Nat) : firingIn l a ix =
    (l.takeWhile fun b => !givesWay a ix b) ++ a :: l.dropWhile fun b => !givesWay a ix b := by
  have hpre := List.takeWhile_prefix (l := l) fun b => !givesWay a ix b
  have htake := List.prefix_iff_eq_take.1 hpre
  have hdrop := (List.prefix_iff_eq_append.1 hpre).trans (List.takeWhile_append_dropWhile (p := fun b => !givesWay a ix b)).symm
  simp only [firingIn]
  rw [← htake, List.append_cancel_left hdrop]

theorem standingFire_of_ready {s : State} {tile ix : Nat} {st : Standing} (hf : s.isFatal = false) (hr : tileReady s tile = true)
    (hst : tget (fun _ => none) (s.tile tile).standing ix = some st) (hready : standingReady s tile ix = true)
    (hok : (firing s tile ix (firedSoFar s tile ix st) st).rangesOk s = true) :
    (standingFire s tile ix).barges = firingIn s.barges (firing s tile ix (firedSoFar s tile ix st) st) ix
      ∧ (standingFire s tile ix).bargeNext = s.bargeNext + 1 ∧ (standingFire s tile ix).cores = s.cores := by
  simp only [standingFire, hready, hf, hr, hst, hok]
  simp only [Bool.not_true, Bool.false_eq_true, or_self, if_false]
  split <;> exact ⟨rfl, rfl, rfl⟩

/-! ### Deliveries (01 R15) -/

/-- A transfer meets its endpoint when its stream has nothing earlier for the same one. -/
theorem stream_clear {s : State} {i : Nat} {x : MeshX}
    (h : ∀ y ∈ s.mesh.take i, sameStream s y.who x.who = false ∨ y.dst ≠ x.dst) :
    ((s.mesh.take i).any fun y => sameStream s y.who x.who && decide (y.dst = x.dst)) = false := by
  refine List.any_eq_false.2 fun y hy => ?_
  rcases h y hy with hs | hd
  · simp [hs]
  · simp [hd]

section
variable {s : State} {i : Nat} {x : MeshX} (hx : s.mesh[i]? = some x)
  (hs : ∀ y ∈ s.mesh.take i, sameStream s y.who x.who = false ∨ y.dst ≠ x.dst)
include hx hs

theorem meshDeliver_of_gate {tile g n p : Nat} {set : Bool} (hf : s.isFatal = false) (hd : x.dst = .tile tile)
    (hl : x.load = if set then .gateSet g n p else .gateAdd g n p) (ht : s.tilePart tile = some x.tag) :
    meshDeliver s i none = gatePush (meshTake s i) tile ⟨g, set, n, p, x.who⟩ := by
  have htag : tagOk s x = true := by simp [tagOk, hd, ownsTile, ht]
  simp only [meshDeliver, hx, stream_clear hs, htag]
  cases set <;> simp [hd, hl, hf]

theorem meshDeliver_of_foreign {tile : Nat} (hd : x.dst = .tile tile) (ht : s.tilePart tile ≠ some x.tag) :
    meshDeliver s i none = meshDrop (meshTake s i) x := by
  have htag : tagOk s x = false := by simp [tagOk, hd, ownsTile, ht]
  simp only [meshDeliver, hx, stream_clear hs, htag]
  rfl

theorem meshDeliver_of_piece {id k dpa : Nat} {bytes : List Byte} {b : Barge} (hl : x.load = .piece id k dpa bytes)
    (hloc : dpaLoc s dpa = .hbm) (hr : hbmReady s (dpa / quadBytes) = true) (htag : tagOk s x = true) (hb : s.barge id = some b)
    (hue : s.hbmUe = []) : meshDeliver s i none = meshTake (pieceWritten (hbmWrite s dpa bytes) id bytes.length) i := by
  have hup : locReady s dpa = true := by simp [locReady, hloc, hr]
  have hland : pieceLand s id dpa bytes none = (true, pieceWritten (hbmWrite s dpa bytes) id bytes.length) := by
    simp only [pieceLand, hb, hloc, hbmPartUe_of_clean hue]
  simp only [meshDeliver, hx, stream_clear hs, htag, hl, hup, hland]
  cases x.dst <;> rfl

end

/-- A dropped transfer without an issuer leaves its count and an entry. -/
theorem meshDrop_of_no_issuer {s : State} {x : MeshX} (hw : x.who = .none) : meshAndMemory (meshDrop s x) =
    meshAndMemory { s with routerDrops := tset nat0 s.routerDrops (dstSite s x.dst) (tget nat0 s.routerDrops (dstSite s x.dst) + 1) } := by
  simp only [meshDrop, hw]
  exact errRaise_meshAndMemory ..

/-! ### The commands, and the statement -/

theorem exec_bargeAdmission (id : Nat) (s : State) : exec (.bargeAdmission id) s = .next (voteRefresh (bargeAdmit s id)) := rfl
theorem exec_bargePieceRead (id : Nat) (ecc : Option Upset) (s : State) :
    exec (.bargePieceRead id ecc) s = .next (voteRefresh (pieceRead s id ecc)) := rfl
theorem exec_bargeCompletion (id : Nat) (s : State) : exec (.bargeCompletion id) s = .next (voteRefresh (bargeComplete s id)) := rfl
theorem exec_meshTransferDelivery (i : Nat) (ecc : Option Upset) (s : State) :
    exec (.meshTransferDelivery i ecc) s = .next (voteRefresh (meshDeliver s i ecc)) := rfl
theorem exec_standingBargeFiring {tile : Nat} (ht : tile < 60) (ix : Nat) (s : State) :
    exec (.standingBargeFiring tile ix) s = .next (voteRefresh (if mayFire s tile ix then standingFire s tile ix else s)) :=
  run_of_wf (c := .standingBargeFiring tile ix) (decide_eq_true ht)

/-- A piece read from clean HBM: its parts are on the mesh, and the barge counts them. -/
theorem pieceFromHbm_state {s : State} {b : Barge} (hue : s.hbmUe = []) (hrel : b.release = none) (k : Nat) :
    let dst := (b.pieceDst k).1
    let parts := cutAt (if dst < hbmTop then 2048 else 2 ^ 24) 3 dst
      ((b.pieceSrc k).flatMap fun p => (List.range p.2).map fun i => dpaByte s (p.1 + i))
    pieceFromHbm s b k none = { s with
      barges := s.barges.map fun x => if x.id = b.id then { x with sent := x.sent + 1, handed := x.handed + parts.length } else x
      mesh := s.mesh ++ parts.map fun p => ⟨b.part, meshDst s p.addr, .piece b.id k p.addr p.data, .barge b.id⟩ } := by
  intro dst parts
  rw [pieceFromHbm_of_clean hue hrel]
  exact congrArg (fun t : State => { t with
      mesh := s.mesh ++ parts.map fun (p : Posted) => (⟨b.part, meshDst s p.addr, .piece b.id k p.addr p.data, .barge b.id⟩ : MeshX) })
    (s.modBarge_modBarge b.id (f := fun x => { x with sent := x.sent + 1 }) (h := fun x => { x with handed := x.handed + parts.length })
      fun _ => rfl)

/-- What the completion of a descriptor's barge leaves (09 R176, R177). -/
theorem bargeRecorded_doneRaised {s : State} {b : Barge} (hf : s.isFatal = false) (r c : Nat)
    (hdone : ∀ k, b.done = some k → (s.tile (k / 4096)).gateOps = [] ∧ tileReady s (k / 4096) = true) :
    let t := bargeRecorded (doneRaised s b) b r c
    t.barges = (if ∃ d ∈ (s.ring r).out, d.count = c ∧ d.work = .barge b.id
        then s.barges.map fun x => if x.id = b.id then { x with complete := true } else x else s.barges.filter fun x => decide (x.id ≠ b.id))
      ∧ (∀ k n g, b.done = some k → t.gate n g = if n = k / 4096 ∧ g = k % 4096 then s.gate n g + 1 else s.gate n g)
      ∧ ∀ d ∈ (s.ring r).out, d.count = c → d.work = .barge b.id →
          { d with work := .judged 0 (b.rows * b.rowBytes) none } ∈ (t.ring r).out := by
  have hring : (doneRaised s b).ring r = s.ring r := by simp only [State.ring, doneRaised_rings hf hdone]
  refine ⟨?_, fun k n g hk => ?_, fun d hd hc hw => mem_out_bargeRecorded (hring ▸ hd) hc hw⟩
  · simp only [bargeRecorded_barges, hring, doneRaised_barges hf hdone, any_waits_iff]
  · simp only [State.gate, State.tile, bargeRecorded_tiles]
    exact gate_doneRaised hf hdone hk n g

/-- Settles O56, clause by clause from the lemmas above; what a command leaves is what its effect leaves, since the votes that are looked at
after it touch none of it. -/
theorem bargesMove : Obligations.BargesMove := by
  intro s hf
  refine ⟨?admission, fun _ h => bargeMaySend_up h, ?pieceRead, ?completion, ?doneDown, ?tileDown, ?firing, ?delivery⟩
  case admission =>
    intro b r c hb ho ha
    refine ⟨fun h => ?_, fun hp hu hfirst => ?_⟩
    · rw [exec_bargeAdmission, bargeAdmit_of_blocked hb h]
    · rw [exec_bargeAdmission, bargeAdmit_of_first hf hb ho ha hp hu hfirst]; rfl
  case pieceRead =>
    intro b hb hsend hrel hue a dst parts hloc hready
    rw [exec_bargePieceRead, pieceRead_of_hbm hb hsend hready hloc, pieceFromHbm_state hue hrel]
  case completion =>
    intro b r c hb ho ha hnf hnc hsent hwr haw halone hdone
    obtain ⟨hbarges, hgate, hout⟩ := bargeRecorded_doneRaised hf r c hdone
    refine ⟨_, (exec_bargeCompletion ..).trans (by
      rw [bargeComplete_of_done hf hb ho ha hnf hnc hsent hwr haw halone fun k hk => (hdone k hk).2]), ?_, ?_, ?_⟩
    · rw [voteRefresh_barges, hbarges]
    · intro k n g hk
      simpa only [State.gate, State.tile, voteRefresh_tiles] using hgate k n g hk
    · intro d hd hc hw
      simpa only [State.ring, voteRefresh_rings] using hout d hd hc hw
  case doneDown =>
    intro b k hb hnf hk hdown
    rw [exec_bargeCompletion, bargeComplete_of_done_down hb hnf hk hdown]
  case tileDown =>
    intro tile ix ht hdown
    rw [exec_standingBargeFiring ht, standingFire_of_down hdown, ite_self]
  case firing =>
    intro tile ix st ht hr hst hmay hready b hok
    obtain ⟨hbarges, hnext, hcores⟩ := standingFire_of_ready hf hr hst hready hok
    refine ⟨_, s.barges.takeWhile fun x => !givesWay b ix x, s.barges.dropWhile fun x => !givesWay b ix x,
      (exec_standingBargeFiring ht ..).trans (by rw [if_pos hmay]), List.takeWhile_append_dropWhile.symm, ?_, ?_, ?_, ?_, ?_⟩
    · rw [voteRefresh_barges, hbarges, firingIn_eq]
    · exact fun x hx => by simpa using List.mem_takeWhile_imp hx
    · intro x hx
      have := List.head?_dropWhile_not (fun x => !givesWay b ix x) s.barges
      rw [hx] at this
      simpa using this
    · rw [voteRefresh_bargeNext, hnext]
    · rw [voteRefresh_cores, hcores]
  case delivery =>
    intro i x hx hs
    refine ⟨fun tile g n p set hd hl ht => ?gate, fun tile hd ht hw => ?foreign, fun id k dpa bytes b hl hloc hr htag hb hue => ?piece⟩
    case gate => rw [exec_meshTransferDelivery, meshDeliver_of_gate hx hs hf hd hl ht]; rfl
    case foreign =>
      refine ⟨_, (exec_meshTransferDelivery ..).trans (by rw [meshDeliver_of_foreign hx hs hd ht]), ?_⟩
      have hdrop := meshDrop_of_no_issuer (s := meshTake s i) hw
      simp only [meshAndMemory, Prod.mk.injEq, hd, dstSite] at hdrop
      obtain ⟨hmesh, htiles, hspad, hhbm, hdrops⟩ := hdrop
      simp only [voteRefresh_mesh, voteRefresh_tiles, voteRefresh_spad, voteRefresh_hbm, voteRefresh_routerDrops, hmesh, htiles, hspad, hhbm,
        hdrops]
      exact ⟨rfl, rfl, rfl, rfl, tget_tset_self ..⟩
    case piece =>
      refine ⟨_, (exec_meshTransferDelivery ..).trans (by rw [meshDeliver_of_piece hx hs hl hloc hr htag hb hue]), ?_⟩
      simp only [voteRefresh_mesh, voteRefresh_spad, voteRefresh_barges, voteRefresh_hbm]
      exact ⟨rfl, rfl, rfl, rfl⟩

end Sys2Proof.Machine

namespace Sys2Proof.Machine
open Sys2Proof

/-! ## O35, O36: the UCIe link and the PCIe function (02 R23 to R37) -/

/-! ### What entries and halts leave alone (09 R181, R184; 14 R268 to R274) -/

/-- A part of the state that no error entry, and no halt of a barge or a flight, touches. It may read what `ApartFromErrors` leaves out: the
registers up to WHF_UCIE_STATUS, the link but for the writes that a stall holds, the state of a ring. -/
structure Bystander {α : Type} (g : State → α) : Prop where
  setReg : ∀ s o v, 0x1800 < o → g (State.setReg s o v) = g s
  msixPend : ∀ s v, g { s with msixPend := v } = g s
  posted : ∀ s v, g { s with posted := v } = g s
  held : ∀ s v, s.link.stalled = true → g { s with link := { s.link with held := v } } = g s
  log : ∀ s v w, g { s with failBuf := v, back := w } = g s
  fatal : ∀ s k v, g { s with fatalStep := k, trust := v } = g s
  rings : ∀ s r x, x.st = (s.ring r).st → g { s with rings := tset ring0 s.rings r x } = g s
  work : ∀ s b f n, g { s with barges := b, flights := f, fenced := n } = g s

theorem lt_aErrq (w o : Nat) : 0x1800 < aErrq w o := by unfold aErrq; omega
theorem lt_aErrEntry (w slot q : Nat) : 0x1800 < aErrEntry w slot q := lt_aErrq ..
theorem lt_aRing (r o : Nat) : 0x1800 < aRing r o := by unfold aRing; omega

section
variable {α : Type} {g : State → α}

theorem foldl_keeps {β : Type} {f : State → β → State} (h : ∀ t b, g (f t b) = g t) (l : List β) (s : State) : g (l.foldl f s) = g s :=
  List.foldlRecOn (motive := fun t => g t = g s) l f rfl fun _ ht b _ => (h _ b).trans ht

theorem wr_bystander (hg : Bystander g) (s : State) (f : Fld) (v : Nat) (h : 0x1800 < f.off) : g (s.wr f v) = g s := hg.setReg _ _ _ h
theorem inc_bystander (hg : Bystander g) (s : State) (f : Fld) (h : 0x1800 < f.off) : g (s.inc f) = g s := hg.setReg _ _ _ h

theorem linkPost_bystander (hg : Bystander g) (s : State) (l : List Posted) : g (linkPost s l) = g s := by
  unfold linkPost
  split
  case isTrue h => exact hg.held _ _ h
  case isFalse => exact hg.posted _ _

theorem msixRaise_bystander (hg : Bystander g) (s : State) (vec : Nat) : g (msixRaise s vec) = g s := by
  simp only [msixRaise, apply_ite g, hg.msixPend, linkPost_bystander hg, ite_self]

theorem errWrite_bystander (hg : Bystander g) (s : State) (e : ErrIn) : g (errWrite s e) = g s := by
  have hquads : ∀ (l : List (Nat × Nat)) (t : State) slot,
      g (l.foldl (fun t p => t.setReg (aErrEntry e.wharf slot p.1) (BitVec.ofNat 64 p.2)) t) = g t := fun l t slot =>
    foldl_keeps (fun _ _ => hg.setReg _ _ _ (lt_aErrEntry ..)) l t
  have hoff : 0x1800 < (fErrNext e.wharf).off ∧ 0x1800 < (fErrOvf e.wharf).off ∧ 0x1800 < (fLostCorr e.wharf).off
      ∧ 0x1800 < (fLostCont e.wharf).off := ⟨lt_aErrq .., lt_aErrq .., lt_aErrq .., lt_aErrq ..⟩
  simp only [errWrite, hoff, wr_bystander hg, inc_bystander hg, hg.setReg, hquads, lt_aErrEntry, apply_ite g, ite_self]

/-- With names for the function and its result, for the kernel's sake, as `errCorrected_keeps` has them. -/
theorem errCorrected_bystander (hg : Bystander g) (s : State) (e : ErrIn) : g (errCorrected s e) = g s := by
  suffices h : ∀ f u, f = errCorrected → f s e = u → g u = g s from h _ _ rfl rfl
  intro f u hf hu
  delta errCorrected at hf
  subst hf
  beta_reduce at hu
  split at hu
  · subst hu; exact wr_bystander hg _ _ _ (lt_aErrq ..)
  · subst hu
    simp only [apply_ite g, fLostCorr, inc_bystander hg, lt_aErrq, msixRaise_bystander hg, errWrite_bystander hg, ite_self]

theorem flashPut_bystander (hg : Bystander g) (s : State) (contained : Bool) (r : FlashRec) : g (flashPut s contained r) = g s := by
  have hinc : ∀ t, g (State.inc t fLogDropped) = g t := fun t => inc_bystander hg t _ (by decide)
  simp only [flashPut, apply_ite g, hinc, hg.log, ite_self]

theorem errSevere_bystander (hg : Bystander g) (s : State) (e : ErrIn) : g (errSevere s e) = g s := by
  have hreg : ∀ t v, g (State.setReg t 0x710000 v) = g t := fun t v => hg.setReg t _ v (by decide)
  simp only [errSevere, apply_ite g, hg.fatal, hreg, msixRaise_bystander hg, flashPut_bystander hg, errWrite_bystander hg, ite_self]

theorem errRaise_bystander (hg : Bystander g) (s : State) (e : ErrIn) : g (errRaise s e) = g s := by
  simp only [errRaise, apply_ite g, errCorrected_bystander hg, errSevere_bystander hg, ite_self]

theorem ucieEvent_bystander (hg : Bystander g) (s : State) (code trained : Nat) : g (ucieEvent s code trained) = g s :=
  (errRaise_bystander hg ..).trans (hg.setReg _ _ _ (by decide))

/-- A ring's record is written, and its state stays. -/
theorem putRing_bystander (hg : Bystander g) (s : State) (r : Nat) (x : RingSt) (h : x.st = (s.ring r).st) : g (s.putRing r x) = g s := by
  simp only [State.putRing, State.wrAll, fOutstanding, fRState, wr_bystander hg, lt_aRing, hg.rings _ _ _ h]

theorem modRing_bystander (hg : Bystander g) (s : State) (r : Nat) {f : RingSt → RingSt} (h : ∀ x, (f x).st = x.st) :
    g (s.modRing r f) = g s := putRing_bystander hg _ _ _ (h _)

theorem setWork_bystander (hg : Bystander g) (s : State) (r c : Nat) (w : Work) : g (setWork s r c w) = g s := by
  unfold setWork
  exact modRing_bystander hg _ _ fun _ => rfl

theorem settleWork_bystander (hg : Bystander g) (s : State) (r c : Nat) (w0 w : Work) : g (settleWork s r c w0 w) = g s := by
  unfold settleWork
  exact modRing_bystander hg _ _ fun _ => rfl

theorem ringErrOne_bystander (hg : Bystander g) (s : State) (r : Nat) (hw : Bool) (e : ErrIn) : g (ringErrOne s r hw e) = g s := by
  unfold ringErrOne
  refine (modRing_bystander hg _ _ fun _ => ?_).trans (errRaise_bystander hg ..)
  rfl

theorem ringFlush_bystander (hg : Bystander g) (s : State) (r : Nat) : g (ringFlush s r) = g s := by
  refine foldl_keeps (fun t d => ?_) _ _
  split
  · simp only [apply_ite g, setWork_bystander hg, ringErrOne_bystander hg, ite_self]
  · rfl

theorem ringErr_bystander (hg : Bystander g) (s : State) (r : Nat) (hw : Bool) (e : ErrIn) : g (ringErr s r hw e).1 = g s :=
  (ringErrOne_bystander hg ..).trans (ringFlush_bystander hg ..)

theorem modBarge_bystander (hg : Bystander g) (s : State) (id : Nat) (f : Barge → Barge) : g (s.modBarge id f) = g s := hg.work ..

theorem haltFlight_bystander (hg : Bystander g) (s : State) (part fid ix : Nat) (dropped : Bool) : g (haltFlight s part fid ix dropped) = g s := by
  simp only [haltFlight]
  split <;> simp only [modFlight, hg.work]

theorem bargeFail_bystander (hg : Bystander g) (s : State) (b : Barge) (status ix : Nat) : g (bargeFail s b status ix) = g s := by
  unfold bargeFail
  split <;> simp only [settleWork_bystander hg, haltFlight_bystander hg, modBarge_bystander hg]

theorem bargeHalt_bystander (hg : Bystander g) (s : State) (b : Barge) (w cause detail addr status : Nat) (hw : Bool) (q4 : Option Nat)
    (esc : Bool) : g (bargeHalt s b w cause detail addr status hw q4 esc) = g s := by
  simp only [bargeHalt]
  split <;> simp only [bargeFail_bystander hg, ringErr_bystander hg, errRaise_bystander hg]

theorem hostUsersFault_bystander (hg : Bystander g) (s : State) : g (hostUsersFault s) = g s := by
  simp only [hostUsersFault]
  refine (foldl_keeps (fun t n => foldl_keeps (fun u p => ?_) _ _) _ _).trans
    (foldl_keeps (fun t b => (bargeHalt_bystander hg ..).trans (modBarge_bystander hg ..)) _ _)
  split
  · simp only [apply_ite g, bargeHalt_bystander hg, ite_self]
  · rfl

end

/-! ### What a ring's quiet halt leaves alone (02 R33, R37; 03 R56, R60) -/

section
variable {α : Type} {g : State → α}

theorem attDrop_keeps (hg : ∀ s t, g (State.putTrust s t) = g s) (s : State) (p : AttReq → Bool) : g (attDrop s p) = g s := by
  simp only [attDrop, attFill, attServe, attPush, hg, foldl_keeps (g := g), apply_ite g, ite_self, implies_true]

theorem reqIssue_keeps (hg : ∀ s a n w, g { s with reqs := a, nextTag := n, reqWait := w } = g s) (n : Nat) (s : State) :
    g (reqIssue n s) = g s := by
  induction n generalizing s with
  | zero => rfl
  | succ n ih =>
    unfold reqIssue
    split
    · split
      · exact (ih _).trans (hg ..)
      · rfl
    · rfl

theorem dropReqs_keeps (hg : ∀ s a n w, g { s with reqs := a, nextTag := n, reqWait := w } = g s) (s : State) (p : ReqFor → Bool) :
    g (dropReqs s p) = g s := by
  unfold dropReqs reqPump
  rw [reqIssue_keeps hg]
  exact hg ..

end

/-- A part of the state that a ring's halt without a record does not touch: neither the ring's record nor its RING_STATE, nor requests, the
attestation queue, or what has been done for its descriptors. -/
structure RingBystander {α : Type} (r : Nat) (g : State → α) : Prop where
  reqs : ∀ s a n w, g { s with reqs := a, nextTag := n, reqWait := w } = g s
  trust : ∀ s t, g (State.putTrust s t) = g s
  work : ∀ s a b c d e, g { s with flights := a, mesh := b, barges := c, tiles := d, dumps := e } = g s
  rings : ∀ s x, g { s with rings := tset ring0 s.rings r x } = g s
  ringState : ∀ s v, g (State.setReg s (aRing r 0x20) v) = g s

section
variable {α : Type} {g : State → α} {r : Nat}

theorem putRing_ringBystander (hg : RingBystander r g) (s : State) (x : RingSt) : g (s.putRing r x) = g s :=
  (hg.ringState ..).trans ((hg.ringState ..).trans (hg.rings ..))

theorem dropOut_ringBystander (hg : RingBystander r g) (s : State) (p : Nat → Bool) : g (dropOut s r p) = g s :=
  (attDrop_keeps hg.trust ..).trans ((putRing_ringBystander hg ..).trans ((hg.work ..).trans (dropReqs_keeps hg.reqs ..)))

theorem ringStop_ringBystander (hg : RingBystander r g) (s : State) (k : Nat) (kind : HaltKind) (status : Option Nat) :
    g (ringStop s r k kind status) = g s := by
  have hstop : ∀ x, g ((State.putRing (dropReqs s (descReqs r fun _ => true)) r x).wr (fHead r) k) = g s := fun x =>
    (hg.ringState ..).trans ((putRing_ringBystander hg ..).trans (dropReqs_keeps hg.reqs ..))
  cases status with
  | none => exact hstop _
  | some st => exact (hg.ringState ..).trans (hstop _)

theorem ringHaltQuiet_ringBystander (hg : RingBystander r g) (s : State) (k : Nat) (kind : HaltKind) (p : Nat → Bool) :
    g (ringHaltQuiet s r k kind p) = g s := (dropOut_ringBystander hg ..).trans (ringStop_ringBystander hg ..)

end

theorem State.ring_modRing (s : State) (r : Nat) (f : RingSt → RingSt) : (s.modRing r f).ring r = f (s.ring r) := State.ring_putRing ..

/-- What no write of a list's fields changes, writing them all does not change. -/
theorem wrAll_keeps_of {α : Type} {g : State → α} : (l : List (Fld × Nat)) → (∀ s, ∀ x ∈ l, g (State.wr s x.1 x.2) = g s) → (s : State) →
    g (s.wrAll l) = g s
  | [], _, _ => rfl
  | x :: l, h, s => (wrAll_keeps_of l (fun t y hy => h t y (List.mem_cons_of_mem _ hy)) (s.wr x.1 x.2)).trans (h s x List.mem_cons_self)

/-- A change of the tollhouse's record shows in the tollhouse's registers alone. -/
theorem putTrust_keeps {α : Type} {g : State → α} (htrust : ∀ s t, g { s with trust := t } = g s)
    (hreg : ∀ s o v, 0x900000 ≤ o → g (State.setReg s o v) = g s) (s : State) (t : TrustSt) : g (s.putTrust t) = g s := by
  refine (wrAll_keeps_of _ (fun u x hx => hreg _ _ _ ?_) _).trans (htrust s t)
  revert x
  simp [fTollSvnFused, fTollActiveSvn, fBootState, fActiveSlot, fActiveState, fOtherState, fDebug, fProvisioned, fAttQueue, fLogEntries]

theorem State.ring_wrAll (s : State) (l : List (Fld × Nat)) (r : Nat) : (s.wrAll l).ring r = s.ring r :=
  State.wrAll_keeps (fun t => t.ring r) (fun _ _ _ => rfl) l s

/-- Of a ring that halts without a record at a count only the descriptors that are not given up remain outstanding. -/
theorem ring_ringHaltQuiet (s : State) (r k : Nat) (kind : HaltKind) (p : Nat → Bool) : (ringHaltQuiet s r k kind p).ring r =
    { s.ring r with st := 2, halt := kind, next := k, waiting := [], halting := [],
                    gen := if kind = .firstRead then none else some (s.ring r).genSeen,
                    out := (s.ring r).out.filter fun d => !p d.count } := by
  have hreqs : ∀ t q, (dropReqs t q).ring r = t.ring r := dropReqs_keeps (g := fun t => t.ring r) fun _ _ _ _ => rfl
  have htrust : ∀ t x, (State.putTrust t x).ring r = t.ring r := putTrust_keeps (g := fun t => t.ring r) (fun _ _ => rfl) fun _ _ _ _ => rfl
  have hatt : ∀ t q, (attDrop t q).ring r = t.ring r := attDrop_keeps (g := fun t => t.ring r) htrust
  have hstop : (ringStop s r k kind none).ring r = { s.ring r with
      st := 2, halt := kind, next := k, waiting := [], halting := [], gen := if kind = .firstRead then none else some (s.ring r).genSeen } := by
    simp only [ringStop, State.ring_wrAll, State.ring_putRing]
  unfold ringHaltQuiet dropOut
  rw [hatt, State.ring_modRing]
  have hwork : ∀ (t : State) a b c d e, State.ring { t with flights := a, mesh := b, barges := c, tiles := d, dumps := e } r = t.ring r :=
    fun _ _ _ _ _ _ => rfl
  rw [hwork, hreqs, hstop]

/-! ### What looking at the votes leaves of the link and of the registers (15 R288 to R290) -/

theorem voteRefresh_keeps_of {α : Type} {g : State → α} (hdom : ∀ s d, g { s with power := { s.power with dom := d } } = g s)
    (hport : ∀ s p f, g (State.modPort s p f) = g s) (hreg : ∀ s o v, 0x800000 ≤ o → g (State.setReg s o v) = g s) (s : State) :
    g (voteRefresh s) = g s := by
  unfold voteRefresh
  split
  · rfl
  · refine (wrAll_keeps_of _ (fun t x hx => hreg _ _ _ ?_) _).trans ((foldl_keeps (fun t p => portVote_keeps g hport _ _ p) _ _).trans (hdom ..))
    revert x
    simp [fVotes, fPwrState]

@[simp] theorem voteRefresh_reqs (s : State) : (voteRefresh s).reqs = s.reqs :=
  voteRefresh_keeps State.reqs (fun _ _ => rfl) (fun _ _ _ => rfl) (fun _ _ _ => rfl) s
@[simp] theorem voteRefresh_reqWait (s : State) : (voteRefresh s).reqWait = s.reqWait :=
  voteRefresh_keeps State.reqWait (fun _ _ => rfl) (fun _ _ _ => rfl) (fun _ _ _ => rfl) s
@[simp] theorem voteRefresh_posted (s : State) : (voteRefresh s).posted = s.posted :=
  voteRefresh_keeps State.posted (fun _ _ => rfl) (fun _ _ _ => rfl) (fun _ _ _ => rfl) s
@[simp] theorem voteRefresh_link (s : State) : (voteRefresh s).link = s.link :=
  voteRefresh_keeps State.link (fun _ _ => rfl) (fun _ _ _ => rfl) (fun _ _ _ => rfl) s
@[simp] theorem voteRefresh_rrLast (s : State) : (voteRefresh s).rrLast = s.rrLast :=
  voteRefresh_keeps State.rrLast (fun _ _ => rfl) (fun _ _ _ => rfl) (fun _ _ _ => rfl) s
@[simp] theorem voteRefresh_polls (s : State) : (voteRefresh s).polls = s.polls :=
  voteRefresh_keeps State.polls (fun _ _ => rfl) (fun _ _ _ => rfl) (fun _ _ _ => rfl) s
@[simp] theorem voteRefresh_images (s : State) : (voteRefresh s).images = s.images :=
  voteRefresh_keeps State.images (fun _ _ => rfl) (fun _ _ _ => rfl) (fun _ _ _ => rfl) s
@[simp] theorem voteRefresh_msix (s : State) : (voteRefresh s).msix = s.msix :=
  voteRefresh_keeps State.msix (fun _ _ => rfl) (fun _ _ _ => rfl) (fun _ _ _ => rfl) s
@[simp] theorem voteRefresh_msixPend (s : State) : (voteRefresh s).msixPend = s.msixPend :=
  voteRefresh_keeps State.msixPend (fun _ _ => rfl) (fun _ _ _ => rfl) (fun _ _ _ => rfl) s
@[simp] theorem voteRefresh_ring (s : State) (r : Nat) : (voteRefresh s).ring r = s.ring r := by simp only [State.ring, voteRefresh_rings]
theorem voteRefresh_rd {f : Fld} (h : f.off < 0x800000) (s : State) : (voteRefresh s).rd f = s.rd f :=
  voteRefresh_keeps_of (g := fun t => t.rd f) (fun _ _ => rfl) (fun _ _ _ => rfl)
    (fun t o v ho => by simp only [State.rd, State.reg_setReg_ne t v (show f.off ≠ o by omega)]) s

/-! ### The link as the commands of this family see it -/

/-- Of the link and the power record: DL_Active, the training but for the writes that a stall holds, whether DL_Active is due and has risen; and
the registers WHF_UCIE_HOST, WHF_UCIE_CAPS and WHF_UCIE_STATUS. -/
structure LinkView where
  dlActive : Bool
  link : LinkSt
  dlBegun : Bool
  dlRose : Bool
  host : Word64
  caps : Word64
  status : Word64

/-- The training's record without what a stall holds; without a stall nothing is held or let go. -/
def LinkSt.unheld (k : LinkSt) : LinkSt := { k with held := if k.stalled then [] else k.held }

def State.linkView (s : State) : LinkView :=
  ⟨s.dlActive, s.link.unheld, s.power.dlBegun, s.power.dlRose, s.reg 0x1068, s.reg 0x1070, s.reg 0x1800⟩

theorem setReg_linkView (s : State) {o : Nat} (v : Word64) (h : o ∉ [0x1068, 0x1070, 0x1800]) : (s.setReg o v).linkView = s.linkView := by
  simp only [List.mem_cons, List.not_mem_nil, or_false, not_or] at h
  obtain ⟨h1, h2, h3⟩ := h
  simp only [State.linkView, State.reg_setReg_ne s v (Ne.symm h1), State.reg_setReg_ne s v (Ne.symm h2), State.reg_setReg_ne s v (Ne.symm h3),
    State.setReg_dlActive, State.setReg_link, State.setReg_power]

theorem setReg_linkView_of_lt (s : State) {o : Nat} (v : Word64) (h : 0x1800 < o) : (s.setReg o v).linkView = s.linkView :=
  setReg_linkView s v (by simp; omega)

theorem linkView_bystander : Bystander State.linkView where
  setReg s o v h := setReg_linkView_of_lt s v h
  msixPend _ _ := rfl
  posted _ _ := rfl
  held s v h := by simp [State.linkView, State.reg, LinkSt.unheld, h]
  log _ _ _ := rfl
  fatal _ _ _ := rfl
  rings _ _ _ _ := rfl
  work _ _ _ _ := rfl

theorem linkView_ringBystander (r : Nat) : RingBystander r State.linkView where
  reqs _ _ _ _ := rfl
  trust := putTrust_keeps (fun _ _ => rfl) fun s _ v h => setReg_linkView_of_lt s v (by omega)
  work _ _ _ _ _ _ := rfl
  rings _ _ := rfl
  ringState s v := setReg_linkView_of_lt s v (lt_aRing ..)

theorem voteRefresh_linkView (s : State) : (voteRefresh s).linkView = s.linkView :=
  voteRefresh_keeps_of (fun _ _ => rfl) (fun _ _ _ => rfl) (fun s _ v h => setReg_linkView_of_lt s v (by omega)) s

section
variable {s t : State} (h : t.linkView = s.linkView)
include h

theorem dlActive_of_linkView : t.dlActive = s.dlActive := congrArg LinkView.dlActive h
theorem step_of_linkView : t.link.step = s.link.step := congrArg (fun v => v.link.step) h
theorem rd_status_of_linkView {f : Fld} (hf : f.off = 0x1800) : t.rd f = s.rd f := by
  have : t.reg 0x1800 = s.reg 0x1800 := congrArg LinkView.status h
  simp only [State.rd, hf, this]

end

/-! ### Loss of DL_Active (02 R33; 19 R343) -/

/-- A fold of steps each of which leaves what is seen of one place alone, but for its own: there the fold leaves what that step leaves. -/
theorem foldl_own {α β : Type} {f : State → β → State} {g : State → α} {r : β} : (l : List β) → l.Nodup → r ∈ l →
    (∀ t, ∀ k ∈ l, k ≠ r → g (f t k) = g t) → (s : State) → ∃ t, g t = g s ∧ g (l.foldl f s) = g (f t r)
  | k :: l, hl, hr, hne, s => by
    obtain ⟨hk, hl⟩ := List.nodup_cons.1 hl
    by_cases h : k = r
    · subst h
      refine ⟨s, rfl, ?_⟩
      exact List.foldlRecOn (motive := fun u => g u = g (f s k)) l f rfl fun u hu j hj =>
        (hne u j (List.mem_cons_of_mem _ hj) fun e => hk (e ▸ hj)).trans hu
    · obtain ⟨t, ht, hf⟩ := foldl_own l hl ((List.mem_cons.1 hr).resolve_left (Ne.symm h))
        (fun u j hj => hne u j (List.mem_cons_of_mem _ hj)) (f s k)
      exact ⟨t, ht.trans (hne s k List.mem_cons_self h), hf⟩

theorem ringStage_bystander (r : Nat) : Bystander fun s => (s.ring r).st where
  setReg _ _ _ _ := rfl
  msixPend _ _ := rfl
  posted _ _ := rfl
  held _ _ _ := rfl
  log _ _ _ := rfl
  fatal _ _ _ := rfl
  rings s k x h := by
    simp only [State.ring, tget_tset]
    split
    case isTrue e => subst e; exact h
    case isFalse => rfl
  work _ _ _ _ := rfl

theorem ring_ringBystander {r k : Nat} (h : r ≠ k) : RingBystander k fun s => s.ring r where
  reqs _ _ _ _ := rfl
  trust := putTrust_keeps (g := fun s => s.ring r) (fun _ _ => rfl) fun _ _ _ _ => rfl
  work _ _ _ _ _ _ := rfl
  rings _ _ := tget_tset_ne _ _ _ h
  ringState _ _ := rfl

theorem dlLossRings_linkView (s : State) (unacked : List (Nat × Nat)) : (dlLossRings s unacked).linkView = s.linkView := by
  refine foldl_keeps (fun t r => ?_) _ _
  split
  · rfl
  · exact (putRing_ringBystander (linkView_ringBystander r) ..).trans (ringHaltQuiet_ringBystander (linkView_ringBystander r) ..)

theorem dlLossReqs_linkView (s : State) : (dlLossReqs s).linkView = s.linkView := by
  simp only [dlLossReqs, State.wrAll]
  split
  · exact (setReg_linkView _ _ (by decide)).trans (setReg_linkView _ _ (by decide))
  · rfl

/-- The modules' registers once DL_Active is lost (02 R33). -/
def dlLossFields (s : State) : List (Fld × Nat) :=
  [(fWidth, 0), (fModState 0, if s.rd (fModState 0) = modHeld then modHeld else modDown),
    (fModState 1, if s.rd (fModState 1) = modHeld then modHeld else modDown)]

theorem dlLoss_linkView {s : State} (h : s.dlActive = true) (unacked : List (Nat × Nat)) :
    (dlLoss s unacked).linkView = ((dlLossLink s).wrAll (dlLossFields s)).linkView := by
  rw [dlLoss_eq, if_neg (by simp [h]), dlLossReqs_linkView, dlLossRings_linkView, hostUsersFault_bystander linkView_bystander]
  exact ucieEvent_bystander linkView_bystander ..

theorem dlLossReqs_rings (s : State) : (dlLossReqs s).rings = s.rings := by
  simp only [dlLossReqs]
  split <;> rfl
theorem dlLossReqs_reqs (s : State) : (dlLossReqs s).reqs = [] ∧ (dlLossReqs s).reqWait = [] := by
  simp only [dlLossReqs]
  split <;> exact ⟨rfl, rfl⟩

/-- A ring in service halts until it is enabled again, and nothing of it is outstanding. -/
theorem dlLossRings_ring {s : State} {r : Nat} (hr : r < 1024) (hst : (s.ring r).st ≠ 0) (unacked : List (Nat × Nat)) :
    let x := (dlLossRings s unacked).ring r
    x.st = 2 ∧ x.halt = .reenable ∧ x.out = [] ∧ x.waiting = [] ∧ x.after = [] := by
  obtain ⟨t, ht, hown⟩ := foldl_own (g := fun t => t.ring r) (r := r) (List.range 1024) List.nodup_range (List.mem_range.2 hr)
    (f := fun t r => if (t.ring r).st = 0 then t
      else (ringHaltQuiet t r (firstIncomplete t r unacked) .reenable fun _ => true).modRing r fun g => { g with after := [] })
    (fun t k _ hk => by
      have hby := ring_ringBystander hk.symm
      split
      · rfl
      · exact (putRing_ringBystander hby ..).trans (ringHaltQuiet_ringBystander hby ..)) s
  intro x
  have hx : x = _ := hown
  rw [if_neg (ht ▸ hst), State.ring_modRing, ring_ringHaltQuiet] at hx
  rw [hx]
  simp

/-! ### D3hot (02 R37) -/

theorem RingBystander.prod {α β : Type} {g : State → α} {h : State → β} {r : Nat} (hg : RingBystander r g) (hh : RingBystander r h) :
    RingBystander r fun s => (g s, h s) where
  reqs s a n w := Prod.ext (hg.reqs s a n w) (hh.reqs s a n w)
  trust s t := Prod.ext (hg.trust s t) (hh.trust s t)
  work s a b c d e := Prod.ext (hg.work s a b c d e) (hh.work s a b c d e)
  rings s x := Prod.ext (hg.rings s x) (hh.rings s x)
  ringState s v := Prod.ext (hg.ringState s v) (hh.ringState s v)

theorem posted_ringBystander (r : Nat) : RingBystander r State.posted where
  reqs _ _ _ _ := rfl
  trust := putTrust_keeps (fun _ _ => rfl) fun _ _ _ _ => rfl
  work _ _ _ _ _ _ := rfl
  rings _ _ := rfl
  ringState _ _ := rfl

theorem rd_setReg_ne (s : State) {o : Nat} (v : Word64) {f : Fld} (h : f.off ≠ o) : (s.setReg o v).rd f = s.rd f := by
  simp only [State.rd, State.reg_setReg_ne s v h]

theorem fHead_off_lt {r : Nat} (hr : r < 1024) : (fHead r).off < 0x120000 := by simp only [fHead, aRing]; omega

/-- The tollhouse's registers are none of a ring's. -/
theorem putTrust_rd_head {r : Nat} (hr : r < 1024) (s : State) (t : TrustSt) : (s.putTrust t).rd (fHead r) = s.rd (fHead r) :=
  putTrust_keeps (g := fun s => s.rd (fHead r)) (fun _ _ => rfl)
    (fun s _ v h => rd_setReg_ne s v (by have := fHead_off_lt hr; omega)) s t

theorem head_ringBystander {r k : Nat} (hr : r < 1024) (h : r ≠ k) : RingBystander k fun s => s.rd (fHead r) where
  reqs _ _ _ _ := rfl
  trust := putTrust_rd_head hr
  work _ _ _ _ _ _ := rfl
  rings _ _ := rfl
  ringState s v := rd_setReg_ne s v (by simp only [fHead, aRing]; omega)

theorem State.rd_lt (s : State) (f : Fld) : s.rd f < 2 ^ (f.hi + 1 - f.lo) := Nat.mod_lt _ (by positivity)

/-- Do two fields share no bit of a register? -/
def Fld.apart (f g : Fld) : Bool :=
  decide (g.off ≠ f.off) || decide (f.lo ≤ f.hi) && decide (g.hi < 64) && (decide (g.hi < f.lo) || decide (f.hi < g.lo))

theorem rd_wr_apart (s : State) {f g : Fld} (v : Nat) (h : f.apart g = true) : (s.wr f v).rd g = s.rd g := by
  simp only [Fld.apart, Bool.or_eq_true, Bool.and_eq_true, decide_eq_true_eq] at h
  by_cases ho : g.off = f.off
  · obtain ⟨⟨hl, hg⟩, hd⟩ := h.resolve_left fun hne => hne ho
    exact State.rd_wr_disjoint s f g v ho hl hg hd
  · exact State.rd_wr_ne s f g v ho

theorem rd_wrAll_apart {g : Fld} (l : List (Fld × Nat)) (h : ∀ x ∈ l, x.1.apart g = true) (s : State) : (s.wrAll l).rd g = s.rd g :=
  wrAll_keeps_of (g := fun t => t.rd g) l (fun t x hx => rd_wr_apart t x.2 (h x hx)) s

/-- What RING_STATE shows of a ring's record leaves head alone. -/
theorem putRing_rd_head (s : State) (r : Nat) (g : RingSt) : (s.putRing r g).rd (fHead r) = s.rd (fHead r) := by
  exact rd_wrAll_apart _ (by simp [Fld.apart, fHead, fOutstanding, fRState]) _

/-- A ring that halts without a record at its head keeps it. -/
theorem head_ringHaltQuiet {r : Nat} (hr : r < 1024) (s : State) (kind : HaltKind) (p : Nat → Bool) :
    (ringHaltQuiet s r (s.rd (fHead r)) kind p).rd (fHead r) = s.rd (fHead r) := by
  have hreqs : ∀ t q, (dropReqs t q).rd (fHead r) = t.rd (fHead r) := dropReqs_keeps (g := fun t => t.rd (fHead r)) fun _ _ _ _ => rfl
  have hatt : ∀ t q, (attDrop t q).rd (fHead r) = t.rd (fHead r) := attDrop_keeps (g := fun t => t.rd (fHead r)) (putTrust_rd_head hr)
  have hwork : ∀ (t : State) a b c d e, State.rd { t with flights := a, mesh := b, barges := c, tiles := d, dumps := e } (fHead r) = t.rd (fHead r) :=
    fun _ _ _ _ _ _ => rfl
  simp only [ringHaltQuiet, dropOut, hatt, State.modRing, putRing_rd_head, hwork, hreqs, ringStop, State.wrAll]
  rw [State.rd_wr_self _ _ _ (by simp [fHead]) (by simp [fHead])]
  exact Nat.mod_eq_of_lt (s.rd_lt (fHead r))

/-- D3HOT_ENTRY at one ring, as what is active was at its start. -/
def d3hotRing (s t : State) (r : Nat) : State :=
  if (t.ring r).st = 1 ∧ ringActive s (t.ring r) then ringHaltQuiet t r (t.rd (fHead r)) .resume fun c => decide (c = t.rd (fHead r)) else t
def d3hotRings (s : State) : State := (List.range 1024).foldl (d3hotRing s) s

/-- Then the function is in D3hot, and the wake votes are withdrawn. -/
def d3hotEntered (s : State) : State :=
  { s with link := { s.link with d3hot := true }, power := { s.power with wakeVote := false, wakeTiles := [] } }

theorem d3hot_eq (s : State) : d3hot s = d3hotEntered (d3hotRings s) := by
  unfold d3hot d3hotEntered d3hotRings d3hotRing
  with_reducible rfl

theorem d3hotEntered_d3hot (s : State) : (d3hotEntered s).link.d3hot = true := rfl
theorem d3hotEntered_posted (s : State) : (d3hotEntered s).posted = s.posted := rfl
theorem d3hotEntered_ring (s : State) (r : Nat) : (d3hotEntered s).ring r = s.ring r := rfl
theorem d3hotEntered_rd (s : State) (f : Fld) : (d3hotEntered s).rd f = s.rd f := rfl

theorem d3hotRing_of_bystander {α : Type} {g : State → α} {r : Nat} (hg : RingBystander r g) (s t : State) : g (d3hotRing s t r) = g t := by
  unfold d3hotRing
  split
  · exact ringHaltQuiet_ringBystander hg ..
  · rfl

theorem d3hotRings_posted (s : State) : (d3hotRings s).posted = s.posted :=
  foldl_keeps (g := State.posted) (fun t r => d3hotRing_of_bystander (posted_ringBystander r) s t) _ _

theorem ringActive_iff (s : State) (g : RingSt) : ringActive s g = true ↔ g.out ≠ [] ∨ lately s g.seenAt = true := by
  simp [ringActive, List.isEmpty_eq_false_iff]

/-- What D3HOT_ENTRY leaves of a ring: an active one halts at its head, the descriptor there given up. -/
theorem d3hotRings_ring (s : State) {r : Nat} (hr : r < 1024) :
    let t := d3hotRings s
    if (s.ring r).st = 1 ∧ ((s.ring r).out ≠ [] ∨ lately s (s.ring r).seenAt = true)
      then (t.ring r).st = 2 ∧ (t.ring r).halt = .resume ∧ (t.ring r).waiting = [] ∧ t.rd (fHead r) = s.rd (fHead r)
        ∧ (t.ring r).out = (s.ring r).out.filter fun d => decide (d.count ≠ s.rd (fHead r))
      else t.ring r = s.ring r := by
  obtain ⟨u, hu, hown⟩ := foldl_own (g := fun t => (t.ring r, t.rd (fHead r))) (r := r) (f := d3hotRing s) (List.range 1024)
    List.nodup_range (List.mem_range.2 hr)
    (fun t k _ hk => d3hotRing_of_bystander ((ring_ringBystander hk.symm).prod (head_ringBystander hr hk.symm)) s t) s
  simp only [Prod.mk.injEq] at hu hown
  obtain ⟨hring, hhead⟩ := hu
  obtain ⟨hring', hhead'⟩ := hown
  intro t
  simp only [t, d3hotRings, hring', hhead', ← hring, ← hhead, ← ringActive_iff]
  split
  case isTrue h => simp only [d3hotRing, if_pos h, ring_ringHaltQuiet, head_ringHaltQuiet hr, decide_not, and_self]
  case isFalse h => simp only [d3hotRing, if_neg h]

/-! ### Function-level reset (02 R36; 18 R338) -/

/-- Is a request one of a barge or of a start block? -/
def ReqFor.stays (k : ReqFor) : Prop := (∃ b n i, k = .piece b n i) ∨ k = .startBlock

/-- Of the requests under way those of barges and of a start block stay; where none waits, none is issued. -/
structure KeepsRequests (s t : State) : Prop where
  stays : ∀ q ∈ s.reqs, q.kind.stays → q ∈ t.reqs
  noneNew : s.reqWait = [] → t.reqWait = [] ∧ ∀ q ∈ t.reqs, q ∈ s.reqs

/-- The requests under way and those that wait. -/
def State.requests (s : State) : List HostReq × List (ReqFor × Nat × Nat) := (s.reqs, s.reqWait)

theorem KeepsRequests.of_eq {s t : State} (h : t.requests = s.requests) : KeepsRequests s t := by
  obtain ⟨hr, hw⟩ := Prod.mk.injEq .. ▸ h
  exact ⟨fun _ hq _ => hr ▸ hq, fun e => ⟨hw.trans e, fun _ hq => hr ▸ hq⟩⟩

theorem KeepsRequests.refl (s : State) : KeepsRequests s s := .of_eq rfl

theorem KeepsRequests.trans {s t u : State} (h : KeepsRequests s t) (h' : KeepsRequests t u) : KeepsRequests s u where
  stays q hq hk := h'.stays q (h.stays q hq hk) hk
  noneNew e := ⟨(h'.noneNew (h.noneNew e).1).1, fun q hq => (h.noneNew e).2 q ((h'.noneNew (h.noneNew e).1).2 q hq)⟩

theorem KeepsRequests.foldl {β : Type} {f : State → β → State} (h : ∀ t b, KeepsRequests t (f t b)) (l : List β) (s : State) :
    KeepsRequests s (l.foldl f s) :=
  List.foldlRecOn (motive := KeepsRequests s) l f (.refl s) fun t ht b _ => ht.trans (h t b)

theorem mem_reqs_reqIssue {q : HostReq} (n : Nat) {s : State} (h : q ∈ s.reqs) : q ∈ (reqIssue n s).reqs := by
  induction n generalizing s with
  | zero => exact h
  | succ n ih =>
    unfold reqIssue
    split
    · split
      · exact ih (List.mem_append_left _ h)
      · exact h
    · exact h

theorem dropReqs_of_noneWaiting {s : State} (h : s.reqWait = []) (p : ReqFor → Bool) :
    (dropReqs s p).reqWait = [] ∧ (dropReqs s p).reqs = s.reqs.filter fun q => !p q.kind := by
  simp [dropReqs, reqPump, h, reqIssue]

theorem dropReqs_keepsRequests (s : State) {p : ReqFor → Bool} (h : ∀ k : ReqFor, k.stays → p k = false) : KeepsRequests s (dropReqs s p) where
  stays q hq hk := mem_reqs_reqIssue _ (List.mem_filter.2 ⟨hq, by simp [h _ hk]⟩)
  noneNew e := ⟨(dropReqs_of_noneWaiting e p).1, fun q hq => List.mem_of_mem_filter ((dropReqs_of_noneWaiting e p).2 ▸ hq)⟩

theorem wrAll_requests (s : State) (l : List (Fld × Nat)) : (s.wrAll l).requests = s.requests :=
  State.wrAll_keeps State.requests (fun _ _ _ => rfl) l s
theorem putRing_requests (s : State) (r : Nat) (g : RingSt) : (s.putRing r g).requests = s.requests := wrAll_requests ..
theorem modRing_requests (s : State) (r : Nat) (f : RingSt → RingSt) : (s.modRing r f).requests = s.requests := putRing_requests ..
theorem attDrop_requests (s : State) (p : AttReq → Bool) : (attDrop s p).requests = s.requests :=
  attDrop_keeps (g := State.requests) (putTrust_keeps (fun _ _ => rfl) fun _ _ _ _ => rfl) s p

theorem dropOut_keepsRequests (s : State) (r : Nat) (p : Nat → Bool) : KeepsRequests s (dropOut s r p) := by
  have hwork : ∀ (t : State) a b c d e, State.requests { t with flights := a, mesh := b, barges := c, tiles := d, dumps := e } = t.requests :=
    fun _ _ _ _ _ _ => rfl
  have hdrop : ∃ q, (∀ k : ReqFor, k.stays → q k = false) ∧ (dropOut s r p).requests = (dropReqs s q).requests := by
    refine ⟨_, ?_, by unfold dropOut; rw [attDrop_requests, modRing_requests, hwork]⟩
    rintro k (⟨b, n, i, rfl⟩ | rfl) <;> rfl
  obtain ⟨q, hq, h⟩ := hdrop
  exact .trans (dropReqs_keepsRequests s hq) (.of_eq h)

theorem ringOff_keepsRequests (s : State) (r : Nat) : KeepsRequests s (ringOff s r) := by
  unfold ringOff
  refine .trans (dropReqs_keepsRequests s ?_) (.trans (dropOut_keepsRequests _ r fun _ => true) (.of_eq (putRing_requests ..)))
  rintro k (⟨b, n, i, rfl⟩ | rfl) <;> rfl

theorem judgeLaunch_requests (s : State) (f : Flight) (status result : Nat) (entry : Option Nat) :
    (judgeLaunch s f status result entry).requests = s.requests := by
  simp only [judgeLaunch, settleWork, apply_ite State.requests, modRing_requests, ite_self]

theorem flightGone_requests (s : State) (f : Flight) (status result stopped : Nat) (entry : Option Nat) :
    (flightGone s f status result stopped entry).requests = s.requests := by
  have hclock : ∀ t, (clockRefresh t).requests = t.requests := fun t => wrAll_requests ..
  have hstops : ∀ t p i n, (judgeStops t p i n).requests = t.requests := fun _ _ _ _ => rfl
  have hflights : ∀ (t : State) v, State.requests { t with flights := v } = t.requests := fun _ _ => rfl
  have hunarm : ∀ t p i l, (unarm t p i l).requests = t.requests := fun t p i l => by
    refine foldl_keeps (g := State.requests) (fun _ _ => ?_) l t
    rfl
  have hcores : ∀ t, (f.cores.foldl (fun t u => State.modCore t u fun c => { c with phase := .idle }) t).requests = t.requests := fun t => by
    refine foldl_keeps (g := State.requests) (fun _ _ => ?_) _ _
    rfl
  simp only [flightGone, hclock, hstops, judgeLaunch_requests, hflights, hunarm, apply_ite State.requests, hcores, ite_self]

theorem flightStop_requests (s : State) (f : Flight) (k : StopKind) : (flightStop s f k).requests = s.requests := by
  have hfirings : (f.tiles.foldl (fun t n => dropFirings t f.part f.fid n) s).requests = s.requests := by
    refine foldl_keeps (g := State.requests) (fun _ _ => ?_) _ _
    rfl
  have hflight : ∀ h, (modFlight s f.part f.fid h).requests = s.requests := fun _ => rfl
  simp only [flightStop, apply_ite State.requests, flightGone_requests, hfirings, hflight, ite_self]

theorem stopFlights_requests (s : State) (part : Nat) : (stopFlights s part).requests = s.requests :=
  foldl_keeps (g := State.requests) (fun _ _ => flightStop_requests ..) _ _

/-- What a function-level reset clears once the flights stop and the rings are out of service: the ring engine's state, images, MSI-X state. -/
def flrClear (msix : Tbl Word64) (s : State) : State :=
  { s with
    rings := []
    rrLast := 1023
    polls := []
    images := []
    dumps := s.dumps.filter fun d => d.applied
    msix := msix
    msixPend := [] }
/-- The MSI-X table with every mask bit cleared. -/
def msixCleared : Tbl Word64 := (List.range 2048).map fun v => (2 * v + 1, 0#64)
theorem flrClear_requests (m : Tbl Word64) (s : State) : (flrClear m s).requests = s.requests := rfl

/-- A ring that a function-level reset may take out of service. -/
theorem ringOffUnless_keepsRequests (c : Prop) [Decidable c] (s : State) (f : Fld) (v r : Nat) :
    KeepsRequests s (if c then s else ringOff (s.wr f v) r) := by
  split
  · exact .refl s
  · exact .trans (.of_eq (wrAll_requests s [(f, v)])) (ringOff_keepsRequests ..)

theorem showPending_requests (s : State) (l : List (Nat × Word64)) : (showPending { s with pendingSt := l }).requests = s.requests := rfl

/-- The state in which every ring is out of service has a name without a value here: the kernel must not reduce the folds that it comes of. -/
theorem flr_eq (s : State) : ∃ t p, KeepsRequests s t ∧ (∀ k : ReqFor, p k = false ↔ k.stays) ∧ flr s = dropReqs (flrClear msixCleared t) p := by
  unfold flr
  extract_lets s1 had s2 s3
  have h1 : s1.requests = s.requests := foldl_keeps stopFlights_requests _ _
  have h3 : KeepsRequests s s3 := .trans (.of_eq ((showPending_requests ..).trans h1)) (.foldl (fun _ _ => ringOffUnless_keepsRequests ..) _ _)
  clear_value s3
  refine ⟨s3, _, h3, ?_, rfl⟩
  intro k
  cases k <;> simp [ReqFor.stays]

/-- The ring engine's own state, images and MSI-X state. -/
def State.ringEngine (s : State) : Tbl RingSt × Nat × Tbl PollSt × List Image × Tbl Word64 × Tbl Bool :=
  (s.rings, s.rrLast, s.polls, s.images, s.msix, s.msixPend)

theorem flrClear_ringEngine (m : Tbl Word64) (s : State) : (flrClear m s).ringEngine = ([], 1023, [], [], m, []) := rfl

/-- A vector's two quadwords, each listed under its odd key alone, read as zero. -/
theorem tget_msixCleared {k : Nat} (hk : k < 4096) : tget msixInit msixCleared k = 0#64 := by
  have hget : ∀ l : List Nat, (k % 2 = 1 → k / 2 ∈ l) → tget msixInit (l.map fun v => (2 * v + 1, 0#64)) k = 0#64 := by
    intro l
    induction l with
    | nil =>
      intro h
      have : k % 2 ≠ 1 := fun e => List.not_mem_nil (h e)
      simp [tget, msixInit, this]
    | cons v l ih =>
      intro h
      simp only [List.map_cons, tget]
      split
      case isTrue => rfl
      case isFalse hv =>
        exact ih fun e => (List.mem_cons.1 (h e)).resolve_left (by omega)
  exact hget _ fun _ => List.mem_range.2 (by omega)

/-! ### The commands, and the statement of O36 -/

theorem exec_dlLoss {unacked : List (Nat × Nat)} (hok : ∀ x ∈ unacked, x.1 < 1024 ∧ x.2 < 2 ^ 32) {c : Instr}
    (hc : c = .dlActiveLoss unacked ∨ c = .hostResetN unacked) (s : State) : exec c s = .next (voteRefresh (dlLoss s unacked)) := by
  have hwf : (unacked.all fun x => okRing x.1) = true := List.all_eq_true.2 fun x hx => decide_eq_true (hok x hx).1
  rcases hc with rfl | rfl
  · exact run_of_wf (c := .dlActiveLoss unacked) hwf
  · exact run_of_wf (c := .hostResetN unacked) hwf
theorem exec_d3hotEntry (s : State) : exec .d3hotEntry s = .next (voteRefresh (d3hot s)) := rfl
theorem exec_d0Return (s : State) : exec .d0Return s = .next (voteRefresh (d0 s)) := rfl
theorem exec_functionLevelReset (s : State) : exec .functionLevelReset s = .next (voteRefresh (flr s)) := rfl

/-- What the loss of DL_Active leaves of the link, of requests, and of a ring in service. -/
theorem dlLoss_state {s : State} (h : s.dlActive = true) (unacked : List (Nat × Nat)) :
    let t := dlLoss s unacked
    t.dlActive = false ∧ t.reqs = [] ∧ t.reqWait = [] ∧ t.link.step = none ∧ t.rd fWidth = 0
      ∧ ∀ r, r < 1024 → (s.ring r).st ≠ 0 →
        (t.ring r).st = 2 ∧ (t.ring r).halt = .reenable ∧ (t.ring r).out = [] ∧ (t.ring r).waiting = [] ∧ (t.ring r).after = [] := by
  have hview := dlLoss_linkView h unacked
  have hstages : dlLoss s unacked = dlLossReqs (dlLossRings (hostUsersFault (dlLossModules s)) unacked) := by simp [dlLoss_eq, h]
  have hactive : ((dlLossLink s).wrAll (dlLossFields s)).dlActive = false :=
    State.wrAll_keeps State.dlActive (fun _ _ _ => rfl) (dlLossFields s) (dlLossLink s)
  have hlink : ((dlLossLink s).wrAll (dlLossFields s)).link = (dlLossLink s).link := State.wrAll_keeps State.link (fun _ _ _ => rfl) _ _
  have hwidth : ((dlLossLink s).wrAll (dlLossFields s)).rd fWidth = 0 := by
    rw [dlLossFields, State.wrAll, rd_wrAll_apart _ (by simp [Fld.apart, fModState, fWidth]), State.rd_wr_self _ _ _ (by decide) (by decide),
      Nat.zero_mod]
  intro t
  refine ⟨(dlActive_of_linkView hview).trans hactive, ?reqs, ?reqWait, ?step, (rd_status_of_linkView hview rfl).trans hwidth, fun r hr hst => ?_⟩
  case reqs => simp only [t, hstages, dlLossReqs_reqs]
  case reqWait => simp only [t, hstages, dlLossReqs_reqs]
  case step =>
    rw [step_of_linkView hview, hlink]
    rfl
  · have hbefore : ((hostUsersFault (dlLossModules s)).ring r).st = (s.ring r).st := by
      rw [hostUsersFault_bystander (ringStage_bystander r), dlLossModules, ucieEvent_bystander (ringStage_bystander r), State.ring_wrAll]
      rfl
    have hring : t.ring r = (dlLossRings (hostUsersFault (dlLossModules s)) unacked).ring r := by
      simp only [t, hstages, State.ring, dlLossReqs_rings]
    rw [hring]
    exact dlLossRings_ring hr (by rw [hbefore]; exact hst) unacked

/-- What a function-level reset leaves of the ring engine, of images, of MSI-X state and of requests. -/
theorem flr_state (s : State) :
    (flr s).rings = [] ∧ (flr s).rrLast = 1023 ∧ (flr s).polls = [] ∧ (flr s).images = []
      ∧ (∀ k, k < 4096 → tget msixInit (flr s).msix k = 0#64) ∧ (flr s).msixPend = []
      ∧ (s.reqWait = [] → ∀ q ∈ (flr s).reqs, q ∈ s.reqs ∧ q.kind.stays) ∧ ∀ q ∈ s.reqs, q.kind.stays → q ∈ (flr s).reqs := by
  obtain ⟨u, p, hu, hp, hflr⟩ := flr_eq s
  have hclear : KeepsRequests s (flrClear msixCleared u) := hu.trans (.of_eq (flrClear_requests ..))
  have hkeep : KeepsRequests s (flr s) := hflr ▸ hclear.trans (dropReqs_keepsRequests _ fun k hk => (hp k).2 hk)
  have hengine : (flr s).ringEngine = _ := hflr ▸ (dropReqs_keeps (g := State.ringEngine) (fun _ _ _ _ => rfl) _ p).trans (flrClear_ringEngine ..)
  simp only [State.ringEngine, Prod.mk.injEq] at hengine
  obtain ⟨hrings, hlast, hpolls, himages, hmsix, hpend⟩ := hengine
  refine ⟨hrings, hlast, hpolls, himages, fun k hk => hmsix ▸ tget_msixCleared hk, hpend, fun hw q hq => ⟨(hkeep.noneNew hw).2 q hq, ?_⟩, hkeep.stays⟩
  have hreqs := (dropReqs_of_noneWaiting (hclear.noneNew hw).1 p).2
  rw [← hflr] at hreqs
  have hmem := List.mem_filter.1 (hreqs ▸ hq)
  exact (hp _).1 (by simpa using hmem.2)

/-- Settles O36: the loss of DL_Active by the view of the link and the one ring's step of its fold, D3hot by that step too, the reset by what
it keeps of the requests. -/
theorem linkLossAndFunctionStates : Obligations.LinkLossAndFunctionStates := by
  refine ⟨fun s unacked hok c hc => ⟨fun h => ?down, fun h => ?loss⟩, fun s => ⟨?d3hot, fun h => ?d0, fun h => ?wake, ?reset⟩⟩
  case down => rw [exec_dlLoss hok hc, dlLoss, if_pos (by simp [h])]
  case loss =>
    refine ⟨_, exec_dlLoss hok hc s, ?_⟩
    obtain ⟨hactive, hreqs, hwait, hstep, hwidth, hrings⟩ := dlLoss_state h unacked
    simp only [dlActive_of_linkView (voteRefresh_linkView _), voteRefresh_reqs, voteRefresh_reqWait, voteRefresh_link, voteRefresh_ring,
      voteRefresh_rd (f := fWidth) (by decide)]
    exact ⟨hactive, hreqs, hwait, hstep, hwidth, hrings⟩
  case d3hot =>
    refine ⟨_, exec_d3hotEntry s, ?_, ?_, fun r hr => ?_⟩
    · rw [voteRefresh_link, d3hot_eq, d3hotEntered_d3hot]
    · rw [voteRefresh_posted, d3hot_eq, d3hotEntered_posted, d3hotRings_posted]
    · rw [d3hot_eq, voteRefresh_ring, voteRefresh_rd (f := fHead r) (by have := fHead_off_lt hr; omega), d3hotEntered_ring, d3hotEntered_rd]
      exact d3hotRings_ring s hr
  case d0 => rw [exec_d0Return, d0, if_pos (by simp [h])]
  case wake => rw [exec_d0Return, d0, if_neg (by simp [h])]
  case reset =>
    refine ⟨_, exec_functionLevelReset s, ?_⟩
    simp only [State.msixAt, voteRefresh_rings, voteRefresh_rrLast, voteRefresh_polls, voteRefresh_images, voteRefresh_msix, voteRefresh_msixPend,
      voteRefresh_reqs]
    exact flr_state s

/-! ## O35: training of the UCIe link (02 R23 to R32) -/

/-! ### What the answers to waiting requests leave of the link (02 R25) -/

theorem putRing_linkView (s : State) (r : Nat) (g : RingSt) : (s.putRing r g).linkView = s.linkView :=
  putRing_ringBystander (linkView_ringBystander r) s g
theorem modRing_linkView (s : State) (r : Nat) (f : RingSt → RingSt) : (s.modRing r f).linkView = s.linkView := putRing_linkView ..
theorem settleWork_linkView (s : State) (r c : Nat) (w0 w : Work) : (settleWork s r c w0 w).linkView = s.linkView := modRing_linkView ..
theorem reqPump_linkView (s : State) : (reqPump s).linkView = s.linkView := reqIssue_keeps (fun _ _ _ _ => rfl) _ s
theorem hostAsk_linkView (s : State) (kind : ReqFor) (addr len : Nat) : (hostAsk s kind addr len).linkView = s.linkView := reqPump_linkView _
theorem ucieEvent_linkView (s : State) (code trained : Nat) : (ucieEvent s code trained).linkView = s.linkView :=
  ucieEvent_bystander linkView_bystander ..
theorem bitmapRefused_linkView (s : State) (p : Nat) (cas : Bool) : (bitmapRefused s p cas).linkView = s.linkView :=
  errRaise_bystander linkView_bystander ..

theorem ringIrq_linkView (s : State) (r : Nat) (halting : Bool) : (ringIrq s r halting).linkView = s.linkView := by
  simp only [ringIrq, apply_ite State.linkView, putRing_linkView, msixRaise_bystander linkView_bystander, ite_self]

theorem doorbellHalt_linkView (s : State) (r status : Nat) (kind : HaltKind) : (doorbellHalt s r status kind).linkView = s.linkView := by
  have hentry : (ringEntry s r (s.rd (fHead r)) status 0 []).linkView = s.linkView := ringErr_bystander linkView_bystander ..
  simp only [doorbellHalt, apply_ite State.linkView, ringIrq_linkView, ringStop_ringBystander (linkView_ringBystander r), hentry, ite_self]

theorem doorbellRefused_linkView (s : State) (r : Nat) : (doorbellRefused s r).linkView = s.linkView := by
  simp only [doorbellRefused, apply_ite State.linkView, doorbellHalt_linkView, ite_self]

theorem doorbellAsk_linkView (s : State) (r : Nat) : (doorbellAsk s r).linkView = s.linkView := by
  simp only [doorbellAsk, apply_ite State.linkView, hostAsk_linkView, doorbellRefused_linkView, ite_self]

theorem readDoorbells_linkView (s : State) (p w seen : Nat) : (readDoorbells s p w seen).linkView = s.linkView := by
  refine foldl_keeps (fun t r => ?_) _ s
  have hstray : (t.inc (fStray r)).linkView = t.linkView := inc_bystander linkView_bystander t (fStray r) (lt_aRing ..)
  simp only [apply_ite State.linkView, doorbellAsk_linkView, hstray, ite_self]

/-- Judging what waits for its dispatch writes the ring's record alone. -/
theorem ringJudge_keeps {α : Type} {g : State → α} (hg : ∀ s r f, g (State.modRing s r f) = g s) (n : Nat) (s : State) (r : Nat) :
    g (ringJudge n s r) = g s := by
  induction n generalizing s with
  | zero => rfl
  | succ n ih =>
    unfold ringJudge
    split
    · split
      · exact (ih _).trans (hg ..)
      · exact (ih _).trans (hg ..)
      · rfl
    · rfl

theorem addFetched_linkView (s : State) (r : Nat) (l : List Fetched) : (addFetched s r l).linkView = s.linkView :=
  (ringJudge_keeps modRing_linkView ..).trans (modRing_linkView ..)

theorem pieceRefused_linkView (s : State) (id k i : Nat) : (pieceArrives s id k i none).linkView = s.linkView := by
  simp only [pieceArrives]
  split
  · rfl
  · simp only [apply_ite State.linkView, bargeHalt_bystander linkView_bystander, modBarge_bystander linkView_bystander, ite_self]

theorem bufRefused_linkView (s : State) (r c addr len : Nat) : (bufArrives s r c addr len none).linkView = s.linkView := by
  have hhold : ∀ t n, (holdSync t n).linkView = t.linkView := fun t n => by
    have hpeak : ∀ u v, (State.wr u (fHoldPeak n) v).linkView = u.linkView := fun u v =>
      wr_bystander linkView_bystander u (fHoldPeak n) v (by simp only [fHoldPeak, fRg, aGrp]; omega)
    have huse : ∀ v, State.linkView { t with holdUse := v } = t.linkView := fun _ => rfl
    simp only [holdSync, apply_ite State.linkView, hpeak, huse, ite_self]
  have hfree : ∀ b, (bucketFree s b).linkView = s.linkView := fun b => hhold ..
  simp only [bufArrives, bufferHalt]
  split
  · rfl
  · split
    · rfl
    · rw [settleWork_linkView, hfree]

theorem startFault_linkView (s : State) : (startFault s).linkView = s.linkView :=
  (setReg_linkView _ _ (by decide)).trans (setReg_linkView _ _ (by decide))

/-- A request that is refused changes nothing of the link. -/
theorem refused_linkView (s : State) (q : HostReq) : (answer s q none fun u _ => startFault u).linkView = s.linkView := by
  unfold answer
  split
  case h_1 => exact pieceRefused_linkView ..
  case h_2 h => exact absurd h (by simp)
  case h_3 => exact settleWork_linkView ..
  case h_4 => exact bitmapRefused_linkView ..
  case h_5 => exact (readDoorbells_linkView ..).trans (bitmapRefused_linkView ..)
  case h_6 => exact doorbellRefused_linkView ..
  case h_7 => exact addFetched_linkView ..
  case h_8 => exact bufRefused_linkView ..
  case h_9 => exact startFault_linkView ..

theorem waitFaults_linkView (s : State) : (waitFaults s).linkView = s.linkView := by
  refine (foldl_keeps (fun t x => ?_) _ _).trans ?_
  · exact refused_linkView ..
  · rfl

theorem waitFaults_of_noneWaiting {s : State} (h : s.reqWait = []) : waitFaults s = s := by
  cases s
  cases h
  rfl

theorem ledgerExtend_linkView (s : State) (i kind : Nat) (d : List Byte) : (ledgerExtend s i kind d).linkView = s.linkView := by
  have hput : ∀ e, (putLedger s i e).linkView = s.linkView := fun e =>
    foldl_keeps (fun t q => setReg_linkView_of_lt t _ (by simp only [aToll]; omega)) _ s
  have htrust : ∀ (t : State) v, State.linkView { t with trust := v } = t.linkView := fun _ _ => rfl
  have hlog : ∀ t v, (State.wr t fLogEntries v).linkView = t.linkView := fun t v => wr_bystander linkView_bystander t _ v (by decide)
  simp only [ledgerExtend, hlog, htrust, hput]

/-! ### The modules' fields of WHF_UCIE_STATUS (02 R24, R28, R29) -/

theorem link_of_linkView {s t : State} (h : t.linkView = s.linkView) : t.link.unheld = s.link.unheld := congrArg LinkView.link h

/-- What a list of the modules' states reads as. -/
theorem rd_modStates (s : State) (F : Nat → Nat) {m : Nat} (hm : m < 2) :
    (s.wrAll ([0, 1].map fun m => (fModState m, F m))).rd (fModState m) = F m % 4 := by
  simp only [List.map_cons, List.map_nil, State.wrAll]
  obtain rfl | rfl : m = 0 ∨ m = 1 := by omega
  · rw [rd_wr_apart _ _ (by decide), State.rd_wr_self _ _ _ (by decide) (by decide)]
    rfl
  · rw [State.rd_wr_self _ _ _ (by decide) (by decide)]
    rfl

/-- A field apart from the modules' states is left by a list of them. -/
theorem rd_modStates_apart (s : State) (F : Nat → Nat) {f : Fld} (h0 : (fModState 0).apart f = true) (h1 : (fModState 1).apart f = true) :
    (s.wrAll ([0, 1].map fun m => (fModState m, F m))).rd f = s.rd f :=
  rd_wrAll_apart _ (by simp [h0, h1]) s

theorem wrAll_link (s : State) (l : List (Fld × Nat)) : (s.wrAll l).link = s.link := State.wrAll_keeps State.link (fun _ _ _ => rfl) l s
theorem wrAll_dlActive (s : State) (l : List (Fld × Nat)) : (s.wrAll l).dlActive = s.dlActive :=
  State.wrAll_keeps State.dlActive (fun _ _ _ => rfl) l s
theorem wrAll_power (s : State) (l : List (Fld × Nat)) : (s.wrAll l).power = s.power := State.wrAll_keeps State.power (fun _ _ _ => rfl) l s

theorem localMask_eq (s : State) : localMask s =
    (if s.rd (fModState 0) = modHeld then 0 else 1) + (if s.rd (fModState 1) = modHeld then 0 else 2) := by
  simp [localMask, lsum]

/-- A module is in a mask put together from both. -/
theorem testBit_modules (b : Nat → Bool) {m : Nat} (hm : m < 2) : (lsum ([0, 1].map fun m => if b m then 2 ^ m else 0)).testBit m = b m := by
  obtain rfl | rfl : m = 0 ∨ m = 1 := by omega
  all_goals cases h0 : b 0 <;> cases h1 : b 1 <;> simp [lsum, h0, h1] <;> decide

/-- What a module's state shows at an attempt: held down here, trained by both ends, or down. -/
def stateAt (lm both m : Nat) : Nat := if lm.testBit m = false then modHeld else if both.testBit m then modTraining else modDown

theorem stateAt_here (lm : Nat) {m : Nat} (hm : m < 2) : (if nbit lm m then modTraining else modHeld) % 4 = stateAt lm 3 m := by
  have hthree : Nat.testBit 3 m = true := by
    obtain rfl | rfl : m = 0 ∨ m = 1 := by omega
    all_goals rfl
  cases h : lm.testBit m <;> simp [stateAt, nbit, h, hthree, modTraining, modHeld]

theorem stateAt_both (lm remote m : Nat) :
    (if nbit lm m then (if nbit (lm &&& remote) m then modTraining else modDown) else modHeld) % 4 = stateAt lm remote m := by
  cases h : lm.testBit m <;> cases hr : remote.testBit m <;> simp [stateAt, nbit, h, hr, modTraining, modDown, modHeld]

/-! ### An attempt begins (02 R24, R28, R32) -/

/-- The module is far enough up for the link to train, and nothing fatal has happened. -/
def MayTrain (s : State) : Prop := s.isFatal = false ∧ ∃ k, s.power.step = some k ∧ 6 ≤ k

/-- The attempt that begins, before the modules show it. -/
def attemptBegun (s : State) (keep : Bool) : State :=
  { s with link := { s.link with step := some 0, localMask := localMask s, asked := true, failed := 0, stalled := keep && s.dlActive }
           power := { s.power with dlBegun := true } }

theorem attemptStart_of_mayTrain {s : State} (h : MayTrain s) (keep : Bool) : attemptStart s keep =
    ((attemptBegun s keep).inc fRetrains).wrAll ([0, 1].map fun m => (fModState m, if nbit (localMask s) m then modTraining else modHeld)) := by
  obtain ⟨hf, k, hk, h6⟩ := h
  have hup : (s.power.step.any fun k => k ≥ 6) = true := by simp [hk, h6]
  simp only [attemptStart, hf, hup, attemptBegun]
  rfl

theorem rd_inc_self (s : State) {f : Fld} (hl : f.lo ≤ f.hi) (hh : f.hi < 64) :
    (s.inc f).rd f = min (2 ^ (f.hi + 1 - f.lo) - 1) (s.rd f + 1) := by
  rw [State.inc, State.rd_wr_self s f _ hl hh, satAdd, min_comm]
  exact Nat.mod_eq_of_lt (lt_of_le_of_lt (min_le_left _ _) (Nat.sub_lt (by positivity) one_pos))

/-- The state that an attempt leaves at its beginning. -/
theorem attemptStart_state {s : State} (h : MayTrain s) (keep : Bool) :
    let t := attemptStart s keep
    t.power.dlBegun = true ∧ t.link = (attemptBegun s keep).link ∧ t.dlActive = s.dlActive ∧ t.isFatal = false
      ∧ t.rd fRetrains = min 255 (s.rd fRetrains + 1) ∧ ∀ m, m < 2 → t.rd (fModState m) = stateAt (localMask s) 3 m := by
  intro t
  have ht : t = _ := attemptStart_of_mayTrain h keep
  rw [ht]
  refine ⟨by rw [wrAll_power]; rfl, by rw [wrAll_link]; rfl, by rw [wrAll_dlActive]; rfl, ?fatal, ?retrains, fun m hm => ?states⟩
  case fatal =>
    have hrd : (State.inc (attemptBegun s keep) fRetrains).rd fFatal = s.rd fFatal := rd_wr_apart _ _ (by decide)
    rw [State.isFatal, State.flag, rd_modStates_apart _ _ (by decide) (by decide), hrd]
    exact h.1
  case retrains =>
    rw [rd_modStates_apart _ _ (by decide) (by decide), rd_inc_self _ (by decide) (by decide)]
    rfl
  case states =>
    rw [rd_modStates _ _ hm]
    exact stateAt_here (localMask s) hm

/-- The attempt once the host die has advertised its mask, and the modules show it. -/
def maskExchanged (s : State) (remote : Nat) : State :=
  State.wrAll { s with link := { s.link with remoteMask := remote % 4, asked := false } }
    ([0, 1].map fun m => (fModState m, if nbit s.link.localMask m then (if nbit (s.link.localMask &&& remote % 4) m then modTraining else modDown)
      else modHeld))

theorem maskExchange_linkView {s : State} {remote : Nat} (hf : s.isFatal = false) (hs : s.link.step ≠ none) (ha : s.link.asked = true)
    (hboth : s.link.localMask &&& remote % 4 ≠ 0) : (maskExchange s remote).linkView = (maskExchanged s remote).linkView := by
  have hstep : s.link.step.isNone = false := Option.isNone_eq_false_iff.2 (Option.isSome_iff_ne_none.2 hs)
  unfold maskExchange
  rw [if_neg (by simp [hf, hstep, ha])]
  simp only []
  rw [if_pos hboth]
  split
  · exact ucieEvent_linkView ..
  · rfl

/-- The host die advertises its mask, and modules remain that both ends advertise (02 R28). -/
theorem maskExchange_state {s : State} {remote : Nat} (hf : s.isFatal = false) (hs : s.link.step ≠ none) (ha : s.link.asked = true)
    (hr : remote < 4) (hboth : s.link.localMask &&& remote ≠ 0) :
    let t := maskExchange s remote
    t.link.unheld = { s.link with remoteMask := remote, asked := false }.unheld ∧ t.dlActive = s.dlActive ∧ t.rd fRetrains = s.rd fRetrains
      ∧ ∀ m, m < 2 → t.rd (fModState m) = stateAt s.link.localMask remote m := by
  have hmod : remote % 4 = remote := Nat.mod_eq_of_lt hr
  have hview := maskExchange_linkView hf hs ha (hmod.symm ▸ hboth)
  simp only [maskExchanged, hmod] at hview
  intro t
  refine ⟨(link_of_linkView hview).trans (by rw [wrAll_link]), (dlActive_of_linkView hview).trans (by rw [wrAll_dlActive]),
    (rd_status_of_linkView hview rfl).trans (rd_modStates_apart _ _ (by decide) (by decide)), fun m hm => ?_⟩
  rw [rd_status_of_linkView hview rfl, rd_modStates _ _ hm]
  exact stateAt_both ..

/-- The state in which the holds are released (02 R29). -/
def holdsReleased (s : State) : State :=
  s.wrAll ([0, 1].flatMap fun m => [(fModFail m, 0), (fModState m, if s.rd (fModState m) = modHeld then modDown else s.rd (fModState m))])

theorem holdsReleased_modState (s : State) {m : Nat} (hm : m < 2) : (holdsReleased s).rd (fModState m) ≠ modHeld := by
  have hlt : s.rd (fModState m) < 4 := by simpa [fModState, show 25 + 2 * m + 1 - (24 + 2 * m) = 2 by omega] using s.rd_lt (fModState m)
  have hrd : (holdsReleased s).rd (fModState m) = (if s.rd (fModState m) = modHeld then modDown else s.rd (fModState m)) % 4 := by
    simp only [holdsReleased, List.flatMap_cons, List.flatMap_nil, List.cons_append, List.nil_append, List.append_nil, State.wrAll]
    obtain rfl | rfl : m = 0 ∨ m = 1 := by omega
    · rw [rd_wr_apart _ _ (by decide), rd_wr_apart _ _ (by decide), State.rd_wr_self _ _ _ (by decide) (by decide)]
      rfl
    · rw [State.rd_wr_self _ _ _ (by decide) (by decide)]
      rfl
  rw [hrd]
  split
  case isTrue => decide
  case isFalse h => rwa [Nat.mod_eq_of_lt hlt]

theorem localMask_holdsReleased (s : State) : localMask (holdsReleased s) = 3 := by
  rw [localMask_eq, if_neg (holdsReleased_modState s (by decide)), if_neg (holdsReleased_modState s (by decide))]

theorem holdsReleased_retrains (s : State) : (holdsReleased s).rd fRetrains = s.rd fRetrains :=
  rd_wrAll_apart _ (by simp [Fld.apart, fModFail, fModState, fRetrains]) s

theorem holdsReleased_mayTrain {s : State} (h : MayTrain s) : MayTrain (holdsReleased s) := by
  refine ⟨?_, by rw [holdsReleased, wrAll_power]; exact h.2⟩
  rw [State.isFatal, State.flag, holdsReleased, rd_wrAll_apart (g := fFatal) _ (by simp [Fld.apart, fModFail, fModState, fFatal])]
  exact h.1

/-! ### The steps of an attempt (02 R24 to R26, R31) -/

/-- The attempt has come to a step. -/
def stepTo (s : State) (k : Nat) : State := { s with link := { s.link with step := some k } }
theorem stepTo_reg (s : State) (k o : Nat) : (stepTo s k).reg o = s.reg o := rfl
theorem stepTo_rd (s : State) (k : Nat) (f : Fld) : (stepTo s k).rd f = s.rd f := rfl
theorem stepTo_step (s : State) (k : Nat) : (stepTo s k).link.step = some k := rfl

/-- Does the host die's profile lack what R25 requires? -/
def profileBad (profile : Nat) : Prop := profile % 2 ^ 32 &&& requiredCaps ≠ requiredCaps ∨ nbits profile 63 56 ≠ 1
/-- The registers that show the host die's parameters, written before the ledger and the event. -/
def hostParams (s : State) (profile bad : Nat) : State :=
  ((s.setReg 0x1068 (BitVec.ofNat 64 profile)).wr fEffCaps (0x3FF &&& (profile % 2 ^ 32))).wr fHostMismatch bad

theorem hostParams_host (s : State) (profile bad : Nat) : (hostParams s profile bad).reg 0x1068 = BitVec.ofNat 64 profile := by
  unfold hostParams
  rw [State.wr, State.reg_setReg_ne _ _ (by decide), State.wr, State.reg_setReg_ne _ _ (by decide), State.reg_setReg]

theorem hostParams_caps (s : State) (profile bad : Nat) : (hostParams s profile bad).rd fEffCaps = 0x3FF &&& (profile % 2 ^ 32) := by
  unfold hostParams
  rw [rd_wr_apart _ _ (by decide), State.rd_wr_self _ _ _ (by decide) (by decide)]
  exact Nat.mod_eq_of_lt (lt_of_le_of_lt Nat.and_le_left (by decide))

theorem hostParams_mismatch (s : State) (profile bad : Nat) : (hostParams s profile bad).rd fHostMismatch = bad % 2 :=
  State.rd_wr_self _ _ _ (by decide) (by decide)

theorem paramExchange_linkView (s : State) (profile : Nat) : ∃ bad, (bad % 2 = 1 ↔ profileBad profile)
    ∧ (paramExchange s profile).linkView = (stepTo (hostParams s profile bad) 2).linkView := by
  refine ⟨_, ?_, by
    simp only [paramExchange, apply_ite State.linkView, ucieEvent_linkView, ledgerExtend_linkView, ite_self]
    unfold stepTo hostParams
    with_reducible rfl⟩
  unfold profileBad
  split
  case isTrue h => simp only [h]
  case isFalse h => simp only [h, iff_false]; decide

theorem profileBad_iff (profile : Nat) : profileBad (profile % 2 ^ 64) ↔ (profile % 8 ≠ 7 ∨ profile % 2 ^ 64 / 2 ^ 56 ≠ 1) := by
  have hcaps : profile % 2 ^ 64 % 2 ^ 32 &&& requiredCaps = profile % 8 := by
    have h7 : requiredCaps = 2 ^ 3 - 1 := rfl
    rw [h7, Nat.and_two_pow_sub_one_eq_mod]
    omega
  have htop : nbits (profile % 2 ^ 64) 63 56 = profile % 2 ^ 64 / 2 ^ 56 := by
    rw [nbits, Nat.shiftRight_eq_div_pow]
    omega
  rw [profileBad, hcaps, htop]
  rfl

theorem paramExchange_state (s : State) (profile : Nat) :
    let t := paramExchange s (profile % 2 ^ 64)
    t.link.step = some 2 ∧ (t.reg 0x1068).toNat = profile % 2 ^ 64 ∧ t.rd fEffCaps = 0x3FF &&& (profile % 2 ^ 32)
      ∧ (t.flag fHostMismatch = true ↔ (profile % 8 ≠ 7 ∨ profile % 2 ^ 64 / 2 ^ 56 ≠ 1)) := by
  obtain ⟨bad, hbad, hview⟩ := paramExchange_linkView s (profile % 2 ^ 64)
  have hhost := congrArg LinkView.host hview
  have hcaps := congrArg LinkView.caps hview
  simp only [State.linkView, stepTo_reg] at hhost hcaps
  refine ⟨(step_of_linkView hview).trans (stepTo_step ..), ?_, ?_, ?_⟩
  · rw [hhost, hostParams_host, BitVec.toNat_ofNat, Nat.mod_mod]
  · have hrd : (paramExchange s (profile % 2 ^ 64)).rd fEffCaps = (hostParams s (profile % 2 ^ 64) bad).rd fEffCaps := by
      simp only [State.rd, fEffCaps, hcaps]
    rw [hrd, hostParams_caps, Nat.mod_mod_of_dvd _ (by decide)]
  · rw [State.flag, rd_status_of_linkView hview rfl, stepTo_rd, hostParams_mismatch, decide_eq_true_eq, hbad, profileBad_iff]

/-- Does a module need more repairs than the profile and the spares allow (02 R23, R31)? -/
def needsMore (s : State) (repairs : List Nat) (m : Nat) : Bool :=
  [2 * m, 2 * m + 1].any fun h => decide (lget 0 repairs h > 2) || (decide (lget 0 repairs h ≠ 0) && !s.cap 4)
/-- The modules that data-lane repair fails. -/
def repairFails (s : State) (repairs : List Nat) : Nat := lsum ([0, 1].map fun m => if nbit (trainMask s) m && needsMore s repairs m then 2 ^ m else 0)

theorem laneRepairs_link {s : State} (h : s.link.failed = 0) (repairs : List Nat) :
    (laneRepairs s repairs).link.failed = repairFails s repairs
      ∧ (laneRepairs s repairs).link.step = if repairFails s repairs = 0 then some 3 else s.link.step := by
  have hevents : ∀ (n : Nat) (t : State), ((List.range n).foldl (fun t _ => ucieEvent t 0x04 (trainMask t)) t).link.unheld = t.link.unheld := fun n t =>
    link_of_linkView (foldl_keeps (fun t _ => ucieEvent_linkView ..) _ t)
  have hlink : ∃ now, (laneRepairs s repairs).link.unheld = { s.link with
      failed := repairFails s repairs, repaired := now, step := if repairFails s repairs = 0 then some 3 else s.link.step }.unheld := by
    exact ⟨_, by
      unfold laneRepairs
      rw [if_neg (by simp [h])]
      exact hevents ..⟩
  obtain ⟨now, hlink⟩ := hlink
  exact ⟨congrArg LinkSt.failed hlink, congrArg LinkSt.step hlink⟩

/-- Without repairs no module fails; one of whose halves needs a third repair does. -/
theorem repairFails_of_none {s : State} {repairs : List Nat} (h : ∀ n ∈ repairs, n = 0) : repairFails s repairs = 0 := by
  have hget : ∀ i, lget 0 repairs i = 0 := fun i => by
    rw [lget, List.getD_eq_getElem?_getD]
    cases hi : repairs[i]? with
    | none => rfl
    | some n => exact h n (List.mem_of_getElem? hi)
  simp [repairFails, needsMore, hget, lsum]

theorem repairFails_of_third {s : State} {repairs : List Nat} {h : Nat} (hh : h < 4) (ht : (trainMask s).testBit (h / 2) = true)
    (hr : 2 < repairs.getD h 0) : (repairFails s repairs).testBit (h / 2) = true := by
  rw [repairFails, testBit_modules _ (by omega)]
  have hmem : h = 2 * (h / 2) ∨ h = 2 * (h / 2) + 1 := by omega
  have hneeds : needsMore s repairs (h / 2) = true := by
    refine List.any_eq_true.2 ⟨h, by simpa using hmem, ?_⟩
    simpa [lget] using Or.inl hr
  simp [nbit, ht, hneeds]

/-! ### The link is up (02 R24, R32) -/

/-- DL_Active rises, and what a stall held is sent. -/
def linkRisen (s : State) : State :=
  { s with
    dlActive := true
    power := { s.power with dlRose := true }
    posted := s.posted ++ s.link.held
    link := { s.link with step := none, stalled := false, held := [], empty := 0 } }
/-- What WHF_UCIE_STATUS shows of the modules of the link that is up. -/
def linkUpModules (s : State) : List (Fld × Nat) :=
  [0, 1].flatMap fun i => if nbit (trainMask s) i then [(fModState i, modActive), (fModFail i, 0)]
    else [(fModState i, if s.rd (fModState i) = modHeld then modHeld else modDown)]
def linkUpFields (s : State) : List (Fld × Nat) := (fWidth, maskWidth (trainMask s)) :: linkUpModules s

theorem linkUp_eq (s : State) : linkUp s =
    let s2 := (reqPump (waitFaults (linkRisen s))).wrAll (linkUpFields s)
    s2.rings.foldl (fun t p => ringJudge 64 t p.1) s2 := by
  unfold linkUp linkRisen linkUpFields linkUpModules
  with_reducible rfl

theorem linkUp_linkView (s : State) :
    (linkUp s).linkView = ((reqPump (waitFaults (linkRisen s))).wrAll (linkUpFields s)).linkView := by
  rw [linkUp_eq]
  exact foldl_keeps (fun t p => ringJudge_keeps modRing_linkView ..) _ _

theorem linkRisen_state (s : State) : (linkRisen s).dlActive = true ∧ (linkRisen s).power.dlRose = true
    ∧ (linkRisen s).link.unheld = { s.link with step := none, stalled := false, held := [], empty := 0 }
    ∧ (linkRisen s).posted = s.posted ++ s.link.held ∧ (linkRisen s).reqWait = s.reqWait := ⟨rfl, rfl, rfl, rfl, rfl⟩

/-- Two modules of 64 lanes each: the width fits its field. -/
theorem maskWidth_eq (m : Nat) : maskWidth m % 2 ^ 8 = 64 * popcount 2 m := by
  have hle : popcount 2 m ≤ 2 := List.length_filter_le ..
  unfold maskWidth
  omega

theorem linkUpModules_apart (s : State) : ∀ x ∈ linkUpModules s, x.1.apart fWidth = true := by
  intro x hx
  obtain ⟨i, hi, hx⟩ := List.mem_flatMap.1 hx
  have hi : i = 0 ∨ i = 1 := by simpa using hi
  have hfields : x.1 = fModState i ∨ x.1 = fModFail i := by
    split at hx
    · obtain rfl | rfl : x = _ ∨ x = _ := by simpa using hx
      · exact .inl rfl
      · exact .inr rfl
    · obtain rfl : x = _ := by simpa using hx
      exact .inl rfl
  obtain rfl | rfl := hi <;> obtain h | h := hfields <;> rw [h] <;> decide

theorem linkUp_state (s : State) :
    let t := linkUp s
    t.dlActive = true ∧ t.link.step = none ∧ t.power.dlRose = true ∧ t.link.empty = 0 ∧ t.rd fWidth = 64 * popcount 2 (trainMask s)
      ∧ t.link.held = [] ∧ (s.reqWait = [] → t.posted = s.posted ++ s.link.held) := by
  have hview := linkUp_linkView s
  have hbefore : (reqPump (waitFaults (linkRisen s))).linkView = (linkRisen s).linkView := (reqPump_linkView _).trans (waitFaults_linkView _)
  obtain ⟨hactive, hrose, hlink, hposted, hwait⟩ := linkRisen_state s
  have hunheld : (linkUp s).link.unheld = { s.link with step := none, stalled := false, held := [], empty := 0 } := by
    rw [link_of_linkView hview, wrAll_link, link_of_linkView hbefore, hlink]
  refine ⟨?active, congrArg LinkSt.step hunheld, ?rose, congrArg LinkSt.empty hunheld, ?width, ?held, fun h => ?posted⟩
  case active => rw [dlActive_of_linkView hview, wrAll_dlActive, dlActive_of_linkView hbefore, hactive]
  case rose =>
    have hrose' : (linkUp s).power.dlRose = _ := congrArg LinkView.dlRose hview
    have hrose'' : (reqPump (waitFaults (linkRisen s))).power.dlRose = _ := congrArg LinkView.dlRose hbefore
    simp only [State.linkView] at hrose' hrose''
    rw [hrose', wrAll_power, hrose'', hrose]
  case width =>
    rw [rd_status_of_linkView hview rfl, linkUpFields, State.wrAll, rd_wrAll_apart _ (linkUpModules_apart s),
      State.rd_wr_self _ _ _ (by decide) (by decide)]
    exact maskWidth_eq _
  case held =>
    have hstalled : (linkUp s).link.stalled = false := congrArg LinkSt.stalled hunheld
    have hheld := congrArg LinkSt.held hunheld
    simpa [LinkSt.unheld, hstalled] using hheld
  case posted =>
    have hring : ∀ t r f, (State.modRing t r f).posted = t.posted := fun t r f => putRing_ringBystander (posted_ringBystander r) ..
    have hpump : ∀ t, (reqPump t).posted = t.posted := fun t => reqIssue_keeps (g := State.posted) (fun _ _ _ _ => rfl) _ t
    have hjudge : ∀ (l : Tbl RingSt) t, (l.foldl (fun t p => ringJudge 64 t p.1) t).posted = t.posted := fun l t =>
      foldl_keeps (fun u p => ringJudge_keeps hring ..) l t
    rw [linkUp_eq]
    simp only [hjudge]
    rw [State.wrAll_keeps State.posted (fun _ _ _ => rfl), hpump, waitFaults_of_noneWaiting (hwait.trans h), hposted]

/-! ### A step is done (02 R24) -/

section
variable {s : State} (hf : s.isFatal = false) {profile : Nat} {repairs : List Nat}
include hf

theorem trainStep_of_plain {k : Nat} (hk : k ∈ [0, 3, 4]) (hs : s.link.step = some k) : trainStep s profile repairs = stepTo s (k + 1) := by
  obtain rfl | rfl | rfl : k = 0 ∨ k = 3 ∨ k = 4 := by simpa using hk
  all_goals simp only [trainStep, hf, hs]; rfl
theorem trainStep_of_asked (hs : s.link.step = some 1) (ha : s.link.asked = true) : trainStep s profile repairs = s := by
  simp only [trainStep, hf, hs, ha]; rfl
theorem trainStep_of_exchange (hs : s.link.step = some 1) (ha : s.link.asked = false) :
    trainStep s profile repairs = paramExchange s (profile % 2 ^ 64) := by
  simp only [trainStep, hf, hs, ha]; rfl
theorem trainStep_of_repair (hs : s.link.step = some 2) : trainStep s profile repairs = laneRepairs s repairs := by
  simp only [trainStep, hf, hs]; rfl
theorem trainStep_of_last (hs : s.link.step = some 5) : trainStep s profile repairs = linkUp s := by
  simp only [trainStep, hf, hs]; rfl

end

/-! ### The end of an attempt at its limit (02 R29, R30) -/

theorem width_apart_modFail : ∀ m < 2, fWidth.apart (fModFail m) = true := by decide
theorem modState_apart_modFail : ∀ k < 2, ∀ m < 2, (fModState k).apart (fModFail m) = true := by decide
theorem modFail_apart_modFail : ∀ k < 2, ∀ m < 2, k ≠ m → (fModFail k).apart (fModFail m) = true := by decide

/-- The link that is lost keeps its modules' counts, and no attempt. -/
theorem linkLost_state {s : State} (h : s.link.step = none) :
    (linkLost s).link.step = none ∧ ∀ m, m < 2 → (linkLost s).rd (fModFail m) = s.rd (fModFail m) := by
  have hfatal : (errFatal s 0 0x83 8 (s.reg 0x1810).toNat 0).linkView = s.linkView := errRaise_bystander linkView_bystander ..
  unfold linkLost
  generalize errFatal s 0 0x83 8 (s.reg 0x1810).toNat 0 = u at hfatal
  by_cases ha : u.dlActive = true
  · have hview := dlLoss_linkView ha []
    refine ⟨(dlLoss_state ha []).2.2.2.1, fun m hm => ?_⟩
    rw [rd_status_of_linkView hview rfl, rd_wrAll_apart _ (by simp [dlLossFields, width_apart_modFail m hm, modState_apart_modFail _ _ m hm])]
    exact rd_status_of_linkView hfatal rfl
  · have hstay : dlLoss u [] = u := by rw [dlLoss, if_pos (by simpa using ha)]
    rw [hstay]
    exact ⟨(step_of_linkView hfatal).trans h, fun m _ => rd_status_of_linkView hfatal rfl⟩

theorem chargeModule_link (s : State) (m : Nat) : (chargeModule s m).link.step = s.link.step := by
  have hevent : ∀ t, (ucieEvent t 0x03 0).link.step = t.link.step := fun t => step_of_linkView (ucieEvent_linkView ..)
  simp only [chargeModule, apply_ite State.link, apply_ite LinkSt.step, hevent, State.wr_link, ite_self]

theorem chargeModule_modFail {m k : Nat} (hm : m < 2) (hk : k < 2) (s : State) :
    (chargeModule s m).rd (fModFail k) = if k = m then min 3 (s.rd (fModFail m) + 1) else s.rd (fModFail k) := by
  have hevent : ∀ t, (ucieEvent t 0x03 0).rd (fModFail k) = t.rd (fModFail k) := fun t => rd_status_of_linkView (ucieEvent_linkView ..) rfl
  have hheld : ∀ t v, (State.wr t (fModState m) v).rd (fModFail k) = t.rd (fModFail k) := fun t v =>
    rd_wr_apart t v (modState_apart_modFail m hm k hk)
  have hcount : (s.wr (fModFail m) (min 3 (s.rd (fModFail m) + 1))).rd (fModFail k) =
      if k = m then min 3 (s.rd (fModFail m) + 1) else s.rd (fModFail k) := by
    split
    case isTrue h =>
      subst h
      rw [State.rd_wr_self _ _ _ (by simp [fModFail]) (by simp [fModFail]; omega)]
      refine Nat.mod_eq_of_lt (lt_of_le_of_lt (min_le_left _ _) ?_)
      simp [fModFail, show 35 + 4 * k + 1 - (32 + 4 * k) = 4 by omega]
    case isFalse h => exact rd_wr_apart _ _ (modFail_apart_modFail m hm k hk (Ne.symm h))
  simp only [chargeModule, apply_ite (State.rd · (fModFail k)), hevent, hheld, hcount, ite_self]

/-- The modules of a mask are charged, one after the other. -/
def chargeModules (s : State) (ch : Nat) : State := [0, 1].foldl (fun t m => if nbit ch m then chargeModule t m else t) s

theorem chargeModules_step (s : State) (ch : Nat) : (chargeModules s ch).link.step = s.link.step :=
  foldl_keeps (g := fun t => t.link.step) (fun t m => by split <;> simp only [chargeModule_link]) _ s

theorem chargeModules_modFail (s : State) (ch : Nat) {m : Nat} (hm : m < 2) :
    (chargeModules s ch).rd (fModFail m) = if ch.testBit m then min 3 (s.rd (fModFail m) + 1) else s.rd (fModFail m) := by
  obtain ⟨t, ht, hown⟩ := foldl_own (g := fun t => t.rd (fModFail m)) (f := fun t k => if nbit ch k then chargeModule t k else t) (r := m) [0, 1]
    (by decide) (by simp; omega) (fun u k hk hne => by
      have hk2 : k < 2 := by simp at hk; omega
      simp only [apply_ite (State.rd · (fModFail m)), chargeModule_modFail hk2 hm, if_neg (Ne.symm hne), ite_self]) s
  refine Eq.trans hown ?_
  by_cases hb : nbit ch m = true
  · rw [if_pos hb, if_pos (show ch.testBit m = true from hb), chargeModule_modFail hm hm, if_pos rfl, ht]
  · rw [if_neg hb, if_neg (show ¬ ch.testBit m = true from hb), ht]

/-- The event of an attempt that ends, its modules shown down. -/
def attemptShown (s : State) : State :=
  ucieEvent (s.wrAll ([0, 1].map fun m => (fModState m, if s.rd (fModState m) = modHeld then modHeld else modDown))) 0x02 0
/-- No attempt runs any more. -/
def attemptEnded (s : State) : State := { s with link := { s.link with step := none } }
theorem attemptEnded_step (s : State) : (attemptEnded s).link.step = none := rfl
theorem attemptEnded_rd (s : State) (f : Fld) : (attemptEnded s).rd f = s.rd f := rfl

theorem attemptShown_modFail (s : State) {m : Nat} (hm : m < 2) : (attemptShown s).rd (fModFail m) = s.rd (fModFail m) := by
  rw [attemptShown, rd_status_of_linkView (ucieEvent_linkView ..) rfl]
  exact rd_modStates_apart _ _ (modState_apart_modFail 0 (by decide) m hm) (modState_apart_modFail 1 (by decide) m hm)

/-- The attempt's end with its charges. -/
def attemptCharged (s : State) (failed : Nat) : State := chargeModules (attemptEnded (attemptShown s)) (chargedMask s failed)

theorem attemptCharged_step (s : State) (failed : Nat) : (attemptCharged s failed).link.step = none := by
  rw [attemptCharged, chargeModules_step, attemptEnded_step]

theorem attemptCharged_modFail (s : State) (failed : Nat) {m : Nat} (hm : m < 2) : (attemptCharged s failed).rd (fModFail m) =
    if (chargedMask s failed).testBit m then min 3 (s.rd (fModFail m) + 1) else s.rd (fModFail m) := by
  rw [attemptCharged, chargeModules_modFail _ _ hm, attemptEnded_rd, attemptShown_modFail s hm]

theorem attemptFails_of_running {s : State} (hf : s.isFatal = false) (hs : s.link.step ≠ none) (failed : Nat) : attemptFails s failed =
    if localMask (attemptCharged s failed) = 0 then linkLost (attemptCharged s failed) else attemptCharged s failed := by
  have hstep : s.link.step.isNone = false := Option.isNone_eq_false_iff.2 (Option.isSome_iff_ne_none.2 hs)
  unfold attemptFails attemptCharged chargeModules attemptEnded attemptShown
  rw [if_neg (by simp [hf, hstep])]

theorem attemptFails_state {s : State} (hf : s.isFatal = false) (hs : s.link.step ≠ none) (failed : Nat) :
    (attemptFails s failed).link.step = none ∧ ∀ m, m < 2 → (attemptFails s failed).rd (fModFail m) =
      if (chargedMask s failed).testBit m then min 3 (s.rd (fModFail m) + 1) else s.rd (fModFail m) := by
  have hstep := attemptCharged_step s failed
  rw [attemptFails_of_running hf hs]
  split
  · obtain ⟨hnone, hkept⟩ := linkLost_state hstep
    exact ⟨hnone, fun m hm => (hkept m hm).trans (attemptCharged_modFail s failed hm)⟩
  · exact ⟨hstep, fun m hm => attemptCharged_modFail s failed hm⟩

/-! ### A lane fails (02 R31) -/

/-- A spare lane of a half takes over. -/
def laneRepaired (s : State) (half : Nat) : State :=
  { s with link := { s.link with repaired := s.link.repaired.set half (s.link.repaired.getD half 0 + 1) } }
theorem laneRepaired_link (s : State) (half : Nat) :
    (laneRepaired s half).link = { s.link with repaired := s.link.repaired.set half (s.link.repaired.getD half 0 + 1) } := rfl
theorem laneRepaired_dlActive (s : State) (half : Nat) : (laneRepaired s half).dlActive = s.dlActive := rfl

theorem laneFailure_of_spare {s : State} {half : Nat} (hf : s.isFatal = false) (ha : s.dlActive = true)
    (hm : s.rd (fModState (half / 2)) = modActive) (h4 : s.cap 4 = true) (h5 : s.cap 5 = true) (hr : s.link.repaired.getD half 0 < 2) :
    ∃ n, (laneFailure s half).linkView = ((laneRepaired s half).wr fRepaired n).linkView := by
  have hspare : lget 0 s.link.repaired half + 1 ≤ 2 := hr
  exact ⟨_, by
    unfold laneFailure
    rw [if_neg (by simp [hf, ha, hm])]
    simp only []
    rw [if_pos (by simp [h4, h5, hspare])]
    exact ucieEvent_linkView ..⟩

theorem laneFailure_state {s : State} {half : Nat} (hf : s.isFatal = false) (ha : s.dlActive = true)
    (hm : s.rd (fModState (half / 2)) = modActive) (h4 : s.cap 4 = true) (h5 : s.cap 5 = true) (hr : s.link.repaired.getD half 0 < 2) :
    let t := laneFailure s half
    t.link.repaired = s.link.repaired.set half (s.link.repaired.getD half 0 + 1) ∧ t.link.step = s.link.step ∧ t.dlActive = true := by
  obtain ⟨n, hview⟩ := laneFailure_of_spare hf ha hm h4 h5 hr
  have hlink := link_of_linkView hview
  rw [State.wr_link, laneRepaired_link] at hlink
  have hrepaired := congrArg LinkSt.repaired hlink
  have hstep := congrArg LinkSt.step hlink
  exact ⟨hrepaired, hstep, (dlActive_of_linkView hview).trans ((State.wr_dlActive ..).trans ((laneRepaired_dlActive ..).trans ha))⟩

/-! ### The commands, and the statement of O35 -/

theorem exec_ucieRetrain (s : State) : exec .ucieRetrain s = .next (voteRefresh (if s.link.d3hot then s else attemptStart s true)) := rfl
theorem exec_ucieReleaseHold (s : State) :
    exec .ucieReleaseHold s = .next (voteRefresh (if s.link.d3hot then s else attemptStart (holdsReleased s) true)) := rfl
theorem exec_ucieTrainingAttempt {remote : Nat} (hr : remote < 4) (s : State) : exec (.ucieTrainingAttempt remote) s =
    .next (voteRefresh (maskExchange (if s.link.step.isSome then s else attemptStart s s.dlActive) remote)) :=
  run_of_wf (c := .ucieTrainingAttempt remote) (decide_eq_true hr)
theorem exec_ucieTrainingStepDone (profile : Nat) (repairs : List Nat) (s : State) :
    exec (.ucieTrainingStepDone profile repairs) s = .next (voteRefresh (trainStep s profile repairs)) := rfl
theorem exec_ucieAttemptTimeout {failed : Nat} (h : failed < 4) (s : State) :
    exec (.ucieAttemptTimeout failed) s = .next (voteRefresh (attemptFails s failed)) :=
  run_of_wf (c := .ucieAttemptTimeout failed) (decide_eq_true h)
theorem exec_ucieLaneFailure {half : Nat} (h : half < 4) (s : State) :
    exec (.ucieLaneFailure half) s = .next (voteRefresh (laneFailure s half)) :=
  run_of_wf (c := .ucieLaneFailure half) (decide_eq_true h)

@[simp] theorem voteRefresh_dlActive (s : State) : (voteRefresh s).dlActive = s.dlActive := dlActive_of_linkView (voteRefresh_linkView s)
theorem voteRefresh_dlBegun (s : State) : (voteRefresh s).power.dlBegun = s.power.dlBegun := congrArg LinkView.dlBegun (voteRefresh_linkView s)
theorem voteRefresh_dlRose (s : State) : (voteRefresh s).power.dlRose = s.power.dlRose := congrArg LinkView.dlRose (voteRefresh_linkView s)
theorem voteRefresh_host (s : State) : (voteRefresh s).reg 0x1068 = s.reg 0x1068 := congrArg LinkView.host (voteRefresh_linkView s)

/-- An attempt that a command begins in a state that agrees with s, as the votes leave it. -/
theorem attempt_starts {s u : State} (hu : MayTrain u) (hlink : u.link = s.link) (hactive : u.dlActive = s.dlActive)
    (hretrains : u.rd fRetrains = s.rd fRetrains) :
    let t := voteRefresh (attemptStart u true)
    t.power.dlBegun = true ∧ t.link.step = some 0 ∧ t.link.localMask = localMask u ∧ t.link.asked = true
      ∧ t.link.remoteMask = s.link.remoteMask ∧ t.dlActive = s.dlActive ∧ t.link.stalled = s.dlActive
      ∧ t.rd fRetrains = min 255 (s.rd fRetrains + 1) ∧ ∀ m, m < 2 → t.rd (fModState m) = stateAt (localMask u) 3 m := by
  obtain ⟨hbegun, hl, ha, -, hr, hstates⟩ := attemptStart_state hu true
  intro t
  have hrd : ∀ {f : Fld}, f.off = 0x1800 → t.rd f = (attemptStart u true).rd f := fun h => voteRefresh_rd (by rw [h]; decide) _
  simp only [t, voteRefresh_dlBegun, voteRefresh_link, voteRefresh_dlActive, hl, ha, hactive, hbegun]
  refine ⟨trivial, rfl, rfl, rfl, by rw [attemptBegun, hlink], trivial, by simp [attemptBegun, hactive], ?_, fun m hm => ?_⟩
  · rw [← hretrains, ← hr]
    exact hrd rfl
  · exact (hrd rfl).trans (hstates m hm)

/-- The modules train that both ends advertise, as the votes leave it. -/
theorem attempt_trains {u : State} {remote : Nat} (hf : u.isFatal = false) (hs : u.link.step ≠ none) (ha : u.link.asked = true) (hr : remote < 4)
    (hboth : u.link.localMask &&& remote ≠ 0) :
    let t := voteRefresh (maskExchange u remote)
    t.link.localMask = u.link.localMask ∧ t.link.remoteMask = remote ∧ t.link.asked = false ∧ t.link.step.isSome = true
      ∧ t.dlActive = u.dlActive ∧ t.rd fRetrains = u.rd fRetrains ∧ ∀ m, m < 2 → t.rd (fModState m) = stateAt u.link.localMask remote m := by
  obtain ⟨hl, hactive, hretrains, hstates⟩ := maskExchange_state hf hs ha hr hboth
  intro t
  have hrd : ∀ {f : Fld}, f.off = 0x1800 → t.rd f = (maskExchange u remote).rd f := fun h => voteRefresh_rd (by rw [h]; decide) _
  have hlink : t.link.unheld = { u.link with remoteMask := remote, asked := false }.unheld := by rw [← hl, voteRefresh_link]
  have hlocal : t.link.localMask = u.link.localMask := (congrArg LinkSt.localMask hlink :)
  have hremote : t.link.remoteMask = remote := (congrArg LinkSt.remoteMask hlink :)
  have hasked : t.link.asked = false := (congrArg LinkSt.asked hlink :)
  have hstep : t.link.step = u.link.step := (congrArg LinkSt.step hlink :)
  exact ⟨hlocal, hremote, hasked, hstep ▸ Option.isSome_iff_ne_none.2 hs, (voteRefresh_dlActive _).trans hactive, (hrd rfl).trans hretrains,
    fun m hm => (hrd rfl).trans (hstates m hm)⟩

/-- Settles O35: an attempt's beginning and its masks by the modules' fields, its steps and its end by the view of the link, which no event and
no halt changes. -/
theorem trainingAttempts : Obligations.TrainingAttempts := by
  refine ⟨fun s hf hp => ?attempt, fun s hf => ⟨fun profile repairs => ⟨?plain, ?unasked, ?params, ?repairs, ?up⟩, ?limit, ?lane⟩⟩
  case attempt =>
    have hmay : MayTrain s := ⟨hf, hp⟩
    intro mask state starts
    refine ⟨fun hd => ⟨⟨_, by rw [exec_ucieRetrain, if_neg (by simp [hd])], ?retrain⟩,
        ⟨_, by rw [exec_ucieReleaseHold, if_neg (by simp [hd])], ?release⟩⟩, fun hd => ?d3hot, fun remote hr => ⟨fun hs hb => ?first, fun hs ha hlm hb => ?own, fun hs ha => ?known⟩⟩
    case retrain =>
      have := attempt_starts hmay rfl rfl rfl
      rwa [localMask_eq] at this
    case release =>
      have := attempt_starts (holdsReleased_mayTrain hmay) (wrAll_link ..) (wrAll_dlActive ..) (holdsReleased_retrains s)
      rwa [localMask_holdsReleased] at this
    case d3hot => exact ⟨by rw [exec_ucieRetrain, if_pos hd], by rw [exec_ucieReleaseHold, if_pos hd]⟩
    case first =>
      refine ⟨_, by rw [exec_ucieTrainingAttempt hr, if_neg (by simp [hs])], ?_⟩
      obtain ⟨-, hlink, hactive, hfatal, hretrains, -⟩ := attemptStart_state hmay s.dlActive
      have hlm : (attemptStart s s.dlActive).link.localMask = mask := by rw [hlink]; exact localMask_eq s
      have := attempt_trains (u := attemptStart s s.dlActive) (remote := remote) hfatal (by rw [hlink]; simp [attemptBegun]) (by rw [hlink]; rfl) hr
        (by rw [hlm]; exact hb)
      rwa [hlm, hactive, hretrains] at this
    case own =>
      refine ⟨_, by rw [exec_ucieTrainingAttempt hr, if_pos (Option.isSome_iff_ne_none.2 hs)], ?_⟩
      have := attempt_trains hf hs ha hr hb
      have hle : s.rd fRetrains ≤ 255 := Nat.le_of_lt_succ (s.rd_lt fRetrains)
      rwa [← Nat.min_eq_right hle] at this
    case known =>
      rw [exec_ucieTrainingAttempt hr, if_pos (Option.isSome_iff_ne_none.2 hs), maskExchange, if_pos (by simp [ha])]
  case plain => exact fun k hs hk => by rw [exec_ucieTrainingStepDone, trainStep_of_plain hf hk hs, stepTo]
  case unasked => exact fun hs ha => by rw [exec_ucieTrainingStepDone, trainStep_of_asked hf hs ha]
  case params =>
    intro hs ha
    obtain ⟨htwo, hhost, hcaps, hmismatch⟩ := paramExchange_state s profile
    refine ⟨_, by rw [exec_ucieTrainingStepDone, trainStep_of_exchange hf hs ha], ?_⟩
    rw [voteRefresh_link, voteRefresh_host, voteRefresh_rd (by decide), State.flag, voteRefresh_rd (by decide)]
    exact ⟨htwo, hhost, hcaps, hmismatch⟩
  case repairs =>
    intro hs hfailed
    obtain ⟨hfails, hnext⟩ := laneRepairs_link hfailed repairs
    refine ⟨_, by rw [exec_ucieTrainingStepDone, trainStep_of_repair hf hs], fun hnone => ?_, fun h hh ht hr => ?_⟩
    · rw [voteRefresh_link, hnext, if_pos (repairFails_of_none hnone)]
    · have hbit := repairFails_of_third hh ht hr
      have hne : repairFails s repairs ≠ 0 := fun e => by simp [e] at hbit
      rw [voteRefresh_link, hnext, if_neg hne, hfails]
      exact ⟨hs, hbit⟩
  case up =>
    intro hs
    refine ⟨_, by rw [exec_ucieTrainingStepDone, trainStep_of_last hf hs], ?_⟩
    rw [voteRefresh_dlActive, voteRefresh_link, voteRefresh_dlRose, voteRefresh_rd (by decide), voteRefresh_posted]
    exact linkUp_state s
  case limit =>
    intro failed hlt hs
    obtain ⟨hnone, hcount⟩ := attemptFails_state hf hs failed
    refine ⟨_, exec_ucieAttemptTimeout hlt s, by rw [voteRefresh_link, hnone], fun m hm => ?_⟩
    rw [voteRefresh_rd (by simp [fModFail]), hcount m hm]
  case lane =>
    intro half hlt ha hm h4 h5 hr
    refine ⟨_, exec_ucieLaneFailure hlt s, ?_⟩
    rw [voteRefresh_link, voteRefresh_dlActive]
    exact laneFailure_state hf ha hm h4 h5 hr

end Sys2Proof.Machine

namespace Sys2Proof.Machine
open Sys2Proof

/-! ## O23 to O26: the dispatch of descriptors (03 R46 to R57) -/

/-! ### Bits and zero quadwords of a descriptor (03 R47, R48) -/

theorem nbits_eq (w hi lo : Nat) : nbits w hi lo = w / 2 ^ lo % 2 ^ (hi + 1 - lo) := by rw [nbits, Nat.shiftRight_eq_div_pow]
/-- The low bits of a number that has no others. -/
theorem nbits_low {w hi : Nat} (h : w < 2 ^ (hi + 1)) : nbits w hi 0 = w := by
  rw [nbits_eq, pow_zero, Nat.div_one]; exact Nat.mod_eq_of_lt h
theorem dHiZero_iff {q : List Nat} {i lo : Nat} : dHiZero q i lo = true ↔ dq q i < 2 ^ lo := decide_eq_true_iff

/-! ### When a descriptor is dispatched (03 R55, R56) -/

theorem pastHalting_iff (s : State) (r c : Nat) : pastHalting s r c = true ↔
    (∃ x ∈ (s.ring r).halting, countFrom (s.rd (fHead r)) x.1 ≤ countFrom (s.rd (fHead r)) c)
      ∨ ∃ d ∈ (s.ring r).out, d.work.halts = true ∧ countFrom (s.rd (fHead r)) d.count ≤ countFrom (s.rd (fHead r)) c := by
  simp [pastHalting]

/-- Nothing is dispatched of a ring that may not dispatch, or while the link stalls. -/
theorem ringNext_of_held {s : State} {r : Nat} (h : (s.ring r).st ≠ 1 ∨ 64 ≤ (s.ring r).out.length ∨ s.isFatal = true ∨ s.link.stalled = true) :
    ringNext s r = none := if_pos h

/-- Nothing is dispatched past the descriptor in front where it must wait. -/
theorem ringNext_of_front {s : State} {r : Nat} {f : Fetched} {l : List Fetched} (hw : (s.ring r).waiting = f :: l)
    (h : pastHalting s r f.count = true ∨ f.relaxed = false ∧ ∃ d ∈ (s.ring r).out, countFrom (s.rd (fHead r)) d.count < countFrom (s.rd (fHead r)) f.count) :
    ringNext s r = none := by
  simp only [ringNext, hw]
  rcases h with h | ⟨hf, d, hd, hlt⟩
  · simp [h]
  · have hany : ((s.ring r).out.any fun d => decide (countFrom (s.rd (fHead r)) d.count < countFrom (s.rd (fHead r)) f.count)) = true :=
      List.any_eq_true.2 ⟨d, hd, decide_eq_true hlt⟩
    simp [hf, hany]

/-- The descriptor dispatched next is the one in front. -/
theorem waiting_of_ringNext {s : State} {r : Nat} {f : Fetched} (h : ringNext s r = some f) : ∃ l, (s.ring r).waiting = f :: l := by
  simp only [ringNext] at h
  split at h
  · cases h
  · split at h
    case h_1 g l hw =>
      have hgf : g = f := by
        split at h
        · cases h
        · split at h
          · exact Option.some.inj h
          · cases h
      exact ⟨l, hgf ▸ hw⟩
    case h_2 => cases h

theorem ringExec_of_none {s : State} {r : Nat} (h : ringNext s r = none) (k : DClass) (body : State → Fetched → State × Work) :
    ringExec s r k body = s := by rw [ringExec, h]

/-- A descriptor in front that is malformed, or of another class, is none of the class's. -/
theorem ringExec_of_other {s : State} {r : Nat} {f : Fetched} {l : List Fetched} {k : DClass} (hw : (s.ring r).waiting = f :: l)
    (h : f.bad ≠ none ∨ dClass f.q ≠ some k) (body : State → Fetched → State × Work) : ringExec s r k body = s := by
  cases hn : ringNext s r with
  | none => exact ringExec_of_none hn k body
  | some g =>
    obtain ⟨_, hg⟩ := waiting_of_ringNext hn
    obtain rfl : f = g := (List.cons.inj (hw.symm.trans hg)).1
    have : (f.bad.isNone && decide (dClass f.q = some k) && classReady s r k f.q) = false := by
      rcases h with h | h <;> simp [h]
    simp [ringExec, hn, this]

theorem ringExec_of_due {s : State} {r : Nat} {k : DClass} {f : Fetched} (h : DueNow s r k f) (body : State → Fetched → State × Work) :
    ringExec s r k body = ringJudge 64 (ringStart (body s f).1 r f (body s f).2) r := by
  obtain ⟨-, hn, hb, hc, hready⟩ := h
  simp [ringExec, hn, hb, hc, hready]

/-! ### The commands of the classes -/

/-- What a descriptor of a class does at its dispatch (03 R49). -/
def descBody (r : Nat) : DClass → State → Fetched → State × Work
  | .nop => fun s f => (s, if dZeroFrom f.q 2 then judgeAs 0 0 else judgeAs 0x41 0)
  | .imageLoad => imageLoadBody r none
  | .launchEnd => launchBody r false
  | .launchStart => launchBody r true
  | .stopEop => stopBody r .atEop
  | .stopBundle => stopBody r .atBundle
  | .barge => bargeBody r
  | .gateSet => gateSetBody r
  | .gateAdd => gateAddBody r
  | .gateWait => gateWaitBody r
  | .fenceThis => fenceBody false
  | .fenceOther => fenceBody true
  | .bucket => postBody r
  | .wipeAll => fun s f => (s, if !dHiZero f.q 2 48 ∨ !dHiZero f.q 3 48 ∨ !dZeroFrom f.q 4 then judgeAs 0x41 0 else .wipe 0 hbmTop)
  | .wipeRange => fun s f =>
    let a := dq f.q 2
    let n := dq f.q 3
    (s, if !dHiZero f.q 2 48 ∨ !dHiZero f.q 3 48 ∨ !dZeroFrom f.q 4 ∨ a % 2048 ≠ 0 ∨ n % 2048 ≠ 0 then judgeAs 0x41 0
        else if hbmOk s (s.rd (fRPart r)) a n then .wipe a n else judgeAs 0x42 0)
  | .report => attBody r
  | .chain => chainBody r
  | .telemetry => telemetryBody r
  | .staged => stagedBody r
  | .dumpCount => dumpBody r false
  | .dumpMile => dumpBody r true

/-- The command of a class dispatches the next descriptor with the class's body; a bucket's goes on to place the ring's posts. -/
theorem exec_descCmd {r : Nat} (hr : r < 1024) {k : DClass} (hk : k ≠ .bucket) (s : State) :
    exec (descCmd r k) s = .next (voteRefresh (ringExec s r k (descBody r k))) := by
  have hwf : (descCmd r k).wf = true := by cases k <;> exact decide_eq_true hr
  cases k
  case bucket => exact absurd rfl hk
  all_goals exact run_of_wf hwf

theorem exec_reductionBucketPost {r : Nat} (hr : r < 1024) (s : State) : exec (.reductionBucketPost r) s = .next (voteRefresh (postRun s r)) :=
  run_of_wf (c := .reductionBucketPost r) (decide_eq_true hr)

/-- A descriptor that is due has begun once its command has run. -/
theorem exec_of_due {s t : State} {r : Nat} {k : DClass} {f : Fetched} {w : Work} (h : DueNow s r k f) (hk : k ≠ .bucket)
    (hbody : descBody r k s f = (t, w)) : exec (descCmd r k) s = .next (Began t r f w) := by
  rw [exec_descCmd h.1 hk, ringExec_of_due h, hbody, Began]

/-- Where nothing is dispatched and no post waits, a command of a class looks at the votes alone. -/
theorem exec_descCmd_of_idle {s : State} {r : Nat} (hr : r < 1024) {k : DClass} (hposts : k = .bucket → waitingPosts s r = [])
    (h : ∀ body, ringExec s r k body = s) : exec (descCmd r k) s = .next (voteRefresh s) := by
  by_cases hk : k = .bucket
  · subst hk
    have hrun : postRun s r = s := by simp only [postRun, h, hposts rfl, List.foldl_nil, ite_self]
    exact (exec_reductionBucketPost hr s).trans (by rw [hrun])
  · rw [exec_descCmd hr hk, h]

/-- Settles O23: either nothing is next to be dispatched, or what is in front is not of the class. -/
theorem descriptorWaitsItsTurn : Obligations.DescriptorWaitsItsTurn := by
  intro s r k hr hposts before h
  refine exec_descCmd_of_idle hr hposts fun body => ?_
  have hheld := fun x => ringExec_of_none (k := k) (body := body) (ringNext_of_held (s := s) (r := r) x)
  rcases h with hst | hout | hfatal | hstalled | hempty | ⟨f, l, hw, hf⟩
  · exact hheld (.inl hst)
  · exact hheld (.inr (.inl hout))
  · exact hheld (.inr (.inr (.inl hfatal)))
  · exact hheld (.inr (.inr (.inr hstalled)))
  · refine ringExec_of_none ?_ k body
    simp [ringNext, hempty]
  · simp only [before, not_lt] at hf
    rcases hf with hhalting | hhalts | hearlier | hbad | hclass
    · exact ringExec_of_none (ringNext_of_front hw (.inl ((pastHalting_iff ..).2 (.inl hhalting)))) k body
    · exact ringExec_of_none (ringNext_of_front hw (.inl ((pastHalting_iff ..).2 (.inr hhalts)))) k body
    · exact ringExec_of_none (ringNext_of_front hw (.inr hearlier)) k body
    · exact ringExec_of_other hw (.inl hbad) body
    · exact ringExec_of_other hw (.inr hclass) body

/-! ### Gates, fences, wipes and no operation (03 R48 to R50, R53; 09 R174, R175) -/

theorem gateRef_lt {t g : Nat} (ht : t < 60) (hg : g < 4096) : gateRef t g < 2 ^ 32 := by unfold gateRef; omega

/-- The reference of a gate decodes to its tile and gate. -/
theorem decRef_gateRef {t g : Nat} (ht : t < 60) (hg : g < 4096) : decRef (gateRef t g) = .gate t g := by
  have hv : gateRef t g % 2 ^ 32 = gateRef t g := Nat.mod_eq_of_lt (gateRef_lt ht hg)
  have hbit : nbit (gateRef t g) 31 = true := by
    rw [nbit, Nat.testBit_eq_decide_div_mod_eq, decide_eq_true_iff]; unfold gateRef; omega
  have hhi : nbits (gateRef t g) 30 18 = 0 := by rw [nbits_eq]; unfold gateRef; omega
  have htile : nbits (gateRef t g) 17 12 = t := by rw [nbits_eq]; unfold gateRef; omega
  have hgate : nbits (gateRef t g) 11 0 = g := by rw [nbits_eq]; unfold gateRef; omega
  simp only [decRef, hv, hbit, hhi, htile, hgate]
  simp [ht]

theorem refTile_gateRef {t g : Nat} (ht : t < 60) (hg : g < 4096) : refTile (gateRef t g) = t := by
  rw [refTile, nbits_eq]; unfold gateRef; omega
theorem refGate_gateRef {t g : Nat} (hg : g < 4096) : refGate (gateRef t g) = g := by
  rw [refGate, nbits_eq]; unfold gateRef; omega

theorem gateStatus_gateRef {t g : Nat} (ht : t < 60) (hg : g < 4096) (s : State) (part : Nat) :
    gateStatus s part (gateRef t g) = if ownsTile s part t then 0 else 0x42 := by rw [gateStatus, decRef_gateRef ht hg]

/-- A reference that is not valid, sets a reserved bit, or names no tile, names no gate. -/
theorem gateStatus_of_bad {w : Nat} (h : w.testBit 31 = false ∨ nbits w 30 18 ≠ 0 ∨ 60 ≤ nbits w 17 12) (hw : w < 2 ^ 32) (s : State) (part : Nat) :
    gateStatus s part w = 0x41 := by
  have hdec : ∀ t g, decRef w ≠ .gate t g := by
    intro t g e
    simp only [decRef, Nat.mod_eq_of_lt hw, nbit] at e
    split at e
    · split at e <;> cases e
    · rename_i hbit
      split at e
      · cases e
      · rename_i hok
        simp only [not_or, not_not, not_le] at hok
        rcases h with h | h | h
        · simp [h] at hbit
        · exact h hok.1
        · exact absurd hok.2 (not_lt.2 h)
  unfold gateStatus
  split
  · rename_i t g e; exact absurd e (hdec t g)
  · rfl

/-- A gate operation of a descriptor: what GATE_SET and GATE_ADD share (09 R174). -/
def gateOpBody (r : Nat) (load : Nat → Nat → Nat → MeshLoad) (s : State) (f : Fetched) : State × Work :=
  let w := dq f.q 2
  if !dHiZero f.q 2 32 ∨ !dHiZero f.q 3 32 ∨ !dZeroFrom f.q 4 then (s, judgeAs 0x41 0)
  else match gateStatus s (s.rd (fRPart r)) w with
  | 0 => (gateSend s r f.count w (load (refGate w) (dq f.q 3)), .gate)
  | st => (s, judgeAs st 0)

theorem descBody_gateSet (r : Nat) : descBody r .gateSet = gateOpBody r .gateSet := rfl
theorem descBody_gateAdd (r : Nat) : descBody r .gateAdd = gateOpBody r .gateAdd := rfl

section
variable {s : State} {r : Nat} {f : Fetched}

/-- The transfer of a ring's gate operation, from N0's link at site 0 to the gate's tile (01 R14; 09 R175). -/
def gateCrossing (s : State) (r : Nat) (f : Fetched) (t : Nat) (load : Nat → MeshLoad) : State :=
  { s with mesh := s.mesh ++ [⟨s.rd (fRPart r), .tile t, load (if s.tileSite t = 0 then 0 else meshPort 0 (s.tileSite t)), .ring r f.count⟩] }

theorem gateSend_gateRef {t g : Nat} (ht : t < 60) (hg : g < 4096) (load : Nat → MeshLoad) :
    gateSend s r f.count (gateRef t g) load = gateCrossing s r f t load := by
  simp only [gateSend, refTile_gateRef ht hg, gateCrossing]

/-- A gate operation on a well-formed reference: malformed elsewhere, of another partition, or on its way. -/
theorem exec_gateOp {k : DClass} {load : Nat → Nat → Nat → MeshLoad} (hk : k ≠ .bucket) (hbody : descBody r k = gateOpBody r load) {t g : Nat}
    (ht : t < 60) (hg : g < 4096) (hq : dq f.q 2 = gateRef t g) (h : DueNow s r k f) : exec (descCmd r k) s = .next (
      if ¬(dq f.q 3 < 2 ^ 32 ∧ dZeroFrom f.q 4 = true) then Began s r f (.judged 0x41 0 none)
      else if ownsTile s (s.rd (fRPart r)) t = false then Began s r f (.judged 0x42 0 none)
      else Began (gateCrossing s r f t (load g (dq f.q 3))) r f .gate) := by
  have h2 : dHiZero f.q 2 32 = true := dHiZero_iff.2 (hq ▸ gateRef_lt ht hg)
  by_cases hfull : dq f.q 3 < 2 ^ 32 ∧ dZeroFrom f.q 4 = true
  · rw [if_neg (not_not.2 hfull)]
    have h3 : dHiZero f.q 3 32 = true := dHiZero_iff.2 hfull.1
    cases howned : ownsTile s (s.rd (fRPart r)) t with
    | false => exact exec_of_due h hk (by simp [hbody, gateOpBody, h2, h3, hfull.2, hq, gateStatus_gateRef ht hg, howned, judgeAs])
    | true => exact exec_of_due h hk (by
        simp [hbody, gateOpBody, h2, h3, hfull.2, hq, gateStatus_gateRef ht hg, howned, gateSend_gateRef ht hg, refGate_gateRef hg])
  · rw [if_pos hfull]
    refine exec_of_due h hk ?_
    rw [hbody, gateOpBody, if_pos, judgeAs]
    simp only [dHiZero_iff, Bool.not_eq_true', ← Bool.not_eq_true]
    tauto

/-- A word that names no gate: a bit above the reference, or a reference that is not valid, sets a reserved bit or names no tile. -/
def NoGate (w : Nat) : Prop := 2 ^ 32 ≤ w ∨ w.testBit 31 = false ∨ nbits w 30 18 ≠ 0 ∨ 60 ≤ nbits w 17 12

theorem exec_gateOp_of_noGate {k : DClass} {load : Nat → Nat → Nat → MeshLoad} (hk : k ≠ .bucket) (hbody : descBody r k = gateOpBody r load)
    (hq : NoGate (dq f.q 2)) (h : DueNow s r k f) : exec (descCmd r k) s = .next (Began s r f (.judged 0x41 0 none)) := by
  refine exec_of_due h hk ?_
  rw [hbody, gateOpBody]
  by_cases hlt : dq f.q 2 < 2 ^ 32
  · rw [gateStatus_of_bad (hq.resolve_left (not_le.2 hlt)) hlt]
    exact ite_self _
  · exact if_pos (.inl (by simpa [dHiZero] using hlt))

theorem exec_gateWait {t g : Nat} (ht : t < 60) (hg : g < 4096) (hq : dq f.q 2 = gateRef t g) (h : DueNow s r .gateWait f) :
    exec (.gateWait r) s = .next (
      if ¬(dq f.q 3 < 2 ^ 32 ∧ dq f.q 4 < 2 ^ 40 ∧ dZeroFrom f.q 5 = true) then Began s r f (.judged 0x41 0 none)
      else if ownsTile s (s.rd (fRPart r)) t = false then Began s r f (.judged 0x42 0 none)
      else Began s r f (.gateWait (dq f.q 2) (dq f.q 3) (waitTicks (dq f.q 4)))) := by
  have h2 : dHiZero f.q 2 32 = true := dHiZero_iff.2 (hq ▸ gateRef_lt ht hg)
  by_cases hfull : dq f.q 3 < 2 ^ 32 ∧ dq f.q 4 < 2 ^ 40 ∧ dZeroFrom f.q 5 = true
  · rw [if_neg (not_not.2 hfull)]
    have h3 : dHiZero f.q 3 32 = true := dHiZero_iff.2 hfull.1
    have h4 : dHiZero f.q 4 40 = true := dHiZero_iff.2 hfull.2.1
    cases howned : ownsTile s (s.rd (fRPart r)) t with
    | false => exact exec_of_due h (by decide) (by simp [descBody, gateWaitBody, h2, h3, h4, hfull.2.2, hq, gateStatus_gateRef ht hg, howned, judgeAs])
    | true => exact exec_of_due h (by decide) (by simp [descBody, gateWaitBody, h2, h3, h4, hfull.2.2, hq, gateStatus_gateRef ht hg, howned])
  · rw [if_pos hfull]
    refine exec_of_due h (by decide) ?_
    rw [descBody, gateWaitBody, if_pos, judgeAs]
    simp only [dHiZero_iff, Bool.not_eq_true', ← Bool.not_eq_true]
    tauto

theorem exec_gateWait_of_noGate (hq : NoGate (dq f.q 2)) (h : DueNow s r .gateWait f) :
    exec (.gateWait r) s = .next (Began s r f (.judged 0x41 0 none)) := by
  refine exec_of_due h (by decide) ?_
  rw [descBody, gateWaitBody]
  by_cases hlt : dq f.q 2 < 2 ^ 32
  · rw [gateStatus_of_bad (hq.resolve_left (not_le.2 hlt)) hlt]
    exact ite_self _
  · exact if_pos (.inl (by simpa [dHiZero] using hlt))

/-- A check for what is malformed, turned into one for what is well formed. -/
theorem ite_malformed {α : Type} {bad ok : Prop} [Decidable bad] [Decidable ok] (h : bad ↔ ¬ok) (x y : α) :
    (if bad then x else y) = if ok then y else x := by rw [← ite_not ok]; exact if_congr h rfl rfl

theorem fenceBody_eq (other : Bool) : fenceBody other s f =
    if dq f.q 2 < 2 ^ 10 ∧ dq f.q 3 < 2 ^ 32 ∧ dq f.q 4 < 2 ^ 40 ∧ dZeroFrom f.q 5 = true
      then (s, .fence (if other then some (dq f.q 2, dq f.q 3) else none) (waitTicks (dq f.q 4))) else (s, .judged 0x41 0 none) :=
  ite_malformed (by simp only [Bool.not_eq_true', ← Bool.not_eq_true, dHiZero_iff]; tauto) ..

theorem exec_fence {k : DClass} {other : Bool} (hk : k ≠ .bucket) (hbody : descBody r k = fenceBody other) (h : DueNow s r k f) :
    exec (descCmd r k) s = .next (if dq f.q 2 < 2 ^ 10 ∧ dq f.q 3 < 2 ^ 32 ∧ dq f.q 4 < 2 ^ 40 ∧ dZeroFrom f.q 5 = true
      then Began s r f (.fence (if other then some (dq f.q 2, dq f.q 3) else none) (waitTicks (dq f.q 4)))
      else Began s r f (.judged 0x41 0 none)) := by
  split
  case isTrue hok => exact exec_of_due h hk (by rw [hbody, fenceBody_eq, if_pos hok])
  case isFalse hbad => exact exec_of_due h hk (by rw [hbody, fenceBody_eq, if_neg hbad])

theorem exec_noOperation (h : DueNow s r .nop f) :
    exec (.noOperation r) s = .next (Began s r f (.judged (if dZeroFrom f.q 2 = true then 0 else 0x41) 0 none)) := by
  refine exec_of_due h (by decide) ?_
  simp only [descBody, judgeAs]
  split <;> rfl

theorem exec_wipeAll (h : DueNow s r .wipeAll f) : exec (.wipeAll r) s = .next (
    if dq f.q 2 < 2 ^ 48 ∧ dq f.q 3 < 2 ^ 48 ∧ dZeroFrom f.q 4 = true then Began s r f (.wipe 0 0x9000000000)
    else Began s r f (.judged 0x41 0 none)) := by
  refine (exec_of_due h (by decide) rfl).trans (congrArg _ ?_)
  rw [ite_malformed (ok := dq f.q 2 < 2 ^ 48 ∧ dq f.q 3 < 2 ^ 48 ∧ dZeroFrom f.q 4 = true)
    (by simp only [Bool.not_eq_true', ← Bool.not_eq_true, dHiZero_iff]; tauto)]
  exact apply_ite ..

theorem exec_wipeRange (h : DueNow s r .wipeRange f) : exec (.wipeRange r) s = .next (
    if ¬(dq f.q 2 < 2 ^ 48 ∧ dq f.q 3 < 2 ^ 48 ∧ dZeroFrom f.q 4 = true) ∨ dq f.q 2 % 2048 ≠ 0 ∨ dq f.q 3 % 2048 ≠ 0
      then Began s r f (.judged 0x41 0 none)
    else if hbmOk s (s.rd (fRPart r)) (dq f.q 2) (dq f.q 3) then Began s r f (.wipe (dq f.q 2) (dq f.q 3))
    else Began s r f (.judged 0x42 0 none)) := by
  refine (exec_of_due h (by decide) rfl).trans (congrArg _ ?_)
  rw [← apply_ite (Began s r f), ← apply_ite (Began s r f)]
  refine congrArg _ (if_congr ?_ rfl rfl)
  simp only [Bool.not_eq_true', ← Bool.not_eq_true, dHiZero_iff]
  tauto

end

/-- Settles O24: every descriptor of these classes that is due has begun with what its class's body gives. -/
theorem gateAndPlainDescriptorsAct : Obligations.GateAndPlainDescriptorsAct := by
  intro s r f q2 q3 q4 ticks began bad
  refine ⟨fun t g ht hg hq => ⟨?set, ?add, ?wait⟩, fun hq => ⟨?badSet, ?badAdd, ?badWait⟩, exec_noOperation, ⟨?fenceThis, ?fenceOther⟩,
    ⟨exec_wipeAll, exec_wipeRange⟩⟩
  case set => exact exec_gateOp (by decide) (descBody_gateSet r) ht hg hq
  case add => exact exec_gateOp (by decide) (descBody_gateAdd r) ht hg hq
  case wait => exact exec_gateWait ht hg hq
  case badSet => exact exec_gateOp_of_noGate (by decide) (descBody_gateSet r) hq
  case badAdd => exact exec_gateOp_of_noGate (by decide) (descBody_gateAdd r) hq
  case badWait => exact exec_gateWait_of_noGate hq
  case fenceThis => exact exec_fence (other := false) (by decide) rfl
  case fenceOther => exact exec_fence (other := true) (by decide) rfl

end Sys2Proof.Machine

namespace Sys2Proof.Machine
open Sys2Proof

/-! ### Launches, stops and dumps (03 R49, R53; 09 R172, R184, R186) -/

section
variable {s : State} {r : Nat} {f : Fetched}

/-- The classes of the two subcodes of a descriptor, begun alike. -/
theorem exec_both_of_due {k k' : DClass} (hk : k ≠ .bucket) (hk' : k' ≠ .bucket) {t : State} {w : Work} (h : descBody r k s f = (t, w))
    (h' : descBody r k' s f = (t, w)) :
    (DueNow s r k f → exec (descCmd r k) s = .next (Began t r f w)) ∧ (DueNow s r k' f → exec (descCmd r k') s = .next (Began t r f w)) :=
  ⟨fun hd => exec_of_due hd hk h, fun hd => exec_of_due hd hk' h'⟩

/-- Is a launch descriptor well formed beyond its header (03 R49)? -/
def LaunchShape (f : Fetched) : Prop := dq f.q 2 < 2 ^ 32 ∧ dq f.q 4 < 2 ^ 48 ∧ dZeroFrom f.q 5 = true

theorem not_launchShape_iff : (!dHiZero f.q 2 32 ∨ !dHiZero f.q 4 48 ∨ !dZeroFrom f.q 5) ↔ ¬LaunchShape f := by
  simp only [LaunchShape, Bool.not_eq_true', ← Bool.not_eq_true, dHiZero_iff]; tauto

theorem launchBody_of_malformed (h : ¬LaunchShape f) (atStart : Bool) : launchBody r atStart s f = (s, .judged 0x41 0 none) :=
  if_pos (not_launchShape_iff.2 h)

theorem launchBody_of_refused (hf : LaunchShape f) {st : Nat}
    (h : launchRefused s (s.rd (fRPart r)) (nbits (dq f.q 2) 15 0) (nbits (dq f.q 2) 31 16) = st) (hst : st ≠ 0) (atStart : Bool) :
    launchBody r atStart s f = (s, .judged st 0 none) := by
  rw [launchBody, if_neg (fun e => not_launchShape_iff.1 e hf), h]
  split
  · exact absurd rfl hst
  · rfl

theorem launchBody_of_accepted (hf : LaunchShape f) {m : Image}
    (h : launchRefused s (s.rd (fRPart r)) (nbits (dq f.q 2) 15 0) (nbits (dq f.q 2) 31 16) = 0)
    (hm : s.image (s.rd (fRPart r)) (nbits (dq f.q 2) 15 0) = some m) (atStart : Bool) :
    launchBody r atStart s f = ({ s with flights := s.flights ++ [newFlight s r f.count f.q m atStart] }, .launch) := by
  rw [launchBody, if_neg (fun e => not_launchShape_iff.1 e hf), h, hm]
  rfl

theorem newFlight_cores (s : State) (r count : Nat) (q : List Nat) (m : Image) (b : Bool) :
    (newFlight s r count q m b).cores = imgCores s m.dpa := by simp only [newFlight]

/-- The launches of the two subcodes differ in theirs alone. -/
theorem newFlight_atStart {s : State} {r count : Nat} {q : List Nat} {m : Image} {fl : Flight} (h : fl = newFlight s r count q m false) (b : Bool) :
    { fl with atStart := b } = newFlight s r count q m b := by
  subst h
  simp only [newFlight]

end

section
variable {s : State} {part id fid : Nat}

theorem launchRefused_of_taken (h : s.image part id = none ∨ flightOf s part fid ≠ none) : launchRefused s part id fid = 0x41 := by
  unfold launchRefused
  split
  · rfl
  · rename_i hm
    have hsome := h.resolve_left (by simp [hm])
    rw [if_pos (Option.isSome_iff_ne_none.2 hsome)]

/-- Does an image ask for a core, a gate, a done gate or a slot that its partition does not own (09 R172)? -/
def ImageOutside (s : State) (part fid : Nat) (m : Image) : Prop :=
  (∃ u ∈ imgCores s m.dpa, ownsTile s part (u / 4) = false)
    ∨ (∃ i, i < imgGates s m.dpa ∧ ownsTile s part (nbits (im64 s m.dpa (imgGateOff s m.dpa + 8 * i)) 49 44) = false)
    ∨ (∃ i, i < imgStanding s m.dpa ∧
        let e := standWords s m.dpa i
        (∃ t g, decRef (e.getD 6 0#64).toNat = .gate t g ∧ ownsTile s part t = false)
        ∨ ∃ k, k < max (nbits (e.getD 0 0#64).toNat 55 48) (nbits (e.getD 0 0#64).toNat 63 56)
            ∧ (firing s (standTile s m.dpa i) 0 k ⟨part, fid, e, 0, 0, 0, 0, true⟩).rangesOk s = false)

theorem launchRefused_of_outside {m : Image} (hm : s.image part id = some m) (hfree : flightOf s part fid = none)
    (h : ImageOutside s part fid m) : launchRefused s part id fid = 0x42 := by
  simp only [launchRefused, hm, hfree, Option.isSome_none, Bool.false_eq_true, if_false]
  rcases h with ⟨u, hu, hown⟩ | ⟨i, hi, hown⟩ | ⟨i, hi, hstand⟩
  · rw [if_pos (List.any_eq_true.2 ⟨u, hu, by simp [hown]⟩)]
  · rw [if_pos (List.any_eq_true.2 ⟨i, List.mem_range.2 hi, by simp [hown]⟩), ite_self]
  · split
    · rfl
    · split
      · rfl
      · rw [if_pos (List.any_eq_true.2 ⟨i, List.mem_range.2 hi, ?_⟩)]
        simp only [lget, Bool.or_eq_true]
        rcases hstand with ⟨t, g, hdone, hown⟩ | ⟨k, hk, hslot⟩
        · left; rw [hdone]; simp [hown]
        · right; exact List.any_eq_true.2 ⟨k, List.mem_range.2 hk, by rw [hslot]; rfl⟩

/-! ### What a flight that is gone leaves (09 R172, R173, R184) -/

theorem is_of_flightOf {g : Flight} (h : flightOf s part fid = some g) : g.part = part ∧ g.fid = fid ∧ g.step ≠ .check := by
  have := List.find?_some h
  simpa [Flight.is, and_assoc] using this

theorem replaceFirst_of_find {α : Type} {p : α → Bool} {F : α → α} {a : α} : (l : List α) → l.find? p = some a →
    replaceFirst p F l = replaceFirst p (fun _ => F a) l
  | x :: l, h => by
    cases hx : p x with
    | true =>
      obtain rfl : x = a := by simpa [List.find?_cons, hx] using h
      simp [replaceFirst, hx]
    | false =>
      have := replaceFirst_of_find (F := F) l (by simpa [List.find?_cons, hx] using h)
      simp [replaceFirst, hx, this]

/-- A change of the running flight of a flight_id is one of that flight. -/
theorem modFlight_of_flightOf {g : Flight} (h : flightOf s part fid = some g) (F : Flight → Flight) :
    modFlight s part fid F = modFlight s part fid fun _ => F g := by
  unfold modFlight; rw [replaceFirst_of_find s.flights h]

end

theorem tmap_cons {α : Type} [DecidableEq α] (d : Nat → α) (F : Nat → α → α) (k : Nat) (v : α) (t : Tbl α) :
    tmap d F ((k, v) :: t) = if F k v = d k then tmap d F t else (k, F k v) :: tmap d F t := by
  simp only [tmap, List.filterMap_cons]
  by_cases h : F k v = d k
  · rw [if_pos h, if_pos h]
  · rw [if_neg h, if_neg h]

/-- What a table reads as once its entries are changed, at a key that it lists before and after. -/
theorem tget_tmap_of_listed {α : Type} [DecidableEq α] {d : Nat → α} {F : Nat → α → α} {k : Nat} : (t : Tbl α) → tget d t k ≠ d k →
    F k (tget d t k) ≠ d k → tget d (tmap d F t) k = F k (tget d t k)
  | [], h, _ => absurd rfl h
  | (k', v) :: t, h, hF => by
    by_cases hk : k' = k
    · subst hk
      simp only [tget, if_true] at hF ⊢
      rw [tmap_cons, if_neg hF, tget, if_pos rfl]
    · simp only [tget, if_neg hk] at h hF ⊢
      have ih := tget_tmap_of_listed t h hF
      rw [tmap_cons]
      split
      · exact ih
      · rw [tget, if_neg hk, ih]

/-- An outstanding descriptor has its new work. -/
theorem mem_out_mapWork {s : State} {r : Nat} {d : Dispatched} (h : d ∈ (s.ring r).out) (F : Nat → Dispatched → Work) :
    { d with work := F r d } ∈ ((mapWork s F).ring r).out := by
  have hmem : { d with work := F r d } ∈ (s.ring r).out.map fun d => { d with work := F r d } := List.mem_map_of_mem h
  have hne := List.ne_nil_of_mem hmem
  have hlisted : tget ring0 s.rings r ≠ ring0 r := fun e => by rw [State.ring, e] at h; cases h
  have hstays : { s.ring r with out := (s.ring r).out.map fun d => { d with work := F r d } } ≠ ring0 r := fun e =>
    hne (congrArg RingSt.out e)
  simp only [mapWork, State.ring]
  rw [tget_tmap_of_listed s.rings hlisted hstays]
  exact hmem

section
variable (s : State)

theorem clockRefresh_flights : (clockRefresh s).flights = s.flights.map (Flight.follow s) :=
  State.wrAll_keeps State.flights (fun _ _ _ => rfl) _ _
theorem clockRefresh_rings : (clockRefresh s).rings = s.rings := State.wrAll_keeps State.rings (fun _ _ _ => rfl) _ _
theorem clockRefresh_cores : (clockRefresh s).cores = s.cores := State.wrAll_keeps State.cores (fun _ _ _ => rfl) _ _

/-- What names the launch of a flight: its ring and count, and its flight_id. -/
def Flight.name (f : Flight) : Nat × Nat × Nat := (f.ring, f.count, f.fid)

theorem follow_name (f : Flight) : (f.follow s).name = f.name := by
  unfold Flight.follow; split <;> rfl

theorem clockRefresh_names : (clockRefresh s).flights.map Flight.name = s.flights.map Flight.name := by
  rw [clockRefresh_flights, List.map_map]
  exact List.map_congr_left fun f _ => follow_name s f

theorem judgeLaunch_flights (f : Flight) (status result : Nat) (entry : Option Nat) :
    (judgeLaunch s f status result entry).flights = s.flights := by
  unfold judgeLaunch; split <;> rfl
theorem judgeLaunch_cores (f : Flight) (status result : Nat) (entry : Option Nat) :
    (judgeLaunch s f status result entry).cores = s.cores := by
  unfold judgeLaunch; split <;> rfl

theorem unarm_keeps {α : Type} {g : State → α} (hg : ∀ s t, g { s with tiles := t } = g s) (part fid : Nat) (tiles : List Nat) :
    g (unarm s part fid tiles) = g s := foldl_keeps (fun _ _ => hg ..) _ _

/-- Cores are freed. -/
def coresFree (l : List Nat) : State := l.foldl (fun t u => t.modCore u fun c => { c with phase := .idle }) s

theorem coresFree_keeps {α : Type} {g : State → α} (hg : ∀ s c, g { s with cores := c } = g s) (l : List Nat) : g (coresFree s l) = g s :=
  foldl_keeps (fun _ _ => hg ..) _ _

end

theorem coresFree_phase {u : Nat} : (l : List Nat) → (s : State) → (u ∈ l ∨ (s.core u).phase = .idle) → ((coresFree s l).core u).phase = .idle
  | [], _, h => h.resolve_left List.not_mem_nil
  | v :: l, s, h => by
    refine coresFree_phase l _ ?_
    by_cases hv : u = v
    · subst hv; exact .inr (by simp [State.modCore])
    · refine h.imp (fun hm => (List.mem_cons.1 hm).resolve_left hv) fun hp => ?_
      simpa [State.modCore, State.core_setCore_ne _ _ hv] using hp

section
variable (s : State) (f : Flight) (status result stopped : Nat) (entry : Option Nat)

/-- The flights and tiles once a flight is gone, before its records are judged. -/
def flightLeft : State :=
  let s1 := if f.claimed then coresFree s f.cores else s
  let s2 := unarm s1 f.part f.fid f.tiles
  { s2 with flights := dropFirst f.same s2.flights }

theorem flightGone_eq : flightGone s f status result stopped entry =
    clockRefresh (judgeStops (judgeLaunch (flightLeft s f) f status result entry) f.part f.fid stopped) := rfl

theorem flightLeft_flights : (flightLeft s f).flights = dropFirst f.same s.flights := by
  have h : (if f.claimed then coresFree s f.cores else s).flights = s.flights := by
    split
    · exact coresFree_keeps s (fun _ _ => rfl) _
    · rfl
  exact congrArg _ ((unarm_keeps _ (fun _ _ => rfl) ..).trans h)

theorem flightLeft_rings : (flightLeft s f).rings = s.rings := by
  have h : (if f.claimed then coresFree s f.cores else s).rings = s.rings := by
    split
    · exact coresFree_keeps s (fun _ _ => rfl) _
    · rfl
  exact (unarm_keeps (g := State.rings) _ (fun _ _ => rfl) ..).trans h

theorem flightGone_names : (flightGone s f status result stopped entry).flights.map Flight.name = (dropFirst f.same s.flights).map Flight.name := by
  have hstops : ∀ t, (judgeStops t f.part f.fid stopped).flights = t.flights := fun _ => rfl
  rw [flightGone_eq, clockRefresh_names, hstops, judgeLaunch_flights, flightLeft_flights]

theorem flightGone_phase (h : f.claimed = true) {u : Nat} (hu : u ∈ f.cores) :
    ((flightGone s f status result stopped entry).core u).phase = .idle := by
  have hcores : (flightGone s f status result stopped entry).cores = (coresFree s f.cores).cores := by
    have hstops : ∀ t, (judgeStops t f.part f.fid stopped).cores = t.cores := fun _ => rfl
    rw [flightGone_eq, clockRefresh_cores, hstops, judgeLaunch_cores]
    refine (unarm_keeps (g := State.cores) _ (fun _ _ => rfl) ..).trans ?_
    rw [if_pos h]
  rw [State.core, hcores]
  exact coresFree_phase f.cores s (.inl hu)

end

/-- The launch of a flight that is gone before its release has its status (03 R50, R53). -/
theorem mem_out_flightGone {s : State} {f : Flight} (hrun : f.step ≠ .running) (ho : f.orphan = false) {d : Dispatched}
    (hd : d ∈ (s.ring f.ring).out) (hc : d.count = f.count) (hw : d.work = .launch) (status result stopped : Nat) (entry : Option Nat) :
    { d with work := .judged status result entry } ∈ ((flightGone s f status result stopped entry).ring f.ring).out := by
  have hd' : d ∈ ((flightLeft s f).ring f.ring).out := by rw [State.ring, flightLeft_rings]; exact hd
  have hlaunch : { d with work := .judged status result entry } ∈ ((judgeLaunch (flightLeft s f) f status result entry).ring f.ring).out := by
    simp only [judgeLaunch, ho, hrun, decide_false, Bool.and_false, Bool.false_and, Bool.false_eq_true, if_false]
    exact mem_out_settleWork hd' hc hw
  rw [State.ring, flightGone_eq, clockRefresh_rings]
  exact mem_out_mapWork hlaunch _

/-! ### Stops and dumps (09 R184, R186) -/

section
variable {s : State} {r : Nat} {f : Fetched}

/-- Is a flight stop well formed beyond its header (03 R49)? -/
def StopShape (f : Fetched) : Prop := nbits (dq f.q 2) 15 0 = 0 ∧ dq f.q 2 < 2 ^ 32 ∧ dZeroFrom f.q 3 = true

theorem stopBody_of_unknown (hf : StopShape f) (h : flightOf s (s.rd (fRPart r)) (nbits (dq f.q 2) 31 16) = none) (k : StopKind) :
    stopBody r k s f = (s, .judged 0 0 none) := by
  obtain ⟨h1, h2, h3⟩ := hf
  simp [stopBody, h1, dHiZero_iff.2 h2, h3, h, judgeAs]

theorem stopBody_of_flight (hf : StopShape f) {g : Flight} (h : flightOf s (s.rd (fRPart r)) (nbits (dq f.q 2) 31 16) = some g) (k : StopKind) :
    stopBody r k s f = (flightStop s g k, if g.step = .running then .stop (nbits (dq f.q 2) 31 16) else .judged 0 0 none) := by
  obtain ⟨h1, h2, h3⟩ := hf
  simp [stopBody, h1, dHiZero_iff.2 h2, h3, h, judgeAs]

/-- A stop before the release ends the flight at once (09 R184). -/
theorem flightStop_of_unreleased {g : Flight} (hrun : g.step ≠ .running) (hhalt : g.haltIx = none) (k : StopKind) :
    flightStop s g k = flightGone (g.tiles.foldl (fun t n => dropFirings t g.part g.fid n) s) g 0x05 0 0 none := by
  simp [flightStop, hrun, hhalt]

/-- The first stop of a running flight is set (09 R184). -/
theorem flightStop_of_running {part fid : Nat} {g : Flight} (h : flightOf s part fid = some g) (hrun : g.step = .running) (hstop : g.stop = .none) :
    flightStop s g .atEop = modFlight s part fid (fun _ => { g with stop := .atEop })
      ∧ flightStop s g .atBundle = modFlight s part fid fun _ => { g with stop := .atBundle, notices := g.tiles } := by
  obtain ⟨rfl, rfl, -⟩ := is_of_flightOf h
  constructor <;> (rw [flightStop, if_neg (not_not.2 hrun), modFlight_of_flightOf h]; simp only [hstop])

theorem dropFirings_keeps {α : Type} {g : State → α} (hg : ∀ s b, g { s with barges := b } = g s) (part fid : Nat) (tiles : List Nat) :
    g (tiles.foldl (fun t n => dropFirings t part fid n) s) = g s := foldl_keeps (fun _ _ => hg ..) _ _

/-- A dump of a flight that has not launched is armed (09 R186). -/
theorem dumpBody_of_unlaunched (hid : nbits (dq f.q 2) 15 0 = 0) (h2 : dq f.q 2 < 2 ^ 32) (h4 : dq f.q 4 < 2 ^ 48) (h5 : dq f.q 5 < 2 ^ 48)
    (h6 : dZeroFrom f.q 6 = true) (hok : hbmOk s (s.rd (fRPart r)) (dq f.q 4) (dq f.q 5) = true)
    (h : flightOf s (s.rd (fRPart r)) (nbits (dq f.q 2) 31 16) = none) (atMile : Bool) :
    dumpBody r atMile s f = ({ s with dumps := s.dumps ++ [⟨s.rd (fRPart r), nbits (dq f.q 2) 31 16, r, f.count, atMile, dq f.q 3, dq f.q 4, dq f.q 5,
      false, false, none⟩] }, .dump (nbits (dq f.q 2) 31 16)) := by
  have h4' : nbits (dq f.q 4) 47 0 = dq f.q 4 := nbits_low h4
  have h5' : nbits (dq f.q 5) 47 0 = dq f.q 5 := nbits_low h5
  simp [dumpBody, hid, dHiZero_iff.2 h2, dHiZero_iff.2 h4, dHiZero_iff.2 h5, h6, h4', h5', hok, h]

end

/-- Settles O25: launches by what refuses them, stops by the flight's step, and dumps; what a stop before the release leaves is what a flight
that is gone leaves. -/
theorem flightDescriptorsAct : Obligations.FlightDescriptorsAct := by
  intro s r f part id fid
  refine ⟨fun m h2 h4 h5 hok hm => ?launch, ⟨fun hbad => ?malformed, fun h2 h4 h5 => ⟨fun h => ?taken, fun m hm hfree h => ?outside⟩⟩,
    fun g hid h2 h3 hg hrun hhalt => ?unreleased, fun hid h2 h3 => ⟨fun hg => ?unknown, fun g hg hrun hstop => ?running⟩,
    fun hid h2 h4 h5 h6 hok hg => ⟨fun hd => ?dumpCount, fun hd => ?dumpMile⟩⟩
  case launch =>
    have hbody := launchBody_of_accepted ⟨h2, h4, h5⟩ hok hm
    refine ⟨newFlight s r f.count f.q m false, rfl, rfl, rfl, rfl, rfl, rfl, rfl, nbits_low h4, rfl, rfl, newFlight_cores ..,
      fun hd => by rw [newFlight_atStart rfl]; exact exec_of_due hd (by decide) (hbody false),
      fun hd => by rw [newFlight_atStart rfl]; exact exec_of_due hd (by decide) (hbody true)⟩
  case malformed =>
    have hf : ¬LaunchShape f := by
      rintro ⟨h2, h4, h5⟩
      rcases hbad with h | h | h
      · omega
      · omega
      · exact absurd h5 (by simp [h])
    exact exec_both_of_due (by decide) (by decide) (launchBody_of_malformed hf false) (launchBody_of_malformed hf true)
  case taken =>
    have hbody := launchBody_of_refused (r := r) ⟨h2, h4, h5⟩ (launchRefused_of_taken h) (by decide)
    exact exec_both_of_due (by decide) (by decide) (hbody false) (hbody true)
  case outside =>
    have hbody := launchBody_of_refused (r := r) ⟨h2, h4, h5⟩ (launchRefused_of_outside hm hfree h) (by decide)
    exact exec_both_of_due (by decide) (by decide) (hbody false) (hbody true)
  case unreleased =>
    obtain ⟨hp, hf, -⟩ := is_of_flightOf hg
    intro u
    have hbody : ∀ k, stopBody r k s f = (u, .judged 0 0 none) := fun k => by
      rw [stopBody_of_flight ⟨hid, h2, h3⟩ hg, if_neg hrun, flightStop_of_unreleased hrun hhalt, hp, hf]
    obtain ⟨heop, hbundle⟩ := exec_both_of_due (k := .stopEop) (k' := .stopBundle) (by decide) (by decide) (hbody .atEop) (hbody .atBundle)
    refine ⟨heop, hbundle, ?_, fun hc c hcore => flightGone_phase _ _ _ _ _ _ hc hcore, fun ho d hd hc hw => ?_⟩
    · refine (flightGone_names ..).trans ?_
      rw [dropFirings_keeps (g := State.flights) fun _ _ => rfl]
      rfl
    · refine mem_out_flightGone hrun ho ?_ hc hw ..
      rw [State.ring, dropFirings_keeps (g := State.rings) fun _ _ => rfl]
      exact hd
  case unknown =>
    have hbody := stopBody_of_unknown ⟨hid, h2, h3⟩ hg
    exact exec_both_of_due (by decide) (by decide) (hbody .atEop) (hbody .atBundle)
  case running =>
    obtain ⟨heop, hbundle⟩ := flightStop_of_running hg hrun hstop
    have hbody := stopBody_of_flight ⟨hid, h2, h3⟩ hg
    exact ⟨fun hd => exec_of_due hd (by decide) ((hbody .atEop).trans (by rw [if_pos hrun, heop])),
      fun hd => exec_of_due hd (by decide) ((hbody .atBundle).trans (by rw [if_pos hrun, hbundle]))⟩
  case dumpCount => exact exec_of_due hd (by decide) (dumpBody_of_unlaunched hid h2 h4 h5 h6 hok hg false)
  case dumpMile => exact exec_of_due hd (by decide) (dumpBody_of_unlaunched hid h2 h4 h5 h6 hok hg true)

end Sys2Proof.Machine

namespace Sys2Proof.Machine
open Sys2Proof

/-! ### Image loads and barges (03 R49; 09 R171, R177) -/

section
variable {s : State}

theorem reqIssue_of_noTag (h : tagFree s = false) (n : Nat) : reqIssue n s = s := by
  cases n with
  | zero => rfl
  | succ n =>
    unfold reqIssue
    split
    · rw [if_neg (by simp [h])]
    · rfl

/-- A request with which nothing else that waits is put. -/
theorem hostAsk_of_asks (h : Asks s) (k : ReqFor) (a n : Nat) : hostAsk s k a n = Asked s k a n := by
  rcases h with hmay | hno
  · have hmay' := hmay
    simp only [mayAsk, Bool.and_eq_true, List.isEmpty_iff] at hmay'
    obtain ⟨htag, hwait⟩ := hmay'
    have hfree : tagFree { s with reqWait := [(k, a, n)] } = true := htag
    have hwas : { s with reqWait := [] } = s := by rw [← hwait]
    rw [Asked, if_pos hmay, hostAsk, hwait]
    simp only [List.nil_append, reqPump, List.length_singleton, reqIssue, hfree, if_true]
    rw [← hwas]
    rfl
  · have hmay : mayAsk s = false := by simp [mayAsk, hno]
    have hstill : tagFree { s with reqWait := s.reqWait ++ [(k, a, n)] } = false := hno
    rw [Asked, if_neg (by simp [hmay]), hostAsk, reqPump, reqIssue_of_noTag hstill]

/-! A source range that begins in HBM, and that its partition may read, lies in HBM (01 R17). -/

theorem dpaLoc_of_lt {a : Nat} (h : a < hbmTop) : dpaLoc s a = .hbm := if_pos h

theorem lt_of_dpaLoc_hbm {a : Nat} (h : dpaLoc s a = .hbm) : a < hbmTop := by
  by_contra hge
  rw [dpaLoc, if_neg hge] at h
  split at h
  · split at h <;> cases h
  · simp only [apply_ite (· = Loc.hbm), reduceCtorEq, ite_self] at h

theorem dpaLoc_hbmTop : dpaLoc s hbmTop = .nowhere := by
  simp [dpaLoc, hbmTop, siteWindow, tileWindow, hostWindow, regWindow, spadBytes]

theorem mem_dpaPoints {a n i : Nat} (hlo : a < 2 ^ 24 * i) (hhi : 2 ^ 24 * i ≤ a + n - 1) : 2 ^ 24 * i ∈ dpaPoints a n := by
  have hmem : i ∈ upFrom (a / 2 ^ 24 + 1) ((a + n - 1) / 2 ^ 24 - a / 2 ^ 24) :=
    List.mem_map.2 ⟨i - (a / 2 ^ 24 + 1), List.mem_range.2 (by omega), by omega⟩
  exact List.mem_cons_of_mem _ (List.mem_cons_of_mem _ (List.mem_map_of_mem hmem))

theorem le_hbmTop_of_dpaOk {part a n : Nat} {far : Bool} (hloc : dpaLoc s a = .hbm) (hok : dpaOk s part far a n = true) : a + n ≤ hbmTop := by
  have hlt := lt_of_dpaLoc_hbm hloc
  by_contra hgt
  have hn : n ≠ 0 := by omega
  have hall : (dpaPoints a n).all (fun p => dpaByteOk s part far p) = true := by simpa [dpaOk, hn, hloc] using hok
  have htop : hbmTop ∈ dpaPoints a n := mem_dpaPoints (i := 0x9000) (by unfold hbmTop at hlt; omega) (by unfold hbmTop at hgt; omega)
  have := List.all_eq_true.1 hall hbmTop htop
  simp [dpaByteOk, dpaLoc_hbmTop] at this

theorem rangeSplit_lt {p : Nat × Nat} : (f a n : Nat) → p ∈ rangeSplit f a n → p.1 < a + n
  | 0, _, _, h => by cases h
  | f + 1, a, n, h => by
    unfold rangeSplit at h
    split at h
    · cases h
    · rcases List.mem_cons.1 h with rfl | h
      · dsimp only; omega
      · have := rangeSplit_lt f _ _ h
        omega

theorem rangeParts_hbm {a n : Nat} (h : a + n ≤ hbmTop) {p : Nat × Nat} (hp : p ∈ rangeParts a n) : dpaLoc s p.1 = .hbm :=
  dpaLoc_of_lt (lt_of_lt_of_le (rangeSplit_lt _ _ _ hp) h)

theorem srcUe_of_clean {a n : Nat} (h : a + n ≤ hbmTop) (hue : s.hbmUe = []) : srcUe s a n = none := by
  refine List.findSome?_eq_none_iff.2 fun p hp => ?_
  simp only [rangeParts_hbm h hp, hbmFirstUe_of_clean hue, Option.map_none]

theorem dpaTurn_of_hbm {a n : Nat} (h : a + n ≤ hbmTop) : dpaTurn s a n = s :=
  List.foldlRecOn (motive := fun t => t = s) _ _ rfl fun t ht p hp => by
    subst ht
    simp only [rangeParts_hbm h hp]

end

section
variable {s : State} {r : Nat} {f : Fetched}

/-- Is an image load well formed beyond its header, and of ranges that its partition owns (03 R49)? -/
structure ImageLoadOk (s : State) (r : Nat) (f : Fetched) : Prop where
  src : dq f.q 2 < 2 ^ 48
  word : dq f.q 3 < 2 ^ 48
  dst : dq f.q 4 < 2 ^ 48
  rest : dZeroFrom f.q 5 = true
  len : nbits (dq f.q 3) 31 0 % 64 = 0
  reads : dpaOk s (s.rd (fRPart r)) false (dq f.q 2) (nbits (dq f.q 3) 31 0) = true
  writes : hbmOk s (s.rd (fRPart r)) (dq f.q 4) (nbits (dq f.q 3) 31 0) = true

/-- Of a load that is in order only the place of its source decides. -/
theorem imageLoadBody_of_ok (h : ImageLoadOk s r f) : imageLoadBody r none s f =
    if touchesHost (dq f.q 2) (nbits (dq f.q 3) 31 0) then
      if !s.dlActive ∨ !busOk s (dq f.q 2 - hostWindow) (nbits (dq f.q 3) 31 0) then (s, judgeAs 0x43 0)
      else (hostAsk s (.source r f.count) (dq f.q 2 - hostWindow) (nbits (dq f.q 3) 31 0), .source)
    else match srcUe s (dq f.q 2) (nbits (dq f.q 3) 31 0) with
    | some (a, some (t, ll)) => ringUe (noteUe s t ll) r f.count a none
    | some (a, none) => ringUe s r f.count a none
    | none => imageArrive (dpaTurn s (dq f.q 2) (nbits (dq f.q 3) 31 0)) r f.count f.q (dpaRead s (dq f.q 2) (nbits (dq f.q 3) 31 0)) := by
  have hsrc : nbits (dq f.q 2) 47 0 = dq f.q 2 := nbits_low h.src
  have hdst : nbits (dq f.q 4) 47 0 = dq f.q 4 := nbits_low h.dst
  unfold imageLoadBody
  dsimp only
  rw [hsrc, hdst]
  refine (if_neg ?form).trans ((if_neg ?ranges).trans ?place)
  case form => rw [dHiZero_iff.2 h.src, dHiZero_iff.2 h.word, dHiZero_iff.2 h.dst, h.rest, h.len]; decide
  case ranges => rw [h.reads, h.writes]; decide
  case place => rfl

theorem imageLoadBody_of_host (h : ImageLoadOk s r f) (ht : touchesHost (dq f.q 2) (nbits (dq f.q 3) 31 0) = true) (hdl : s.dlActive = true)
    (hbus : busOk s (dq f.q 2 - 0x20000000000) (nbits (dq f.q 3) 31 0) = true) (hasks : Asks s) :
    imageLoadBody r none s f = (Asked s (.source r f.count) (dq f.q 2 - 0x20000000000) (nbits (dq f.q 3) 31 0), .source) := by
  rw [imageLoadBody_of_ok h, if_pos ht, if_neg (by simp [hdl, hostWindow, hbus]), hostAsk_of_asks hasks]
  rfl

theorem imageLoadBody_of_hbm (h : ImageLoadOk s r f) (ht : touchesHost (dq f.q 2) (nbits (dq f.q 3) 31 0) = false) (hloc : dpaLoc s (dq f.q 2) = .hbm)
    (hue : s.hbmUe = []) :
    let e := imgEnter s (s.rd (fRPart r)) (nbits (dq f.q 3) 47 32) (dq f.q 4) (dpaRead s (dq f.q 2) (nbits (dq f.q 3) 31 0))
    imageLoadBody r none s f = (e.1, .judged e.2 (nbits (dq f.q 3) 31 0) none) := by
  have hdst : nbits (dq f.q 4) 47 0 = dq f.q 4 := nbits_low h.dst
  have hlen : (dpaRead s (dq f.q 2) (nbits (dq f.q 3) 31 0)).length = nbits (dq f.q 3) 31 0 := by simp [dpaRead]
  have hrange := le_hbmTop_of_dpaOk hloc h.reads
  rw [imageLoadBody_of_ok h, if_neg (by simp [ht]), srcUe_of_clean hrange hue, dpaTurn_of_hbm hrange]
  simp only [imageArrive, hbmPartUe_of_clean hue, hdst, hlen, judgeAs]

theorem bargeBody_of_permitted (h2 : dq f.q 2 < 2 ^ 48) (h3 : dq f.q 3 < 2 ^ 48) (h6 : dq f.q 6 < 2 ^ 18) (h7 : dq f.q 7 < 2 ^ 32)
    (href : decRef (dq f.q 7) ≠ .bad) {b : Barge} (hb : b = descBarge s r f.count f.q)
    (hshape : bargeShapeOk b.rows b.rowBytes b.srcPitch b.dstPitch b.transpose = true) (hengine : engineOk b.engine b.chan = true)
    (hpart : enginePart s b.engine = some (s.rd (fRPart r))) (hdone : ∀ t g, decRef (dq f.q 7) = .gate t g → ownsTile s (s.rd (fRPart r)) t = true)
    (hranges : b.rangesOk s = true) :
    bargeBody r s f = ({ s with barges := s.barges ++ [b], bargeNext := s.bargeNext + 1 }, .barge b.id) := by
  have hgate : (b.done.any fun k => !ownsTile s b.part (k / 4096)) = false := by
    subst hb
    simp only [descBarge]
    split
    case h_1 t g e =>
      have hg : g < 4096 := by
        simp only [decRef] at e
        split at e
        · split at e <;> cases e
        · split at e
          · cases e
          · cases e; rw [nbits_eq]; omega
      have ht : (t * 4096 + g) / 4096 = t := by omega
      simp [ht, hdone t g e]
    case h_2 => rfl
  have hpart' : enginePart s b.engine = some b.part := by subst hb; exact hpart
  simp only [bargeBody, ← hb]
  rw [if_neg, if_neg]
  · simp [hpart', hgate, hranges]
  · simp [dHiZero_iff.2 h2, dHiZero_iff.2 h3, dHiZero_iff.2 h6, dHiZero_iff.2 h7, href, hshape, hengine]

end

/-- Settles O26: an image load by where its source lies, a barge by the checks of its body. -/
theorem transferDescriptorsAct : Obligations.TransferDescriptorsAct := by
  intro s r f part src len dst
  refine ⟨fun hd h2 h3 h4 h5 hlen hreads hwrites => ?load, fun hd => ?barge⟩
  case load =>
    have hok : ImageLoadOk s r f := ⟨h2, h3, h4, h5, hlen, hreads, hwrites⟩
    exact ⟨fun ht hloc hue => exec_of_due hd (by decide) (imageLoadBody_of_hbm hok ht hloc hue),
      fun ht hdl hbus hasks => exec_of_due hd (by decide) (imageLoadBody_of_host hok ht hdl hbus hasks)⟩
  case barge =>
    refine ⟨descBarge s r f.count f.q, rfl, rfl, rfl, rfl, rfl, rfl, rfl, rfl, rfl, rfl, rfl, rfl, rfl, rfl, ?_⟩
    intro h2 h3 h6 h7 href hshape hengine hpart hdone hranges
    exact exec_of_due hd (by decide) (bargeBody_of_permitted h2 h3 h6 h7 href rfl hshape hengine hpart hdone hranges)

end Sys2Proof.Machine

namespace Sys2Proof.Machine
open Sys2Proof

/-! ## O29 to O33: the service of the rings (03 R39 to R57) -/

/-! ### What a ring's record leaves of the registers and of the requests -/

theorem aRing_ne {r a b : Nat} (h : a ≠ b) : aRing r a ≠ aRing r b := by unfold aRing; omega

theorem rd_putRing (s : State) {r : Nat} (g : RingSt) {f : Fld} (h : f.off ≠ aRing r 0x20) : (s.putRing r g).rd f = s.rd f :=
  (State.rd_wr_ne _ _ _ _ h).trans (State.rd_wr_ne _ _ _ _ h)

theorem rd_modRing (s : State) {r : Nat} (u : RingSt → RingSt) {f : Fld} (h : f.off ≠ aRing r 0x20) : (s.modRing r u).rd f = s.rd f :=
  rd_putRing s _ h

theorem cap_putRing (s : State) (r : Nat) (g : RingSt) (b : Nat) : (s.putRing r g).cap b = s.cap b := by
  unfold State.cap
  rw [rd_putRing]
  simp only [fEffCaps, aRing]; omega

theorem cplMs_putRing (s : State) (r : Nat) (g : RingSt) : cplMs (s.putRing r g) = cplMs s := by
  unfold cplMs
  rw [rd_putRing]
  simp only [fCplTimeout, aRing]; omega

@[simp] theorem voteRefresh_nextTag (s : State) : (voteRefresh s).nextTag = s.nextTag :=
  voteRefresh_keeps State.nextTag (fun _ _ => rfl) (fun _ _ _ => rfl) (fun _ _ _ => rfl) s

/-- A request that may be put is issued, with the next tag. -/
theorem hostAsk_of_mayAsk {s : State} (h : mayAsk s = true) (k : ReqFor) (a n : Nat) :
    hostAsk s k a n = { s with reqs := s.reqs ++ [⟨s.nextTag, a, n, cplMs s, k⟩], nextTag := s.nextTag + 1 } := by
  rw [hostAsk_of_asks (.inl h), Asked, if_pos h]

theorem ring_withReqs (s : State) (l : List HostReq) (n r : Nat) : State.ring { s with reqs := l, nextTag := n } r = s.ring r := rfl

/-! ### Fetching (03 R46, R47) -/

theorem fetchable_le (s : State) (r : Nat) : fetchable s r ≤ 8 := by
  simp only [fetchable]
  split
  · exact Nat.zero_le 8
  · exact (Nat.min_le_left ..).trans (Nat.min_le_left ..)

theorem fetchable_of_nextTurn {s : State} {r : Nat} (h : nextTurn s = some r) : fetchable s r ≠ 0 := by
  simpa using List.find?_some h

theorem exec_descriptorFetch (s : State) : exec .descriptorFetch s = .next (voteRefresh (descFetch s)) := run_of_wf (c := .descriptorFetch) rfl
theorem exec_descriptorReadReturn {s t : State} {r : Nat} (hr : r < 1024) {status : CplStatus} {descs : List (List Nat)}
    (h : descReturn s r status descs = t) : exec (.descriptorReadReturn r status descs) s = .next (voteRefresh t) :=
  h ▸ run_of_wf (c := .descriptorReadReturn r status descs) (decide_eq_true hr)

/-- A ring that has had its turn: it fetches from a later count. -/
def turnTaken (s : State) (r n : Nat) : State := { s with rrLast := r }.modRing r fun g => { g with next := countNext g.next n }

section
variable (s : State) (r n : Nat)

theorem ring_turnTaken : (turnTaken s r n).ring r = { s.ring r with next := countNext (s.ring r).next n } := by
  rw [turnTaken, State.ring_modRing]; rfl
theorem next_turnTaken : ((turnTaken s r n).ring r).next = ((s.ring r).next + n) % 2 ^ 32 := congrArg RingSt.next (ring_turnTaken ..)
theorem rd_turnTaken {f : Fld} (h : f.off ≠ aRing r 0x20) : (turnTaken s r n).rd f = s.rd f := by rw [turnTaken, rd_modRing _ _ h]; rfl
theorem cap_turnTaken (b : Nat) : (turnTaken s r n).cap b = s.cap b := by rw [turnTaken, State.modRing, cap_putRing]; rfl
theorem busOk_turnTaken (a k : Nat) : busOk (turnTaken s r n) a k = busOk s a k := by simp only [busOk, cap_turnTaken]
theorem turnTaken_reqs : (turnTaken s r n).reqs = s.reqs := rfl
theorem turnTaken_nextTag : (turnTaken s r n).nextTag = s.nextTag := rfl
theorem turnTaken_reqWait : (turnTaken s r n).reqWait = s.reqWait := rfl
theorem turnTaken_link : (turnTaken s r n).link = s.link := rfl
theorem reqLimit_turnTaken : reqLimit (turnTaken s r n) = reqLimit s := by rw [reqLimit, cap_turnTaken, reqLimit]
theorem mayAsk_turnTaken : mayAsk (turnTaken s r n) = mayAsk s := by
  rw [mayAsk, tagFree, reqLimit_turnTaken, turnTaken_reqs, turnTaken_link, turnTaken_reqWait, mayAsk, tagFree]
theorem cplMs_turnTaken : cplMs (turnTaken s r n) = cplMs s := by rw [turnTaken, State.modRing, cplMs_putRing]; rfl

end

theorem min_sub_eq {a b n : Nat} (h : a + n ≤ b) : min n (b - a) = n := Nat.min_eq_left (Nat.le_sub_of_add_le' h)

theorem fetchRead_zero (s : State) (r c : Nat) : fetchRead s r c 0 = s := rfl

/-- The fetch of a ring whose turn it is: up to the ring's end, then from its start. -/
theorem descFetch_of_turn {s : State} {r : Nat} (hturn : nextTurn s = some r) (hon : engineOn s = true) (hmay : mayAsk s = true) {n : Nat}
    (hn : min (fetchable s r) (2 ^ s.rd (fRSize r) - (s.ring r).next % 2 ^ s.rd (fRSize r)) = n) :
    descFetch s = fetchRead (fetchRead (turnTaken s r (fetchable s r)) r (s.ring r).next n) r (countNext (s.ring r).next n) (fetchable s r - n) := by
  subst hn
  unfold descFetch turnTaken
  rw [hturn]
  exact if_neg (by simp [hon, hmay])

/-- Where the ring does not wrap within what it fetches, one request is put for all of it. -/
theorem descFetch_of_whole {s : State} {r : Nat} (hturn : nextTurn s = some r) (hon : engineOn s = true) (hmay : mayAsk s = true)
    (hwhole : (s.ring r).next % 2 ^ s.rd (fRSize r) + fetchable s r ≤ 2 ^ s.rd (fRSize r))
    (hbus : busOk s (s.rd (fDescBase r) * 4096 + 64 * ((s.ring r).next % 2 ^ s.rd (fRSize r))) (64 * fetchable s r) = true) :
    descFetch s = hostAsk (turnTaken s r (fetchable s r)) (.desc r (s.ring r).next (fetchable s r))
      (s.rd (fDescBase r) * 4096 + 64 * ((s.ring r).next % 2 ^ s.rd (fRSize r))) (64 * fetchable s r) := by
  have hbase : (turnTaken s r (fetchable s r)).rd (fDescBase r) = s.rd (fDescBase r) := rd_turnTaken _ _ _ (aRing_ne (by decide))
  have hsize : (turnTaken s r (fetchable s r)).rd (fRSize r) = s.rd (fRSize r) := rd_turnTaken _ _ _ (aRing_ne (by decide))
  rw [descFetch_of_turn hturn hon hmay (min_sub_eq hwhole), Nat.sub_self, fetchRead_zero, fetchRead, if_neg (fetchable_of_nextTurn hturn)]
  simp only [hbase, hsize, busOk_turnTaken, hbus, if_true]

/-- The descriptors of a returned read join the ring. -/
theorem descReturn_of_found {s : State} {r c n : Nat} (status : CplStatus) (descs : List (List Nat))
    (h : s.reqs.findSome? (fun q => match q.kind with | .desc r' c n => if r' = r then some (c, n) else none | _ => none) = some (c, n)) :
    descReturn s r status descs = addFetched (dropReq s fun q => match q.kind with | .desc r' _ _ => decide (r' = r) | _ => false) r
      ((List.range n).map fun i =>
        let k := (c + i) % 2 ^ 32
        let q := (List.range 8).map fun j => (descs.getD i []).getD j 0 % 2 ^ 64
        if status = .ok then ⟨k, q, if nbits (dq q 0) 63 32 = k then none else some 0x40⟩ else ⟨k, [], some 0x43⟩) := by
  unfold descReturn
  split
  case h_1 hnone => exact absurd (hnone.symm.trans h) (by simp)
  case h_2 c' n' hsome =>
    obtain ⟨rfl, rfl⟩ := Prod.mk.inj (Option.some.inj (hsome.symm.trans h))
    simp only [ite_not]
    rfl

/-- Settles O31: the fetch by the one read that it puts, the return by the descriptors that join the ring. -/
theorem descriptorsAreFetched : Obligations.DescriptorsAreFetched := by
  intro s r hr
  refine ⟨fun hturn hon hmay hwhole hbus => ⟨Nat.pos_of_ne_zero (fetchable_of_nextTurn hturn), fetchable_le s r, _,
    exec_descriptorFetch s, ?_⟩, fun c n descs status hfound => ?_⟩
  · rw [descFetch_of_whole hturn hon hmay hwhole hbus, hostAsk_of_mayAsk ((mayAsk_turnTaken ..).trans hmay), cplMs_turnTaken]
    refine ⟨voteRefresh_rrLast _, ?next, ?reqs, voteRefresh_nextTag _⟩
    case next => rw [voteRefresh_ring, ring_withReqs, next_turnTaken]
    case reqs => rw [voteRefresh_reqs, turnTaken_reqs, turnTaken_nextTag]
  · exact exec_descriptorReadReturn hr (descReturn_of_found status descs hfound)

end Sys2Proof.Machine

namespace Sys2Proof.Machine
open Sys2Proof

/-! ### What an error entry leaves of the registers (14 R268 to R273) -/

theorem le_aErrq (w o : Nat) : 0x700000 ≤ aErrq w o := by unfold aErrq; omega

section
variable {α : Type} {g : State → α}

/-- The registers that an entry is written into are those of its wharf die's queue. -/
theorem errWrite_keeps_of {s : State} {e : ErrIn} (hg : ∀ s o v, aErrq e.wharf 0 ≤ o → o < aErrq e.wharf 0x2000 → g (State.setReg s o v) = g s) :
    g (errWrite s e) = g s := by
  have hreg : ∀ s k v, k < 0x2000 → g (State.setReg s (aErrq e.wharf k) v) = g s := fun s k v hk =>
    hg s _ v (by unfold aErrq; omega) (by unfold aErrq; omega)
  have hslot : s.rd (fErrNext e.wharf) % 64 < 64 := Nat.mod_lt _ (by decide)
  have hentry : ∀ t q v, q < 8 → g (State.setReg t (aErrEntry e.wharf (s.rd (fErrNext e.wharf) % 64) q) v) = g t := fun t q v hq =>
    hreg t _ v (by omega)
  have hquads : ∀ t, g ((errQuads s e).foldl (fun t p => t.setReg (aErrEntry e.wharf (s.rd (fErrNext e.wharf) % 64) p.1) (BitVec.ofNat 64 p.2)) t) = g t := by
    refine fun t => List.foldlRecOn (motive := fun u => g u = g t) _ _ rfl fun u hu p hp => (hentry u _ _ ?_).trans hu
    have : p.1 ∈ [1, 2, 3, 4, 5, 6, 7] := List.mem_map_of_mem (f := Prod.fst) hp
    simp only [List.mem_cons, List.not_mem_nil, or_false] at this
    omega
  have hwr : ∀ t (f : Fld) v k, k < 0x2000 → f.off = aErrq e.wharf k → g (State.wr t f v) = g t := fun t f v k hk hf => by
    rw [State.wr, hf]; exact hreg _ _ _ hk
  have hinc : ∀ t (f : Fld) k, k < 0x2000 → f.off = aErrq e.wharf k → g (State.inc t f) = g t := fun t f k hk hf => hwr t f _ k hk hf
  unfold errWrite
  refine (hwr _ _ _ 8 (by decide) rfl).trans ((hentry _ _ _ (by decide)).trans ((hquads _).trans ?_))
  split
  · refine (hwr _ _ _ 8 (by decide) rfl).trans ?_
    split
    · exact hinc _ _ 8 (by decide) rfl
    · exact hinc _ _ 8 (by decide) rfl
  · rfl

theorem flashPut_keeps_of (hreg : ∀ s v, g (State.setReg s 0xA00200 v) = g s) (hlog : ∀ s v w, g { s with failBuf := v, back := w } = g s)
    (s : State) (contained : Bool) (r : FlashRec) : g (flashPut s contained r) = g s := by
  have hinc : ∀ t, g (State.inc t fLogDropped) = g t := fun t => hreg ..
  simp only [flashPut, apply_ite g, hinc, hlog, ite_self]

theorem msixRaise_keeps_of (hpend : ∀ s v, g { s with msixPend := v } = g s) (hposted : ∀ s v, g { s with posted := v } = g s)
    (hlink : ∀ s v, g { s with link := v } = g s) (s : State) (vec : Nat) : g (msixRaise s vec) = g s := by
  simp only [msixRaise, linkPost, apply_ite g, hpend, hposted, hlink, ite_self]

end

theorem rd_msixRaise (s : State) (vec : Nat) (f : Fld) : (msixRaise s vec).rd f = s.rd f :=
  msixRaise_keeps_of (g := fun t => t.rd f) (fun _ _ => rfl) (fun _ _ => rfl) (fun _ _ => rfl) s vec

/-- A contained entry takes the next number of its queue. -/
theorem rd_errNext_errRaise {s : State} {e : ErrIn} (hf : s.isFatal = false) (hc : e.cls = 1) :
    (errRaise s e).rd (fErrNext e.wharf) = (s.rd (fErrNext e.wharf) + 1) % 2 ^ 32 := by
  have hwrite : (errWrite s e).rd (fErrNext e.wharf) = (s.rd (fErrNext e.wharf) + 1) % 2 ^ 32 := by
    unfold errWrite
    exact State.rd_wr_self _ _ _ (by simp [fErrNext]) (by simp [fErrNext])
  have hflash : ∀ t c r, (flashPut t c r).rd (fErrNext e.wharf) = t.rd (fErrNext e.wharf) :=
    flashPut_keeps_of (g := fun t => t.rd (fErrNext e.wharf)) (fun t v => rd_setReg_ne t v (by simp only [fErrNext, aErrq]; omega))
      fun _ _ _ => rfl
  have hraise : errRaise s e = errSevere s e := if_neg (by simp [hc])
  rw [hraise, errSevere]
  simp only [hf, hc, Bool.false_eq_true, if_false, OfNat.one_ne_ofNat]
  split
  · rw [rd_msixRaise, hflash, hwrite]
  · rw [hflash, hwrite]

/-- After a fatal error an entry raises no vector, and the error stays the fatal one. -/
theorem errRaise_of_fatal {s : State} {e : ErrIn} (hf : s.isFatal = true) {α : Type} {g : State → α}
    (hreg : ∀ s o v, 0x700000 ≤ o → o ≠ 0x710000 → g (State.setReg s o v) = g s)
    (hlog : ∀ s v w, g { s with failBuf := v, back := w } = g s) (hw : e.wharf < 8) : g (errRaise s e) = g s := by
  have hraise : errRaise s e = errSevere s e := if_neg (by simp [hf])
  rw [hraise, errSevere]
  simp only [hf, if_true]
  rw [flashPut_keeps_of (fun t v => hreg t _ v (by decide) (by decide)) hlog]
  exact errWrite_keeps_of fun t o v hlo hhi => hreg t o v ((le_aErrq ..).trans hlo) (by unfold aErrq at hhi; dsimp only at hhi; omega)

/-! ### A ring's entries, and its halt (03 R56, R58; 14 R274) -/

theorem during_program_cls (e : ErrIn) (under : Option (List Nat)) : (e.during false under).cls = e.cls := by cases under <;> rfl
theorem during_program_wharf (e : ErrIn) (under : Option (List Nat)) : (e.during false under).wharf = e.wharf := by cases under <;> rfl

theorem ring_errRaise (s : State) (e : ErrIn) (r : Nat) : (errRaise s e).ring r = s.ring r :=
  errRaise_keeps (g := fun t => t.ring r) ⟨fun _ _ _ => rfl, fun _ _ => rfl, fun _ _ => rfl, fun _ _ => rfl, fun _ _ _ => rfl, fun _ _ _ => rfl⟩ s e

/-- An entry leaves a ring's record but for the entry being handled. -/
theorem ring_ringErrOne (s : State) (r : Nat) (hw : Bool) (e : ErrIn) :
    (ringErrOne s r hw e).ring r = { s.ring r with haltIx := some ((s.ring r).haltIx.getD (errIndex s e.wharf)) } := by
  rw [ringErrOne, State.ring_modRing, ring_errRaise]

theorem rd_errNext_ringErrOne {s : State} {r : Nat} (hr : r < 1024) {e : ErrIn} (hf : s.isFatal = false) (hc : e.cls = 1) (hw : e.wharf = 0) :
    (ringErrOne s r false e).rd (fErrNext 0) = (s.rd (fErrNext 0) + 1) % 2 ^ 32 := by
  have hw' : (e.during false (ringHandled s r)).wharf = 0 := (during_program_wharf ..).trans hw
  rw [ringErrOne, rd_modRing _ _ (by simp only [fErrNext, aErrq, aRing]; omega)]
  simpa only [hw'] using rd_errNext_errRaise (e := e.during false (ringHandled s r)) hf ((during_program_cls ..).trans hc)

/-- What the entry of one descriptor leaves, the entries of all that are judged leave. -/
theorem ringFlush_keeps {α : Type} {g : State → α} {r : Nat} (hentry : ∀ t e, e.wharf = 0 → g (ringErrOne t r false e) = g t)
    (hwork : ∀ t c w, g (setWork t r c w) = g t) (s : State) : g (ringFlush s r) = g s := by
  refine foldl_keeps (fun t d => ?_) _ _
  split
  · split
    · rfl
    · exact (hwork ..).trans (hentry _ _ rfl)
  · rfl

/-- Where every descriptor judged to halt its ring has its entry, none is made. -/
theorem ringFlush_of_recorded {s : State} {r : Nat} (h : ∀ d ∈ (s.ring r).out, ∀ st res, d.work = .judged st res none → st < 0x40) :
    ringFlush s r = s := by
  refine List.foldlRecOn (motive := fun t => t = s) _ _ rfl fun t ht d hd => ?_
  subst ht
  split
  case h_1 st res hw => exact if_pos (h d hd st res hw)
  case h_2 => rfl

/-- What no entry of a ring changes in its record. -/
def RingSt.standing (g : RingSt) : Nat × List Fetched × Nat := (g.st, g.waiting, g.genSeen)

theorem standing_ringFlush (s : State) (r : Nat) : ((ringFlush s r).ring r).standing = (s.ring r).standing :=
  ringFlush_keeps (g := fun t => (t.ring r).standing) (fun t e _ => by rw [ring_ringErrOne]; rfl)
    (fun t c w => by rw [setWork, State.ring_modRing]; rfl) s

theorem standing_ringEntry (s : State) (r c status addr : Nat) (q4 : List Nat) :
    ((ringEntry s r c status addr q4).ring r).standing = (s.ring r).standing := by
  rw [← standing_ringFlush s r, ringEntry, ringErr, ring_ringErrOne]
  rfl

theorem isFatal_of_setReg (s : State) (o : Nat) (v : Word64) (h : o ≠ 0x710000) : (s.setReg o v).isFatal = s.isFatal := by
  unfold State.isFatal State.flag
  rw [rd_setReg_ne s v (f := fFatal) (Ne.symm h)]

/-- After a fatal error: that it is, what has been posted, and the ring's last status. -/
def fatalView (r : Nat) (s : State) : Bool × List Posted × Nat := (s.isFatal, s.posted, s.rd (fLastStatus r))

theorem fatalView_putRing {r : Nat} (hr : r < 1024) (s : State) (x : RingSt) : fatalView r (s.putRing r x) = fatalView r s := by
  have hfatal : (s.putRing r x).isFatal = s.isFatal := by
    unfold State.isFatal State.flag
    rw [rd_putRing s x (by simp only [fFatal, aRing]; omega)]
  have hstatus : (s.putRing r x).rd (fLastStatus r) = s.rd (fLastStatus r) :=
    rd_wrAll_apart _ (by simp [Fld.apart, fLastStatus, fOutstanding, fRState]) _
  have hposted : (s.putRing r x).posted = s.posted := rfl
  rw [fatalView, hfatal, hposted, hstatus, fatalView]

theorem fatalView_modRing {r : Nat} (hr : r < 1024) (s : State) (u : RingSt → RingSt) : fatalView r (s.modRing r u) = fatalView r s :=
  fatalView_putRing hr s _

theorem fatalView_setReg {r : Nat} (hr : r < 1024) (s : State) {o : Nat} (v : Word64) (ho : 0x700000 ≤ o) (h : o ≠ 0x710000) :
    fatalView r (s.setReg o v) = fatalView r s := by
  have hstatus : (s.setReg o v).rd (fLastStatus r) = s.rd (fLastStatus r) := rd_setReg_ne s v (by simp only [fLastStatus, aRing]; omega)
  have hposted : (s.setReg o v).posted = s.posted := rfl
  rw [fatalView, isFatal_of_setReg s o v h, hposted, hstatus, fatalView]

theorem fatalView_ringErrOne {r : Nat} (hr : r < 1024) {s : State} (hf : s.isFatal = true) {e : ErrIn} (hw : e.wharf = 0) :
    fatalView r (ringErrOne s r false e) = fatalView r s := by
  have hwharf : (e.during false (ringHandled s r)).wharf < 8 := by rw [during_program_wharf, hw]; decide
  have hraise : fatalView r (errRaise s (e.during false (ringHandled s r))) = fatalView r s :=
    errRaise_of_fatal hf (g := fatalView r) (fun t _ v => fatalView_setReg hr t v) (fun _ _ _ => rfl) hwharf
  rw [ringErrOne, fatalView_modRing hr, hraise]

theorem fatalView_ringFlush {r : Nat} (hr : r < 1024) {s : State} (hf : s.isFatal = true) : fatalView r (ringFlush s r) = fatalView r s := by
  refine List.foldlRecOn (motive := fun t => fatalView r t = fatalView r s) _ _ rfl fun t ht d _ => ?_
  have htf : t.isFatal = true := (congrArg Prod.fst ht).trans hf
  split
  · split
    · exact ht
    · rw [setWork, fatalView_modRing hr, fatalView_ringErrOne hr htf rfl, ht]
  · exact ht

/-- After a fatal error a ring's entry posts nothing, and leaves the ring's last status. -/
theorem fatalView_ringEntry {r : Nat} (hr : r < 1024) {s : State} (hf : s.isFatal = true) (c status addr : Nat) (q4 : List Nat) :
    fatalView r (ringEntry s r c status addr q4) = fatalView r s := by
  have hflush := fatalView_ringFlush hr hf
  exact (fatalView_ringErrOne hr ((congrArg Prod.fst hflush).trans hf) rfl).trans hflush

/-! ### A ring's vector and its stop -/

/-- A ring's vector changes its record by the holdoff window alone. -/
theorem ring_ringIrq (s : State) (r : Nat) (halting : Bool) :
    ∃ o h, (ringIrq s r halting).ring r = { s.ring r with irqOpen := o, irqHeld := h } := by
  simp only [ringIrq]
  split
  · exact ⟨_, _, State.ring_putRing ..⟩
  · exact ⟨_, _, State.ring_putRing ..⟩

/-- A ring's vector leaves every field of the registers but those that RING_STATE shows of its record. -/
theorem rd_ringIrq {r : Nat} {f : Fld} (hput : ∀ (t : State) x, (t.putRing r x).rd f = t.rd f) (s : State) (halting : Bool) :
    (ringIrq s r halting).rd f = s.rd f := by
  simp only [ringIrq]
  split
  · exact hput ..
  · exact (hput ..).trans (rd_msixRaise ..)

theorem putRing_rd_lastStatus (s : State) (r : Nat) (g : RingSt) : (s.putRing r g).rd (fLastStatus r) = s.rd (fLastStatus r) :=
  rd_wrAll_apart _ (by simp [Fld.apart, fLastStatus, fOutstanding, fRState]) _

theorem rd_dropReqs (s : State) (p : ReqFor → Bool) (f : Fld) : (dropReqs s p).rd f = s.rd f :=
  dropReqs_keeps (g := fun t => t.rd f) (fun _ _ _ _ => rfl) s p

/-- The record of a ring that has stopped at a count. -/
theorem ring_ringStop (s : State) (r k : Nat) (kind : HaltKind) (status : Option Nat) : (ringStop s r k kind status).ring r =
    { s.ring r with st := 2, halt := kind, next := k, waiting := [], halting := [],
                    gen := if kind = .firstRead then none else some (s.ring r).genSeen } := by
  unfold ringStop
  rw [State.ring_wrAll, State.ring_putRing]

theorem rd_head_ringStop (s : State) (r k : Nat) (kind : HaltKind) (status : Nat) : (ringStop s r k kind (some status)).rd (fHead r) = k % 2 ^ 32 := by
  have hlast : ∀ t v, (State.wr t (fLastStatus r) v).rd (fHead r) = t.rd (fHead r) := fun t v => rd_wr_apart t v (by simp [Fld.apart, fLastStatus, fHead])
  simp only [ringStop, State.wrAll, hlast]
  exact State.rd_wr_self _ _ _ (by simp [fHead]) (by simp [fHead])

theorem rd_lastStatus_ringStop (s : State) (r k : Nat) (kind : HaltKind) (status : Nat) :
    (ringStop s r k kind (some status)).rd (fLastStatus r) = status % 2 ^ 8 :=
  State.rd_wr_self _ _ _ (by simp [fLastStatus]) (by simp [fLastStatus])

theorem rd_ringStop {r : Nat} {f : Fld} (hf : f.off ≠ aRing r 0x20) (s : State) (k : Nat) (kind : HaltKind) (status : Nat) :
    (ringStop s r k kind (some status)).rd f = s.rd f :=
  (State.rd_wr_ne _ _ _ _ hf).trans ((State.rd_wr_ne _ _ _ _ hf).trans ((rd_putRing _ _ hf).trans (rd_dropReqs ..)))

end Sys2Proof.Machine

namespace Sys2Proof.Machine
open Sys2Proof

/-! ### Doorbells (03 R39, R46, R59; 14 R273) -/

theorem dropReq_keeps {α : Type} {g : State → α} (hg : ∀ s a n w, g { s with reqs := a, nextTag := n, reqWait := w } = g s) (s : State)
    (p : HostReq → Bool) : g (dropReq s p) = g s := by
  unfold dropReq reqPump
  rw [reqIssue_keeps hg]
  exact hg ..

/-- Would a doorbell record of this resume_gen let a halted ring run again? -/
def doorbellResumes (g : RingSt) (gen : Nat) : Bool :=
  match g.st, g.halt, g.gen with
  | 2, HaltKind.resume, some x => decide (x ≠ gen)
  | 2, HaltKind.firstRead, _ => true
  | _, _, _ => false

/-- Is a doorbell record faulty? -/
def DoorbellBad (s : State) (r word : Nat) : Prop :=
  nbits word 47 32 ≠ 0 ∨ 2 ^ s.rd (fRSize r) < countFrom (s.rd (fHead r)) (word % 2 ^ 32)

section
variable {s : State} {r word : Nat} (hword : word < 2 ^ 64)
include hword

theorem resumeGen_eq : nbits word 63 48 = word / 2 ^ 48 := by rw [nbits_eq]; omega
omit hword in
theorem doorbellTail_eq : nbits word 31 0 = word % 2 ^ 32 := by rw [nbits_eq]; omega

theorem doorbellGot_of_good (hbad : ¬ DoorbellBad s r word) (hst : (s.ring r).st ≠ 0) : doorbellGot s r word =
    if (s.ring r).st = 1 then s.putRing r { s.ring r with tail := word % 2 ^ 32, genSeen := word / 2 ^ 48,
                                                           gen := some ((s.ring r).gen.getD (word / 2 ^ 48)) }
    else if doorbellResumes (s.ring r) (word / 2 ^ 48) then s.putRing r { s.ring r with
      tail := word % 2 ^ 32, genSeen := word / 2 ^ 48, gen := some (word / 2 ^ 48), st := 1, next := s.rd (fHead r), haltIx := none }
    else s.putRing r { s.ring r with tail := word % 2 ^ 32 } := by
  unfold doorbellGot
  rw [resumeGen_eq hword, doorbellTail_eq]
  refine (if_neg hst).trans ((if_neg hbad).trans ?_)
  exact rfl

theorem doorbellGot_of_bad (hbad : DoorbellBad s r word) (hst : (s.ring r).st ≠ 0) : doorbellGot s r word =
    if (s.ring r).st = 1 ∨ doorbellResumes (s.ring r) (word / 2 ^ 48) = true
      then doorbellHalt (s.putRing r { s.ring r with genSeen := word / 2 ^ 48 }) r 0x4C .resume else s := by
  unfold doorbellGot
  rw [resumeGen_eq hword, doorbellTail_eq]
  refine (if_neg hst).trans ((if_pos hbad).trans ?_)
  exact rfl

end

theorem doorbellResumes_of_halted {g : RingSt} (hst : g.st = 2) (hhalt : g.halt = .resume) {x : Nat} (hgen : g.gen = some x) (gen : Nat) :
    doorbellResumes g gen = decide (x ≠ gen) := by simp only [doorbellResumes, hst, hhalt, hgen]

/-- A ring whose halt a faulty record begins: one that runs, or would run again. -/
def DoorbellRuns (g : RingSt) (gen : Nat) : Prop := g.st = 1 ∨ g.st = 2 ∧ g.halt = .resume ∧ ∃ x, g.gen = some x ∧ x ≠ gen

theorem doorbellRuns_ne_zero {g : RingSt} {gen : Nat} (h : DoorbellRuns g gen) : g.st ≠ 0 := by
  rcases h with h | ⟨h, -⟩ <;> rw [h] <;> decide

theorem doorbellRuns_cases {g : RingSt} {gen : Nat} (h : DoorbellRuns g gen) : g.st = 1 ∨ doorbellResumes g gen = true := by
  refine h.imp_right fun ⟨hst, hhalt, x, hgen, hne⟩ => ?_
  rw [doorbellResumes_of_halted hst hhalt hgen]
  exact decide_eq_true hne

/-! ### The halt by a faulty record -/

theorem rd_doorbellHalt {r : Nat} (f : Fld) (hput : ∀ (t : State) x, (t.putRing r x).rd f = t.rd f) {s : State} (hf : s.isFatal = false)
    (status : Nat) (kind : HaltKind) : (doorbellHalt s r status kind).rd f =
      (ringStop (ringEntry s r (s.rd (fHead r)) status 0 []) r (s.rd (fHead r)) kind (some status)).rd f := by
  rw [doorbellHalt]
  simp only [hf, Bool.false_eq_true, if_false]
  split
  · exact rd_ringIrq hput _ _
  · rfl

theorem rd_head_doorbellHalt {s : State} (hf : s.isFatal = false) (r status : Nat) (kind : HaltKind) :
    (doorbellHalt s r status kind).rd (fHead r) = s.rd (fHead r) := by
  rw [rd_doorbellHalt _ (fun t x => putRing_rd_head t r x) hf, rd_head_ringStop]
  exact Nat.mod_eq_of_lt (s.rd_lt (fHead r))

theorem rd_lastStatus_doorbellHalt {s : State} (hf : s.isFatal = false) (r status : Nat) (kind : HaltKind) :
    (doorbellHalt s r status kind).rd (fLastStatus r) = status % 2 ^ 8 := by
  rw [rd_doorbellHalt _ (fun t x => putRing_rd_lastStatus t r x) hf, rd_lastStatus_ringStop]

/-- One entry stands for the halt, where no other was due. -/
theorem rd_errNext_doorbellHalt {s : State} (hf : s.isFatal = false) {r : Nat} (hr : r < 1024)
    (h : ∀ d ∈ (s.ring r).out, ∀ st res, d.work = .judged st res none → st < 0x40) (status : Nat) (kind : HaltKind) :
    (doorbellHalt s r status kind).rd (fErrNext 0) = (s.rd (fErrNext 0) + 1) % 2 ^ 32 := by
  have hoff : (fErrNext 0).off ≠ aRing r 0x20 := by simp only [fErrNext, aErrq, aRing]; omega
  rw [rd_doorbellHalt _ (fun t x => rd_putRing t x hoff) hf, rd_ringStop hoff, ringEntry, ringErr, ringFlush_of_recorded h]
  exact rd_errNext_ringErrOne hr hf rfl rfl

/-- The record of a ring that a faulty doorbell record has halted. -/
structure HaltedBy (g : RingSt) (gen : Nat) : Prop where
  st : g.st = 2
  halt : g.halt = .resume
  gen : g.gen = some gen
  waiting : g.waiting = []

theorem ring_doorbellHalt {s : State} (hf : s.isFatal = false) (r status : Nat) :
    HaltedBy ((doorbellHalt s r status .resume).ring r) (s.ring r).genSeen := by
  have hseen : ((ringEntry s r (s.rd (fHead r)) status 0 []).ring r).genSeen = (s.ring r).genSeen :=
    congrArg (fun x : Nat × List Fetched × Nat => x.2.2) (standing_ringEntry ..)
  have hstop : HaltedBy ((ringStop (ringEntry s r (s.rd (fHead r)) status 0 []) r (s.rd (fHead r)) .resume (some status)).ring r) (s.ring r).genSeen := by
    rw [ring_ringStop]
    exact ⟨rfl, rfl, congrArg some hseen, rfl⟩
  rw [doorbellHalt]
  simp only [hf, Bool.false_eq_true, if_false]
  split
  · obtain ⟨o, h, hirq⟩ := ring_ringIrq (ringStop (ringEntry s r (s.rd (fHead r)) status 0 []) r (s.rd (fHead r)) .resume (some status)) r true
    rw [hirq]
    exact ⟨hstop.st, hstop.halt, hstop.gen, hstop.waiting⟩
  · exact hstop

/-- After a fatal error only the entry follows. -/
theorem doorbellHalt_of_fatal {s : State} (hf : s.isFatal = true) (r status : Nat) (kind : HaltKind) :
    doorbellHalt s r status kind = ringEntry s r (s.rd (fHead r)) status 0 [] := if_pos hf

theorem isFatal_putRing {r : Nat} (hr : r < 1024) (s : State) (g : RingSt) : (s.putRing r g).isFatal = s.isFatal :=
  congrArg Prod.fst (fatalView_putRing hr s g)

theorem exec_doorbellReadReturn {s : State} {r : Nat} (hr : r < 1024) (hasked : s.reqs.any (fun q => decide (q.kind = .doorbell r)) = true) (word : Nat) :
    exec (.doorbellReadReturn r .ok word) s = .next (voteRefresh (doorbellGot (dropReq s fun q => decide (q.kind = .doorbell r)) r word)) := by
  have hreturn : doorbellReturn s r .ok word = doorbellGot (dropReq s fun q => decide (q.kind = .doorbell r)) r word := by
    rw [doorbellReturn, hasked]
    rfl
  rw [← hreturn]
  exact run_of_wf (c := .doorbellReadReturn r .ok word) (decide_eq_true hr)

/-- Settles O30: the record by whether it is faulty, the ring by its state. -/
theorem doorbellMovesTail : Obligations.DoorbellMovesTail := by
  intro s r word hr hasked hword s1 g tail gen far result
  have hexec : ∀ t, doorbellGot s1 r word = t → exec (.doorbellReadReturn r .ok word) s = .next (voteRefresh t) := fun t ht =>
    ht ▸ exec_doorbellReadReturn hr hasked word
  have hring : s1.ring r = g := dropReq_keeps (g := fun t => t.ring r) (fun _ _ _ _ => rfl) s _
  have hrd : ∀ f, s1.rd f = s.rd f := fun f => dropReq_keeps (g := fun t => t.rd f) (fun _ _ _ _ => rfl) s _
  have hfatal : s1.isFatal = s.isFatal := congrArg (fun n => decide (n = 1)) (hrd fFatal)
  have hposted : s1.posted = s.posted := dropReq_keeps (g := State.posted) (fun _ _ _ _ => rfl) s _
  have hbad : DoorbellBad s1 r word ↔ nbits word 47 32 ≠ 0 ∨ far := by rw [DoorbellBad, hrd, hrd]
  have hgood : nbits word 47 32 = 0 → ¬ far → ¬ DoorbellBad s1 r word := fun hhigh hnear h => (hbad.1 h).elim (fun h => h hhigh) hnear
  refine ⟨fun hst => ?out, fun hhigh hnear => ⟨fun hst => ?tail, fun x hst hhalt hgen hne => ?resumed, fun hst hhalt hgen => ?stays⟩,
    fun hfaulty => ⟨fun hruns => ?halts, fun hst hhalt hgen => ?ignored⟩⟩
  case out => exact hexec _ (if_pos (hring ▸ hst))
  case tail =>
    refine hexec _ ?_
    rw [doorbellGot_of_good hword (hgood hhigh hnear) (by rw [hring, hst]; decide), hring, if_pos hst]
  case resumed =>
    refine hexec _ ?_
    rw [doorbellGot_of_good hword (hgood hhigh hnear) (by rw [hring, hst]; decide), hring, if_neg (by rw [hst]; decide),
      doorbellResumes_of_halted hst hhalt hgen, if_pos (decide_eq_true hne), hrd]
  case stays =>
    refine hexec _ ?_
    rw [doorbellGot_of_good hword (hgood hhigh hnear) (by rw [hring, hst]; decide), hring, if_neg (by rw [hst]; decide),
      doorbellResumes_of_halted hst hhalt hgen, if_neg (by simp [gen])]
  case ignored =>
    refine hexec _ ?_
    rw [doorbellGot_of_bad hword (hbad.2 hfaulty) (by rw [hring, hst]; decide), hring, doorbellResumes_of_halted hst hhalt hgen,
      if_neg (by simp [hst, gen])]
  case halts =>
    have hgot : doorbellGot s1 r word = doorbellHalt (s1.putRing r { g with genSeen := gen }) r 0x4C .resume := by
      rw [doorbellGot_of_bad hword (hbad.2 hfaulty) (hring ▸ doorbellRuns_ne_zero hruns), hring]
      exact if_pos (doorbellRuns_cases hruns)
    have hu : (s1.putRing r { g with genSeen := gen }).isFatal = s.isFatal := (isFatal_putRing hr _ _).trans hfatal
    have hur : (s1.putRing r { g with genSeen := gen }).ring r = { g with genSeen := gen } := State.ring_putRing ..
    refine ⟨fun hnf => ⟨_, hexec _ hgot, ?_⟩, fun hff => ⟨_, hexec _ hgot, ?_⟩⟩
    · have hnf' := hu.trans hnf
      obtain ⟨hst, hhalt, hgen, hwaiting⟩ := ring_doorbellHalt hnf' r 0x4C
      have hlow : (fLastStatus r).off < 0x800000 ∧ (fHead r).off < 0x800000 ∧ (fErrNext 0).off < 0x800000 := by
        simp only [fLastStatus, fHead, fErrNext, aRing, aErrq]; omega
      rw [voteRefresh_ring, voteRefresh_rd hlow.1, voteRefresh_rd hlow.2.1, voteRefresh_rd hlow.2.2, rd_lastStatus_doorbellHalt hnf',
        rd_head_doorbellHalt hnf', putRing_rd_head, hrd]
      refine ⟨hst, hhalt, hgen.trans (by rw [hur]), rfl, rfl, hwaiting, fun hrecorded => ?_⟩
      rw [rd_errNext_doorbellHalt hnf' hr (by rw [hur]; exact hrecorded), rd_putRing _ _ (by simp only [fErrNext, aErrq, aRing]; omega), hrd]
    · have hff' := hu.trans hff
      have hlow : (fLastStatus r).off < 0x800000 := by simp only [fLastStatus, aRing]; omega
      have hview := fatalView_ringEntry hr hff' ((s1.putRing r { g with genSeen := gen }).rd (fHead r)) 0x4C 0 []
      have hstanding := standing_ringEntry (s1.putRing r { g with genSeen := gen }) r ((s1.putRing r { g with genSeen := gen }).rd (fHead r)) 0x4C 0 []
      rw [fatalView_putRing hr] at hview
      rw [hur] at hstanding
      simp only [fatalView, RingSt.standing, Prod.mk.injEq, hposted, hrd] at hview hstanding
      rw [voteRefresh_ring, voteRefresh_rd hlow, voteRefresh_posted, doorbellHalt_of_fatal hff']
      exact ⟨hstanding.1, hstanding.2.1, hview.2.2, hview.2.1⟩

end Sys2Proof.Machine

namespace Sys2Proof.Machine
open Sys2Proof

/-! ### Completion records and head (03 R50, R51, R53) -/

/-- What one dispatch keeps, judging what waits keeps. -/
theorem ringJudge_preserves {P : State → Prop} {r : Nat} (hstart : ∀ t f w, ringNext t r = some f → P t → P (ringStart t r f w)) :
    (n : Nat) → {s : State} → P s → P (ringJudge n s r)
  | 0, _, h => h
  | n + 1, s, h => by
    unfold ringJudge
    split
    case h_1 f hf =>
      split
      · exact ringJudge_preserves hstart n (hstart _ _ _ hf h)
      · exact ringJudge_preserves hstart n (hstart _ _ _ hf h)
      · exact h
    case h_2 => exact h

/-- No descriptor of a count is outstanding, nor waits for its dispatch. -/
def Absent (c : Nat) (g : RingSt) : Prop := (∀ x ∈ g.out, x.count ≠ c) ∧ ∀ f ∈ g.waiting, f.count ≠ c

theorem ring_ringStart (s : State) (r : Nat) (f : Fetched) (w : Work) : (ringStart s r f w).ring r =
    { s.ring r with waiting := (s.ring r).waiting.drop 1, out := (s.ring r).out ++ [⟨f.count, f.q, s.mile, w⟩] } := by
  rw [ringStart, State.ring_modRing]

theorem absent_ringStart {s : State} {r c : Nat} {f : Fetched} (hf : ringNext s r = some f) (h : Absent c (s.ring r)) (w : Work) :
    Absent c ((ringStart s r f w).ring r) := by
  obtain ⟨l, hl⟩ := waiting_of_ringNext hf
  rw [ring_ringStart, hl]
  refine ⟨fun x hx => ?_, fun g hg => h.2 g (hl ▸ List.mem_cons_of_mem _ hg)⟩
  rcases List.mem_append.1 hx with hx | hx
  · exact h.1 x hx
  · rw [List.mem_singleton.1 hx]
    exact h.2 f (hl ▸ List.mem_cons_self)

/-- A ring after a completion: what has been posted, its head, the counts complete above it, and no descriptor of a count. -/
structure Settled (s : State) (r c head : Nat) (after : List Nat) (posted : List Posted) : Prop where
  posted : s.posted = posted
  absent : Absent c (s.ring r)
  head : s.rd (fHead r) = head
  after : (s.ring r).after = after

theorem posted_modRing (s : State) (r : Nat) (u : RingSt → RingSt) : (s.modRing r u).posted = s.posted := rfl
theorem rd_head_modRing (s : State) (r : Nat) (u : RingSt → RingSt) : (s.modRing r u).rd (fHead r) = s.rd (fHead r) := putRing_rd_head ..

theorem settled_ringStart {s : State} {r c head : Nat} {after : List Nat} {posted : List Posted} {f : Fetched} (hf : ringNext s r = some f)
    (h : Settled s r c head after posted) (w : Work) : Settled (ringStart s r f w) r c head after posted where
  posted := by rw [ringStart, posted_modRing]; exact h.posted
  absent := absent_ringStart hf h.absent w
  head := by rw [ringStart, rd_head_modRing]; exact h.head
  after := by rw [ring_ringStart]; exact h.after

theorem settled_ringJudge {s : State} {r c head : Nat} {after : List Nat} {posted : List Posted} (n : Nat) (h : Settled s r c head after posted) :
    Settled (ringJudge n s r) r c head after posted :=
  ringJudge_preserves (P := fun t => Settled t r c head after posted) (fun _ _ w hf ht => settled_ringStart hf ht w) n h

/-- Where no descriptor halts, nothing is settled. -/
theorem ringSettle_of_none {s : State} {r : Nat} (h : (s.ring r).halting = []) : ringSettle s r = s := by
  rw [ringSettle, h]
  rfl

/-- Bytes that end before the next cut are one write. -/
theorem cutAt_of_fits {n a f : Nat} {bs : List Byte} (h : bs.length ≤ n - a % n) (hne : bs ≠ []) : cutAt n (f + 2) a bs = [⟨a, bs⟩] := by
  have hempty : bs.isEmpty = false := by simpa using hne
  simp [cutAt, hempty, List.take_of_length_le h, List.drop_of_length_le h]

theorem length_leBytes (n v : Nat) : (leBytes n v).length = n := by
  induction n generalizing v with
  | zero => rfl
  | succ n ih => rw [leBytes, List.length_cons, ih]

/-- A completion record is one posted write, as its slot is aligned (02 R25; 03 R51). -/
theorem posted_cplWrite {s : State} (hl : s.link.stalled = false) (r c status opcode tag result : Nat) :
    (cplWrite s r c status opcode tag result).posted = s.posted ++ [⟨s.rd (fCplBase r) * 4096 + 32 * (c % 2 ^ s.rd (fRSize r)),
      cplBytes c (s.rd (fRSize r)) status opcode tag s.mile result⟩] := by
  have hlen : (cplBytes c (s.rd (fRSize r)) status opcode tag s.mile result).length = 32 := by
    simp only [cplBytes, List.length_append, length_leBytes]
  have hne : cplBytes c (s.rd (fRSize r)) status opcode tag s.mile result ≠ [] := List.ne_nil_of_length_pos (by omega)
  have hfits : 32 ≤ maxPayload s - (s.rd (fCplBase r) * 4096 + 32 * (c % 2 ^ s.rd (fRSize r))) % maxPayload s := by
    unfold maxPayload
    split <;> omega
  rw [cplWrite, hostPost, hlen, cutAt_of_fits (by rw [hlen]; exact hfits) hne, linkPost, if_neg (by simp [hl])]

theorem ring_cplWrite (s : State) (r c status opcode tag result : Nat) : (cplWrite s r c status opcode tag result).ring r = s.ring r := by
  unfold cplWrite hostPost linkPost
  split <;> rfl

/-- With nothing complete behind it a count moves head by one where it is head, and else waits behind it. -/
theorem headPast_single (h c : Nat) : headPast 1 h [c] = if h = c then (countNext h 1, []) else (h, [c]) := by
  by_cases hc : h = c
  · subst hc; simp [headPast]
  · simp [headPast, hc]

section
variable {s : State} {r : Nat} {d : Dispatched}

/-- The ring's record and head once a descriptor is complete, before anything is settled or judged. -/
def completed (s : State) (r : Nat) (d : Dispatched) (status result : Nat) : State :=
  ((cplWrite { s with barges := s.barges.filter fun b => !(b.complete && decide (b.origin = .ring r d.count)) } r d.count status
      (dOpcode d.q) (dq d.q 1) result).putRing r { s.ring r with
        out := (s.ring r).out.filter (fun x => decide (x.count ≠ d.count)), after := (headPast 1 (s.rd (fHead r)) [d.count]).2 }).wr (fHead r)
    (headPast 1 (s.rd (fHead r)) [d.count]).1

theorem ring_wr (s : State) (f : Fld) (v r : Nat) : (s.wr f v).ring r = s.ring r := rfl

theorem ring_completed (s : State) (r : Nat) (d : Dispatched) (status result : Nat) : (completed s r d status result).ring r = { s.ring r with
    out := (s.ring r).out.filter (fun x => decide (x.count ≠ d.count)), after := (headPast 1 (s.rd (fHead r)) [d.count]).2 } := by
  rw [completed, ring_wr, State.ring_putRing]

theorem ringDone_eq (hirq : dIrq d.q = false) (hhalting : (s.ring r).halting = []) (hafter : (s.ring r).after = []) (status result : Nat) :
    ringDone s r d status result = ringJudge 64 (completed s r d status result) r := by
  have hring : (cplWrite { s with barges := s.barges.filter fun b => !(b.complete && decide (b.origin = .ring r d.count)) } r d.count status
      (dOpcode d.q) (dq d.q 1) result).ring r = s.ring r := ring_cplWrite ..
  have hsettle : ringSettle (completed s r d status result) r = completed s r d status result :=
    ringSettle_of_none (by rw [ring_completed]; exact hhalting)
  rw [← hsettle, ringDone, if_neg (by simp [hirq]), hring, hafter, completed]
  rfl

/-- A finished descriptor without an interrupt, where nothing halts and nothing is complete above head. -/
theorem settled_completed (hl : s.link.stalled = false) (hwaiting : ∀ f ∈ (s.ring r).waiting, f.count ≠ d.count)
    (status result : Nat) :
    Settled (completed s r d status result) r d.count (if s.rd (fHead r) = d.count then (d.count + 1) % 2 ^ 32 else s.rd (fHead r))
      (if s.rd (fHead r) = d.count then [] else [d.count])
      (s.posted ++ [⟨s.rd (fCplBase r) * 4096 + 32 * (d.count % 2 ^ s.rd (fRSize r)),
        cplBytes d.count (s.rd (fRSize r)) status (dOpcode d.q) (dq d.q 1) s.mile result⟩]) where
  posted := by
    have hput : ∀ (t : State) g f v, ((t.putRing r g).wr f v).posted = t.posted := fun _ _ _ _ => rfl
    rw [completed, hput]
    rw [posted_cplWrite (by exact hl)]
    rfl
  absent := by
    rw [ring_completed]
    exact ⟨fun x hx => of_decide_eq_true (List.mem_filter.1 hx).2, hwaiting⟩
  head := by
    rw [completed, State.rd_wr_self _ _ _ (by simp [fHead]) (by simp [fHead]), headPast_single]
    split
    case isTrue hhead => rw [hhead]; exact Nat.mod_mod _ _
    case isFalse => exact Nat.mod_eq_of_lt (s.rd_lt (fHead r))
  after := by
    rw [ring_completed, headPast_single]
    split <;> rfl

theorem descComplete_of_stalled (hl : s.link.stalled = true) (count : Nat) : descComplete s r count = s := by
  unfold descComplete
  split
  · rfl
  · exact if_pos (.inr hl)

/-- A judged descriptor that does not halt its ring is done. -/
theorem descComplete_of_judged (hf : s.isFatal = false) (hl : s.link.stalled = false) {count : Nat} (hout : outOf s r count = some d)
    {status result : Nat} {entry : Option Nat} (hwork : d.work = .judged status result entry) (hlow : status < 0x40) :
    descComplete s r count = ringDone s r d status result := by
  rw [descComplete, hout]
  refine (if_neg (by simp [hf, hl])).trans ?_
  rw [hwork]
  exact if_pos hlow

/-- A gate wait is done once its gate is reached, with the gate's value. -/
theorem descComplete_of_gateWait (hf : s.isFatal = false) (hl : s.link.stalled = false) {count : Nat} (hout : outOf s r count = some d)
    {ref target lim : Nat} (hwork : d.work = .gateWait ref target lim) :
    descComplete s r count = if ((s.gate (refTile ref) (refGate ref)) - BitVec.ofNat 32 target).msb = false
      then ringDone s r d 0 (s.gate (refTile ref) (refGate ref)).toNat else s := by
  have hreached : gateReached (s.gate (refTile ref) (refGate ref)) (BitVec.ofNat 32 target) = true ↔
      ((s.gate (refTile ref) (refGate ref)) - BitVec.ofNat 32 target).msb = false := by simp [gateReached]
  rw [descComplete, hout]
  refine (if_neg (by simp [hf, hl])).trans ?_
  rw [hwork]
  exact if_congr hreached rfl rfl

theorem exec_descriptorComplete {r : Nat} (hr : r < 1024) (count : Nat) (s : State) :
    exec (.descriptorComplete r count) s = .next (voteRefresh (descComplete s r count)) :=
  run_of_wf (c := .descriptorComplete r count) (by simpa [Instr.wf, okRing] using hr)

/-- What a record's first quadword holds, where its status and opcode fit their fields. -/
theorem cplBytes_of_fits {status : Nat} (hlow : status < 0x40) (c n tag mile result : Nat) :
    cplBytes c n status (dOpcode d.q) tag mile result = leBytes 8 (c * 2 ^ 32 + status * 2 ^ 24 + dOpcode d.q * 2 ^ 16 + (1 - c / 2 ^ n % 2))
      ++ leBytes 8 tag ++ leBytes 8 mile ++ leBytes 8 result := by
  have hstatus : status % 256 = status := Nat.mod_eq_of_lt (by omega)
  have hop : dOpcode d.q % 256 = dOpcode d.q := Nat.mod_mod ..
  rw [cplBytes, hstatus, hop]

end

/-- Settles O32: what is done posts its record, and head moves past it where it is head. -/
theorem completionPostsRecord : Obligations.CompletionPostsRecord := by
  intro s r d hr hf hc hout hirq hhalting hafter hwaiting
  refine ⟨fun hl => ?_, fun hl => ?_⟩
  · rw [exec_descriptorComplete hr, descComplete_of_stalled hl]
  · intro n posts
    have hdone : ∀ status result, status < 0x40 → posts (voteRefresh (ringDone s r d status result)) status result := by
      intro status result hlow
      have hlow' : (fHead r).off < 0x800000 := lt_trans (fHead_off_lt hr) (by decide)
      obtain ⟨hposted, habsent, hhead, hafter'⟩ := settled_ringJudge 64 (settled_completed hl hwaiting status result)
      rw [← ringDone_eq hirq hhalting hafter] at hposted habsent hhead hafter'
      rw [cplBytes_of_fits hlow] at hposted
      refine ⟨(voteRefresh_posted _).trans hposted, ?_, (voteRefresh_rd hlow' _).trans hhead, ?_⟩
      · rw [voteRefresh_ring]; exact habsent.1
      · rw [voteRefresh_ring]; exact hafter'
    refine ⟨fun status result entry hwork hlow => ?_, fun tile g target lim ht hg hwork => ?_⟩
    · refine ⟨_, ?_, hdone status result hlow⟩
      rw [exec_descriptorComplete hr, descComplete_of_judged hf hl hout hwork hlow]
    · have htile : refTile (2 ^ 31 + tile * 2 ^ 12 + g) = tile := refTile_gateRef ht hg
      have hgate : refGate (2 ^ 31 + tile * 2 ^ 12 + g) = g := refGate_gateRef hg
      have hcomplete := descComplete_of_gateWait hf hl hout hwork
      rw [htile, hgate] at hcomplete
      split
      case isTrue hreached =>
        refine ⟨_, ?_, hdone 0 _ (by decide)⟩
        rw [exec_descriptorComplete hr, hcomplete, if_pos hreached]
      case isFalse hnot => rw [exec_descriptorComplete hr, hcomplete, if_neg hnot]

end Sys2Proof.Machine

namespace Sys2Proof.Machine
open Sys2Proof

/-! ### What entries and a halt by a doorbell leave of the registers below the error queues (14 R268 to R273) -/

/-- A part of the state that no error entry touches: it may read the registers below those of the error queues. -/
structure EntryBystander {α : Type} (g : State → α) : Prop where
  setReg : ∀ s o v, 0x700000 ≤ o → g (State.setReg s o v) = g s
  msixPend : ∀ s v, g { s with msixPend := v } = g s
  posted : ∀ s v, g { s with posted := v } = g s
  link : ∀ s v, g { s with link := v } = g s
  log : ∀ s v w, g { s with failBuf := v, back := w } = g s
  fatal : ∀ s k v, g { s with fatalStep := k, trust := v } = g s

section
variable {α : Type} {g : State → α}

theorem msixRaise_entryBystander (hg : EntryBystander g) (s : State) (vec : Nat) : g (msixRaise s vec) = g s :=
  msixRaise_keeps_of hg.msixPend hg.posted hg.link s vec

theorem errWrite_entryBystander (hg : EntryBystander g) (s : State) (e : ErrIn) : g (errWrite s e) = g s :=
  errWrite_keeps_of fun t o v ho _ => hg.setReg t o v ((le_aErrq ..).trans ho)

/-- With names for the function and its result, for the kernel's sake, as `errCorrected_keeps` has them. -/
theorem errCorrected_entryBystander (hg : EntryBystander g) (s : State) (e : ErrIn) : g (errCorrected s e) = g s := by
  suffices h : ∀ f u, f = errCorrected → f s e = u → g u = g s from h _ _ rfl rfl
  intro f u hf hu
  delta errCorrected at hf
  subst hf
  beta_reduce at hu
  split at hu
  · subst hu; exact hg.setReg _ _ _ (le_aErrq ..)
  · have hinc : g (s.inc (fLostCorr e.wharf)) = g s := hg.setReg _ _ _ (le_aErrq ..)
    subst hu
    simp only [apply_ite g, hinc, msixRaise_entryBystander hg, errWrite_entryBystander hg, ite_self]

theorem errSevere_entryBystander (hg : EntryBystander g) (s : State) (e : ErrIn) : g (errSevere s e) = g s := by
  have hreg : ∀ t v, g (State.setReg t 0x710000 v) = g t := fun t v => hg.setReg t _ v (by decide)
  have hflash : ∀ t c r, g (flashPut t c r) = g t := flashPut_keeps_of (fun t v => hg.setReg t _ v (by decide)) hg.log
  simp only [errSevere, apply_ite g, hg.fatal, hreg, msixRaise_entryBystander hg, hflash, errWrite_entryBystander hg, ite_self]

theorem errRaise_entryBystander (hg : EntryBystander g) (s : State) (e : ErrIn) : g (errRaise s e) = g s := by
  simp only [errRaise, apply_ite g, errCorrected_entryBystander hg, errSevere_entryBystander hg, ite_self]

section
variable {r : Nat} (hg : EntryBystander g) (hr : RingBystander r g)
include hg hr

theorem ringErrOne_bothBystander (s : State) (hw : Bool) (e : ErrIn) : g (ringErrOne s r hw e) = g s := by
  rw [ringErrOne, State.modRing, putRing_ringBystander hr, errRaise_entryBystander hg]

theorem ringEntry_bothBystander (s : State) (c status addr : Nat) (q4 : List Nat) : g (ringEntry s r c status addr q4) = g s := by
  have hflush : g (ringFlush s r) = g s :=
    ringFlush_keeps (fun t e _ => ringErrOne_bothBystander hg hr t false e) (fun t c w => by rw [setWork, State.modRing, putRing_ringBystander hr]) s
  rw [ringEntry, ringErr, ringErrOne_bothBystander hg hr, hflush]

theorem ringIrq_bothBystander (s : State) (halting : Bool) : g (ringIrq s r halting) = g s := by
  simp only [ringIrq, apply_ite g, putRing_ringBystander hr, msixRaise_entryBystander hg, ite_self]

theorem doorbellHalt_bothBystander (s : State) (status : Nat) (kind : HaltKind) : g (doorbellHalt s r status kind) = g s := by
  simp only [doorbellHalt, apply_ite g, ringIrq_bothBystander hg hr, ringStop_ringBystander hr, ringEntry_bothBystander hg hr, ite_self]

theorem doorbellAsk_bothBystander (s : State) : g (doorbellAsk s r) = g s := by
  have hask : ∀ t k a n, g (hostAsk t k a n) = g t := fun t k a n => by
    unfold hostAsk reqPump
    rw [reqIssue_keeps hr.reqs]
    exact hr.reqs ..
  simp only [doorbellAsk, doorbellRefused, apply_ite g, hask, doorbellHalt_bothBystander hg hr, ite_self]

end

theorem EntryBystander.prod {β : Type} {h : State → β} (hg : EntryBystander g) (hh : EntryBystander h) : EntryBystander fun s => (g s, h s) where
  setReg s o v ho := Prod.ext (hg.setReg s o v ho) (hh.setReg s o v ho)
  msixPend s v := Prod.ext (hg.msixPend s v) (hh.msixPend s v)
  posted s v := Prod.ext (hg.posted s v) (hh.posted s v)
  link s v := Prod.ext (hg.link s v) (hh.link s v)
  log s v w := Prod.ext (hg.log s v w) (hh.log s v w)
  fatal s k v := Prod.ext (hg.fatal s k v) (hh.fatal s k v)

end

theorem rd_entryBystander {f : Fld} (h : f.off < 0x700000) : EntryBystander fun s => s.rd f where
  setReg s o v ho := rd_setReg_ne s v (by omega)
  msixPend _ _ := rfl
  posted _ _ := rfl
  link _ _ := rfl
  log _ _ _ := rfl
  fatal _ _ _ := rfl

theorem rd_ringBystander {f : Fld} {r : Nat} (hlow : f.off < 0x700000) (hne : f.off ≠ aRing r 0x20) : RingBystander r fun s => s.rd f where
  reqs _ _ _ _ := rfl
  trust := putTrust_keeps (g := fun s => s.rd f) (fun _ _ => rfl) fun s o v ho => rd_setReg_ne s v (by omega)
  work _ _ _ _ _ _ := rfl
  rings _ _ := rfl
  ringState s v := rd_setReg_ne s v hne

theorem ring_entryBystander (r : Nat) : EntryBystander fun s => s.ring r where
  setReg _ _ _ _ := rfl
  msixPend _ _ := rfl
  posted _ _ := rfl
  link _ _ := rfl
  log _ _ _ := rfl
  fatal _ _ _ := rfl

/-! ### Requests that stand (02 R25, R32) -/

section
variable {s : State} {k : ReqFor} {a n : Nat}

theorem stands_reqIssue (m : Nat) {s : State} (h : Stands s k a n) : Stands (reqIssue m s) k a n := by
  induction m generalizing s with
  | zero => exact h
  | succ m ih =>
    unfold reqIssue
    split
    case h_1 x w hw =>
      split
      · refine ih (h.elim (fun ⟨q, hq, hk⟩ => .inl ⟨q, List.mem_append_left _ hq, hk⟩) fun hwait => ?_)
        rw [hw] at hwait
        rcases List.mem_cons.1 hwait with rfl | hwait
        · exact .inl ⟨_, List.mem_append_right _ (List.mem_singleton.2 rfl), rfl, rfl, rfl⟩
        · exact .inr hwait
      · exact h
    case h_2 => exact h

theorem stands_hostAsk (h : Stands s k a n) (k' : ReqFor) (a' n' : Nat) : Stands (hostAsk s k' a' n') k a n :=
  stands_reqIssue _ (h.imp_right fun hw => List.mem_append_left _ hw)

theorem stands_hostAsk_self (s : State) (k : ReqFor) (a n : Nat) : Stands (hostAsk s k a n) k a n :=
  stands_reqIssue _ (.inr (List.mem_append_right _ (List.mem_singleton.2 rfl)))

theorem stands_dropReqs (h : Stands s k a n) {p : ReqFor → Bool} (hp : p k = false) : Stands (dropReqs s p) k a n := by
  refine stands_reqIssue _ (h.imp ?_ ?_)
  · rintro ⟨q, hq, rfl, hk⟩
    exact ⟨q, List.mem_filter.2 ⟨hq, by simp [hp]⟩, rfl, hk⟩
  · exact fun hw => List.mem_filter.2 ⟨hw, by simp [hp]⟩

theorem stands_of_requests {t : State} (e : t.requests = s.requests) (h : Stands s k a n) : Stands t k a n := by
  obtain ⟨hr, hw⟩ := Prod.mk.injEq .. ▸ e
  unfold Stands
  rw [hr, hw]
  exact h

theorem errRaise_requests (s : State) (e : ErrIn) : (errRaise s e).requests = s.requests :=
  errRaise_keeps ⟨fun _ _ _ => rfl, fun _ _ => rfl, fun _ _ => rfl, fun _ _ => rfl, fun _ _ _ => rfl, fun _ _ _ => rfl⟩ s e

theorem ringErrOne_requests (s : State) (r : Nat) (hw : Bool) (e : ErrIn) : (ringErrOne s r hw e).requests = s.requests := by
  rw [ringErrOne, modRing_requests, errRaise_requests]

theorem ringEntry_requests (s : State) (r c status addr : Nat) (q4 : List Nat) : (ringEntry s r c status addr q4).requests = s.requests := by
  rw [ringEntry, ringErr, ringErrOne_requests]
  exact ringFlush_keeps (fun t e _ => ringErrOne_requests t r false e) (fun t c w => modRing_requests t r _) s

theorem ringIrq_requests (s : State) (r : Nat) (halting : Bool) : (ringIrq s r halting).requests = s.requests := by
  have hmsix : ∀ v, (msixRaise s v).requests = s.requests := msixRaise_keeps_of (g := State.requests) (fun _ _ => rfl) (fun _ _ => rfl) (fun _ _ => rfl) s
  simp only [ringIrq, apply_ite State.requests, putRing_requests, hmsix, ite_self]

/-- A ring that stops gives up the reads of its descriptors alone. -/
theorem stands_ringStop (h : Stands s k a n) (hk : ∀ r c m, k ≠ .desc r c m) (r c : Nat) (kind : HaltKind) (status : Option Nat) :
    Stands (ringStop s r c kind status) k a n := by
  have hp : descReqs r (fun _ => true) k = false := by
    unfold descReqs
    split
    case h_1 => exact absurd rfl (hk _ _ _)
    case h_2 => rfl
  unfold ringStop
  exact stands_of_requests ((wrAll_requests ..).trans (putRing_requests ..)) (stands_dropReqs h hp)

theorem stands_doorbellHalt (h : Stands s k a n) (hk : ∀ r c m, k ≠ .desc r c m) (r status : Nat) (kind : HaltKind) :
    Stands (doorbellHalt s r status kind) k a n := by
  have hentry := stands_of_requests (ringEntry_requests s r (s.rd (fHead r)) status 0 []) h
  have hstop := stands_ringStop hentry hk r (s.rd (fHead r)) kind (some status)
  rw [doorbellHalt]
  dsimp only
  split
  · exact hentry
  · split
    · exact stands_of_requests (ringIrq_requests ..) hstop
    · exact hstop

theorem stands_doorbellAsk (h : Stands s k a n) (hk : ∀ r c m, k ≠ .desc r c m) (r : Nat) : Stands (doorbellAsk s r) k a n := by
  rw [doorbellAsk]
  split
  · exact stands_hostAsk h ..
  · rw [doorbellRefused]
    split
    · exact h
    · exact stands_doorbellHalt h hk ..

theorem stands_voteRefresh : Stands (voteRefresh s) k a n ↔ Stands s k a n := by
  unfold Stands; rw [voteRefresh_reqs, voteRefresh_reqWait]

end

/-! ### Polls and their returns (03 R40, R44) -/

/-- What the own step of a fold gives, and every later step keeps, holds once the fold is done; the other steps keep what the own one needs. -/
theorem foldl_attains {β : Type} {f : State → β → State} {I P : State → Prop} {b : β} (hown : ∀ t, I t → P (f t b)) (hP : ∀ t x, P t → P (f t x)) :
    (l : List β) → b ∈ l → (∀ t, ∀ x ∈ l, I t → I (f t x) ∨ x = b) → {s : State} → I s → P (l.foldl f s)
  | x :: l, hb, hI, s, hs => by
    have hkeep : ∀ t, P t → P (l.foldl f t) := fun t ht => List.foldlRecOn (motive := P) l f ht fun u hu y _ => hP u y hu
    by_cases hx : x = b
    · exact hkeep _ (hx ▸ hown s hs)
    · exact foldl_attains hown hP l ((List.mem_cons.1 hb).resolve_left (Ne.symm hx)) (fun t y hy => hI t y (List.mem_cons_of_mem _ hy))
        ((hI s x List.mem_cons_self hs).resolve_right hx)

/-- A word that is not zero is claimed by a compare-and-swap, and nothing else is asked. -/
theorem casWord_asks (s : State) (p base w : Nat) {v : Nat} (h : v ≠ 0) :
    ∃ t : State, t.requests = s.requests ∧ casWord s p base w v = hostAsk t (.cas p w v) (base + 8 * w) 8 := by
  have hrings : ((wordRings w v).foldl (fun t r => if ringServes t p r then t.modRing r fun g => { g with seenAt := some s.mile } else t) s).requests
      = s.requests := foldl_keeps (g := State.requests) (fun t r => by simp only [apply_ite State.requests, modRing_requests, ite_self]) _ s
  have hpolls : ∀ (t : State) x, State.requests { t with polls := x } = t.requests := fun _ _ => rfl
  rw [casWord, if_neg h]
  exact ⟨_, (hpolls ..).trans hrings, rfl⟩

theorem stands_casWord {s : State} {k : ReqFor} {a n : Nat} (h : Stands s k a n) (p base w v : Nat) : Stands (casWord s p base w v) k a n := by
  by_cases hv : v = 0
  · rw [casWord, if_pos hv]
    exact h
  · obtain ⟨t, ht, hcas⟩ := casWord_asks s p base w hv
    rw [hcas]
    exact stands_hostAsk (stands_of_requests ht h) ..

theorem stands_casWord_self (s : State) (p base w : Nat) {v : Nat} (h : v ≠ 0) : Stands (casWord s p base w v) (.cas p w v) (base + 8 * w) 8 := by
  obtain ⟨t, -, hcas⟩ := casWord_asks s p base w h
  rw [hcas]
  exact stands_hostAsk_self ..

/-- Of the words of a bitmap each that is not zero is claimed. -/
theorem stands_casWords (s : State) (p base : Nat) (v : Nat → Nat) {w : Nat} (hw : w < 16) (hv : v w ≠ 0) :
    Stands ((List.range 16).foldl (fun t w => casWord t p base w (v w)) s) (.cas p w (v w)) (base + 8 * w) 8 :=
  foldl_attains (f := fun t w => casWord t p base w (v w)) (I := fun _ => True) (P := fun t => Stands t (.cas p w (v w)) (base + 8 * w) 8) (b := w)
    (fun t _ => stands_casWord_self t p base w hv) (fun _ x ht => stands_casWord ht p base x (v x)) (List.range 16)
    (List.mem_range.2 hw) (fun _ _ _ _ => .inl trivial) trivial

theorem bitmapReturn_of_found {s : State} {p : Nat} {q : HostReq} (hq : s.reqs.find? (fun q => decide (q.kind = .bitmap p)) = some q)
    (words : List Nat) : bitmapReturn s p .ok words = (List.range 16).foldl (fun t w => casWord t p q.addr w (words.getD w 0 % 2 ^ 64))
      (dropReq s fun q => decide (q.kind = .bitmap p)) := by
  rw [bitmapReturn, hq]
  exact if_pos rfl

end Sys2Proof.Machine

namespace Sys2Proof.Machine
open Sys2Proof

/-! ### The swap's return (03 R40, R44) -/

/-- What a swap's return reads of a ring: its record, partition, doorbell address and stray count, and the capabilities of the link. -/
def swapView (r : Nat) (s : State) : RingSt × Nat × Nat × Nat × Nat :=
  (s.ring r, s.rd (fRPart r), s.rd (fDbAddr r), s.rd (fStray r), s.rd fEffCaps)

theorem aRing_lt {r : Nat} (hr : r < 1024) (o : Nat) (ho : o < 0x40) : aRing r o < 0x700000 := by unfold aRing; omega

theorem swapView_entryBystander {r : Nat} (hr : r < 1024) : EntryBystander (swapView r) :=
  (ring_entryBystander r).prod ((rd_entryBystander (aRing_lt hr 0x18 (by decide))).prod ((rd_entryBystander (aRing_lt hr 0x10 (by decide))).prod
    ((rd_entryBystander (aRing_lt hr 0x20 (by decide))).prod (rd_entryBystander (f := fEffCaps) (by decide)))))

theorem swapView_ringBystander {r k : Nat} (hr : r < 1024) (h : r ≠ k) : RingBystander k (swapView r) := by
  have hne : ∀ o, o < 0x40 → aRing r o ≠ aRing k 0x20 := fun o ho => by unfold aRing; omega
  exact (ring_ringBystander h).prod ((rd_ringBystander (aRing_lt hr 0x18 (by decide)) (hne _ (by decide))).prod
    ((rd_ringBystander (aRing_lt hr 0x10 (by decide)) (hne _ (by decide))).prod
      ((rd_ringBystander (aRing_lt hr 0x20 (by decide)) (hne _ (by decide))).prod
        (rd_ringBystander (f := fEffCaps) (by decide) (by simp only [fEffCaps, aRing]; omega)))))

theorem swapView_dropReq {r : Nat} (s : State) (q : HostReq → Bool) : swapView r (dropReq s q) = swapView r s :=
  dropReq_keeps (fun _ _ _ _ => rfl) s q

theorem ringServes_of_swapView {s t : State} {r : Nat} (h : swapView r t = swapView r s) (p : Nat) : ringServes t p r = ringServes s p r := by
  simp only [swapView, Prod.mk.injEq] at h
  obtain ⟨hring, hpart, -⟩ := h
  rw [ringServes, hring, hpart, ringServes]

/-- What one bit of a swapped word does: its ring's doorbell is read, or the bit is stray. -/
def swapBit (p : Nat) (t : State) (r : Nat) : State := if ringServes t p r then doorbellAsk t r else t.inc (fStray r)

theorem readDoorbells_eq (s : State) (p w seen : Nat) : readDoorbells s p w seen = (wordRings w seen).foldl (swapBit p) s := rfl

theorem swapView_swapBit {r k : Nat} (hr : r < 1024) (h : r ≠ k) (p : Nat) (t : State) : swapView r (swapBit p t k) = swapView r t := by
  have hk := swapView_ringBystander hr h
  have hinc : swapView r (t.inc (fStray k)) = swapView r t := hk.ringState ..
  simp only [swapBit, apply_ite (swapView r), doorbellAsk_bothBystander (swapView_entryBystander hr) hk, hinc, ite_self]

theorem mem_wordRings {w seen i : Nat} (hi : i < 64) (h : seen.testBit i = true) : 64 * w + i ∈ wordRings w seen :=
  List.mem_map.2 ⟨i, List.mem_filter.2 ⟨List.mem_range.2 hi, h⟩, rfl⟩

theorem nodup_wordRings (w seen : Nat) : (wordRings w seen).Nodup :=
  (List.nodup_range.filter _).map fun _ _ h => Nat.add_left_cancel h

section
variable {s : State} {p w seen i : Nat} (hr : 64 * w + i < 1024) (hi : i < 64) (hbit : seen.testBit i = true)
include hr hi hbit

/-- The doorbell of a serving ring whose bit was seen is asked for. -/
theorem stands_readDoorbells (hserves : ringServes s p (64 * w + i) = true) (hbus : busOk s (s.rd (fDbAddr (64 * w + i)) * 8) 8 = true) :
    Stands (readDoorbells s p w seen) (.doorbell (64 * w + i)) (s.rd (fDbAddr (64 * w + i)) * 8) 8 := by
  rw [readDoorbells_eq]
  refine foldl_attains (f := swapBit p) (I := fun t => swapView (64 * w + i) t = swapView (64 * w + i) s)
    (P := fun t => Stands t (.doorbell (64 * w + i)) (s.rd (fDbAddr (64 * w + i)) * 8) 8) (b := 64 * w + i) ?own ?keep _
    (mem_wordRings hi hbit) ?others rfl
  case own =>
    intro t ht
    rw [swapBit, if_pos ((ringServes_of_swapView ht p).trans hserves)]
    simp only [swapView, Prod.mk.injEq] at ht
    obtain ⟨-, -, haddr, -, hcaps⟩ := ht
    have hbus' : busOk t (s.rd (fDbAddr (64 * w + i)) * 8) 8 = true := by rw [busOk, State.cap, hcaps]; exact hbus
    rw [doorbellAsk, haddr, if_pos hbus']
    exact stands_hostAsk_self ..
  case keep =>
    intro t k ht
    unfold swapBit
    split
    · exact stands_doorbellAsk ht (fun _ _ _ h => by cases h) k
    · exact ht
  case others =>
    intro t k _ ht
    by_cases hk : k = 64 * w + i
    · exact .inr hk
    · exact .inl ((swapView_swapBit hr (Ne.symm hk) p t).trans ht)

/-- The bit of any other ring is stray. -/
theorem stray_readDoorbells (hserves : ringServes s p (64 * w + i) = false) :
    (readDoorbells s p w seen).rd (fStray (64 * w + i)) = min 255 (s.rd (fStray (64 * w + i)) + 1) := by
  obtain ⟨t, ht, hown⟩ := foldl_own (g := swapView (64 * w + i)) (r := 64 * w + i) (f := swapBit p) (wordRings w seen) (nodup_wordRings w seen)
    (mem_wordRings hi hbit) (fun t k _ hk => swapView_swapBit hr hk.symm p t) s
  rw [swapBit, if_neg (by rw [ringServes_of_swapView ht p, hserves]; decide)] at hown
  simp only [swapView, Prod.mk.injEq] at ht hown
  obtain ⟨-, -, -, hstray, -⟩ := hown
  obtain ⟨-, -, -, hbefore, -⟩ := ht
  rw [readDoorbells_eq, hstray, rd_inc_self _ (by simp [fStray]) (by simp [fStray]), hbefore]
  rfl

end

/-! ### Backing off (03 R45) -/

theorem lately_iff (s : State) (t : Option Nat) : lately s t = true ↔ ∃ a, t = some a ∧ (s.mile + 2 ^ 64 - a) % 2 ^ 64 < 1000000 := by
  simp only [lately, Option.any_eq_true, decide_eq_true_eq]

theorem tget_of_unlisted {α : Type} {d : Nat → α} {k : Nat} : (t : Tbl α) → (∀ p ∈ t, p.1 ≠ k) → tget d t k = d k
  | [], _ => rfl
  | (k', v) :: t, h => by
    rw [tget, if_neg (h _ List.mem_cons_self)]
    exact tget_of_unlisted t fun p hp => h p (List.mem_cons_of_mem _ hp)

/-- What a canonical table reads as once its entries are changed, where the default stays the default. -/
theorem tget_tmap_of_default {α : Type} [DecidableEq α] {d : Nat → α} {F : Nat → α → α} {k : Nat} (hd : F k (d k) = d k) :
    (t : Tbl α) → t.Pairwise (fun p q => p.1 < q.1) → tget d (tmap d F t) k = F k (tget d t k)
  | [], _ => hd.symm
  | (k', v) :: t, h => by
    obtain ⟨hhead, htail⟩ := List.pairwise_cons.1 h
    have ih := tget_tmap_of_default hd t htail
    by_cases hk : k' = k
    · subst hk
      have hnone : tget d t k' = d k' := tget_of_unlisted t fun p hp => (hhead p hp).ne'
      rw [tmap_cons, tget, if_pos rfl]
      split
      case isTrue e => rw [ih, hnone, hd, e]
      case isFalse => rw [tget, if_pos rfl]
    · rw [tmap_cons, tget, if_neg hk]
      split
      · exact ih
      · rw [tget, if_neg hk, ih]

/-- A ring as it is once polling backs off: not seen, if it is of the partition. -/
def backedOffRing (s : State) (p r : Nat) (g : RingSt) : RingSt := if s.rd (fRPart r) = p then { g with seenAt := none } else g

theorem seenAt_backedOffRing (s : State) (p r : Nat) (g : RingSt) :
    (backedOffRing s p r g).seenAt = if s.rd (fRPart r) = p then none else g.seenAt := by
  unfold backedOffRing
  split <;> rfl

theorem backedOffRing_default (s : State) (p r : Nat) : backedOffRing s p r (ring0 r) = ring0 r := by
  unfold backedOffRing
  split <;> rfl

/-- Is a ring active for a partition's polling, or was a ring or its bitmap enabled less than 1 ms ago? -/
def PollKept (s : State) (p : Nat) : Prop :=
  lately s (tget poll0 s.polls p).freshAt = true
    ∨ ∃ r, r < 1024 ∧ ringServes s p r = true ∧ ((s.ring r).out ≠ [] ∨ lately s (s.ring r).seenAt = true)

theorem pollKept_iff (s : State) (p : Nat) : (((List.range 1024).any fun r => ringServes s p r && ringActive s (s.ring r))
    || lately s (tget poll0 s.polls p).freshAt) = true ↔ PollKept s p := by
  simp only [Bool.or_eq_true, List.any_eq_true, List.mem_range, Bool.and_eq_true, ringActive_iff, PollKept]
  exact or_comm

theorem pollBackoff_of_kept {s : State} {p : Nat} (h : PollKept s p) : pollBackoff s p = s := if_pos ((pollKept_iff s p).2 h)

theorem pollBackoff_of_idle {s : State} {p : Nat} (h : ¬ PollKept s p) : pollBackoff s p =
    { s with polls := tset poll0 s.polls p { backedOff := true }, rings := tmap ring0 (backedOffRing s p) s.rings } :=
  if_neg (mt (pollKept_iff s p).1 h)

section
variable {p : Nat} (hp : p < 4)
include hp

theorem exec_summaryPoll (s : State) : exec (.summaryPoll p) s = .next (voteRefresh (summaryPoll s p)) :=
  run_of_wf (c := .summaryPoll p) (decide_eq_true hp)
theorem exec_summaryBitmapReturn (s : State) (status : CplStatus) (words : List Nat) :
    exec (.summaryBitmapReturn p status words) s = .next (voteRefresh (bitmapReturn s p status words)) :=
  run_of_wf (c := .summaryBitmapReturn p status words) (decide_eq_true hp)
theorem exec_summaryCasReturn {w : Nat} (hw : w < 16) (s : State) (status : CplStatus) :
    exec (.summaryCasReturn p w status) s = .next (voteRefresh (casReturn s p w status)) :=
  run_of_wf (c := .summaryCasReturn p w status) (by simp [Instr.wf, okPart, hp, hw])
theorem exec_pollBackoff (s : State) : exec (.pollBackoff p) s = .next (voteRefresh (pollBackoff s p)) :=
  run_of_wf (c := .pollBackoff p) (decide_eq_true hp)

end

/-- A poll that may be put reads the bitmap. -/
theorem summaryPoll_of_may {s : State} {p : Nat} (hon : engineOn s = true) (hvalid : s.flag (fSumValid p) = true) (hmay : mayAsk s = true)
    (hpower : s.rd fPwrState ≠ 3) (hbus : busOk s (s.rd (fSumBase p) * 128) 128 = true) :
    summaryPoll s p = Asked s (.bitmap p) (s.rd (fSumBase p) * 128) 128 := by
  have hpower' : s.rd ⟨0x800008, 21, 19⟩ ≠ 3 := hpower
  rw [summaryPoll, if_neg (by simp [hon, hvalid, hmay, hpower'])]
  exact (if_pos hbus).trans (hostAsk_of_asks (.inl hmay) ..)

/-- The state in which a swap has returned: refused or not, its request is done. -/
def swapReturned (s : State) (p w : Nat) (status : CplStatus) : State :=
  let s1 := dropReq s fun q => match q.kind with | .cas p' w' _ => decide (p' = p) && decide (w' = w) | _ => false
  if status = .ok then s1 else bitmapRefused s1 p true

theorem swapView_swapReturned {r : Nat} (hr : r < 1024) (s : State) (p w : Nat) (status : CplStatus) :
    swapView r (swapReturned s p w status) = swapView r s := by
  have hrefused : ∀ t, swapView r (bitmapRefused t p true) = swapView r t := fun t => errRaise_entryBystander (swapView_entryBystander hr) ..
  simp only [swapReturned, apply_ite (swapView r), hrefused, swapView_dropReq, ite_self]

theorem casReturn_of_found {s : State} {p w seen : Nat} (status : CplStatus)
    (h : s.reqs.findSome? (fun q => match q.kind with | .cas p' w' v => if p' = p ∧ w' = w then some v else none | _ => none) = some seen) :
    casReturn s p w status = readDoorbells (swapReturned s p w status) p w seen := by
  unfold casReturn
  split
  case h_1 hnone => exact absurd (hnone.symm.trans h) (by simp)
  case h_2 seen' hsome =>
    obtain rfl := Option.some.inj (hsome.symm.trans h)
    unfold swapReturned
    exact rfl

/-- Settles O29: the returns by what each word or bit of them asks, backing off by what is active. -/
theorem pollingClaimsRings : Obligations.PollingClaimsRings := by
  intro s p hp base
  refine ⟨fun hon hvalid hmay hpower hbus => ?poll, fun words q hq => ?bitmap, fun w seen status hw hfound => ?swap, ?backoff⟩
  case poll => rw [exec_summaryPoll hp, summaryPoll_of_may hon hvalid hmay hpower hbus]
  case bitmap =>
    refine ⟨_, exec_summaryBitmapReturn hp .., fun w hw hv => stands_voteRefresh.2 ?_⟩
    rw [bitmapReturn_of_found hq]
    exact stands_casWords _ p q.addr (fun w => words.getD w 0 % 2 ^ 64) hw hv
  case swap =>
    refine ⟨_, exec_summaryCasReturn hp hw .., fun i hi hbit => ?_⟩
    have hr : 64 * w + i < 1024 := by omega
    have hview := swapView_swapReturned hr s p w status
    have hserves := ringServes_of_swapView hview p
    simp only [swapView, Prod.mk.injEq] at hview
    obtain ⟨-, -, haddr, hstray, hcaps⟩ := hview
    intro r
    rw [casReturn_of_found status hfound, ← hserves]
    split
    case isTrue hyes =>
      intro hbus
      refine stands_voteRefresh.2 ?_
      rw [← haddr] at hbus ⊢
      exact stands_readDoorbells hr hi hbit hyes (by rw [busOk, State.cap, hcaps]; exact hbus)
    case isFalse hno =>
      have hlow : (fStray r).off < 0x800000 := lt_trans (aRing_lt hr 0x20 (by decide)) (by decide)
      rw [voteRefresh_rd hlow, stray_readDoorbells hr hi hbit (Bool.not_eq_true _ ▸ hno), hstray]
  case backoff =>
    intro recent
    have hrecent : ∀ t, recent t ↔ lately s t = true := fun t => (lately_iff s t).symm
    simp only [hrecent]
    refine ⟨fun hkept => ?_, fun hsound hfresh hidle => ⟨_, exec_pollBackoff hp s, ?_⟩⟩
    · rw [exec_pollBackoff hp, pollBackoff_of_kept hkept]
    · have hnot : ¬ PollKept s p := by
        rintro (h | ⟨r, hr, hserves, hactive⟩)
        · exact hfresh h
        · obtain ⟨hout, hseen⟩ := hidle r hr hserves
          exact hactive.elim (fun h => h hout) hseen
      have hpairs := ((twf_iff ring0 s.rings).1 hsound.1.rings).1
      rw [pollBackoff_of_idle hnot, voteRefresh_polls, tget_tset_self]
      refine ⟨rfl, fun r => ?_⟩
      rw [voteRefresh_ring]
      simp only [State.ring]
      rw [tget_tmap_of_default (backedOffRing_default s p r) _ hpairs, seenAt_backedOffRing]

end Sys2Proof.Machine

namespace Sys2Proof.Machine
open Sys2Proof

/-! ### The timers of a ring (03 R50, R53, R54, R57) -/

section
variable {r : Nat} (hr : r < 1024)
include hr

theorem exec_irqHoldoffExpiry (s : State) : exec (.irqHoldoffExpiry r) s = .next (voteRefresh (holdoffEnd s r)) :=
  run_of_wf (c := .irqHoldoffExpiry r) (decide_eq_true hr)
theorem exec_descriptorWaitTimeout (count : Nat) (s : State) :
    exec (.descriptorWaitTimeout r count) s = .next (voteRefresh (descTimeout s r count)) :=
  run_of_wf (c := .descriptorWaitTimeout r count) (decide_eq_true hr)
theorem exec_stagedSettingTimeout (count : Nat) (s : State) :
    exec (.stagedSettingTimeout r count) s = .next (voteRefresh (stagedTimeout s r count)) :=
  run_of_wf (c := .stagedSettingTimeout r count) (decide_eq_true hr)
theorem exec_ringEnable (s : State) : exec (.ringEnable r) s = .next (voteRefresh (ringEnable s r)) :=
  run_of_wf (c := .ringEnable r) (decide_eq_true hr)
theorem exec_ringDisable (s : State) : exec (.ringDisable r) s = .next (voteRefresh (ringDisable s r)) :=
  run_of_wf (c := .ringDisable r) (decide_eq_true hr)

end

section
variable {s : State} {r count : Nat}

theorem holdoffEnd_eq : holdoffEnd s r =
    if (s.ring r).irqOpen = false ∨ s.isFatal = true then s
    else if (s.ring r).irqHeld = true
      then msixRaise (s.putRing r { s.ring r with irqHeld := false, irqOpen := decide (s.rd (fHoldoff r) ≠ 0) }) (s.rd (fRVec r))
    else s.putRing r { s.ring r with irqOpen := false } := by
  rw [holdoffEnd]
  exact if_congr (by rw [Bool.not_eq_true']) rfl rfl

/-! #### A gate wait at its limit -/

/-- Is a gate at a target, or past it? -/
abbrev GatePast (s : State) (ref target : Nat) : Prop := ((s.gate (nbits ref 17 12) (nbits ref 11 0)) - BitVec.ofNat 32 target).msb = false

theorem waitHolds_gateWait {d : Dispatched} {ref target lim : Nat} (hwork : d.work = .gateWait ref target lim) :
    waitHolds s r d = true ↔ GatePast s ref target := by
  simp [waitHolds, hwork, gateReached, GatePast]

/-- The entry of a gate wait at its limit, with the list of what else of its partition waits (14 R271). -/
def gateWaitEntry (s : State) (r count ref : Nat) : ErrIn :=
  let p := peerList ((peersOf s (s.rd (fRPart r))).filter fun x => decide (x.ring ≠ some (r, count)))
  ringErrIn s r count 0x44 (b2n p.2 + ref * 2 ^ 8) p.1

theorem descTimeout_gateWait {d : Dispatched} {ref target lim : Nat} (hout : outOf s r count = some d) (hwork : d.work = .gateWait ref target lim)
    (hf : s.isFatal = false) : descTimeout s r count =
      if s.mile < d.t0 + lim then s
      else if GatePast s ref target then descComplete s r count
      else setWork (ringErr s r false (gateWaitEntry s r count ref)).1 r count
        (.judged 0x44 (ref * 2 ^ 32 + (s.gate (nbits ref 17 12) (nbits ref 11 0)).toNat) (some (ringErr s r false (gateWaitEntry s r count ref)).2)) := by
  rw [descTimeout, hout]
  dsimp only
  rw [hwork]
  exact if_congr (by simp [hf]) rfl (if_congr (waitHolds_gateWait hwork) rfl rfl)

/-- Where no other entry was due, the judged wait names the next entry of N0's queue. -/
theorem mem_out_waitJudged (h : ∀ x ∈ (s.ring r).out, ∀ st res, x.work = .judged st res none → st < 0x40) {e : ErrIn} (he : e.wharf = 0) (status result : Nat)
    {x : Dispatched} (hx : x ∈ (s.ring r).out) (hc : x.count = count) :
    { x with work := .judged status result (some (s.rd (fErrNext 0))) } ∈
      ((setWork (ringErr s r false e).1 r count (.judged status result (some (ringErr s r false e).2))).ring r).out := by
  have hix : errIndex s e.wharf = s.rd (fErrNext 0) := by rw [he, errIndex, Nat.zero_mul, Nat.zero_add]
  rw [ringErr, ringFlush_of_recorded h]
  dsimp only
  rw [hix, setWork, State.ring_modRing, ring_ringErrOne]
  exact List.mem_map.2 ⟨x, hx, if_pos hc⟩

/-! #### A staged setting at its limit -/

/-- A block that is not at its quiescent point applies nothing. -/
theorem stApply_of_not_quiet {b : Blk} (h : ¬ BlockQuiet s b) : stApply s b = s := by
  cases b with
  | ring r => exact if_neg h
  | summary p => exact absurd trivial h
  | remote p e => exact if_pos (Bool.not_eq_false _ ▸ h)
  | rgrp n =>
    refine if_pos ?_
    simpa [BlockQuiet] using h
  | port p => exact if_neg h
  | mile => exact if_pos h

/-- A staged setting judged as late: the register is unchanged. -/
def stagedLate (t : State) (r count off : Nat) : State := setWork t r count (.judged 0x47 (t.visible off) none)

/-- The turn of a register's block, where it has one. -/
def blockTurn (s : State) (off : Nat) : State := match regBlk off with | some b => stApply s b | none => s

theorem blockTurn_of_none {off : Nat} (h : regBlk off = none) : blockTurn s off = s := by rw [blockTurn, h]
theorem blockTurn_of_some {off : Nat} {b : Blk} (h : regBlk off = some b) : blockTurn s off = stApply s b := by rw [blockTurn, h]

/-- What becomes of a setting at its limit, once its block has had its turn. -/
def stagedJudged (t : State) (r count off : Nat) : State :=
  match outOf t r count with
  | some ⟨_, _, _, .staged _ _⟩ => stagedLate t r count off
  | _ => t

theorem stagedJudged_of_waiting {t : State} {x : Dispatched} {l n : Nat} (hx : outOf t r count = some x) (hw : x.work = .staged l n) (off : Nat) :
    stagedJudged t r count off = stagedLate t r count off := by
  obtain ⟨c, q, t0, w⟩ := x
  subst hw
  rw [stagedJudged, hx]

theorem stagedJudged_of_landed {t : State} (hx : ∀ x, outOf t r count = some x → ∀ l n, x.work ≠ .staged l n) (off : Nat) :
    stagedJudged t r count off = t := by
  unfold stagedJudged
  split
  case h_1 _ _ _ l n e => exact absurd rfl (hx _ e l n)
  case h_2 => rfl

section
variable {d : Dispatched} {lim no : Nat} (hout : outOf s r count = some d) (hwork : d.work = .staged lim no)
include hout hwork

theorem stagedTimeout_before (h : s.mile < d.t0 + lim) : stagedTimeout s r count = s := by
  obtain ⟨c, q, t0, w⟩ := d
  subst hwork
  rw [stagedTimeout, hout]
  exact if_pos (.inl h)

theorem stagedTimeout_at (hf : s.isFatal = false) (h : d.t0 + lim ≤ s.mile) :
    stagedTimeout s r count = stagedJudged (blockTurn s (dq d.q 2)) r count (dq d.q 2) := by
  obtain ⟨c, q, t0, w⟩ := d
  subst hwork
  rw [stagedTimeout, hout]
  exact (if_neg (by simpa [hf] using h)).trans rfl

end

end

/-! ### Enabling and disabling (03 R41, R42) -/

section
variable {s : State} {r v : Nat} (hcfg : pendingCfg s r = some v) (hquiet : ringQuiet s r = true)
include hcfg hquiet

theorem ringEnable_of_quiet (hv : v % 2 = 1) (hoff : s.flag (fEnable r) = false) (hon : engineOn s = true)
    (hset : (blkApply noAct s (.ring r)).flag (fEnable r) = true) : ringEnable s r = ringOn (blkApply noAct s (.ring r)) r := by
  have hbit : nbit v 0 = true := by simp [nbit, Nat.testBit_zero, hv]
  have happly : ringApply s r = ringOn (blkApply noAct s (.ring r)) r := by
    rw [ringApply]
    rw [hset, hoff, hon]
    rfl
  rw [ringEnable, hcfg, ← happly]
  exact if_neg (by simp [hbit, hoff, hquiet, hon])

theorem ringDisable_of_quiet (hv : v % 2 = 0) (hon : s.flag (fEnable r) = true) (hset : (blkApply noAct s (.ring r)).flag (fEnable r) = false) :
    ringDisable s r = ringOff (blkApply noAct s (.ring r)) r := by
  have hbit : nbit v 0 = false := by simp [nbit, Nat.testBit_zero, hv]
  have happly : ringApply s r = ringOff (blkApply noAct s (.ring r)) r := by
    rw [ringApply]
    rw [hset, hon]
    rfl
  rw [ringDisable, hcfg, ← happly]
  exact if_neg (by simp [hbit, hon, hquiet])

end

/-- Settles O33: each timer by the function of its command, the enabling and the disabling by what the ring's block has applied. -/
theorem ringTimersAndService : Obligations.RingTimersAndService := by
  refine ⟨fun s r count hr _ => ⟨?holdoff, fun d ref target lim hout hwork hf => ?wait, fun d lim no hout hwork hf => ?staged⟩,
    fun s r v hr hcfg hquiet => ⟨fun hv hoff hon hset => ?enable, fun hv hon hset => ?disable⟩⟩
  case holdoff => rw [exec_irqHoldoffExpiry hr, holdoffEnd_eq]
  case wait =>
    rw [exec_descriptorWaitTimeout hr, exec_descriptorComplete hr, descTimeout_gateWait hout hwork hf]
    by_cases hmile : s.mile < d.t0 + lim
    · rw [if_pos hmile, if_pos hmile]
    · rw [if_neg hmile, if_neg hmile]
      by_cases hpast : GatePast s ref target
      · rw [if_pos hpast, if_pos hpast]
      · rw [if_neg hpast, if_neg hpast]
        refine fun hrecorded => ⟨_, _, rfl, rfl, fun x hx hc => ?_⟩
        rw [voteRefresh_ring]
        exact mem_out_waitJudged hrecorded rfl 0x44 _ hx hc
  case staged =>
    intro gives late
    have hgives : ∀ t, stagedTimeout s r count = t → gives t := fun t ht => ht ▸ exec_stagedSettingTimeout hr count s
    refine ⟨fun hmile => hgives _ (stagedTimeout_before hout hwork hmile), fun hmile => ?_⟩
    have hat := stagedTimeout_at hout hwork hf hmile
    have hlate : blockTurn s (dq d.q 2) = s → gives (late s) := fun hturn =>
      hgives _ (by rw [hat, hturn]; exact stagedJudged_of_waiting hout hwork _)
    refine ⟨fun hnone => hlate (blockTurn_of_none hnone), fun b hb => ⟨fun hbusy => ?_, fun hlanded => ?_, fun x l n hx hw => ?_⟩⟩
    · exact hlate ((blockTurn_of_some hb).trans (stApply_of_not_quiet hbusy))
    · exact hgives _ (by rw [hat, blockTurn_of_some hb]; exact stagedJudged_of_landed hlanded _)
    · exact hgives _ (by rw [hat, blockTurn_of_some hb]; exact stagedJudged_of_waiting hx hw _)
  case enable =>
    have hrun : ∀ u, ringOn (blkApply noAct s (.ring r)) r = u → exec (.ringEnable r) s = .next (voteRefresh u) := fun u hu => by
      rw [exec_ringEnable hr, ringEnable_of_quiet hcfg hquiet hv hoff hon hset, hu]
    split
    case isTrue hfit => exact hrun _ (if_neg (by omega))
    case isFalse hunfit => exact hrun _ (if_pos (by omega))
  case disable =>
    refine ⟨_, exec_ringDisable hr s, ?_⟩
    rw [ringDisable_of_quiet hcfg hquiet hv hon hset, voteRefresh_ring, ringOff, State.ring_putRing]
    exact ⟨rfl, rfl, rfl, rfl, rfl⟩

end Sys2Proof.Machine

namespace Sys2Proof.Machine
open Sys2Proof

/-! ## O7 to O11, O16 to O21: the bundles of a core (04) -/

/-! ### A slot operation commanded alone (04 R65, R66; log entry 10) -/

/-- An operation that issues has its effect. -/
theorem issueOne_ok {s t : State} {uid : Nat} {f : State → Except IssueErr State} (h : Issuing s uid) (hf : f s = .ok t) :
    issueOne s uid f = t := by
  rw [issueOne_of_issuing h, hf]

/-- An operation that does not issue has the effect of its failure. -/
theorem issueOne_error {s : State} {uid : Nat} {f : State → Except IssueErr State} {e : IssueErr} (h : Issuing s uid)
    (hf : f s = .error e) : issueOne s uid f = applyIssueErr s uid e := by
  rw [issueOne_of_issuing h, hf]

section
variable {c : Instr} {s t : State} {uid : Nat} {f : State → Except IssueErr State} (hexec : exec c s = run c (issueOne s uid f))
  (hwf : c.wf = true) (h : Issuing s uid)
include hexec hwf h

/-- A well-formed command whose operation issues leaves the state that the operation leaves. -/
theorem exec_issues (hf : f s = .ok t) : exec c s = .next t := by rw [hexec, run_of_wf hwf, issueOne_ok h hf]

/-- A well-formed command whose operation does not issue leaves the state that its failure leaves. -/
theorem exec_fails {e : IssueErr} (hf : f s = .error e) : exec c s = .next (applyIssueErr s uid e) := by
  rw [hexec, run_of_wf hwf, issueOne_error h hf]

end

/-! ### The values of the R and I formats (04 R72) -/

section
variable (A B : Word64)

theorem aluFn_add : aluFn .add A B = BitVec.ofNat 64 (A.toNat + B.toNat) := by
  simp [aluFn, BitVec.ofNat_add]

theorem aluFn_add_int : aluFn .add A B = BitVec.ofInt 64 (A.toInt + B.toInt) := by
  simp [aluFn, BitVec.ofInt_add]

theorem aluFn_sub : aluFn .sub A B = BitVec.ofInt 64 (A.toInt - B.toInt) := by
  simp [aluFn, Int.sub_eq_add_neg, BitVec.ofInt_add, BitVec.ofInt_neg, BitVec.sub_eq_add_neg]

theorem aluFn_shl : aluFn .shl A B = BitVec.ofNat 64 (A.toNat * 2 ^ (B.toNat % 64)) := by
  refine BitVec.eq_of_toNat_eq ?_
  simp [aluFn, Nat.shiftLeft_eq]

theorem aluFn_shr : aluFn .shr A B = BitVec.ofNat 64 (A.toNat / 2 ^ (B.toNat % 64)) := by
  refine BitVec.eq_of_toNat_eq ?_
  have hlt : A.toNat / 2 ^ (B.toNat % 64) < 2 ^ 64 := (Nat.div_le_self ..).trans_lt A.isLt
  rw [BitVec.toNat_ofNat, Nat.mod_eq_of_lt hlt]
  simp [aluFn, Nat.shiftRight_eq_div_pow]

theorem aluFn_sra : aluFn .sra A B = BitVec.ofInt 64 (A.toInt / 2 ^ (B.toNat % 64)) := by
  simp [aluFn, BitVec.sshiftRight, Int.shiftRight_eq_div_pow]

theorem aluFn_min : aluFn .min A B = if A.toInt ≤ B.toInt then A else B := by
  have hslt : A.slt B = decide (A.toInt < B.toInt) := rfl
  rcases lt_trichotomy A.toInt B.toInt with h | h | h
  · simp [aluFn, hslt, h, h.le]
  · simp [aluFn, BitVec.toInt_inj.1 h]
  · simp [aluFn, hslt, h.not_gt, h.not_ge]

theorem aluFn_max : aluFn .max A B = if A.toInt ≤ B.toInt then B else A := by
  have hslt : A.slt B = decide (A.toInt < B.toInt) := rfl
  rcases lt_trichotomy A.toInt B.toInt with h | h | h
  · simp [aluFn, hslt, h, h.le]
  · simp [aluFn, BitVec.toInt_inj.1 h]
  · simp [aluFn, hslt, h.not_gt, h.not_ge]

theorem aluFn_cmplt : aluFn .cmplt A B = if A.toInt < B.toInt then 1#64 else 0#64 := by
  simp [aluFn, BitVec.slt]

theorem aluFn_cmpltu : aluFn .cmpltu A B = if A.toNat < B.toNat then 1#64 else 0#64 := by
  simp [aluFn, BitVec.ult]

theorem mul_eq_low : A * B = BitVec.ofNat 64 (A.toNat * B.toNat % 2 ^ 64) := by
  refine BitVec.eq_of_toNat_eq ?_
  simp

end

/-- imm28 read as a signed number (04 R72). -/
def imm28Int (imm : Nat) : Int := if imm < 2 ^ 27 then (imm : Int) else (imm : Int) - 2 ^ 28

/-- The sign extension of imm28 is its signed reading. -/
theorem signExtend_imm28 {imm : Nat} (h : imm < 2 ^ 28) : (BitVec.ofNat 28 imm).signExtend 64 = BitVec.ofInt 64 (imm28Int imm) := by
  have hint : (BitVec.ofNat 28 imm).toInt = imm28Int imm := by
    rw [BitVec.toInt_eq_toNat_cond, BitVec.toNat_ofNat, Nat.mod_eq_of_lt h]
    unfold imm28Int
    split <;> split <;> omega
  rw [BitVec.signExtend, hint]

theorem toInt_imm28 {imm : Nat} (h : imm < 2 ^ 28) : (BitVec.ofInt 64 (imm28Int imm)).toInt = imm28Int imm := by
  rw [BitVec.toInt_ofInt_eq_self (by decide)]
  · unfold imm28Int; split <;> omega
  · unfold imm28Int; split <;> omega

/-- The immediates that are extended by zeros (04 R72). -/
def AluOp.zeroImm (o : AluOp) : Bool := o ∈ [.and, .or, .xor, .shl, .shr, .sra]

theorem immOf_zero {o : AluOp} (h : o.zeroImm = true) (imm : Nat) : immOf o imm = BitVec.ofNat 64 imm := by
  cases o <;> simp_all [AluOp.zeroImm, immOf]

theorem immOf_sign {o : AluOp} (h : o.zeroImm = false) {imm : Nat} (hi : imm < 2 ^ 28) : immOf o imm = BitVec.ofInt 64 (imm28Int imm) := by
  cases o <;> simp_all [AluOp.zeroImm, immOf, signExtend_imm28 hi]

end Sys2Proof.Machine

namespace Sys2Proof.Machine
open Sys2Proof

/-! ### The R and I formats as commands (04 R72) -/

/-- The command of an R-format operation. -/
def aluCmd (uid d a b : Nat) : AluOp → Instr
  | .add => .sadd uid d a b | .sub => .ssub uid d a b | .and => .sand uid d a b | .or => .sor uid d a b | .xor => .sxor uid d a b
  | .shl => .sshl uid d a b | .shr => .sshr uid d a b | .sra => .ssra uid d a b | .min => .smin uid d a b | .max => .smax uid d a b
  | .cmpeq => .scmpeq uid d a b | .cmplt => .scmplt uid d a b | .cmpltu => .scmpltu uid d a b

/-- The command of an I-format operation. -/
def aluiCmd (uid d a imm : Nat) : AluOp → Instr
  | .add => .saddi uid d a imm | .sub => .ssubi uid d a imm | .and => .sandi uid d a imm | .or => .sori uid d a imm
  | .xor => .sxori uid d a imm | .shl => .sshli uid d a imm | .shr => .sshri uid d a imm | .sra => .ssrai uid d a imm
  | .min => .smini uid d a imm | .max => .smaxi uid d a imm | .cmpeq => .scmpeqi uid d a imm | .cmplt => .scmplti uid d a imm
  | .cmpltu => .scmpltui uid d a imm

theorem exec_aluCmd_eq (uid d a b : Nat) (o : AluOp) (s : State) :
    exec (aluCmd uid d a b o) s = run (aluCmd uid d a b o) (issueOne s uid fun s => issueS s uid (.alu o d a b) true) := by
  cases o <;> rfl

theorem exec_aluiCmd_eq (uid d a imm : Nat) (o : AluOp) (s : State) :
    exec (aluiCmd uid d a imm o) s = run (aluiCmd uid d a imm o) (issueOne s uid fun s => issueS s uid (.alui o d a imm) true) := by
  cases o <;> rfl

theorem aluCmd_wf (uid d a b : Nat) (o : AluOp) : (aluCmd uid d a b o).wf = (okUid uid && okReg d && okReg a && okReg b) := by
  cases o <;> rfl

theorem aluiCmd_wf (uid d a imm : Nat) (o : AluOp) : (aluiCmd uid d a imm o).wf = (okUid uid && okReg d && okReg a && okImm imm) := by
  cases o <;> rfl

section
variable {s : State} {uid d a : Nat} (hs : Issuing s uid) (hu : uid < 240) (hd : d < 64) (ha : a < 64)
include hs hu hd ha

/-- An R-format operation lands its value at t + 1, and nothing else changes. -/
theorem exec_aluCmd {b : Nat} (hb : b < 64) (o : AluOp) :
    exec (aluCmd uid d a b o) s = .next (Issued s uid .s 1 [.sreg d (aluFn o ((s.core uid).sreg a) ((s.core uid).sreg b))]) :=
  exec_issues (exec_aluCmd_eq ..) (by simp [aluCmd_wf, okUid, okReg, hu, hd, ha, hb]) hs rfl

/-- An I-format operation lands its value at t + 1, and nothing else changes. -/
theorem exec_aluiCmd {imm : Nat} (hi : imm < 2 ^ 28) (o : AluOp) :
    exec (aluiCmd uid d a imm o) s = .next (Issued s uid .s 1 [.sreg d (aluFn o ((s.core uid).sreg a) (immOf o imm))]) :=
  exec_issues (exec_aluiCmd_eq ..) (by simp only [aluiCmd_wf, okUid, okReg, okImm, hu, hd, ha, hi]; rfl) hs rfl

end

/-- Settles O7: every operation of the format lands the value of `aluFn`, which is that of the rule; the multiplies land their half. -/
theorem scalarRegisterForms : Obligations.ScalarRegisterForms := by
  refine ⟨fun s uid d a b hs hu hd ha hb => ?_, fun s uid d a b hs hu hd ha hb => ?_⟩
  · intro A B k lands
    have lands_aluFn (o : AluOp) {v : Word64} (hv : aluFn o A B = v) : exec (aluCmd uid d a b o) s = lands v :=
      hv ▸ exec_aluCmd hs hu hd ha hb o
    exact ⟨lands_aluFn .add (aluFn_add A B), lands_aluFn .sub (aluFn_sub A B), lands_aluFn .and rfl, lands_aluFn .or rfl,
      lands_aluFn .xor rfl, lands_aluFn .shl (aluFn_shl A B), lands_aluFn .shr (aluFn_shr A B), lands_aluFn .sra (aluFn_sra A B),
      lands_aluFn .min (aluFn_min A B), lands_aluFn .max (aluFn_max A B), lands_aluFn .cmpeq rfl, lands_aluFn .cmplt (aluFn_cmplt A B),
      lands_aluFn .cmpltu (aluFn_cmpltu A B)⟩
  · intro A B
    have hwf : (okUid uid && okReg d && okReg a && okReg b) = true := by simp [okUid, okReg, hu, hd, ha, hb]
    rw [← mul_eq_low]
    exact ⟨exec_issues (c := .smul uid d a b) rfl hwf hs rfl, exec_issues (c := .smulhu uid d a b) rfl hwf hs rfl,
      exec_issues (c := .smulhs uid d a b) rfl hwf hs rfl⟩

/-- Settles O8: as O7, with the immediate extended by its sign or by zeros. -/
theorem scalarImmediateForms : Obligations.ScalarImmediateForms := by
  intro s uid d a imm hs hu hd ha hi A Z x X k lands
  have hx : X.toInt = x := toInt_imm28 hi
  have hk : Z.toNat % 64 = k := by
    rw [BitVec.toNat_ofNat, Nat.mod_mod_of_dvd _ (by decide)]
  have lands_aluFn {B : Word64} (o : AluOp) (hB : immOf o imm = B) {v : Word64} (hv : aluFn o A B = v) :
      exec (aluiCmd uid d a imm o) s = lands v := by subst hB hv; exact exec_aluiCmd hs hu hd ha hi o
  have lands_zero (o : AluOp) (ho : o.zeroImm = true) {v : Word64} := lands_aluFn o (immOf_zero ho imm) (v := v)
  have lands_sign (o : AluOp) (ho : o.zeroImm = false) {v : Word64} := lands_aluFn o (immOf_sign ho hi) (v := v)
  exact ⟨lands_sign .add rfl (hx ▸ aluFn_add_int A X), lands_sign .sub rfl (hx ▸ aluFn_sub A X), lands_zero .and rfl rfl, lands_zero .or rfl rfl,
    lands_zero .xor rfl rfl, lands_zero .shl rfl (hk ▸ aluFn_shl A Z), lands_zero .shr rfl (hk ▸ aluFn_shr A Z),
    lands_zero .sra rfl (hk ▸ aluFn_sra A Z), lands_sign .min rfl (hx ▸ aluFn_min A X), lands_sign .max rfl (hx ▸ aluFn_max A X),
    lands_sign .cmpeq rfl rfl, lands_sign .cmplt rfl (hx ▸ aluFn_cmplt A X), lands_sign .cmpltu rfl (aluFn_cmpltu A X)⟩

end Sys2Proof.Machine

namespace Sys2Proof.Machine
open Sys2Proof

/-! ### A core's record written twice -/

theorem terase_tins_self {α : Type} (k : Nat) (v : α) : (t : Tbl α) → terase k (tins k v t) = terase k t
  | [] => by simp [tins, terase]
  | (j, w) :: t => by
    have ih := terase_tins_self k v t
    unfold terase at ih ⊢
    by_cases hj : k < j
    · simp [tins, hj]
    · simp [tins, hj, List.filter_cons, ih]

/-- Of two writes of one key the second stands. -/
theorem tset_tset {α : Type} [DecidableEq α] (d : Nat → α) (t : Tbl α) (k : Nat) (v w : α) : tset d (tset d t k v) k w = tset d t k w := by
  have herase : terase k (tset d t k v) = terase k t := by
    have htwice : terase k (terase k t) = terase k t := by simp [terase]
    unfold tset
    split
    · exact htwice
    · rw [terase_tins_self, htwice]
  show (if w = d k then terase k (tset d t k v) else tins k w (terase k (tset d t k v))) = _
  rw [herase]; rfl

@[simp] theorem State.setCore_setCore (s : State) (u : Nat) (c c' : CoreSt) : (s.setCore u c).setCore u c' = s.setCore u c' := by
  simp only [State.setCore, tset_tset]

/-! ### Branches and no-operations (04 R72, R73) -/

/-- A taken branch redirects the fourth position after the present one. -/
theorem setCore_redirect (s : State) (uid : Nat) {target : Nat} (h : target < 2 ^ 13) :
    s.setCore uid ((s.core uid).redirect target) = Redirected s uid target := by
  rw [CoreSt.redirect, Nat.mod_eq_of_lt h]; rfl

/-- A branch to a register's value takes its low 13 bits. -/
theorem setCore_redirect_mod (s : State) (uid target : Nat) :
    s.setCore uid ((s.core uid).redirect target) = Redirected s uid (target % 2 ^ 13) := rfl

/-- The link of a branch is issued beside its redirect. -/
theorem setCore_redirect_issueW (s : State) (uid : Nat) {target : Nat} (h : target < 2 ^ 13) (sl : Slot) (lat : Nat) (ws : List Wr) :
    s.setCore uid (((s.core uid).redirect target).issueW sl lat ws) = Issued (Redirected s uid target) uid sl lat ws := by
  rw [← setCore_issueW, ← setCore_redirect s uid h, State.core_setCore, State.setCore_setCore]

theorem issueS_brz (s : State) (uid a : Nat) {target : Nat} (h : target < 2 ^ 13) :
    issueS s uid (.brz a target) true = .ok (if (s.core uid).sreg a = 0#64 then Redirected s uid target else s) := by
  by_cases hA : (s.core uid).sreg a = 0#64 <;> simp [issueS, hA, setCore_redirect s uid h]

theorem issueS_brnz (s : State) (uid a : Nat) {target : Nat} (h : target < 2 ^ 13) :
    issueS s uid (.brnz a target) true = .ok (if (s.core uid).sreg a = 0#64 then s else Redirected s uid target) := by
  by_cases hA : (s.core uid).sreg a = 0#64 <;> simp [issueS, hA, setCore_redirect s uid h]

/-- Settles O10: each branch by whether it is taken; the no-operations leave the state as it is. -/
theorem branchesAndNoOperations : Obligations.BranchesAndNoOperations := by
  refine ⟨fun s uid a target hs hu ha ht => ?_, fun s => ⟨rfl, rfl, rfl, rfl, rfl, rfl⟩⟩
  intro A
  have hwf : (okUid uid && okReg a && okTarget target) = true := by
    simp only [okUid, okReg, okTarget, hu, ha, ht]; rfl
  have hwf_br : (okUid uid && okTarget target) = true := by simp only [okUid, okTarget, hu, ht]; rfl
  have hwf_bri : (okUid uid && okReg a) = true := by simp only [okUid, okReg, hu, ha]; rfl
  exact ⟨exec_issues (c := .br uid target) rfl hwf_br hs (congrArg Except.ok (setCore_redirect s uid ht)),
    exec_issues (c := .brz uid a target) rfl hwf hs (issueS_brz s uid a ht),
    exec_issues (c := .brnz uid a target) rfl hwf hs (issueS_brnz s uid a ht),
    exec_issues (c := .bri uid a) rfl hwf_bri hs (congrArg Except.ok (setCore_redirect_mod s uid _)),
    exec_issues (c := .brl uid a target) rfl hwf hs (congrArg Except.ok (setCore_redirect_issueW s uid ht ..))⟩

end Sys2Proof.Machine

namespace Sys2Proof.Machine
open Sys2Proof

/-! ### Requests to free lanes (05 R94 to R96) -/

@[simp] theorem State.setTile_setTile (s : State) (n : Nat) (t t' : TileSt) : (s.setTile n t).setTile n t' = s.setTile n t' := by
  simp only [State.setTile, tset_tset]

/-- A tile whose lanes nobody holds or waits for, in a cycle that is open to its cores. -/
structure TileSt.Free (t : TileSt) : Prop where
  claims : t.claims = []
  denied : t.denied = []
  closed : t.closed = false

/-- A core's request to free lanes is granted whole. -/
theorem present_of_free {s : State} {tile : Nat} (h : (s.tile tile).Free) (uid : Nat) (k : ReqKind) (write : Bool) (segs : List (Nat × Nat)) :
    present s tile (.core uid) k write segs = (true, s.setTile tile ((s.tile tile).grant ⟨.core uid, k, segs, write, 0, .asks⟩)) := by
  simp [present, TileSt.fits, behind, h.claims, h.denied, h.closed, lanesFree, engineRoom, Requester.moves]

theorem setTile_nextCycle (s : State) (tile n : Nat) (t : TileSt) : (s.nextCycle tile n).setTile tile t = s.setTile tile t := by
  rw [State.nextCycle, State.modTile, State.setTile_setTile]

theorem closed_nextCycle (s : State) (tile n : Nat) : ((s.nextCycle tile n).tile tile).closed = false := by
  simp [State.nextCycle, State.modTile, newTileCycle]

/-- In a cycle that is closed to the cores a request is presented in the next one (05 R96). -/
theorem present_of_closed {s : State} {tile : Nat} (h : (s.tile tile).closed = true) (uid : Nat) (k : ReqKind) (write : Bool)
    (segs : List (Nat × Nat)) : present s tile (.core uid) k write segs = present (s.nextCycle tile 1) tile (.core uid) k write segs := by
  simp [present, h, closed_nextCycle, Requester.moves]

/-- A core's request to lanes that nobody holds or waits for is granted whole: at once, or in the next tile cycle where this one is closed. -/
theorem present_of_idle {s : State} {tile : Nat} (hc : (s.tile tile).claims = []) (hd : (s.tile tile).denied = []) (uid : Nat) (k : ReqKind)
    (write : Bool) (segs : List (Nat × Nat)) : ∃ t, present s tile (.core uid) k write segs = (true, s.setTile tile t) := by
  cases hclosed : (s.tile tile).closed
  · exact ⟨_, present_of_free ⟨hc, hd, hclosed⟩ uid k write segs⟩
  · have hfree : ((s.nextCycle tile 1).tile tile).Free := by
      refine ⟨?_, ?_, closed_nextCycle ..⟩ <;> simp [State.nextCycle, State.modTile, newTileCycle, hd]
    have h := present_of_free hfree uid k write segs
    rw [setTile_nextCycle] at h
    exact ⟨_, (present_of_closed hclosed uid k write segs).trans h⟩

/-- The record that a load leaves in flight when its lanes are free (05 R94). -/
def loadFly (s : State) (uid : Nat) (sl : Slot) (k : LdKind) (segs : List (Nat × Nat)) : Fly :=
  { due := (s.core uid).cyc + 14, slot := sl, seq := (s.core uid).seq, bundle := (s.core uid).pc, rep := (s.core uid).rep, segs := segs,
    writes := loadWrites k (spadReadSegs s (uid / 4) segs), ue := firstUe s (uid / 4) segs }

/-- A load on free lanes is in flight with the bytes that stand in the scratchpad. -/
theorem issueLoad_of_idle {s : State} {uid : Nat} (h : LanesIdle s (uid / 4)) (sl : Slot) (unit : Nat) (k : LdKind) (len : Nat)
    (segs : List (Nat × Nat)) : ∃ t, issueLoad s uid sl unit k len (some segs) = (s.setTile (uid / 4) t).setCore uid
      { s.core uid with flies := (s.core uid).flies ++ [loadFly s uid sl k segs], seq := (s.core uid).seq + 1 } := by
  obtain ⟨hc, hd, -⟩ := h
  obtain ⟨t, ht⟩ := present_of_idle hc hd uid (.load (s.core uid).seq unit) false segs
  exact ⟨t, by simp only [issueLoad, ht]; rfl⟩

/-! ### Bytes read and written (00 R6; 05 R89) -/

@[simp] theorem length_spadRead (s : State) (tile off n : Nat) : (spadRead s tile off n).length = n := by simp [spadRead]

theorem takePad_of_length {n : Nat} {l : List Byte} (h : l.length = n) : takePad n l = l := by simp [takePad, h]

/-- One range is read as its bytes. -/
theorem spadReadSegs_one (s : State) (tile off n : Nat) : spadReadSegs s tile [(off, n)] = spadRead s tile off n := by
  simp [spadReadSegs]

/-- One range is written with its bytes. -/
theorem scatter_one {n : Nat} {bs : List Byte} (h : bs.length = n) (off : Nat) : scatter [(off, n)] bs = [.sp off bs] := by
  simp [scatter, takePad_of_length h]

/-- A store of one range captures its bytes at issue (04 R80). -/
theorem issueStore_one (s : State) (uid : Nat) (sl : Slot) {n : Nat} {bs : List Byte} (h : bs.length = n) (off : Nat) :
    issueStore s uid sl (some [(off, n)]) bs = Issued s uid sl 3 [.sp off bs] := by
  simp only [issueStore, scatter_one h]; rfl

/-- The eight bytes of a scalar load. -/
theorem loadWrites_scl (s : State) (tile off d : Nat) :
    loadWrites (.scl d) (spadReadSegs s tile [(off, 8)]) = [.sreg d (BitVec.ofNat 64 (leNat (spadRead s tile off 8)))] := by
  rw [spadReadSegs_one, loadWrites, takePad_of_length (length_spadRead ..)]

/-! ### Sticky flags and CSRs (04 R75) -/

/-- A sticky flag is set. -/
theorem sticky_setSticky (c : CoreSt) {b : Nat} (hb : b < 64) : ((c.setSticky b).csr 0x020).getLsbD b = true := by
  unfold CoreSt.setSticky CoreSt.csr csrSticky
  rw [tget_tset_self, BitVec.getLsbD_or, BitVec.getLsbD_shiftLeft]
  simp [hb]

/-- A listed CSR is read with its value. -/
theorem csrRead_of_listed (c : CoreSt) (uid : Nat) {n : Nat} (h : n ∈ [0x010, 0x011, 0x012, 0x013, 0x014, 0x018, 0x019, 0x020, 0x021]) :
    csrRead c uid n = some (c.csr n) := by
  simp only [List.mem_cons, List.not_mem_nil, or_false] at h
  rcases h with rfl | rfl | rfl | rfl | rfl | rfl | rfl | rfl | rfl <;> rfl

/-- A CSR that the table does not list. -/
theorem csrRead_of_unlisted (c : CoreSt) (uid : Nat) {n : Nat}
    (h : n ∉ [0x000, 0x001, 0x002, 0x003, 0x010, 0x011, 0x012, 0x013, 0x014, 0x018, 0x019, 0x020, 0x021]) : csrRead c uid n = none := by
  simp only [List.mem_cons, List.not_mem_nil, or_false, not_or] at h
  simp [csrRead, csrRound, csrSeed, csrPrec, csrWinA, csrWinB, csrWaitTo, csrTrap, csrSticky, csrColl, h]

/-! ### Loads, stores and CSR operations of the S slot (04 R72, R75) -/

/-- An aligned offset inside the scratchpad may be accessed. -/
theorem sAddr_of_aligned {A : Word64} {imm o : Nat} (ho : o = sOffset A imm) (hmod : o % 8 = 0) (hlt : o < 0x4000000) : sAddr A imm = some o := by
  subst ho
  have hspad : ¬ sOffset A imm ≥ spadBytes := not_le.2 hlt
  simp [sAddr, hmod, hspad]

section
variable {s : State} {uid d a imm o : Nat} (ho : sAddr ((s.core uid).sreg a) imm = some o)
include ho

theorem issueS_ld : issueS s uid (.ld d a imm) true = .ok (issueLoad s uid .s 2 (.scl d) 8 (some [(o, 8)])) := by
  simp only [issueS, ho]

theorem issueS_st : issueS s uid (.st d a imm) true = .ok (Issued s uid .s 3 [.sp o (leBytes 8 ((s.core uid).sreg d).toNat)]) := by
  simp only [issueS, ho, issueStore_one _ _ _ (length_leBytes ..)]

end

theorem issueS_csrr {s : State} {uid n : Nat} {v : Word64} (h : csrRead (s.core uid) uid n = some v) (d : Nat) :
    issueS s uid (.csrr d n) true = .ok (Issued s uid .s 1 [.sreg d v]) := by
  simp only [issueS, h]; rfl

theorem issueS_csrr_of_unlisted {s : State} {uid n : Nat} (h : csrRead (s.core uid) uid n = none) (d : Nat) :
    issueS s uid (.csrr d n) true = .ok (s.setCore uid (((s.core uid).setSticky stBadCsr).issueW .s 1 [.sreg d 0#64])) := by
  simp only [issueS, h]; rfl

/-- Settles O9: the loads and stores by their offset, the CSR reads by whether the table lists the number. -/
theorem scalarMemoryAndCsrIssue : Obligations.ScalarMemoryAndCsrIssue := by
  refine ⟨fun s uid d a imm o hs hu hd ha hi hidle ho hmod hlt => ?_, fun s uid d n hs hu hd hn => ?_⟩
  · have hwf : (okUid uid && okReg d && okReg a && okImm imm) = true := by simp only [okUid, okReg, okImm, hu, hd, ha, hi]; rfl
    have haddr := sAddr_of_aligned ho hmod hlt
    obtain ⟨t, ht⟩ := issueLoad_of_idle hidle .s 2 (.scl d) 8 [(o, 8)]
    refine ⟨⟨_, exec_issues (c := .sld uid d a imm) rfl hwf hs (issueS_ld haddr), ?_⟩,
      exec_issues (c := .sst uid d a imm) rfl hwf hs (issueS_st haddr)⟩
    rw [ht]
    exact ⟨rfl, rfl, loadFly s uid .s (.scl d) [(o, 8)], by rw [State.core_setCore], rfl, rfl, loadWrites_scl ..⟩
  · intro c reads
    have hwf : (okUid uid && okReg d && decide (n < 2 ^ 12)) = true := by simp only [okUid, okReg, hu, hd, hn]; rfl
    have reads_some {v : Word64} (hv : csrRead c uid n = some v) : reads v := exec_issues (c := .scsrr uid d n) rfl hwf hs (issueS_csrr hv d)
    refine ⟨fun h => reads_some (by subst h; rfl), fun h => reads_some (by subst h; rfl), fun h => reads_some (by subst h; rfl),
      fun h => reads_some (by subst h; rfl),
      fun h => reads_some (csrRead_of_listed c uid h), fun h => ?_, exec_issues (c := .scsrw uid d n) rfl hwf hs rfl⟩
    refine ⟨_, exec_issues (c := .scsrr uid d n) rfl hwf hs (issueS_csrr_of_unlisted (csrRead_of_unlisted c uid h) d), ?_⟩
    rw [State.core_setCore]
    exact ⟨sticky_setSticky c (b := stBadCsr) (by decide), _, rfl, rfl, rfl⟩

end Sys2Proof.Machine

namespace Sys2Proof.Machine
open Sys2Proof

/-! ### A core that halts (04 R86; 09 R184) -/

section
variable {α : Type} {g : State → α}

theorem haltFlight_keeps (hg : ∀ s f n, g { s with flights := f, fenced := n } = g s) (s : State) (part fid ix : Nat) (dropped : Bool) :
    g (haltFlight s part fid ix dropped) = g s := by
  simp only [haltFlight]
  split <;> simp only [modFlight, hg]

/-- A halt leaves what neither an error entry, nor the core's record, nor its flight's touches. -/
theorem coreHalt_keeps (he : ApartFromErrors g) (hf : ∀ s f n, g { s with flights := f, fenced := n } = g s) (s : State)
    (uid cause addr bundle rep : Nat) (sl : Slot) (q4 : List Nat) (link : Option Nat) (up : Bool) (hc : ∀ c, g (s.setCore uid c) = g s) :
    g (coreHalt s uid cause addr bundle rep sl q4 link up) = g s := by
  unfold coreHalt
  rw [haltFlight_keeps hf, errRaise_keeps he]
  exact hc _

end

theorem core_apartFromErrors (u : Nat) : ApartFromErrors fun s => s.core u :=
  ⟨fun _ _ _ => rfl, fun _ _ => rfl, fun _ _ => rfl, fun _ _ => rfl, fun _ _ _ => rfl, fun _ _ _ => rfl⟩

section
variable {s : State} {uid : Nat} (hrun : (s.core uid).phase = .run) (cause addr bundle rep : Nat) (sl : Slot) (q4 : List Nat)
  (link : Option Nat) (up : Bool)

include hrun in
/-- A core that was issuing stops, and keeps everything else of its record. -/
theorem core_coreHalt : (coreHalt s uid cause addr bundle rep sl q4 link up).core uid = HaltedCore s (s.core uid) := by
  unfold coreHalt
  rw [haltFlight_keeps (g := fun s => s.core uid) fun _ _ _ => rfl, errRaise_keeps (core_apartFromErrors uid), State.core_setCore, if_pos hrun]
  rfl

/-- A halt writes nothing to the memories, and sends nothing. -/
theorem meshAndMemory_coreHalt : meshAndMemory (coreHalt s uid cause addr bundle rep sl q4 link up) = meshAndMemory s :=
  coreHalt_keeps ⟨fun _ _ _ => rfl, fun _ _ => rfl, fun _ _ => rfl, fun _ _ => rfl, fun _ _ _ => rfl, fun _ _ _ => rfl⟩ (fun _ _ _ => rfl)
    s uid cause addr bundle rep sl q4 link up fun _ => rfl

end

/-- A well-formed command whose operation is at fault stops its core. -/
theorem exec_halts {c : Instr} {s : State} {uid : Nat} {f : State → Except IssueErr State} (hexec : exec c s = run c (issueOne s uid f))
    (hwf : c.wf = true) (h : Issuing s uid) {cause addr : Nat} {sl : Slot} (hf : f s = .error (.halt cause addr sl)) :
    ∃ t, exec c s = .next t ∧ t.core uid = HaltedCore s (s.core uid) ∧ meshAndMemory t = meshAndMemory s :=
  ⟨_, exec_fails hexec hwf h hf, core_coreHalt h.1 .., meshAndMemory_coreHalt ..⟩

theorem spad_of_meshAndMemory {s t : State} (h : meshAndMemory t = meshAndMemory s) : t.spad = s.spad := congrArg (·.2.2.1) h
theorem mesh_of_meshAndMemory {s t : State} (h : meshAndMemory t = meshAndMemory s) : t.mesh = s.mesh := congrArg (·.1) h
theorem hbm_of_meshAndMemory {s t : State} (h : meshAndMemory t = meshAndMemory s) : t.hbm = s.hbm := congrArg (·.2.2.2.1) h

/-! ### The vector slot (04 R69, R76, R77; 07 R131, R133) -/

theorem exec_vCmd_eq (uid : Nat) (f : VArg) (op : VOpc) (s : State) :
    exec (vCmd uid f op) s = run (vCmd uid f op) (issueOne s uid fun s => issueV s uid op f) := by
  cases op <;> rfl

theorem vCmd_wf {uid : Nat} (hu : uid < 240) {f : VArg} (hf : VFieldsFit f) (op : VOpc) : (vCmd uid f op).wf = true := by
  have hwf : (vCmd uid f op).wf = (okUid uid && f.ok) := by cases op <;> rfl
  obtain ⟨h1, h2, h3, h4, h5, h6, h7, h8, h9, h10, h11⟩ := hf
  simp [okUid, VArg.ok, *]

/-- The fields that an operation may carry are those that its decoder takes. -/
theorem vLegal_of_fieldsLegal {op : VOpc} {f : VArg} (h : VFieldsLegal op f) : vLegal op f = true := by
  obtain ⟨hpm, hfmt, hcvt, hopt, hcmp, hpred, hself, hvc⟩ := h
  unfold vLegal
  simp only [Bool.and_eq_true, Bool.or_eq_true, decide_eq_true_eq]
  refine ⟨⟨⟨hpm, ?fmt⟩, ?own⟩, ?third⟩
  case fmt => clear hpm hcmp hpred hself hvc; cases op <;> simp_all [fmtOk]
  case own => clear hpm hfmt hopt hvc; cases op <;> simp_all [← imp_iff_not_or]
  case third => clear hpm hfmt hcvt hopt hcmp hpred hself; cases op <;> simp_all

/-- The window that an operation names (04 R76; 05 R105). -/
def windowOf (c : CoreSt) (f : VArg) : Word64 := if f.src = 2 then c.csr 0x014 else c.csr 0x013

/-- The job that a vector operation begins (07 R131). -/
def vJobOf (c : CoreSt) (op : VOpc) (f : VArg) : VJob :=
  let w := (c.sreg f.s).toNat
  { op := op, vd := f.vd, va := f.va, vb := f.vb, vc := f.vc, pm := f.pm, n := f.n, rnd := f.rnd, fmt := f.fmt, sr := f.s, src := f.src
    t := c.cyc, seq := c.seq, bundle := c.pc, rep := c.rep, bcnt := c.bcount, sval := c.sreg f.s, round := c.csr 0x010, seed := c.csr 0x011
    win := windowOf c f, prec := c.csr 0x012, nanHalt := nbit (c.csr 0x019).toNat 0, nanDone := false, chunks := [], waiting := [], emitted := []
    bval := if op = .vbcast then (if f.src = 3 then BitVec.ofNat 32 w else if f.src = 1 ∨ f.src = 2 then 0#32 else c.velem f.va (w % 4096)) else 0#32
    scales := (List.range 128).map fun e => c.velem f.vb e }

section
variable {s : State} {uid : Nat} {op : VOpc} {f : VArg} (hlegal : VFieldsLegal op f)
include hlegal

/-- A legal operation given to a free engine begins, its window's rows reaching. -/
theorem issueV_of_free (hfree : (s.core uid).vbusy ≤ (s.core uid).cyc)
    (hwin : f.src = 1 ∨ f.src = 2 → (op = .vbcast ∨ ((s.core uid).sreg f.s).toNat % 128 = 0)
      ∧ ((s.core uid).sreg f.s).toNat + f.n ≤ 128 * winRows (windowOf (s.core uid) f)
      ∧ winEnd (windowOf (s.core uid) f) (if op = .vbcast then ((s.core uid).sreg f.s).toNat else ((s.core uid).sreg f.s).toNat + f.n - 1) ≤ spadBytes) :
    issueV s uid op f = .ok (s.setCore uid { s.core uid with
      vjobs := (s.core uid).vjobs ++ [vJobOf (s.core uid) op f], vbusy := (s.core uid).cyc + cdiv f.n 256, seq := (s.core uid).seq + 1 }) := by
  unfold issueV
  simp only [decide_eq_true_eq]
  rw [vLegal_of_fieldsLegal hlegal, if_neg (by simp), if_neg (not_lt.2 hfree), if_neg, if_neg]
  · rfl
  · rintro ⟨hsrc, hbeyond⟩
    obtain ⟨-, hrows, hend⟩ := hwin hsrc
    exact hbeyond.elim (not_lt.2 hrows) (not_lt.2 hend)
  · rintro ⟨hsrc, hop, hmod⟩
    exact (hwin hsrc).1.elim hop hmod

/-- An operation given to an occupied engine, or on a window that is not aligned or does not reach, is at fault. -/
theorem issueV_of_fault (h : (s.core uid).cyc < (s.core uid).vbusy
      ∨ (f.src = 1 ∨ f.src = 2) ∧ op ≠ .vbcast ∧ ((s.core uid).sreg f.s).toNat % 128 ≠ 0
      ∨ (f.src = 1 ∨ f.src = 2) ∧ 128 * winRows (windowOf (s.core uid) f) < ((s.core uid).sreg f.s).toNat + f.n) :
    ∃ cause addr, issueV s uid op f = .error (.halt cause addr .v) := by
  unfold issueV
  simp only [decide_eq_true_eq]
  rw [vLegal_of_fieldsLegal hlegal, if_neg (by simp)]
  split
  case isTrue => exact ⟨_, _, rfl⟩
  case isFalse hfree =>
    split
    case isTrue => exact ⟨_, _, rfl⟩
    case isFalse haligned =>
      obtain ⟨hsrc, hbeyond⟩ := (h.resolve_left hfree).resolve_left haligned
      rw [if_pos ⟨hsrc, Or.inl hbeyond⟩]
      exact ⟨_, _, rfl⟩

end

/-- Settles O11: what a legal operation captures is its job. -/
theorem vectorOperationBegins : Obligations.VectorOperationBegins := by
  intro s uid op f hs hu hfit hlegal hfree win w hwin
  refine ⟨_, vJobOf (s.core uid) op f, exec_issues (exec_vCmd_eq ..) (vCmd_wf hu hfit op) hs (issueV_of_free hlegal hfree hwin),
    State.core_setCore .., fun u hu => State.core_setCore_ne _ _ hu, ?_⟩
  exact ⟨rfl, rfl, rfl, rfl, rfl, rfl, rfl, rfl, rfl, rfl, rfl, rfl, rfl, rfl, rfl, rfl, rfl, rfl, rfl, rfl, rfl, rfl, rfl, fun _ => rfl⟩

/-! ### Bases, binds and skips at fault (04 R79, R80; 05 R99) -/

/-- A skip of a generator that no program is bound to. -/
theorem genSkip_of_unbound {c : CoreSt} {g : Nat} (h : (c.gen g).bound = false) : genSkip c g = .error (.fault 1 0) := by
  simp [genSkip, genReady, h]

section
variable {s : State} {uid : Nat}

theorem issueL_base_of_beyond {r : Nat} (h : 2 ^ 26 ≤ ((s.core uid).sreg r).toNat) (half : Nat) :
    issueL s uid half (.base r) = .error (.halt 4 (((s.core uid).sreg r).toNat % 2 ^ 48) .l) := by
  simp only [issueL]; rw [if_pos h]

theorem issueL_base3_of_beyond {r : Nat} (h : 2 ^ 26 ≤ ((s.core uid).sreg r).toNat) (hb : (s.core uid).shadowBusy ≤ (s.core uid).cyc)
    (half : Nat) : issueL s uid half (.base3 r) = .error (.halt 4 (((s.core uid).sreg r).toNat % 2 ^ 48) .l) := by
  simp only [issueL]; rw [if_neg (not_lt.2 hb), if_pos h]

theorem issueT_base_of_beyond {r : Nat} (h : 2 ^ 26 ≤ ((s.core uid).sreg r).toNat) :
    issueT s uid (.base r) = .error (.halt 4 (((s.core uid).sreg r).toNat % 2 ^ 48) .t) := by
  simp only [issueT]; rw [if_pos h]

theorem issueL_bind3_of_held (h : (s.core uid).cyc < (s.core uid).shadowBusy) (half p : Nat) :
    issueL s uid half (.bind3 p) = .error (.halt 3 0 .l) := by
  simp only [issueL]; rw [if_pos h]

theorem issueL_base3_of_held (h : (s.core uid).cyc < (s.core uid).shadowBusy) (half r : Nat) :
    issueL s uid half (.base3 r) = .error (.halt 3 0 .l) := by
  simp only [issueL]; rw [if_pos h]

theorem issueL_skip_of_unbound {half : Nat} (h : ((s.core uid).gen half).bound = false) : issueL s uid half .skip = .error (.halt 1 0 .l) := by
  simp only [issueL, genSkip_of_unbound h, ofGen]

theorem issueT_skip_of_unbound (h : ((s.core uid).gen 2).bound = false) : issueT s uid .skip = .error (.halt 1 0 .t) := by
  simp only [issueT, genSkip_of_unbound h, ofGen]

end

/-- Settles O16: each of the faults is found at issue, and stops the core with its record as it was. -/
theorem faultsStopTheCore : Obligations.FaultsStopTheCore := by
  refine ⟨fun s uid op f hs hu hfit hlegal hfault => ?_, fun s uid half p r hs hu hhalf hp hr => ?_⟩
  · obtain ⟨cause, addr, hf⟩ := issueV_of_fault hlegal hfault
    obtain ⟨t, ht, hcore, hmem⟩ := exec_halts (exec_vCmd_eq ..) (vCmd_wf hu hfit op) hs hf
    exact ⟨t, ht, hcore, spad_of_meshAndMemory hmem⟩
  · intro c stops
    have stops_of {i : Instr} {f : State → Except IssueErr State} {cause addr : Nat} {sl : Slot} (hexec : exec i s = run i (issueOne s uid f))
        (hwf : i.wf = true) (hf : f s = .error (.halt cause addr sl)) : stops i := by
      obtain ⟨t, ht, hcore, hmem⟩ := exec_halts hexec hwf hs hf
      exact ⟨t, ht, hcore, spad_of_meshAndMemory hmem⟩
    have hwf : okUid uid = true := decide_eq_true hu
    have hwf_half : (okUid uid && decide (half < 2)) = true := by simp [okUid, hu, hhalf]
    have hwf_reg : (okUid uid && decide (half < 2) && okReg r) = true := by simp [okUid, okReg, hu, hhalf, hr]
    have hwf_prog : (okUid uid && decide (half < 2) && decide (p < 32)) = true := by simp [okUid, hu, hhalf, hp]
    have hwf_tbase : (okUid uid && okReg r) = true := by simp [okUid, okReg, hu, hr]
    refine ⟨fun hbeyond => ⟨stops_of (i := .lbase uid half r) rfl hwf_reg (issueL_base_of_beyond hbeyond half),
        stops_of (i := .tbase uid r) rfl hwf_tbase (issueT_base_of_beyond hbeyond),
        fun hfree => stops_of (i := .lbase3 uid half r) rfl hwf_reg (issueL_base3_of_beyond hbeyond hfree half)⟩,
      fun hheld => ⟨stops_of (i := .lbind3 uid half p) rfl hwf_prog (issueL_bind3_of_held hheld half p),
        stops_of (i := .lbase3 uid half r) rfl hwf_reg (issueL_base3_of_held hheld half r)⟩,
      fun hunbound => stops_of (i := .lskip uid half) rfl hwf_half (issueL_skip_of_unbound hunbound),
      fun hunbound => stops_of (i := .tskip uid) rfl hwf (issueT_skip_of_unbound hunbound)⟩

end Sys2Proof.Machine

namespace Sys2Proof.Machine
open Sys2Proof

/-! ### A linear access of a generator (05 R99 to R102) -/

theorem foldl_add_eq_sum {β : Type} (f : β → Int) : (l : List β) → (b : Int) → l.foldl (fun a k => a + f k) b = b + (l.map f).sum
  | [], b => by simp
  | k :: l, b => by simp [foldl_add_eq_sum f l, add_assoc]

/-- An access that is linear and legal is one range at its address, and the generator advances. -/
theorem genAccess_of_linear {c : CoreSt} {g len a : Nat} (h : LinearAccess c g len a) {modes : Nat → Option Bool} (hm : modes 0 = some false) :
    genAccess c g len modes = .ok (some [(a, len)], c.setGen g (genAdvance (c.gen g) (c.stride (c.gen g).prog))) := by
  obtain ⟨hbound, hended, hlev, -, hmode, hind, haddr, hend, halign, hscalar⟩ := h
  have hready : genReady c g = .ok (c.gen g, c.stride (c.gen g).prog) := by
    simp [genReady, hbound, hended, Nat.ne_zero_of_lt hlev]
  have hlin : (genLin (c.gen g) (c.stride (c.gen g).prog)).1 = (a : Int) := (foldl_add_eq_sum _ _ _).trans haddr.symm
  have hnext : genAddr (c.gen g) (c.stride (c.gen g).prog) = .ok (some (a : Int), c.gen g, none) := by
    simp [genAddr, hind, hlin]
  have hsegs : accessSegs 0 len false (a : Int) = some [(a, len)] := by
    have hlegal : ¬ (a + len > spadBytes ∨ (len ≥ 256 ∧ a % 64 ≠ 0) ∨ (len = 8 ∧ a % 8 ≠ 0)) := by unfold spadBytes; omega
    simp only [accessSegs, Int.toNat_natCast, if_neg hlegal]
    rw [if_neg (by omega)]; rfl
  simp only [genAccess, hready, hmode, hm, hnext, hsegs]

/-- An access is counted. -/
theorem count_gen_setGen_advance (c : CoreSt) (g : Nat) (p : StrideP) :
    ((c.setGen g (genAdvance (c.gen g) p)).gen g).count = ((c.gen g).count + 1) % 2 ^ 48 := by
  simp [CoreSt.gen, CoreSt.setGen, genAdvance]

/-! ### Loads and stores (04 R79, R80, R94) -/

/-- Generator g of a core after its next access. -/
def CoreSt.accessed (c : CoreSt) (g : Nat) : CoreSt := c.setGen g (genAdvance (c.gen g) (c.stride (c.gen g).prog))

section
variable {s : State} {uid half a : Nat}

theorem issueL_feed_of_linear (h : LinearAccess (s.core uid) half (feedBytes ((s.core uid).csr csrPrec)) a) :
    issueL s uid half .feed = .ok (issueLoad (s.setCore uid ((s.core uid).accessed half)) uid .l half .feed
      (feedBytes ((s.core uid).csr csrPrec)) (some [(a, feedBytes ((s.core uid).csr csrPrec))])) := by
  simp only [issueL, genAccess_of_linear h (modes := modesFeed _) rfl, ofGen, CoreSt.accessed]

theorem issueL_vec_of_linear (h : LinearAccess (s.core uid) half 1024 a) (v ch : Nat) :
    issueL s uid half (.vec v ch) = .ok (issueLoad (s.setCore uid ((s.core uid).accessed half)) uid .l half
      (.vec v ((ch + (s.core uid).rep) % 16)) 1024 (some [(a, 1024)])) := by
  simp only [issueL, genAccess_of_linear h (modes := modesVec) rfl, ofGen, CoreSt.accessed]

theorem issueL_scl_of_linear (h : LinearAccess (s.core uid) half 8 a) (d : Nat) :
    issueL s uid half (.scl d) = .ok (issueLoad (s.setCore uid ((s.core uid).accessed half)) uid .l half (.scl d) 8 (some [(a, 8)])) := by
  simp only [issueL, genAccess_of_linear h (modes := modesLin) rfl, ofGen, CoreSt.accessed]

/-- A load on free lanes is in flight with its one write, due at t + 14; its generator has advanced, and no memory has changed. -/
theorem exec_load {i : Instr} {f : State → Except IssueErr State} (hexec : exec i s = run i (issueOne s uid f)) (hwf : i.wf = true)
    (hs : Issuing s uid) (hidle : LanesIdle s (uid / 4)) {k : LdKind} {len : Nat}
    (hf : f s = .ok (issueLoad (s.setCore uid ((s.core uid).accessed half)) uid .l half k len (some [(a, len)]))) {w : Wr}
    (hw : loadWrites k (spadRead s (uid / 4) a len) = [w]) :
    ∃ t f, exec i s = .next t ∧ (t.core uid).flies = (s.core uid).flies ++ [f] ∧ f.due = (s.core uid).cyc + 14 ∧ f.wait = false
      ∧ f.writes = [w] ∧ f.slot = .l ∧ t.spad = s.spad ∧ t.hbm = s.hbm ∧ t.regs = s.regs ∧ (t.core uid).sregs = (s.core uid).sregs
      ∧ (t.core uid).vregs = (s.core uid).vregs ∧ (t.core uid).fifo = (s.core uid).fifo
      ∧ ((t.core uid).gen half).count = (((s.core uid).gen half).count + 1) % 2 ^ 48 := by
  obtain ⟨t, ht⟩ := issueLoad_of_idle (s := s.setCore uid ((s.core uid).accessed half)) hidle .l half k len [(a, len)]
  rw [State.core_setCore] at ht
  refine ⟨_, loadFly (s.setCore uid ((s.core uid).accessed half)) uid .l k [(a, len)],
    exec_issues hexec hwf hs (hf.trans (congrArg Except.ok ht)), ?_⟩
  rw [State.core_setCore]
  refine ⟨rfl, ?_, rfl, ?_, rfl, rfl, rfl, rfl, rfl, rfl, rfl, count_gen_setGen_advance ..⟩
  · rw [loadFly, State.core_setCore]; rfl
  · rw [← hw, ← spadReadSegs_one]; rfl

/-- The four bytes of an element of a chunk. -/
theorem sliceB_of_chunk {bs : List Byte} (h : bs.length = 1024) {e : Nat} (he : e < 256) : sliceB bs (4 * e) 4 = (bs.drop (4 * e)).take 4 := by
  have hlen : 4 - (bs.drop (4 * e)).length = 0 := by rw [List.length_drop, h]; omega
  rw [sliceB, takePad, hlen, List.replicate_zero, List.append_nil]

/-- The elements of a vector load. -/
theorem loadWrites_vec {bs : List Byte} (h : bs.length = 1024) (v k : Nat) : loadWrites (.vec v k) bs
    = [.vch v k ((List.range 256).map fun e => (256 * k + e, BitVec.ofNat 32 (leNat ((bs.drop (4 * e)).take 4))))] := by
  unfold loadWrites
  refine congrArg (fun els => [Wr.vch v k els]) (List.map_congr_left fun e he => ?_)
  rw [sliceB_of_chunk h (List.mem_range.1 he)]

end

section
variable {s : State} {uid a : Nat}

theorem length_chunkBytes (c : CoreSt) (v ch w : Nat) : (chunkBytes c v ch w).length = 256 * w := by
  rw [chunkBytes, List.length_flatMap, List.map_congr_left (g := fun _ => w) fun _ _ => length_leBytes .., List.map_const', List.sum_replicate,
    List.length_range, smul_eq_mul]

/-- The record of an operation that will land its writes after some cycles (04 R66). -/
def CoreSt.flyOf (c : CoreSt) (sl : Slot) (lat : Nat) (ws : List Wr) : Fly :=
  { due := c.cyc + lat, slot := sl, seq := c.seq, bundle := c.pc, rep := c.rep, writes := ws }

theorem issueW_eq (c : CoreSt) (sl : Slot) (lat : Nat) (ws : List Wr) :
    c.issueW sl lat ws = { c with flies := c.flies ++ [c.flyOf sl lat ws], seq := c.seq + 1 } := rfl

/-- A store that a T-slot operation makes: one range, captured at issue, due at t + 3. -/
theorem issueStore_accessed {n : Nat} {bs : List Byte} (h : bs.length = n) :
    issueStore (s.setCore uid ((s.core uid).accessed 2)) uid .t (some [(a, n)]) bs
      = s.setCore uid (((s.core uid).accessed 2).issueW .t 3 [.sp a bs]) := by
  rw [issueStore_one _ _ _ h, ← setCore_issueW, State.core_setCore, State.setCore_setCore]

theorem issueT_vec_of_linear (h : LinearAccess (s.core uid) 2 1024 a) (v ch : Nat) : issueT s uid (.vec v ch)
    = .ok (s.setCore uid (((s.core uid).accessed 2).issueW .t 3 [.sp a (chunkBytes (s.core uid) v ((ch + (s.core uid).rep) % 16) 4)])) := by
  simp only [issueT, genAccess_of_linear h (modes := modesVec) rfl, ofGen]
  exact congrArg Except.ok (issueStore_accessed (length_chunkBytes ..))

theorem issueT_vec16_of_linear (h : LinearAccess (s.core uid) 2 512 a) (v ch : Nat) : issueT s uid (.vec16 v ch)
    = .ok (s.setCore uid (((s.core uid).accessed 2).issueW .t 3 [.sp a (chunkBytes (s.core uid) v ((ch + (s.core uid).rep) % 16) 2)])) := by
  simp only [issueT, genAccess_of_linear h (modes := modesT16) rfl, ofGen]
  exact congrArg Except.ok (issueStore_accessed (length_chunkBytes ..))

theorem issueT_vec8_of_linear (h : LinearAccess (s.core uid) 2 256 a) (v ch : Nat) : issueT s uid (.vec8 v ch)
    = .ok (s.setCore uid (((s.core uid).accessed 2).issueW .t 3 [.sp a (chunkBytes (s.core uid) v ((ch + (s.core uid).rep) % 16) 1)])) := by
  simp only [issueT, genAccess_of_linear h (modes := modesLin) rfl, ofGen]
  exact congrArg Except.ok (issueStore_accessed (length_chunkBytes ..))

theorem issueT_scl_of_linear (h : LinearAccess (s.core uid) 2 8 a) (r : Nat) : issueT s uid (.scl r)
    = .ok (s.setCore uid (((s.core uid).accessed 2).issueW .t 3 [.sp a (leBytes 8 ((s.core uid).sreg r).toNat)])) := by
  simp only [issueT, genAccess_of_linear h (modes := modesLin) rfl, ofGen]
  exact congrArg Except.ok (issueStore_accessed (length_leBytes ..))

/-- A store is in flight with its one write, due at t + 3; ag2 has advanced, and no memory has changed. -/
theorem exec_store {i : Instr} {f : State → Except IssueErr State} (hexec : exec i s = run i (issueOne s uid f)) (hwf : i.wf = true)
    (hs : Issuing s uid) {bs : List Byte} (hf : f s = .ok (s.setCore uid (((s.core uid).accessed 2).issueW .t 3 [.sp a bs]))) :
    ∃ t f, exec i s = .next t ∧ (t.core uid).flies = (s.core uid).flies ++ [f] ∧ f.due = (s.core uid).cyc + 3 ∧ f.writes = [.sp a bs]
      ∧ f.slot = .t ∧ t.spad = s.spad ∧ t.hbm = s.hbm ∧ t.regs = s.regs ∧ t.tiles = s.tiles ∧ (t.core uid).sregs = (s.core uid).sregs
      ∧ (t.core uid).vregs = (s.core uid).vregs ∧ ((t.core uid).gen 2).count = (((s.core uid).gen 2).count + 1) % 2 ^ 48 := by
  refine ⟨_, ((s.core uid).accessed 2).flyOf .t 3 [.sp a bs], exec_issues hexec hwf hs hf, ?_⟩
  rw [State.core_setCore]
  exact ⟨rfl, rfl, rfl, rfl, rfl, rfl, rfl, rfl, rfl, rfl, count_gen_setGen_advance ..⟩

end

/-- Settles O17: each load and store by the one range of its access. -/
theorem loadsAndStoresIssue : Obligations.LoadsAndStoresIssue := by
  refine ⟨fun s uid half v ch d a hs hu hhalf hv hch hd hidle => ?_, fun s uid v ch r a hs hu hv hch hr => ?_⟩
  · intro c flen bytes k loads
    have hwf_feed : (okUid uid && decide (half < 2)) = true := by simp [okUid, hu, hhalf]
    have hwf_vec : (okUid uid && decide (half < 2) && decide (v < 16) && decide (ch < 16)) = true := by simp [okUid, hu, hhalf, hv, hch]
    have hwf_scl : (okUid uid && decide (half < 2) && okReg d) = true := by simp [okUid, okReg, hu, hhalf, hd]
    exact ⟨fun h => exec_load (i := .lfeed uid half) rfl hwf_feed hs hidle (issueL_feed_of_linear h) rfl,
      fun h => exec_load (i := .lvec uid half v ch) rfl hwf_vec hs hidle (issueL_vec_of_linear h v ch) (loadWrites_vec (length_spadRead ..) v k),
      fun h => exec_load (i := .lscl uid half d) rfl hwf_scl hs hidle (issueL_scl_of_linear h d)
        ((congrArg _ (spadReadSegs_one ..).symm).trans (loadWrites_scl s (uid / 4) a d))⟩
  · intro c k els stores
    have hwf_vec : (okUid uid && decide (v < 16) && decide (ch < 16)) = true := by simp [okUid, hu, hv, hch]
    have hwf_scl : (okUid uid && okReg r) = true := by simp [okUid, okReg, hu, hr]
    exact ⟨fun h => exec_store (i := .tvec uid v ch) rfl hwf_vec hs (issueT_vec_of_linear h v ch),
      fun h => exec_store (i := .tvec16 uid v ch) rfl hwf_vec hs (issueT_vec16_of_linear h v ch),
      fun h => exec_store (i := .tvec8 uid v ch) rfl hwf_vec hs (issueT_vec8_of_linear h v ch),
      fun h => exec_store (i := .tscl uid r) rfl hwf_scl hs (issueT_scl_of_linear h r)⟩

end Sys2Proof.Machine

namespace Sys2Proof.Machine
open Sys2Proof

/-! ### Gate and milestone operations (04 R81 to R83; 09 R174, R175) -/

/-- The wait test is the sign of the difference. -/
theorem gateReached_iff (v target : BitVec 32) : gateReached v target = true ↔ 0 ≤ (v - target).toInt := by
  rw [gateReached, Bool.not_eq_true', BitVec.msb_eq_toInt, decide_eq_false_iff_not, not_lt]

/-- Tile 0x3F is the core's own, and so is its number. -/
theorem yTile_eq_iff {uid tile : Nat} : yTile uid tile = uid / 4 ↔ tile = 63 ∨ tile = uid / 4 := by
  unfold yTile; split <;> simp_all

theorem yTile_of_other {uid tile : Nat} (h : ¬ (tile = 63 ∨ tile = uid / 4)) : yTile uid tile = tile := if_neg fun h63 => h (.inl h63)

/-- A core with no write in flight has none left to wait for. -/
theorem lastWriteDue_of_none {c : CoreSt} (hf : c.flies = []) (hm : c.mms = []) : lastWriteDue c = 0 := by
  simp [lastWriteDue, hf, hm, lmax]

/-- The increment that a gate operation of its own tile holds until the next cycle (04 R82). -/
def CoreSt.ownInc (c : CoreSt) (uid g n : Nat) : HeldInc := ⟨c.cyc + 1, c.seq, uid / 4, g, n, c.pc, c.rep⟩

section
variable {s : State} {uid tile g : Nat}

/-- The Y-slot operation adds n to a gate. -/
def AddsTo (s : State) (uid : Nat) (op : YOp) (tile g n : Nat) : Prop :=
  (∃ imm, op = .inc tile g imm ∧ n = imm + 1) ∨ ∃ r, op = .add tile g r ∧ n = ((s.core uid).sreg r).toNat % 2 ^ 32

section
variable {op : YOp} {n : Nat} (hop : AddsTo s uid op tile g n)
include hop

/-- An increment that names no tile is at fault. -/
theorem issueY_add_of_noTile (h : tileFieldOk tile = false) : issueY s uid op = .error (.halt 1 0 .y) := by
  rcases hop with ⟨imm, rfl, rfl⟩ | ⟨r, rfl, rfl⟩ <;> simp [issueY, h]

variable (hok : tileFieldOk tile = true) (hf : (s.core uid).flies = []) (hm : (s.core uid).mms = [])
include hok hf hm

/-- An increment of the own tile is held until the next cycle. -/
theorem issueY_add_of_own (hown : tile = 63 ∨ tile = uid / 4) : issueY s uid op = .ok (s.setCore uid { s.core uid with
    held := (s.core uid).held ++ [(s.core uid).ownInc uid g n], seq := (s.core uid).seq + 1 }) := by
  have htile := yTile_eq_iff.2 hown
  rcases hop with ⟨imm, rfl, rfl⟩ | ⟨r, rfl, rfl⟩ <;>
    simp [issueY, hok, htile, lastWriteDue_of_none hf hm, CoreSt.ownInc]

/-- An increment of another tile leaves for it at once. -/
theorem issueY_add_of_other (hown : ¬ (tile = 63 ∨ tile = uid / 4)) : issueY s uid op
    = .ok (emitInc (s.setCore uid { s.core uid with seq := (s.core uid).seq + 1 }) uid
        ⟨0, (s.core uid).seq, tile, g, n, (s.core uid).pc, (s.core uid).rep⟩) := by
  have htile := yTile_of_other hown
  have hne : tile ≠ uid / 4 := fun h => hown (.inr h)
  rcases hop with ⟨imm, rfl, rfl⟩ | ⟨r, rfl, rfl⟩ <;>
    simp [issueY, hok, htile, hne, lastWriteDue_of_none hf hm]

end

/-- An increment of another tile goes over the mesh, tagged with the core's partition. -/
theorem emitInc_of_other {h : HeldInc} (hfatal : s.isFatal = false) (hne : h.tile ≠ uid / 4) : emitInc s uid h = { s with
    mesh := s.mesh ++ [⟨(s.core uid).part, .tile h.tile, .gateAdd h.gate h.amount (meshPort (s.tileSite (uid / 4)) (s.tileSite h.tile)),
      .core uid h.bundle h.rep⟩] } := by
  simp [emitInc, hfatal, hne]

/-- The one held increment of a core's own tile reaches its gate unit in the next cycle. -/
theorem releaseIncs_ownInc {x : State} {c : CoreSt} {n : Nat} (hfatal : x.isFatal = false)
    (hc : x.core uid = { c with cyc := c.cyc + 1, held := [c.ownInc uid g n] }) :
    (releaseIncs x uid).tile (uid / 4) = { x.tile (uid / 4) with
      gateOps := (x.tile (uid / 4)).gateOps ++ [⟨g, false, n, 4, .core uid c.pc c.rep⟩] } := by
  simp [releaseIncs, hc, CoreSt.ownInc, emitInc, hfatal, State.modTile]

theorem issueY_read (hown : tile = 63 ∨ tile = uid / 4) (r : Nat) : issueY s uid (.read tile g r)
    = .ok (Issued s uid .y 4 [.sreg r (BitVec.ofNat 64 (s.gate (uid / 4) g).toNat)]) := by
  simp [issueY, yTile_eq_iff.2 hown, setCore_issueW]

theorem issueY_wait_of_other (hown : ¬ (tile = 63 ∨ tile = uid / 4)) (r : Nat) : issueY s uid (.wait tile g r) = .error (.halt 1 0 .y) := by
  simp [issueY, mt yTile_eq_iff.1 hown]

theorem issueY_read_of_other (hown : ¬ (tile = 63 ∨ tile = uid / 4)) (r : Nat) : issueY s uid (.read tile g r) = .error (.halt 1 0 .y) := by
  simp [issueY, mt yTile_eq_iff.1 hown]

theorem issueY_wait_of_reached (hown : tile = 63 ∨ tile = uid / 4) {r : Nat}
    (h : 0 ≤ (s.gate (uid / 4) g - BitVec.ofNat 32 ((s.core uid).sreg r).toNat).toInt) : issueY s uid (.wait tile g r) = .ok s := by
  have hawait : yAwait s uid (.wait tile g r) = none := by
    simp only [yAwait, yTile_eq_iff.2 hown, if_pos ((gateReached_iff ..).2 h)]
  simp only [issueY, yTile_eq_iff.2 hown, hawait, ne_eq, not_true_eq_false, if_false]

theorem issueY_wait_of_behind (hown : tile = 63 ∨ tile = uid / 4) {r : Nat}
    (h : (s.gate (uid / 4) g - BitVec.ofNat 32 ((s.core uid).sreg r).toNat).toInt < 0) : issueY s uid (.wait tile g r)
      = .error (.hold (.gate (gateRef (uid / 4) g) (((s.core uid).sreg r).toNat % 2 ^ 32))) := by
  have hawait : yAwait s uid (.wait tile g r) = some (.gate (gateRef (uid / 4) g) (((s.core uid).sreg r).toNat % 2 ^ 32)) := by
    simp only [yAwait, yTile_eq_iff.2 hown, if_neg (mt (gateReached_iff ..).1 (not_le.2 h))]
  simp only [issueY, yTile_eq_iff.2 hown, hawait, ne_eq, not_true_eq_false, if_false]

theorem issueY_mwait_of_reached {r : Nat} (h : ((s.core uid).sreg r).toNat ≤ s.mile) : issueY s uid (.mwait r) = .ok s := by
  have hawait : yAwait s uid (.mwait r) = none := if_pos (.inl h)
  simp only [issueY, hawait]

theorem issueY_mwait_of_before {r : Nat} (h : s.mile < ((s.core uid).sreg r).toNat) (hw : (s.core uid).wait = none) :
    issueY s uid (.mwait r) = .error (.hold (.mile ((s.core uid).sreg r).toNat)) := by
  have hawait : yAwait s uid (.mwait r) = some (.mile ((s.core uid).sreg r).toNat) :=
    if_neg (not_or.2 ⟨not_le.2 h, by simp [hw]⟩)
  simp only [issueY, hawait]

/-- A core that begins to wait stands still for a cycle, which is counted, and keeps what it awaits and since when. -/
theorem applyIssueErr_hold (hw : (s.core uid).wait = none) (a : Await) : applyIssueErr s uid (.hold a)
    = WithCore s uid { (s.core uid).stoodStill 1 with cntWait := min ((s.core uid).cntWait + 1) (2 ^ 48 - 1), wait := some (a, s.mile) } := by
  simp only [applyIssueErr, hw, satAdd]; rfl

end

/-- Settles O18: increments by the tile they name, waits by whether they hold, and what names no tile of its own by its fault. -/
theorem gateOperationsOfTheCore : Obligations.GateOperationsOfTheCore := by
  refine ⟨fun s uid tile g imm r hs hu htile hg himm hr hf hm => ?_, fun s uid tile g r hs hu htile hg hr => ?_,
    fun s uid tile g imm r hs hu hlo hhi hg himm hr => ?_⟩
  · intro c own sends
    have hok : tileFieldOk tile = true := by simpa [tileFieldOk] using htile
    have hy : tile < 64 := by omega
    have sends_of {i : Instr} {op : YOp} {n : Nat} (hexec : exec i s = run i (issueOne s uid fun s => issueY s uid op)) (hwf : i.wf = true)
        (hop : AddsTo s uid op tile g n) : sends i n := by
      by_cases hown : tile = 63 ∨ tile = uid / 4
      · refine ⟨_, exec_issues hexec hwf hs (issueY_add_of_own hop hok hf hm hown), rfl, rfl, rfl, fun _ => ⟨rfl, State.core_setCore .., ?_⟩,
          fun hno => absurd hown hno⟩
        exact fun x hx hc => releaseIncs_ownInc hx hc
      · have hemit := emitInc_of_other (s := s.setCore uid { c with seq := c.seq + 1 }) (h := ⟨0, c.seq, tile, g, n, c.pc, c.rep⟩) hs.2.2.1
          fun h => hown (.inr h)
        refine ⟨_, exec_issues hexec hwf hs ((issueY_add_of_other hop hok hf hm hown).trans (congrArg Except.ok hemit)), rfl, rfl, rfl,
          fun h => absurd h hown, fun _ => ⟨State.core_setCore .., ?_⟩⟩
        rw [State.core_setCore]; rfl
    exact ⟨sends_of (i := .ginc uid tile g imm) rfl (by simp [Instr.wf, okUid, okYTile, hu, hy, hg, himm]) (.inl ⟨imm, rfl, rfl⟩),
      sends_of (i := .gadd uid tile g r) rfl (by simp [Instr.wf, okUid, okYTile, okReg, hu, hy, hg, hr]) (.inr ⟨r, rfl, rfl⟩)⟩
  · intro c own V target held
    have hy : tile < 64 := by omega
    have hwf : (okUid uid && okYTile tile && decide (g < 4096) && okReg r) = true := by simp [okUid, okYTile, okReg, hu, hy, hg, hr]
    have hwf_mile : (okUid uid && okReg r) = true := by simp [okUid, okReg, hu, hr]
    have stops_of {i : Instr} {f : State → Except IssueErr State} {cause addr : Nat} {sl : Slot} (hexec : exec i s = run i (issueOne s uid f))
        (hwf : i.wf = true) (hf : f s = .error (.halt cause addr sl)) : ∃ t, exec i s = .next t ∧ t.core uid = HaltedCore s c := by
      obtain ⟨t, ht, hcore, -⟩ := exec_halts hexec hwf hs hf
      exact ⟨t, ht, hcore⟩
    refine ⟨fun hown => exec_issues (c := .gread uid tile g r) rfl hwf hs (issueY_read hown r),
      exec_issues (c := .mread uid r) rfl hwf_mile hs rfl,
      fun hown h => exec_issues (c := .gwait uid tile g r) rfl hwf hs (issueY_wait_of_reached hown h),
      fun hown h hw => ?_,
      fun h => exec_issues (c := .mwait uid r) rfl hwf_mile hs (issueY_mwait_of_reached h),
      fun h hw => ?_,
      fun hown => ⟨stops_of (i := .gwait uid tile g r) rfl hwf (issueY_wait_of_other hown r),
        stops_of (i := .gread uid tile g r) rfl hwf (issueY_read_of_other hown r)⟩⟩
    · exact (exec_fails (c := .gwait uid tile g r) rfl hwf hs (issueY_wait_of_behind hown h)).trans
        (congrArg _ (applyIssueErr_hold hw _))
    · exact (exec_fails (c := .mwait uid r) rfl hwf_mile hs (issueY_mwait_of_before h hw)).trans (congrArg _ (applyIssueErr_hold hw _))
  · have hok : tileFieldOk tile = false := by simp [tileFieldOk]; omega
    have hown : ¬ (tile = 63 ∨ tile = uid / 4) := by omega
    have hy : tile < 64 := by omega
    have stops_of {i : Instr} {op : YOp} (hexec : exec i s = run i (issueOne s uid fun s => issueY s uid op)) (hwf : i.wf = true)
        (hf : issueY s uid op = .error (.halt 1 0 .y)) : ∃ t, exec i s = .next t ∧ t.core uid = HaltedCore s (s.core uid) ∧ t.mesh = s.mesh := by
      obtain ⟨t, ht, hcore, hmem⟩ := exec_halts hexec hwf hs hf
      exact ⟨t, ht, hcore, mesh_of_meshAndMemory hmem⟩
    have hwf : (okUid uid && okYTile tile && decide (g < 4096) && okReg r) = true := by simp [okUid, okYTile, okReg, hu, hy, hg, hr]
    have hwf_inc : (okUid uid && okYTile tile && decide (g < 4096) && decide (imm < 16)) = true := by simp [okUid, okYTile, hu, hy, hg, himm]
    simp only [List.forall_mem_cons, List.not_mem_nil, IsEmpty.forall_iff, implies_true, and_true]
    exact ⟨stops_of (i := .ginc uid tile g imm) rfl hwf_inc (issueY_add_of_noTile (.inl ⟨imm, rfl, rfl⟩) hok),
      stops_of (i := .gadd uid tile g r) rfl hwf (issueY_add_of_noTile (.inr ⟨r, rfl, rfl⟩) hok),
      stops_of (i := .gwait uid tile g r) rfl hwf (issueY_wait_of_other hown r),
      stops_of (i := .gread uid tile g r) rfl hwf (issueY_read_of_other hown r)⟩

end Sys2Proof.Machine

namespace Sys2Proof.Machine
open Sys2Proof

/-! ### Landings (04 R66, R70): a table that lists a default

A landing raises its sticky flags with a write of CSR_STICKY, and every write of a table brings it into its canonical form. Where a core's
table of CSRs lists CSR_STICKY with its reset value 0, the landing of a feeder entry therefore leaves another table, which reads the same. -/

/-- A feeder entry that lands in cycle 0. -/
def fifoFly : Fly := { due := 0, slot := .l, seq := 0, bundle := 0, rep := 0, writes := [.fifo []] }

/-- Core 0 runs, its table of CSRs lists CSR_STICKY with its reset value, and a feeder entry is due. -/
def listedStickyState : State := { cores := [(0, { phase := .run, csrs := [(csrSticky, 0#64)], flies := [fifoFly] })] }

theorem issuing_listedStickyState : Issuing listedStickyState 0 := ⟨rfl, rfl, rfl, by decide +kernel⟩

theorem alone_listedStickyState : Alone (listedStickyState.core 0) fifoFly :=
  ⟨⟨rfl, rfl, rfl, rfl, rfl, fun _ h => absurd h (List.not_mem_nil)⟩, rfl, rfl, rfl, rfl, rfl, rfl, rfl, rfl⟩

/-- The landing leaves the table without its entry. -/
theorem csrs_landing_listedStickyState :
    ((settleCore (landingCycle listedStickyState 0 none) 0).core 0).csrs = [] := by decide +kernel

/-- Refutes O20: a core's table of CSRs that lists CSR_STICKY with its reset value 0 loses that entry when a feeder entry lands, though every
CSR reads as before. -/
theorem not_operationsLand : ¬ Obligations.OperationsLand := by
  intro h
  obtain ⟨hland, -⟩ := h
  obtain ⟨-, -, -, -, hfifo, -⟩ := hland listedStickyState 0 fifoFly issuing_listedStickyState (by omega) alone_listedStickyState
  obtain ⟨t, ht, -, -, hroom, -⟩ := hfifo [] rfl
  obtain ⟨-, hcsrs⟩ := hroom (by decide +kernel)
  have hstep : exec (.operationLanding 0 none) listedStickyState = .next (settleCore (landingCycle listedStickyState 0 none) 0) :=
    run_of_wf (c := .operationLanding 0 none) rfl
  cases hstep.symm.trans ht
  exact List.cons_ne_nil _ _ (hcsrs.symm.trans csrs_landing_listedStickyState)

end Sys2Proof.Machine

namespace Sys2Proof.Machine
open Sys2Proof

/-! ### The ends of freezes, and of a hold that lasts too long (04 R83 to R86; 09 R185) -/

section
variable {s : State} {uid n : Nat} {f : Freeze}

/-- With no shadow load of its core under way there is no row left to load. -/
theorem shadowDrain_of_none (h : (s.core uid).shadows = []) (k : Nat) : shadowDrain k s uid = s := by
  cases k with
  | zero => rfl
  | succ k => simp [shadowDrain, CoreSt.loading, h]

theorem closed_of_not_late (h : f.late = false) (tcyc : Nat) : f.closed tcyc = f := by
  obtain ⟨k, q, d⟩ := f
  cases k <;> simp_all [Freeze.late, Freeze.closed]

/-- A freeze stays of its kind when its length becomes known. -/
theorem plain_closed (f : Freeze) (tcyc : Nat) : (f.closed tcyc).plain = f.plain := by
  obtain ⟨k, q, d⟩ := f
  cases k <;> rfl

/-- A core whose one freeze cause has ended: its cycles are counted, and what was late for it is late no more. -/
def CoreSt.thawed (c : CoreSt) (z : Freeze) : CoreSt :=
  { countOut { c with flies := c.flies.map fun g =>
        if ([z.seq].contains g.seq && !g.wait && decide (g.due ≤ c.cyc)) then { g with late := 0 } else g } [z]
      with freezes := [] }

/-- The freeze of a core in its only cause ends once it is known how long it lasts. -/
theorem core_freezeEnds_of_one (hready : tileReady s (uid / 4) = true) (h : (s.core uid).freezes = [f]) (hplain : f.plain = true)
    (hload : f.late = true → (s.core uid).shadows = []) :
    let z := f.closed (s.tile (uid / 4)).tcyc
    (freezeEnds s uid).core uid = if z.dur = none then { s.core uid with freezes := [z] } else (s.core uid).thawed z := by
  intro z
  unfold freezeEnds CoreSt.thawed
  cases hl : f.late with
  | false =>
    have hzf : z = f := closed_of_not_late hl _
    rw [hzf]
    by_cases hd : f.dur = none <;> simp [hready, h, hl, hplain, hd, closed_of_not_late hl]
  | true =>
    by_cases hd : z.dur = none <;>
      simp only [hready, h, hload hl, shadowDrain_of_none (hload hl), ite_self] <;> simp [z, hd, plain_closed, hplain]

end

/-- A single cause is counted with all its cycles. -/
theorem countOut_one (c : CoreSt) (f : Freeze) : countOut c [f] = (countFreeze c f.cause (f.dur.getD 0)).stoodStill (f.dur.getD 0) := by
  simp [countOut, countAll, lmax]

theorem rd_errNext_errRaise_during {s : State} {e : ErrIn} (hf : s.isFatal = false) (hc : e.cls = 1) (under : Option (List Nat)) :
    (errRaise s (e.during false under)).rd (fErrNext e.wharf) = (s.rd (fErrNext e.wharf) + 1) % 2 ^ 32 := by
  have h := rd_errNext_errRaise (e := e.during false under) hf ((during_program_cls ..).trans hc)
  rwa [during_program_wharf] at h

/-- A core that halts leaves one more entry in its wharf die's queue. -/
theorem rd_errNext_coreHalt {s : State} {uid : Nat} (hf : s.isFatal = false) {cause : Nat} (hc : cause ≠ 7) (addr bundle rep : Nat) (sl : Slot)
    (q4 : List Nat) : (coreHalt s uid cause addr bundle rep sl q4).rd (fErrNext (tileWharf (uid / 4)))
      = (s.rd (fErrNext (tileWharf (uid / 4))) + 1) % 2 ^ 32 := by
  unfold coreHalt
  rw [haltFlight_keeps (g := fun t => t.rd (fErrNext (tileWharf (uid / 4)))) fun _ _ _ => rfl, decide_eq_false hc]
  exact rd_errNext_errRaise_during (s := s.setCore uid _) hf rfl _

/-- A hold that has lasted its time, the low 40 bits of CSR_WAIT_TO, halts its core; one that has not goes on. -/
theorem waitTimeout_eq {s : State} {uid t0 : Nat} {a : Await} (hs : Issuing s uid) (hw : (s.core uid).wait = some (a, t0)) :
    let field := ((s.core uid).csr 0x018).toNat % 2 ^ 40
    (s.mile < t0 + waitTicks field → waitTimeout s uid = s)
      ∧ (t0 + waitTicks field ≤ s.mile → ∃ q3 peers, waitTimeout s uid = coreHalt s uid 5 q3 (s.core uid).pc (s.core uid).rep .y peers) := by
  obtain ⟨hrun, -, hfatal, -⟩ := hs
  have hfield (x : Nat) : nbits x 39 0 = x % 2 ^ 40 := by simp [nbits]
  unfold waitTimeout
  simp only [hw, hfield, csrWaitTo, hrun, hfatal, ne_eq, not_true_eq_false, Bool.false_eq_true, false_or]
  exact ⟨fun h => if_pos h, fun h => ⟨_, _, if_neg (not_lt.2 h)⟩⟩

/-- Settles O21: the freezes by what their one cause is known to last, the hold by whether its time has come. -/
theorem freezesAndHoldsEnd : Obligations.FreezesAndHoldsEnd := by
  refine ⟨fun s uid q n hu => ?_, fun s uid t0 a hs hu hw => ?_⟩
  · intro c up only
    have hwf : okUid uid = true := decide_eq_true hu
    have hfreeze : exec (.freezeEnd uid) s = .next (freezeEnds s uid) := run_of_wf (c := .freezeEnd uid) hwf
    have hrescale : exec (.rescaleFreezeEnd uid) s = .next (rescaleEnds s uid) := run_of_wf (c := .rescaleFreezeEnd uid) hwf
    have ends {k : FrzCause} (h : only k (some n)) (hplain : (⟨k, q, some n⟩ : Freeze).plain = true)
        (hlate : (⟨k, q, some n⟩ : Freeze).late = false) :=
      core_freezeEnds_of_one h.1 h.2 hplain fun hl => absurd hl (by simp [hlate])
    refine ⟨fun hdown => ⟨?_, ?_⟩, fun h => ⟨_, hfreeze, ?data⟩, fun h => ⟨_, hfreeze, ?write⟩, fun h => ⟨_, hfreeze, ?ecc⟩,
      fun h => ⟨_, hrescale, ?_⟩, fun t0 h hload => ⟨_, hfreeze, ?_⟩, fun k hk h => ⟨_, hfreeze, ?_⟩⟩
    case data | write | ecc =>
      rw [ends h rfl rfl]
      simp [Freeze.closed, CoreSt.thawed, countOut_one, countFreeze, CoreSt.stoodStill, up, satAdd, c]
    · rw [hfreeze]; simp [freezeEnds, hdown]
    · rw [hrescale]; simp [rescaleEnds, hdown]
    · obtain ⟨hready, hfrz⟩ := h
      simp [rescaleEnds, hready, State.modCore, hfrz, countOut_one, countFreeze, CoreSt.stoodStill, up, satAdd, c]
    · rw [core_freezeEnds_of_one h.1 h.2 rfl fun _ => hload]
      simp [Freeze.closed, CoreSt.thawed, countOut_one, countFreeze, CoreSt.stoodStill, satAdd, c]
    · have hunended : (⟨k, q, none⟩ : Freeze).plain = true ∧ (⟨k, q, none⟩ : Freeze).late = false := by
        simp only [List.mem_cons, List.not_mem_nil, or_false] at hk
        obtain rfl | rfl | rfl := hk <;> exact ⟨rfl, rfl⟩
      obtain ⟨hplain, hlate⟩ := hunended
      rw [core_freezeEnds_of_one h.1 h.2 hplain fun hl => absurd hl (by simp [hlate]), closed_of_not_late hlate, if_pos rfl]
      exact h.2.symm
  · intro field limit
    have hexec : exec (.coreWaitTimeout uid) s = .next (waitTimeout s uid) := run_of_wf (c := .coreWaitTimeout uid) (decide_eq_true hu)
    obtain ⟨hbefore, hdue⟩ := waitTimeout_eq hs hw
    refine ⟨fun h => ?_, fun h => hexec.trans (congrArg _ (hbefore h))⟩
    obtain ⟨q3, peers, hhalt⟩ := hdue h
    refine ⟨_, hexec, ?_, ?_⟩ <;> rw [hhalt]
    · exact core_coreHalt hs.1 ..
    · exact rd_errNext_coreHalt hs.2.2.1 (by decide) ..

end Sys2Proof.Machine

namespace Sys2Proof.Machine
open Sys2Proof

/-! ### The core cycle of an undisturbed core (04 R65, R66, R70, R73, R74) -/

section
variable {s : State} {uid : Nat}

theorem dueFlies_of_none {c : CoreSt} (h : c.flies = []) : dueFlies c = [] := by simp [dueFlies, h, sortFlies]

theorem mileSample_of_none (h : (s.core uid).flies = []) : mileSample s uid = s := by simp [mileSample, h]

/-- A generator that reads no index group has none arrive. -/
theorem dueReads_of_none {g : Gen} (h : g.reads = []) (cyc : Nat) : g.dueReads cyc = [] := by simp [Gen.dueReads, h]

theorem reads_tget_of_all (g : Nat) : (t : Tbl Gen) → (∀ p ∈ t, p.2.reads = []) → (tget gen0 t g).reads = []
  | [], _ => rfl
  | (k, v) :: t, h => by
    unfold tget
    split
    · exact h _ List.mem_cons_self
    · exact reads_tget_of_all g t fun p hp => h p (List.mem_cons_of_mem _ hp)

/-- With no read outstanding every generator stays as it is. -/
theorem gens_map_of_all {c : CoreSt} (h : ∀ p ∈ c.gens, p.2.reads = []) :
    (c.gens.map fun p => (p.1, (p.2.dueReads c.cyc).foldl genArrive p.2)) = c.gens := by
  refine (List.map_congr_left fun p hp => ?_).trans (List.map_id _)
  rw [dueReads_of_none (h p hp)]; rfl

theorem filter_flies_of_none {c : CoreSt} (h : c.flies = []) (p : Fly → Bool) : { c with flies := c.flies.filter p } = c := by
  have hkept : c.flies.filter p = c.flies := by simp [h]
  rw [hkept]

theorem filter_mms_of_none {c : CoreSt} (h : c.mms = []) (p : MMul → Bool) : { c with mms := c.mms.filter p } = c := by
  have hkept : c.mms.filter p = c.mms := by simp [h]
  rw [hkept]

theorem filter_held_of_none {c : CoreSt} (h : c.held = []) (p : HeldInc → Bool) : { c with held := c.held.filter p } = c := by
  have hkept : c.held.filter p = c.held := by simp [h]
  rw [hkept]

theorem releaseIncs_of_none (h : (s.core uid).held = []) : releaseIncs s uid = s.setCore uid (s.core uid) := by
  simp only [releaseIncs, filter_held_of_none h]
  simp only [h, List.filter_nil, List.foldl_nil]

theorem shadowLand_of_none (h : (s.core uid).shadows = []) : shadowLand s uid = s := by simp [shadowLand, h]

/-- With nothing in flight and no increment held, nothing lands. -/
theorem landCycle_of_quiet (hq : Quiet (s.core uid)) (hf : (s.core uid).freezes = []) : landCycle s uid = s.setCore uid (s.core uid) := by
  obtain ⟨hfl, hv, hm, hs, hh, hg⟩ := hq
  have hdue := dueFlies_of_none hfl
  have hlate : (!(s.core uid).freezes.isEmpty || !(lateFreezes (s.core uid)).isEmpty) = false := by simp [lateFreezes, hdue, hf]
  have hgroups (g : Nat) : ((s.core uid).gen g).dueReads (s.core uid).cyc = [] := dueReads_of_none (reads_tget_of_all g _ hg) _
  have hsample : mileSample (s.setCore uid (s.core uid)) uid = s.setCore uid (s.core uid) := mileSample_of_none (by simp [hfl])
  have hrelease : releaseIncs (s.setCore uid (s.core uid)) uid = s.setCore uid (s.core uid) :=
    (releaseIncs_of_none (by simp [hh])).trans (by simp)
  simp only [landCycle, State.modCore, hdue, List.reverse_nil, List.foldl_nil, spCollisions, loseBytes, State.core_setCore, State.setCore_setCore,
    hlate, Bool.false_eq_true, if_false, hsample, filter_flies_of_none hfl, landAll,
    gens_map_of_all hg, filter_mms_of_none hm, hrelease, nanFlies, List.filter_nil, hgroups, List.foldl_cons]
  exact shadowLand_of_none (by simpa using hs)

theorem drainTick_of_none (hm : (s.core uid).mms = []) : drainTick s uid = s := by simp [drainTick, hm]

theorem tagFeed_of_none {c : CoreSt} (hm : c.mms = []) : c.tagFeed = c := by
  have : { c with mms := [] } = c := by rw [← hm]
  simp [CoreSt.tagFeed, hm, this]

theorem packRead_of_none (hv : (s.core uid).vjobs = []) : packRead s uid = s := by simp [packRead, hv]

/-- A core's action in a tile cycle is noted by its tile only. -/
theorem tileTouch_eq (s : State) (uid : Nat) : ∃ t, tileTouch s uid = s.setTile (uid / 4) t := by
  simp only [tileTouch]
  split
  · exact ⟨_, setTile_nextCycle ..⟩
  · exact ⟨_, rfl⟩

/-- The state of an undisturbed core about to issue: its tile has noted the cycle. -/
def Begun (s : State) (uid : Nat) (t : TileSt) : State := (s.setTile (uid / 4) t).setCore uid (s.core uid)

@[simp] theorem core_begun (t : TileSt) : (Begun s uid t).core uid = s.core uid := State.core_setCore ..
theorem spad_begun (t : TileSt) : (Begun s uid t).spad = s.spad := rfl
theorem hbm_begun (t : TileSt) : (Begun s uid t).hbm = s.hbm := rfl

/-- Up to its issue the cycle of an undisturbed core only begins its tile's. -/
theorem beginCycle_of_quiet (hq : Quiet (s.core uid)) (hf : (s.core uid).freezes = []) : ∃ t, beginCycle s uid = Begun s uid t := by
  have ⟨_, hv, hm, _⟩ := hq
  obtain ⟨t, ht⟩ := tileTouch_eq s uid
  have hland : landCycle (s.setTile (uid / 4) t) uid = Begun s uid t := landCycle_of_quiet (s := s.setTile (uid / 4) t) hq hf
  have hpack : packRead (s.setTile (uid / 4) t) uid = s.setTile (uid / 4) t := packRead_of_none hv
  have hdrain : drainTick (Begun s uid t) uid = Begun s uid t := drainTick_of_none (by simpa using hm)
  refine ⟨t, ?_⟩
  simp only [beginCycle, ht, hpack, hland, hdrain, core_begun, hf, List.isEmpty_nil, if_true, State.modCore, tagFeed_of_none hm]
  exact State.setCore_setCore ..

/-! ### What the issue of a bundle comes to -/

/-- A flight with no dump has no stopping point. -/
theorem stopPoint_begun (hd : dumpsOf s (s.core uid).part (s.core uid).flight = []) {t : TileSt} : stopPoint (Begun s uid t) (s.core uid) = none := by
  rw [stopPoint, show dumpsOf (Begun s uid t) _ _ = _ from hd]; rfl

section
variable (hs : Issuing s uid) (hq : Quiet (s.core uid)) (hd : dumpsOf s (s.core uid).part (s.core uid).flight = [])
include hs hq hd

/-- Beyond the last bundle an undisturbed core halts. -/
theorem coreCycle_of_overrun (hpc : 0x1FFF < (s.core uid).pc) :
    ∃ t, coreCycle s uid = coreHalt (Begun s uid t) uid 2 0 (s.core uid).pc (s.core uid).rep .y := by
  obtain ⟨hrun, hfrz, hfatal, -⟩ := hs
  obtain ⟨t, ht⟩ := beginCycle_of_quiet hq hfrz
  refine ⟨t, ?_⟩
  simp [coreCycle, hrun, hfrz, hfatal, ht, stopPoint_begun hd, hpc]

theorem coreCycle_of_illegal (hpc : (s.core uid).pc ≤ 0x1FFF) {sl : Slot}
    (hw : decBundle (tget (fun _ => 0#256) (s.core uid).imem (s.core uid).pc).toNat = .error sl) :
    ∃ t, coreCycle s uid = coreHalt (Begun s uid t) uid 1 0 (s.core uid).pc (s.core uid).rep sl := by
  obtain ⟨hrun, hfrz, hfatal, -⟩ := hs
  obtain ⟨t, ht⟩ := beginCycle_of_quiet hq hfrz
  refine ⟨t, ?_⟩
  simp [coreCycle, hrun, hfrz, hfatal, ht, stopPoint_begun hd, not_lt.2 hpc, hw]

theorem coreCycle_of_issue (hpc : (s.core uid).pc ≤ 0x1FFF) {b : Bundle}
    (hw : decBundle (tget (fun _ => 0#256) (s.core uid).imem (s.core uid).pc).toNat = .ok b) : ∃ t, ∀ s2,
      issueSlots (Begun s uid t) uid b (decide ((s.core uid).rep = b.repM1)) = .ok s2 →
        coreCycle s uid = endCycle (s2.modCore uid fun c => afterIssue c b) uid := by
  obtain ⟨hrun, hfrz, hfatal, -⟩ := hs
  obtain ⟨t, ht⟩ := beginCycle_of_quiet hq hfrz
  refine ⟨t, fun s2 h2 => ?_⟩
  simp [coreCycle, hrun, hfrz, hfatal, ht, stopPoint_begun hd, not_lt.2 hpc, hw, h2]

end

theorem shadowTick_of_none (h : (s.core uid).shadows = []) : shadowTick s uid = .ok s := by simp [shadowTick, CoreSt.loading, h]

theorem vTick_of_none (h : (s.core uid).vjobs = []) : vTick s uid = s.setCore uid (s.core uid) := by
  have hkept : { s.core uid with vjobs := [] } = s.core uid := by rw [← h]
  simp only [vTick, h, List.foldl_nil, State.modCore, List.filter_nil, hkept]

/-- A bundle whose only operation is one of the S slot. -/
def scalarBundle (o : SOp) (eop : Bool) (reps : Nat) : Bundle := ⟨o, none, .nop, .nop, .nop, .nop, .nop, eop, reps⟩

/-- Where the core has no vector operation and no shadow load under way, a scalar operation alone in its bundle issues as it does by itself. -/
theorem issueSlots_scalarBundle (hv : (s.core uid).vjobs = []) (hsh : (s.core uid).shadows = []) {o : SOp} (ho : ∀ d n, o ≠ .csrr d n)
    (eop : Bool) (reps : Nat) (last : Bool) :
    issueSlots s uid (scalarBundle o eop reps) last = issueS (s.setCore uid (s.core uid)) uid o last := by
  simp only [issueSlots, scalarBundle, yAwait, Option.map_none, issueM, shadowTick_of_none hsh, vTick_of_none hv, issueL, issueT]
  split <;> next h => exact h.symm

/-! ### The end of the cycle -/

theorem indexTick_of_none (h : ∀ p ∈ (s.core uid).gens, p.2.reads = []) : indexTick s uid = s := by
  have hgen (g : Nat) : indexTickGen s uid g = s := by
    rw [indexTickGen, show ((s.core uid).gen g).reads = [] from reads_tget_of_all g _ h]; rfl
  simp only [indexTick, List.foldl_cons, List.foldl_nil, hgen]

theorem arrayTick_of_none (hm : (s.core uid).mms = []) (hsh : (s.core uid).shadows = []) :
    arrayTick s uid = (s.setCore uid (s.core uid)).incBy (fEarlySwaps uid) 0 := by
  have hkept : { s.core uid with mms := [], shadows := [] } = s.core uid := by rw [← hsh, ← hm]
  simp only [arrayTick, hsh, hm, List.filter_nil, List.foldl_nil, List.map_nil, List.length_nil, hkept]

/-- A core with no array operation and no read under way spends its cycle. -/
theorem endCycle_of_none (hg : ∀ p ∈ (s.core uid).gens, p.2.reads = []) (hm : (s.core uid).mms = []) (hsh : (s.core uid).shadows = []) :
    (endCycle s uid).core uid = { s.core uid with cyc := (s.core uid).cyc + 1 } ∧ (endCycle s uid).spad = s.spad ∧ (endCycle s uid).hbm = s.hbm := by
  rw [endCycle, indexTick_of_none hg, arrayTick_of_none hm hsh]
  refine ⟨?_, rfl, rfl⟩
  rw [State.modCore, State.core_setCore, State.incBy, State.core_wr, State.core_setCore]

/-- What the counters, the next address, the phase and the redirects do not touch, an issue keeps. -/
theorem afterIssue_keeps {α : Type} {g : CoreSt → α} (hg : ∀ c n w ph rd rp ps pc, g { c with
    bcount := n, wait := w, phase := ph, redirects := rd, rep := rp, pos := ps, pc := pc } = g c) (c : CoreSt) (b : Bundle) :
    g (afterIssue c b) = g c := by
  simp only [afterIssue, nextBundle]
  split_ifs
  · exact hg ..
  · exact hg ..
  · split <;> exact hg ..

section
variable {c : CoreSt} {b : Bundle}

theorem bcount_afterIssue : (afterIssue c b).bcount = (c.bcount + 1) % 2 ^ 48 := by
  simp only [afterIssue, nextBundle]
  split_ifs
  · rfl
  · rfl
  · split <;> rfl

/-- Before its last repetition a bundle is issued again. -/
theorem afterIssue_of_repetition (h : c.rep < b.repM1) :
    afterIssue c b = { c with bcount := (c.bcount + 1) % 2 ^ 48, wait := none, rep := c.rep + 1 } := if_pos h

theorem afterIssue_of_eop (h : b.repM1 ≤ c.rep) (he : b.eop = true) : (afterIssue c b).phase = .ended ∧ (afterIssue c b).redirects = [] := by
  simp only [afterIssue, not_lt.2 h, he, if_true, if_false, and_self]

/-- After the last repetition the core goes on to the target of a redirect pending for its position, else to the next address. -/
theorem afterIssue_of_last (h : b.repM1 ≤ c.rep) (he : b.eop = false) :
    (afterIssue c b).phase = c.phase ∧ (afterIssue c b).rep = 0 ∧ (afterIssue c b).pos = c.pos + 1
      ∧ (afterIssue c b).pc = ((c.redirects.find? fun r => decide (r.1 = c.pos + 1)).map (·.2)).getD (c.pc + 1) := by
  simp only [afterIssue, not_lt.2 h, he, Bool.false_eq_true, if_false, nextBundle]
  split <;> next hfind => simp [hfind]

end

/-- One issue of a bundle with a scalar operation alone, which leaves the core's record but for what is in flight. -/
theorem exec_bundleIssue_scalarBundle (hs : Issuing s uid) (hu : uid < 240) (hq : Quiet (s.core uid))
    (hd : dumpsOf s (s.core uid).part (s.core uid).flight = []) (hpc : (s.core uid).pc ≤ 0x1FFF) {o : SOp} {eop : Bool} {reps : Nat}
    (ho : ∀ d n, o ≠ .csrr d n)
    (hw : decBundle (tget (fun _ => 0#256) (s.core uid).imem (s.core uid).pc).toNat = .ok (scalarBundle o eop reps)) {fl : List Fly} {n : Nat}
    (hop : ∀ x : State, x.core uid = s.core uid → ∃ y, issueS x uid o (decide ((s.core uid).rep = reps)) = .ok y
      ∧ y.core uid = { s.core uid with flies := fl, seq := n } ∧ y.spad = x.spad ∧ y.hbm = x.hbm) :
    ∃ t, exec (.bundleIssue uid) s = .next t
      ∧ t.core uid = { afterIssue { s.core uid with flies := fl, seq := n } (scalarBundle o eop reps) with cyc := (s.core uid).cyc + 1 }
      ∧ t.spad = s.spad ∧ t.hbm = s.hbm := by
  have ⟨_, hv, hm, hsh, _, hg⟩ := hq
  obtain ⟨t, hissue⟩ := coreCycle_of_issue hs hq hd hpc hw
  obtain ⟨y, hy, hcore, hspad, hhbm⟩ := hop ((Begun s uid t).setCore uid ((Begun s uid t).core uid)) (by simp)
  have hcycle := hissue y ((issueSlots_scalarBundle (by simpa using hv) (by simpa using hsh) ho ..).trans hy)
  have hafter : (y.modCore uid fun c => afterIssue c (scalarBundle o eop reps)).core uid
      = afterIssue { s.core uid with flies := fl, seq := n } (scalarBundle o eop reps) := by rw [State.modCore, State.core_setCore, hcore]
  obtain ⟨hend, hendSpad, hendHbm⟩ := endCycle_of_none (s := y.modCore uid fun c => afterIssue c (scalarBundle o eop reps)) (uid := uid)
    (by rw [hafter, afterIssue_keeps (g := CoreSt.gens) fun _ _ _ _ _ _ _ _ => rfl]; exact hg)
    (by rw [hafter, afterIssue_keeps (g := CoreSt.mms) fun _ _ _ _ _ _ _ _ => rfl]; exact hm)
    (by rw [hafter, afterIssue_keeps (g := CoreSt.shadows) fun _ _ _ _ _ _ _ _ => rfl]; exact hsh)
  refine ⟨endCycle (y.modCore uid fun c => afterIssue c (scalarBundle o eop reps)) uid, ?_, ?_, hendSpad.trans hspad, hendHbm.trans hhbm⟩
  · have hready : bundleIssue s uid = coreCycle s uid := if_pos hs.2.2.2
    exact (run_of_wf (c := .bundleIssue uid) (decide_eq_true hu)).trans (congrArg _ (hready.trans hcycle))
  · rw [hend, hafter, afterIssue_keeps (g := CoreSt.cyc) fun _ _ _ _ _ _ _ _ => rfl]

/-- A core that stops before its next issue keeps its record otherwise. -/
theorem exec_bundleIssue_of_halt (hs : Issuing s uid) (hu : uid < 240) {t : TileSt} {cause addr bundle rep : Nat} {sl : Slot}
    (h : coreCycle s uid = coreHalt (Begun s uid t) uid cause addr bundle rep sl) :
    ∃ t, exec (.bundleIssue uid) s = .next t ∧ t.core uid = HaltedCore s (s.core uid) ∧ t.spad = s.spad ∧ t.hbm = s.hbm := by
  have hready : bundleIssue s uid = coreCycle s uid := if_pos hs.2.2.2
  have hcore := core_coreHalt (s := Begun s uid t) (uid := uid) (by simpa using hs.1) cause addr bundle rep sl [] none false
  have hmem := meshAndMemory_coreHalt (s := Begun s uid t) (uid := uid) cause addr bundle rep sl [] none false
  refine ⟨_, (run_of_wf (c := .bundleIssue uid) (decide_eq_true hu)).trans (congrArg _ (hready.trans h)), ?_,
    (spad_of_meshAndMemory hmem).trans (spad_begun t), (hbm_of_meshAndMemory hmem).trans (hbm_begun t)⟩
  rw [hcore, core_begun]; rfl

/-- A core on a tile that is down does not issue: at most its tile is woken. -/
theorem exec_bundleIssue_of_down (hu : uid < 240) (h : tileReady s (uid / 4) = false) :
    ∃ t, exec (.bundleIssue uid) s = .next t ∧ t.cores = s.cores ∧ t.tiles = s.tiles ∧ t.spad = s.spad ∧ t.regs = s.regs := by
  refine ⟨bundleIssue s uid, run_of_wf (c := .bundleIssue uid) (decide_eq_true hu), ?_⟩
  simp only [bundleIssue, h, Bool.false_eq_true, if_false]
  split <;> exact ⟨rfl, rfl, rfl, rfl⟩

end

/-- The word 0 is a bundle of no-operations, and 0x10 one that also ends the stage. -/
theorem decBundle_zero : decBundle (0#256).toNat = .ok (scalarBundle .nop false 0) := by rfl
theorem decBundle_eop : decBundle (0x10#256).toNat = .ok (scalarBundle .nop true 0) := by rfl

/-- Settles O19: the decoded bundle's one scalar operation, then the counters by what its header says. -/
theorem bundleIssueAdvancesTheCore : Obligations.BundleIssueAdvancesTheCore := by
  refine ⟨fun s uid hu => exec_bundleIssue_of_down hu, fun s uid hs hu _ hq hd => ?_⟩
  intro c w kept moved
  have advances {o : SOp} {eop : Bool} {reps : Nat} {fl : List Fly} {n : Nat} (hpc : c.pc ≤ 0x1FFF)
      (hw : decBundle w.toNat = .ok (scalarBundle o eop reps)) (ho : ∀ d n, o ≠ .csrr d n)
      (hop : ∀ x : State, x.core uid = c → ∃ y, issueS x uid o (decide (c.rep = reps)) = .ok y
        ∧ y.core uid = { c with flies := fl, seq := n } ∧ y.spad = x.spad ∧ y.hbm = x.hbm) : ∃ t, moved t reps eop ∧ (t.core uid).flies = fl := by
    obtain ⟨t, ht, hcore, hspad, hhbm⟩ := exec_bundleIssue_scalarBundle hs hu hq hd hpc ho hw hop
    have kept_of {α : Type} {g : CoreSt → α} := afterIssue_keeps (g := g) (c := { c with flies := fl, seq := n }) (b := scalarBundle o eop reps)
    refine ⟨t, ⟨⟨ht, ?_, ?_, ?_, ?_, ?_, hspad, hhbm⟩, ?_, ?_, fun hrep => ?_, fun hlast he => ?_, fun hlast he => ?_⟩, ?_⟩ <;> rw [hcore]
    · exact kept_of (g := CoreSt.sregs) fun _ _ _ _ _ _ _ _ => rfl
    · exact kept_of (g := CoreSt.vregs) fun _ _ _ _ _ _ _ _ => rfl
    · exact kept_of (g := CoreSt.pregs) fun _ _ _ _ _ _ _ _ => rfl
    · exact kept_of (g := CoreSt.csrs) fun _ _ _ _ _ _ _ _ => rfl
    · exact kept_of (g := CoreSt.imem) fun _ _ _ _ _ _ _ _ => rfl
    · exact bcount_afterIssue
    · rw [afterIssue_of_repetition hrep]
      exact ⟨hs.1, rfl, rfl, rfl⟩
    · obtain ⟨hphase, hrest⟩ := afterIssue_of_last (c := { c with flies := fl, seq := n }) (b := scalarBundle o eop reps) hlast he
      exact ⟨hphase.trans hs.1, hrest⟩
    · exact afterIssue_of_eop (c := { c with flies := fl, seq := n }) (b := scalarBundle o eop reps) hlast he
    · exact kept_of (g := CoreSt.flies) fun _ _ _ _ _ _ _ _ => rfl
  have stops {cause : Nat} {sl : Slot} (h : ∃ t, coreCycle s uid = coreHalt (Begun s uid t) uid cause 0 c.pc c.rep sl) :
      ∃ t, kept t ∧ (t.core uid).phase = .stopped ∧ (t.core uid).bcount = c.bcount := by
    obtain ⟨t', h⟩ := h
    obtain ⟨t, ht, hcore, hspad, hhbm⟩ := exec_bundleIssue_of_halt hs hu h
    exact ⟨t, by simp only [kept, hcore]; exact ⟨ht, rfl, rfl, rfl, rfl, rfl, hspad, hhbm⟩, by rw [hcore]; rfl, by rw [hcore]; rfl⟩
  have noOperation (eop : Bool) (hpc : c.pc ≤ 0x1FFF) (hw : decBundle w.toNat = .ok (scalarBundle .nop eop 0)) :
      ∃ t, moved t 0 eop ∧ (t.core uid).flies = [] :=
    advances hpc hw (by simp) (n := c.seq) fun x hx => ⟨x, rfl, by rw [hx, ← hq.1], rfl, rfl⟩
  refine ⟨fun hpc hw => noOperation _ hpc (hw ▸ decBundle_zero), fun hpc hw => noOperation _ hpc (hw ▸ decBundle_eop),
    fun d a b reps eop hdst hpc hw => ?_, fun hpc => stops (coreCycle_of_overrun hs hq hd hpc), fun sl hpc hw => stops (coreCycle_of_illegal hs hq hd hpc hw)⟩
  have hissue : c.issueW .s 1 [.sreg d (c.sreg a + c.sreg b)]
      = { c with flies := [c.flyOf .s 1 [.sreg d (c.sreg a + c.sreg b)]], seq := c.seq + 1 } := by
    rw [issueW_eq, show c.flies = [] from hq.1]; rfl
  obtain ⟨t, hmoved, hflies⟩ := advances hpc hw (by simp) fun x hx =>
    ⟨_, rfl, by rw [State.core_setCore, hx]; exact hissue, rfl, rfl⟩
  exact ⟨t, _, hmoved, hflies, rfl, rfl, rfl, rfl, rfl⟩

end Sys2Proof.Machine

namespace Sys2Proof.Machine
open Sys2Proof

/-! ## O15, O22: the address generators and the units of a tile (05) -/

/-! ### The loop counters of a generator (05 R101) -/

@[simp] theorem CoreSt.gen_setGen (c : CoreSt) (g : Nat) (v : Gen) : (c.setGen g v).gen g = v := tget_tset_self ..
theorem CoreSt.gen_setGen_ne (c : CoreSt) {g k : Nat} (v : Gen) (h : k ≠ g) : (c.setGen g v).gen k = c.gen k := tget_tset_ne _ _ _ h

/-- A stride program has six levels, used or not. -/
theorem length_levels_stride (c : CoreSt) (p : Nat) : (c.stride p).levels.length = 6 := by simp [CoreSt.stride, strideOf]

/-- Below its last count the innermost level counts up, and the outer ones stay. -/
theorem genStep_of_below {l : Level} {k : Nat} (h : k < l.countM1) (ls : List Level) (i : List Nat) :
    genStep (l :: ls) (k :: i) = ((k + 1) :: i, false) := if_pos h

/-- Where every level stands at its last count, all of them return to 0 and the program has ended. -/
theorem genStep_of_full : (ls : List Level) → (i : List Nat) → ls.length = i.length →
    (∀ k < ls.length, (ls.getD k ⟨0, 0, 0⟩).countM1 ≤ i.getD k 0) → genStep ls i = (List.replicate ls.length 0, true)
  | [], [], _, _ => rfl
  | l :: ls, k :: i, hlen, hfull => by
    have hlast : l.countM1 ≤ k := hfull 0 (Nat.succ_pos _)
    have ih := genStep_of_full ls i (Nat.succ.inj hlen) fun j hj => hfull (j + 1) (Nat.succ_lt_succ hj)
    simp only [genStep, if_neg (not_lt.2 hlast), ih]
    rfl

section
variable {g : Gen} {p : StrideP} (hlev : 1 ≤ p.nlev) (hmax : p.nlev ≤ 6) (hl : p.levels.length = 6) (hi : g.i.length = 6)
include hl hi

include hlev in
theorem genAdvance_of_below (h : g.i.getD 0 0 < (p.levels.getD 0 ⟨0, 0, 0⟩).countM1) :
    (genAdvance g p).i = g.i.set 0 (g.i.getD 0 0 + 1) ∧ (genAdvance g p).ended = false := by
  obtain ⟨l, ls, hls⟩ := List.exists_cons_of_length_eq_add_one hl
  obtain ⟨k, ks, hks⟩ := List.exists_cons_of_length_eq_add_one hi
  obtain ⟨n, hn⟩ := Nat.exists_eq_add_of_le' hlev
  rw [hls, hks] at h
  simp [genAdvance, hls, hks, hn, genStep_of_below (show k < l.countM1 from h)]

include hmax in
theorem genAdvance_of_full (h : ∀ k < p.nlev, (p.levels.getD k ⟨0, 0, 0⟩).countM1 ≤ g.i.getD k 0) :
    (∀ k < p.nlev, (genAdvance g p).i.getD k 1 = 0) ∧ (genAdvance g p).ended = true := by
  have hlen : (p.levels.take p.nlev).length = p.nlev := by rw [List.length_take, hl, min_eq_left hmax]
  have hstep : genStep (p.levels.take p.nlev) (g.i.take p.nlev) = (List.replicate p.nlev 0, true) := by
    rw [genStep_of_full _ _ (by rw [hlen, List.length_take, hi, min_eq_left hmax]) fun k hk => ?_, hlen]
    have hk' : k < p.nlev := hlen ▸ hk
    simpa [List.getD_eq_getElem?_getD, List.getElem?_take, hk'] using h k hk'
  simp only [genAdvance, hstep]
  exact ⟨fun k hk => by simp [List.getD_eq_getElem?_getD, List.getElem?_append, hk], trivial⟩

end

/-! ### Binds, bases and skips (04 R79, R80; 05 R99, R101) -/

/-- A skip of a bound generator whose program has not ended is the advance alone. -/
theorem genSkip_of_bound {c : CoreSt} {g : Nat} (hbound : (c.gen g).bound = true) (hended : (c.gen g).ended = false)
    (hlev : 1 ≤ (c.stride (c.gen g).prog).nlev) : genSkip c g = .ok (c.accessed g) := by
  have hready : genReady c g = .ok (c.gen g, c.stride (c.gen g).prog) := by
    simp [genReady, hbound, hended, Nat.ne_zero_of_lt hlev]
  simp only [genSkip, hready, CoreSt.accessed]

section
variable {s : State} {uid : Nat}

theorem issueL_base_of_fits {r : Nat} (h : ((s.core uid).sreg r).toNat < 2 ^ 26) (half : Nat) :
    issueL s uid half (.base r) = .ok (Issued s uid .l 1 [.gbase half ((s.core uid).sreg r).toNat]) := by
  simp only [issueL]; rw [if_neg (not_le.2 h)]; rfl

theorem issueT_base_of_fits {r : Nat} (h : ((s.core uid).sreg r).toNat < 2 ^ 26) :
    issueT s uid (.base r) = .ok (Issued s uid .t 1 [.gbase 2 ((s.core uid).sreg r).toNat]) := by
  simp only [issueT]; rw [if_neg (not_le.2 h)]; rfl

theorem issueL_bind3_of_free (h : (s.core uid).shadowBusy ≤ (s.core uid).cyc) (half p : Nat) :
    issueL s uid half (.bind3 p) = .ok (Issued s uid .l 1 [.gbind 3 p]) := by
  simp only [issueL]; rw [if_neg (not_lt.2 h)]; rfl

theorem issueL_base3_of_free (h : (s.core uid).shadowBusy ≤ (s.core uid).cyc) {r : Nat} (hv : ((s.core uid).sreg r).toNat < 2 ^ 26)
    (half : Nat) : issueL s uid half (.base3 r) = .ok (Issued s uid .l 1 [.gbase 3 ((s.core uid).sreg r).toNat]) := by
  simp only [issueL]; rw [if_neg (not_lt.2 h), if_neg (not_le.2 hv)]; rfl

theorem issueL_skip_of_genSkip {half : Nat} {c : CoreSt} (h : genSkip (s.core uid) half = .ok c) :
    issueL s uid half .skip = .ok (s.setCore uid c) := by
  simp only [issueL, h, ofGen]

theorem issueT_skip_of_genSkip {c : CoreSt} (h : genSkip (s.core uid) 2 = .ok c) : issueT s uid .skip = .ok (s.setCore uid c) := by
  simp only [issueT, h, ofGen]

end

/-- Settles O15: binds and bases by the write they issue, skips by the generator they advance. -/
theorem generatorsBindAndAdvance : Obligations.GeneratorsBindAndAdvance := by
  refine ⟨fun s uid half p r hs hu hhalf hp hr => ?_, fun s uid g i hs hu hop => ?_⟩
  · intro c v
    have hwf_reg : (okUid uid && decide (half < 2) && okReg r) = true := by simp [okUid, okReg, hu, hhalf, hr]
    have hwf_prog : (okUid uid && decide (half < 2) && decide (p < 32)) = true := by simp [okUid, hu, hhalf, hp]
    have hwf_tbind : (okUid uid && decide (p < 32)) = true := by simp [okUid, hu, hp]
    have hwf_tbase : (okUid uid && okReg r) = true := by simp [okUid, okReg, hu, hr]
    exact ⟨exec_issues (c := .lbind uid half p) rfl hwf_prog hs rfl, exec_issues (c := .tbind uid p) rfl hwf_tbind hs rfl,
      fun hv => ⟨exec_issues (c := .lbase uid half r) rfl hwf_reg hs (issueL_base_of_fits hv half),
        exec_issues (c := .tbase uid r) rfl hwf_tbase hs (issueT_base_of_fits hv)⟩,
      fun hfree => ⟨exec_issues (c := .lbind3 uid half p) rfl hwf_prog hs (issueL_bind3_of_free hfree half p),
        fun hv => exec_issues (c := .lbase3 uid half r) rfl hwf_reg hs (issueL_base3_of_free hfree hv half)⟩⟩
  · intro c st p hbound hended hlev hmax hi
    have hskip : genSkip c g = .ok (c.accessed g) := genSkip_of_bound hbound hended hlev
    have hexec : exec i s = .next (s.setCore uid (c.accessed g)) := by
      rcases hop with ⟨hg, rfl⟩ | ⟨rfl, rfl⟩
      · have hwf : (okUid uid && decide (g < 2)) = true := by simp [okUid, hu, hg]
        exact exec_issues (c := .lskip uid g) rfl hwf hs (issueL_skip_of_genSkip hskip)
      · have hwf : okUid uid = true := decide_eq_true hu
        exact exec_issues (c := .tskip uid) rfl hwf hs (issueT_skip_of_genSkip hskip)
    have hgen : (c.accessed g).gen g = genAdvance st p := CoreSt.gen_setGen ..
    have hl : p.levels.length = 6 := length_levels_stride ..
    refine ⟨_, hexec, ⟨_, rfl⟩, ?_⟩
    rw [State.core_setCore, hgen]
    exact ⟨rfl, rfl, rfl, fun k hk => CoreSt.gen_setGen_ne _ _ hk, genAdvance_of_below hlev hl hi, genAdvance_of_full hmax hl hi⟩

end Sys2Proof.Machine

namespace Sys2Proof.Machine
open Sys2Proof

/-! ### The grant of a tile's one denied request (05 R96, R97) -/

theorem grantRequest_of_down {s : State} {tile : Nat} (h : tileReady s tile = false) (i n : Nat) : grantRequest s tile i n = s := by
  simp [grantRequest, h]

/-- A core's request fits into a tile cycle in which nobody holds a lane. -/
theorem TileSt.fits_of_open {t : TileSt} (hc : t.claims = []) (ho : t.closed = false) {d : Denied} {uid : Nat} (hw : d.who = .core uid) :
    t.fits d = true := by
  simp [TileSt.fits, hc, ho, hw, lanesFree, engineRoom, Requester.moves]

/-- The one waiting request of a tile comes behind nobody. -/
theorem outranked_of_alone {t : TileSt} {d : Denied} (h : t.denied = [d]) (first : Nat) : outranked first t 0 d = false := by
  simp [outranked, h]

/-- A tile with the one request granted that waited there, in the n-th tile cycle from now. -/
def TileSt.granted (t : TileSt) (guard n : Nat) (d : Denied) : TileSt := { (newTileCycle guard n t).grant (d.later n) with denied := [] }

/-- A core's request that waits alone is granted, and has its effect. -/
theorem grantRequest_of_alone {s : State} {tile uid n : Nat} {d : Denied} (hup : tileReady s tile = true) (hd : (s.tile tile).denied = [d])
    (hw : d.who = .core uid) (hn : 1 ≤ n) : grantRequest s tile 0 n
      = grantEffect (s.setTile tile ((s.tile tile).granted (s.rd (fGuard tile)) n d)) tile uid (d.later n) (d.later n).count := by
  have htile : (s.nextCycle tile n).tile tile = newTileCycle (s.rd (fGuard tile)) n (s.tile tile) := State.tile_setTile ..
  have hden : (newTileCycle (s.rd (fGuard tile)) n (s.tile tile)).denied = [d.later n] := by simp [newTileCycle, hd]
  have hwho : (d.later n).who = .core uid := hw
  have hfits : (newTileCycle (s.rd (fGuard tile)) n (s.tile tile)).fits (d.later n) = true := TileSt.fits_of_open rfl rfl hwho
  have hturn : (d.later n).turn = .asks := rfl
  simp only [grantRequest, hup, if_neg (Nat.ne_of_gt hn), htile, hden, List.getElem?_cons_zero, hturn, hfits,
    outranked_of_alone hden, hwho, setTile_nextCycle]
  rfl

/-- A load in flight whose bytes have been read after n tile cycles of denial. -/
def Fly.filled (f : Fly) (s : State) (tile : Nat) (k : LdKind) (segs : List (Nat × Nat)) (n : Nat) : Fly :=
  { f with wait := false, load := none, late := n - f.late, writes := loadWrites k (spadReadSegs s tile segs), ue := firstUe s tile segs }

/-- The one load in flight of a core that is not frozen takes its bytes at its grant. -/
theorem grantEffect_of_load {s : State} {tile uid u : Nat} {d : Denied} {f : Fly} {k : LdKind} {segs : List (Nat × Nat)}
    (hd : d.kind = .load f.seq u) (hf : (s.core uid).flies = [f]) (hz : (s.core uid).freezes = []) (hl : f.load = some (k, segs)) (n : Nat) :
    grantEffect s tile uid d n = s.setCore uid { s.core uid with flies := [f.filled s tile k segs n], freezes := [] } := by
  simp [grantEffect, hd, hf, hz, hl, Fly.filled]

/-- A load that waits alone is granted: the bytes are those that stand in the scratchpad, and its delay is known. -/
theorem grantRequest_of_load {s : State} {tile uid u n : Nat} {d : Denied} {f : Fly} {k : LdKind} {segs : List (Nat × Nat)}
    (hup : tileReady s tile = true) (hden : (s.tile tile).denied = [d]) (hw : d.who = .core uid) (hd : d.kind = .load f.seq u)
    (hf : (s.core uid).flies = [f]) (hz : (s.core uid).freezes = []) (hl : f.load = some (k, segs)) (hn : 1 ≤ n) :
    let t := s.setTile tile ((s.tile tile).granted (s.rd (fGuard tile)) n d)
    grantRequest s tile 0 n = t.setCore uid { s.core uid with flies := [f.filled t tile k segs (d.later n).count], freezes := [] } := by
  intro t
  have heffect : (d.later n).kind = .load f.seq u := hd
  exact (grantRequest_of_alone hup hden hw hn).trans (grantEffect_of_load (s := t) heffect hf hz hl _)

/-! ### The arrival of an index group (05 R103) -/

section
variable {α : Type} {g : CoreSt → α}

/-- What counting the cycles of one freeze leaves alone, counting out all of them leaves alone. -/
theorem countAll_keeps (h : ∀ c k n, g (countFreeze c k n) = g c) : (fs : List Freeze) → (c : CoreSt) → (n : Nat) → g (countAll c fs n) = g c
  | [], _, _ => rfl
  | f :: fs, c, _ => (countAll_keeps h fs _ _).trans (h c f.cause _)

theorem countOut_keeps (h : ∀ c k n, g (countFreeze c k n) = g c) (hs : ∀ c n, g (CoreSt.stoodStill c n) = g c) (c : CoreSt)
    (fs : List Freeze) : g (countOut c fs) = g c := (hs ..).trans (countAll_keeps h ..)

end

theorem gens_countOut (c : CoreSt) (fs : List Freeze) : (countOut c fs).gens = c.gens :=
  countOut_keeps (g := CoreSt.gens) (fun _ k _ => by cases k <;> rfl) (fun _ _ => rfl) c fs

theorem sregs_countOut (c : CoreSt) (fs : List Freeze) : (countOut c fs).sregs = c.sregs :=
  countOut_keeps (g := CoreSt.sregs) (fun _ k _ => by cases k <;> rfl) (fun _ _ => rfl) c fs

theorem indexArrives_of_down {s : State} {uid : Nat} (h : tileReady s (uid / 4) = false) (g : Nat) : indexArrives s uid g = s := by
  simp [indexArrives, h]

/-- A group that has had its four cycles reaches its generator; of its core's record only the freezes it ends, and what they counted, change
besides. -/
theorem indexArrives_of_due {s : State} {uid g : Nat} {r : GrpRead} (hup : tileReady s (uid / 4) = true)
    (hr : ((s.core uid).gen g).reads = [r]) (hgranted : r.granted = true) (hue : r.ue = none) (hat : r.at_ + 4 ≤ (s.core uid).cyc) :
    ∃ (t : State) (c : CoreSt) (z : List Freeze), indexArrives s uid g
        = t.setCore uid { c.setGen g (genArrive ((s.core uid).gen g) r) with freezes := z }
      ∧ c.gens = (s.core uid).gens ∧ c.sregs = (s.core uid).sregs ∧ t.spad = s.spad := by
  simp only [indexArrives, hup, hr, List.find?_cons, hgranted, hat, decide_true, Bool.or_true, Bool.and_true, groupUe, hue]
  refine ⟨_, _, _, rfl, ?gens, ?sregs, ?spad⟩
  case gens => split; exacts [rfl, gens_countOut ..]
  case sregs => split; exacts [rfl, sregs_countOut ..]
  case spad => split <;> rfl

theorem reads_genArrive {g : Gen} {r : GrpRead} (h : g.reads = [r]) : (genArrive g r).reads = [] := by
  cases hb : r.bufB <;> simp [genArrive, hb, h]

theorem groups_genArrive_of_bufB {r : GrpRead} (h : r.bufB = true) (g : Gen) :
    (genArrive g r).grpB = some (r.off, r.data) ∧ (genArrive g r).grpA = g.grpA := by simp [genArrive, h]

theorem groups_genArrive_of_bufA {r : GrpRead} (h : r.bufB = false) (g : Gen) :
    (genArrive g r).grpA = some (r.off, r.data) ∧ (genArrive g r).grpB = g.grpB := by simp [genArrive, h]

/-! ### The patrol scrub (05 R94; 17 R321) -/

/-- The banks whose pass is complete once a bank has done a line. -/
def TileSt.banksDone (t : TileSt) (bank line : Nat) : Nat := if line = 8191 then t.scrubDone ||| 2 ^ bank else t.scrubDone

/-- A tile whose patrol scrub has done a bank's line. -/
def TileSt.scrubbed (t : TileSt) (bank line : Nat) : TileSt :=
  { t with scrubLine := tset nat0 t.scrubLine bank ((line + 1) % 8192)
           scrubDone := if t.banksDone bank line = 2 ^ 64 - 1 then 0 else t.banksDone bank line }

section
variable (s : State) (tile bank line : Nat)

theorem scrubNext_eq : scrubNext s tile bank line
    = if (s.tile tile).banksDone bank line = 2 ^ 64 - 1 then (s.setTile tile ((s.tile tile).scrubbed bank line)).inc (fScrubPasses tile)
      else s.setTile tile ((s.tile tile).scrubbed bank line) := rfl

theorem tile_scrubNext : (scrubNext s tile bank line).tile tile = (s.tile tile).scrubbed bank line := by
  rw [scrubNext_eq]; split <;> exact State.tile_setTile ..
theorem spad_scrubNext : (scrubNext s tile bank line).spad = s.spad := by rw [scrubNext_eq]; split <;> rfl
theorem cores_scrubNext : (scrubNext s tile bank line).cores = s.cores := by rw [scrubNext_eq]; split <;> rfl

/-- A pass is counted once every bank has done its last line. -/
theorem rd_passes_scrubNext : (scrubNext s tile bank line).rd (fScrubPasses tile)
    = if (s.tile tile).banksDone bank line = 2 ^ 64 - 1 then min (s.rd (fScrubPasses tile) + 1) 65535 else s.rd (fScrubPasses tile) := by
  rw [scrubNext_eq]
  split
  · rw [rd_inc_self _ (show 16 ≤ 31 by omega) (show 31 < 64 by omega), min_comm]; rfl
  · rfl

end

/-- A tile all of whose lanes in a bank the patrol scrub has claimed at a line, in the tile cycle that is the bank's turn. -/
def TileSt.claimed (t : TileSt) (guard bank line : Nat) : TileSt :=
  { newTileCycle guard ((16 * bank + 1024 - (t.tcyc + 1) % 1024) % 1024 + 1) t with
      claims := (List.range 64).map fun l => ⟨64 * bank + l, line, .scrub, false⟩ }

/-- A claim with nothing to correct counts whom it denies, and goes on to the bank's next line. -/
theorem scrubClaim_of_clean {s : State} {tile bank : Nat} (hf : s.isFatal = false) (hup : tileReady s tile = true)
    (hue : (s.tile tile).ue = []) (hfix : (s.tile tile).scrubFix = []) :
    ∃ n, scrubClaim s tile bank none
      = scrubNext ((s.setTile tile ((s.tile tile).claimed (s.rd (fGuard tile)) bank (tget nat0 (s.tile tile).scrubLine bank))).incBy
          (fScrubDenials tile) n) tile bank (tget nat0 (s.tile tile).scrubLine bank) := by
  simp only [scrubClaim, hf, hup, hue, hfix, tget, falseAt, List.filter_false, List.foldl_nil]
  exact ⟨_, rfl⟩

/-! ### The gate unit (09 R175) -/

theorem gateUnit_of_fatal {s : State} (h : s.isFatal = true) (tile : Nat) : gateUnit s tile = s := by
  simp [gateUnit, gateAll, h]

/-- The sum of the adds to a gate among the operations of a cycle. -/
def gateAdds (ops : List GateOp) (g : Nat) : Nat := ((ops.filter fun o => decide (o.gate = g) && !o.set).map GateOp.value).sum
/-- The sets of a gate among them. -/
def gateSets (ops : List GateOp) (g : Nat) : List GateOp := ops.filter fun o => decide (o.gate = g) && o.set

theorem lsum_eq_sum (l : List Nat) : lsum l = l.sum := List.sum_eq_foldl.symm

/-- The operations of a cycle give a gate the last of its sets, in port order, and the sum of its adds. -/
theorem gateApply_eq (ops : List GateOp) (g : Nat) (v : BitVec 32) : gateApply ops g v
    = ((gatePorts.flatMap fun p => (gateSets ops g).filter fun o => decide (o.port = p)).getLast?.elim v fun o => BitVec.ofNat 32 o.value)
      + BitVec.ofNat 32 (gateAdds ops g) := by
  have hsets (p : Nat) : ((ops.filter fun o => decide (o.gate = g)).filter fun o => o.set && decide (o.port = p))
      = (gateSets ops g).filter fun o => decide (o.port = p) := by
    rw [gateSets, List.filter_filter, List.filter_filter]
    exact List.filter_congr fun o _ => by cases o.set <;> simp [Bool.and_comm]
  have hadds : ((ops.filter fun o => decide (o.gate = g)).filter fun o => !o.set) = ops.filter fun o => decide (o.gate = g) && !o.set := by
    simp [List.filter_filter, Bool.and_comm]
  simp only [gateApply, hsets, hadds, lsum_eq_sum, gateAdds]
  cases (gatePorts.flatMap fun p => (gateSets ops g).filter fun o => decide (o.port = p)).getLast? <;> rfl

theorem gateApply_of_no_set {ops : List GateOp} {g : Nat} (h : gateSets ops g = []) (v : BitVec 32) :
    gateApply ops g v = v + BitVec.ofNat 32 (gateAdds ops g) := by
  simp [gateApply_eq, h, gatePorts]

theorem gateApply_of_one_set {ops : List GateOp} {g : Nat} {o : GateOp} (h : gateSets ops g = [o]) (hp : o.port < 5) (v : BitVec 32) :
    gateApply ops g v = BitVec.ofNat 32 o.value + BitVec.ofNat 32 (gateAdds ops g) := by
  have hport : (gatePorts.flatMap fun p => [o].filter fun o => decide (o.port = p)) = [o] := by
    simp only [gatePorts, List.filter_singleton]
    generalize o.port = n at hp ⊢
    interval_cases n <;> rfl
  simp [gateApply_eq, h, hport]

/-- A gate that no operation names keeps its value. -/
theorem gateApply_of_not_mem {ops : List GateOp} {g : Nat} (h : g ∉ ops.map GateOp.gate) (v : BitVec 32) : gateApply ops g v = v := by
  have hnone (p : GateOp → Bool) : (ops.filter fun o => decide (o.gate = g) && p o) = [] :=
    List.filter_eq_nil_iff.2 fun o ho => by
      have hne : o.gate ≠ g := fun he => h (he ▸ List.mem_map_of_mem ho)
      simp [hne]
  have hsets : gateSets ops g = [] := hnone GateOp.set
  have hadds : gateAdds ops g = 0 := by rw [gateAdds, hnone fun o => !o.set]; rfl
  rw [gateApply_of_no_set hsets, hadds]
  exact BitVec.add_zero v

/-- A run of writes, each of a value given by its key. -/
theorem tget_foldl_tset {α : Type} [DecidableEq α] (d : Nat → α) (v : Nat → α) : (l : List Nat) → (t : Tbl α) → (k : Nat) →
    tget d (l.foldl (fun t k => tset d t k (v k)) t) k = if k ∈ l then v k else tget d t k
  | [], _, _ => by simp
  | j :: l, t, k => by
    rw [List.foldl_cons, tget_foldl_tset d v l, tget_tset]
    rcases eq_or_ne k j with rfl | hj
    · simp
    · simp [hj]

/-- A tile with the gate operations of its cycle applied. -/
def TileSt.gated (t : TileSt) : TileSt :=
  { t with gateOps := []
           gates := (t.gateOps.map fun o => o.gate).foldl (fun gs g => tset gate0 gs g (gateApply t.gateOps g (tget gate0 t.gates g))) t.gates }

theorem tget_gates_gated (t : TileSt) (g : Nat) : tget gate0 t.gated.gates g = gateApply t.gateOps g (tget gate0 t.gates g) := by
  refine (tget_foldl_tset gate0 (fun g => gateApply t.gateOps g (tget gate0 t.gates g)) _ _ g).trans ?_
  split
  · rfl
  · exact (gateApply_of_not_mem ‹_› _).symm

/-- What the record of a ring leaves alone, the answers of the gate unit leave alone. -/
theorem gateAnswers_keeps {α : Type} {g : State → α} (hg : ∀ s r f, g (State.modRing s r f) = g s) (s : State) (b a : TileSt) :
    g (gateAnswers s b a) = g s :=
  foldl_keeps (fun t o => by
    split
    · exact hg ..
    · rfl) _ _

theorem rings_putRing (s : State) (r : Nat) (g : RingSt) : (s.putRing r g).rings = tset ring0 s.rings r g := rfl

/-- What a settled descriptor's ring becomes depends on the rings alone. -/
theorem rings_settleWork_congr {s t : State} (h : s.rings = t.rings) (r c : Nat) (w0 w : Work) :
    (settleWork s r c w0 w).rings = (settleWork t r c w0 w).rings := by
  simp only [settleWork, State.modRing, State.ring, rings_putRing, h]

section
variable {s : State} {tile : Nat} (hf : s.isFatal = false) (hup : tileReady s tile = true)
include hf hup

theorem gateUnit_of_up : gateUnit s tile
    = gateAnswers (stampAdded (s.setTile tile (s.tile tile).gated) tile) (s.tile tile) (s.tile tile).gated := by
  simp only [gateUnit, hup, gateAll, hf]; rfl

theorem tiles_gateUnit : (gateUnit s tile).tiles = (s.setTile tile (s.tile tile).gated).tiles := by
  rw [gateUnit_of_up hf hup, gateAnswers_keeps (g := State.tiles) fun _ _ _ => rfl]; rfl

theorem cores_gateUnit : (gateUnit s tile).cores = s.cores := by
  rw [gateUnit_of_up hf hup, gateAnswers_keeps (g := State.cores) fun _ _ _ => rfl]; rfl

theorem spad_gateUnit : (gateUnit s tile).spad = s.spad := by
  rw [gateUnit_of_up hf hup, gateAnswers_keeps (g := State.spad) fun _ _ _ => rfl]; rfl

theorem tile_gateUnit : (gateUnit s tile).tile tile = (s.tile tile).gated := by
  rw [State.tile, tiles_gateUnit hf hup]; exact State.tile_setTile ..

theorem tile_gateUnit_ne {n : Nat} (h : n ≠ tile) : (gateUnit s tile).tile n = s.tile n := by
  rw [State.tile, tiles_gateUnit hf hup]; exact State.tile_setTile_ne _ _ h

theorem gate_gateUnit (g : Nat) : (gateUnit s tile).gate tile g = gateApply (s.tile tile).gateOps g (s.gate tile g) := by
  rw [State.gate, tile_gateUnit hf hup, tget_gates_gated]; rfl

/-- The descriptor of the one operation of a cycle is done, with its gate's value before a set, after an add (03 R53). -/
theorem rings_gateUnit_of_one {o : GateOp} {r c : Nat} (hops : (s.tile tile).gateOps = [o]) (hwho : o.who = .ring r c) :
    (gateUnit s tile).rings = (settleWork s r c .gate
      (.judged 0 (if o.set then s.gate tile o.gate else (gateUnit s tile).gate tile o.gate).toNat none)).rings := by
  have hvalue : tget gate0 (if o.set then s.tile tile else (s.tile tile).gated).gates o.gate
      = if o.set then s.gate tile o.gate else (gateUnit s tile).gate tile o.gate := by
    rw [State.gate, State.gate, tile_gateUnit hf hup]; split <;> rfl
  rw [← hvalue, gateUnit_of_up hf hup]
  simp only [gateAnswers, hops, List.foldl_cons, List.foldl_nil, hwho]
  exact rings_settleWork_congr rfl ..

end

/-! ### The commands, and the statement -/

theorem exec_requestGrant {tile : Nat} (ht : tile < 60) (i n : Nat) (s : State) :
    exec (.requestGrant tile i n) s = .next (grantRequest s tile i n) := run_of_wf (c := .requestGrant tile i n) (decide_eq_true ht)

theorem exec_indexGroupArrival {uid g : Nat} (hu : uid < 240) (hg : g < 4) (s : State) :
    exec (.indexGroupArrival uid g) s = .next (indexArrives s uid g) :=
  run_of_wf (c := .indexGroupArrival uid g) (show (okUid uid && decide (g < 4)) = true by simp [okUid, hu, hg])

theorem exec_patrolScrubClaim {tile bank : Nat} (ht : tile < 60) (hb : bank < 64) (s : State) :
    exec (.patrolScrubClaim tile bank none) s = .next (scrubClaim s tile bank none) :=
  run_of_wf (c := .patrolScrubClaim tile bank none)
    (show (okTile tile && decide (bank < 64) && upsetIn (64 * 8192) none) = true by simp [okTile, ht, hb, upsetIn])

theorem exec_gateUnitApply {tile : Nat} (ht : tile < 60) (s : State) : exec (.gateUnitApply tile) s = .next (gateUnit s tile) :=
  run_of_wf (c := .gateUnitApply tile) (decide_eq_true ht)

/-- Settles O22: grants, groups, scrub claims and gate operations, each by what its unit does in the case that the statement names. -/
theorem tileUnitsAct : Obligations.TileUnitsAct := by
  have htile {uid : Nat} (hu : uid < 240) : uid / 4 < 60 := by omega
  refine ⟨fun s uid g n index hu hg hdown => ?down, fun s uid d n o k u w f hu hd hup hden hflies hfz hwait hload hn => ?grant,
    fun s uid g r hu hg hup hr hgranted hue hat => ?group, fun s tile bank ht hb hf hup hue hfix hline => ?scrub,
    fun s tile ht hf => ?fatal, fun s tile ht hup hf => ?gates⟩
  case down =>
    rw [exec_requestGrant (htile hu), exec_indexGroupArrival hu hg, grantRequest_of_down hdown, indexArrives_of_down hdown]
    exact ⟨rfl, rfl⟩
  case grant =>
    have hgrant := grantRequest_of_load hup hden rfl rfl hflies hfz hload hn
    refine ⟨_, _, (exec_requestGrant (htile hu) 0 n s).trans (congrArg _ hgrant), congrArg CoreSt.flies (State.core_setCore ..), rfl, ?late, rfl,
      loadWrites_scl s (uid / 4) o d, congrArg TileSt.denied (State.tile_setTile ..), congrArg TileSt.tcyc (State.tile_setTile ..), rfl⟩
    case late => cases w <;> rfl
  case group =>
    obtain ⟨t, c, z, ht, hgens, hsregs, hspad⟩ := indexArrives_of_due hup hr hgranted hue hat
    refine ⟨_, (exec_indexGroupArrival hu hg s).trans (congrArg _ ht), ?_⟩
    have hgen : ({ c.setGen g (genArrive ((s.core uid).gen g) r) with freezes := z }).gen g = genArrive ((s.core uid).gen g) r :=
      CoreSt.gen_setGen ..
    rw [State.core_setCore, hgen]
    refine ⟨reads_genArrive hr, fun h hh => ?_, fun hb => groups_genArrive_of_bufB hb _, fun hb => groups_genArrive_of_bufA hb _, hsregs, hspad⟩
    exact (CoreSt.gen_setGen_ne c _ hh).trans (congrArg (tget gen0 · h) hgens)
  case scrub =>
    intro line done
    obtain ⟨m, hm⟩ := scrubClaim_of_clean (bank := bank) hf hup hue hfix
    refine ⟨_, (exec_patrolScrubClaim ht hb s).trans (congrArg _ hm), ?_⟩
    rw [tile_scrubNext, rd_passes_scrubNext, spad_scrubNext, cores_scrubNext, State.incBy, State.tile_wr, State.tile_setTile,
      rd_wr_apart _ _ (by simp [Fld.apart, fScrubDenials, fScrubPasses])]
    exact ⟨tget_tset_self .., fun b hb => tget_tset_ne _ _ _ hb, rfl, rfl, rfl, rfl⟩
  case fatal => rw [exec_gateUnitApply ht, gateUnit_of_fatal hf]
  case gates =>
    intro ops adds
    refine ⟨_, exec_gateUnitApply ht s, ?_, cores_gateUnit hf hup, spad_gateUnit hf hup, fun g hg => ?_, fun g o hg hp => ?_,
      fun n hn => tile_gateUnit_ne hf hup hn, fun o r c hops hwho _ => rings_gateUnit_of_one hf hup hops hwho⟩
    · rw [tile_gateUnit hf hup]; rfl
    · rw [gate_gateUnit hf hup]; exact gateApply_of_no_set hg _
    · rw [gate_gateUnit hf hup]; exact gateApply_of_one_set hg hp _

end Sys2Proof.Machine

namespace Sys2Proof.Machine
open Sys2Proof

/-! ## O14: the matrix slot (06 R109 to R115) -/

/-! ### The feed bank and the vectors fed (06 R113) -/

/-- Where no MMUL is still feeding, no vector is fed in this cycle. -/
theorem tagFeed_of_fed {c : CoreSt} (h : ∀ m ∈ c.mms, m.t + m.occ ≤ c.cyc) : c.tagFeed = c := by
  have hmap : c.mms.map (fun m =>
      if m.t < c.cyc ∧ c.cyc < m.t + m.occ ∧ m.banks.length = c.cyc - m.t then { m with banks := m.banks ++ [c.feedY] } else m) = c.mms :=
    (List.map_congr_left fun m hm => if_neg fun hfed => not_lt.2 (h m hm) hfed.2.1).trans (List.map_id' _)
  rw [CoreSt.tagFeed, hmap]

/-- The vector that an MMUL feeds in this cycle has the feed bank as its tag. -/
theorem mem_tagFeed_of_feeding {c : CoreSt} {m : MMul} (hm : m ∈ c.mms) (hbegun : m.t < c.cyc) (hleft : c.cyc < m.t + m.occ)
    (hnext : m.banks.length = c.cyc - m.t) : { m with banks := m.banks ++ [c.feedY] } ∈ c.tagFeed.mms :=
  List.mem_map.2 ⟨m, hm, if_pos ⟨hbegun, hleft, hnext⟩⟩

/-- A core whose banks are exchanged. -/
def CoreSt.swapped (c : CoreSt) : CoreSt := { c.tagFeed with feedY := !c.feedY }

/-- With no shadow load under way a swap only exchanges the banks. -/
theorem swapBank_of_none {s : State} {uid : Nat} (h : (s.core uid).shadows = []) :
    swapBank s uid = .ok (s.setCore uid (s.core uid).swapped) := by
  simp only [swapBank, h, List.filter_nil, List.any_nil, Bool.false_eq_true, if_false]
  rfl

/-! ### MMUL (04 R78; 06 R109) -/

/-- A core as an MMUL finds it: with its banks exchanged where the swap bit is set (06 R113). -/
def CoreSt.swappedIf (c : CoreSt) (sw : Bool) : CoreSt := { c with mms := if sw then c.tagFeed.mms else c.mms, feedY := c.feedY != sw }

theorem swappedIf_true (c : CoreSt) : c.swappedIf true = c.swapped := by
  rw [CoreSt.swappedIf, Bool.bne_true]; rfl

theorem swappedIf_false (c : CoreSt) : c.swappedIf false = c := by
  rw [CoreSt.swappedIf, Bool.bne_false]; rfl

/-- What an MMUL feeds: the oldest entry of the feeder, or the last vector again (06 R109). -/
def CoreSt.feedEntry (c : CoreSt) : List Byte := match c.fifo with | e :: _ => e | [] => c.lastVec

/-- The MMUL that a core begins (06 R109). -/
def CoreSt.mmulOf (c : CoreSt) (win : Bool) (acc row : Nat) : MMul :=
  let prec := (c.csr csrPrec).toNat
  let w := c.csr (if win then csrWinB else csrWinA)
  let r := (row + c.rep) % 4096
  let fmt := nbits prec 7 4
  let passes := if fmt = 0xE then prec % 4 else 1
  { t := c.cyc, seq := c.seq, bundle := c.pc, rep := c.rep, entry := takePad 512 c.feedEntry, fmt := fmt, passes := passes
    ovfWrap := nbit prec 8, kstep := if nbits prec 15 12 = 0 then 16 else nbits prec 15 12, banks := [c.feedY], acc := acc, win := b2n win
    row := r, off := winRowOff w r, paired := winPaired w, c := if acc = 0 then 0 else tget nat0 c.rowShift (b2n win * 4096 + r)
    nanHalt := nbit (c.csr csrTrap).toNat 0, sums := List.replicate (occOf fmt passes) [], blk := [], ovf := [], d2 := []
    base := [], fwd := none, reading := false, ue := false, out := none }

/-- A core that has begun an MMUL: its feeder has given up an entry, or has none to give (04 R67, R75). -/
def CoreSt.feeds (c : CoreSt) (m : MMul) : CoreSt :=
  let c' := { c with mms := c.mms ++ [m], mbusy := c.cyc + m.occ, seq := c.seq + 1, fifo := c.fifo.drop 1, lastVec := c.feedEntry }
  if c.fifo.isEmpty then c'.setSticky stFeederEarly else c'

section
variable {s : State} {uid acc row : Nat} {win : Bool}

/-- An MMUL given to a free feeder, its window row within the scratchpad, begins. -/
theorem issueM_mul_of_free (hacc : acc < 2) (hfree : (s.core uid).mbusy ≤ (s.core uid).cyc) (hsh : (s.core uid).shadows = [])
    (hrow : (row + (s.core uid).rep) % 4096 < winRows ((s.core uid).csr (if win then csrWinB else csrWinA)))
    (hend : winRowOff ((s.core uid).csr (if win then csrWinB else csrWinA)) ((row + (s.core uid).rep) % 4096)
      + winRowBytes ((s.core uid).csr (if win then csrWinB else csrWinA)) ≤ spadBytes) (sw : Bool) :
    issueM s uid (.mul sw win acc row)
      = .ok (s.setCore uid (((s.core uid).swappedIf sw).feeds (((s.core uid).swappedIf sw).mmulOf win acc row))) := by
  simp only [issueM]
  rw [if_neg (not_le.2 hacc), if_neg (not_lt.2 hfree), if_neg (not_or.2 ⟨not_le.2 hrow, not_lt.2 hend⟩)]
  cases sw with
  | false => rw [swappedIf_false]; rfl
  | true =>
    simp only [swappedIf_true, if_true, swapBank_of_none hsh, State.core_setCore, State.setCore_setCore]
    rfl

end

theorem occ_mmulOf {c : CoreSt} (h : nbits (c.csr csrPrec).toNat 7 4 ≠ 14) (win : Bool) (acc row : Nat) : (c.mmulOf win acc row).occ = 1 :=
  if_neg h

section
variable (c : CoreSt) (m : MMul)

/-- What an MMUL leaves of its core, whether or not its feeder had an entry. -/
theorem feeds_frame : (c.feeds m).mms = c.mms ++ [m] ∧ (c.feeds m).mbusy = c.cyc + m.occ ∧ (c.feeds m).feedY = c.feedY
    ∧ (c.feeds m).sregs = c.sregs ∧ (c.feeds m).vregs = c.vregs ∧ (c.feeds m).flies = c.flies := by
  unfold CoreSt.feeds
  split <;> exact ⟨rfl, rfl, rfl, rfl, rfl, rfl⟩

variable {c}

theorem feedEntry_of_cons {e : List Byte} {q : List (List Byte)} (h : c.fifo = e :: q) : c.feedEntry = e := by simp only [CoreSt.feedEntry, h]
theorem feedEntry_of_nil (h : c.fifo = []) : c.feedEntry = c.lastVec := by simp only [CoreSt.feedEntry, h]

theorem feeds_of_cons {e : List Byte} {q : List (List Byte)} (h : c.fifo = e :: q) :
    (c.feeds m).fifo = q ∧ (c.feeds m).lastVec = e ∧ (c.feeds m).csrs = c.csrs := by
  simp [CoreSt.feeds, h, feedEntry_of_cons h]

theorem feeds_of_nil (h : c.fifo = []) : (c.feeds m).fifo = [] ∧ ((c.feeds m).csr 0x020).getLsbD 1 = true := by
  simp only [CoreSt.feeds, h, List.isEmpty_nil, if_true]
  exact ⟨rfl, sticky_setSticky _ (b := stFeederEarly) (by decide)⟩

end

/-! ### MSHADOW (06 R112, R115) -/

/-- The shadow load that an MSHADOW begins, without a row (06 R112). -/
def CoreSt.shadowOf (c : CoreSt) (part : Bool) : Shadow :=
  let fmt := nbits (c.csr csrPrec).toNat 7 4
  { t := c.cyc, bankY := !c.feedY, part := part, none_ := part && !hasPart1 fmt, fmt := fmt, row := 0, lastGrant := none, pend := none
    wr := [], early := false, bundle := c.pc, rep := c.rep, reads := [] }

/-- A core that has begun a shadow load: ag3 is held for 128 cycles (04 R69). -/
def CoreSt.loadsShadow (c : CoreSt) (part : Bool) : CoreSt :=
  { c with shadows := c.shadows ++ [c.shadowOf part], shadowBusy := c.cyc + 128, seq := c.seq + 1 }

/-- A shadow load after its next row has been granted in cycle t with its bytes (06 R112). -/
def Shadow.rowTaken (x : Shadow) (t : Nat) (bs : List Byte) (read : Nat × List (Nat × Nat) × Option UeAt) : Shadow :=
  { x with row := x.row + 1, lastGrant := some t, wr := x.wr ++ [(x.row, bs, t + 1)], reads := x.reads ++ [read] }

section
variable {s : State} {uid : Nat}

section
variable (hfree : (s.core uid).mbusy ≤ (s.core uid).cyc) (hag3 : (s.core uid).shadowBusy ≤ (s.core uid).cyc)
include hfree hag3

/-- Part 0 begins a load, and presents a row. -/
theorem issueM_shadow_part0 : issueM s uid (.shadow false) = shadowTick (s.setCore uid ((s.core uid).loadsShadow false)) uid := by
  simp only [issueM]
  rw [if_neg (not_or.2 ⟨not_lt.2 hfree, not_lt.2 hag3⟩)]
  rfl

/-- Part 1 in a format that has none presents no row. -/
theorem issueM_shadow_of_noPart1 (hpart : hasPart1 (nbits ((s.core uid).csr csrPrec).toNat 7 4) = false) : issueM s uid (.shadow true)
    = .ok (s.setCore uid (((s.core uid).loadsShadow true).setSticky stBadCsr)) := by
  simp only [issueM, hpart]
  rw [if_neg (not_or.2 ⟨not_lt.2 hfree, not_lt.2 hag3⟩), CoreSt.loadsShadow, CoreSt.shadowOf, hpart]
  rfl

end

/-- A row at a linear and legal access on free lanes is granted at once, with the bytes that stand there. -/
theorem shadowRow_of_linear {sh : Shadow} {a : Nat} (hidle : LanesIdle s (uid / 4)) (hlin : LinearAccess (s.core uid) 3 (shadowBytes sh.fmt) a) :
    ∃ t read, shadowRow s uid sh = .ok ((s.setTile (uid / 4) t).setCore uid (((s.core uid).accessed 3).modShadow sh.t fun x =>
      x.rowTaken (s.core uid).cyc (spadRead s (uid / 4) a (shadowBytes sh.fmt)) read)) := by
  obtain ⟨hclaims, hdenied, -⟩ := hidle
  obtain ⟨t, ht⟩ := present_of_idle hclaims hdenied uid .shadowRow false [(a, shadowBytes sh.fmt)]
  refine ⟨t, ((s.core uid).cyc + 1, [(a, shadowBytes sh.fmt)], firstUe s (uid / 4) [(a, shadowBytes sh.fmt)]), ?_⟩
  simp only [shadowRow, genAccess_of_linear hlin (modes := modesFeed _) rfl, ofGen, ht, if_true, spadReadSegs_one]
  rfl

/-- A shadow load that is alone, and of whose rows none has been presented, presents its first. -/
theorem shadowTick_of_first {sh : Shadow} (h : (s.core uid).shadows = [sh]) (hopen : sh.open_ = true) (hpend : sh.pend = none)
    (hgrant : sh.lastGrant = none) {t : State} (hrow : shadowRow s uid sh = .ok t) : shadowTick s uid = .ok t := by
  simp [shadowTick, CoreSt.loading, CoreSt.rowGranted, h, hopen, hpend, hgrant, hrow]

/-- A change of the one shadow load of a core. -/
theorem modShadow_of_one {c : CoreSt} {sh : Shadow} (h : c.shadows = [sh]) (f : Shadow → Shadow) :
    c.modShadow sh.t f = { c with shadows := [f sh] } := by simp [CoreSt.modShadow, h]

/-- An MSHADOW of part 0, no shadow load being under way, has its first row granted, and ag3 advances. -/
theorem issueM_shadow_of_linear {a : Nat} (hfree : (s.core uid).mbusy ≤ (s.core uid).cyc) (hag3 : (s.core uid).shadowBusy ≤ (s.core uid).cyc)
    (hsh : (s.core uid).shadows = []) (hidle : LanesIdle s (uid / 4))
    (hlin : LinearAccess (s.core uid) 3 (shadowBytes ((s.core uid).shadowOf false).fmt) a) :
    ∃ t read, issueM s uid (.shadow false) = .ok ((s.setTile (uid / 4) t).setCore uid { ((s.core uid).loadsShadow false).accessed 3 with
      shadows := [((s.core uid).shadowOf false).rowTaken (s.core uid).cyc
        (spadRead s (uid / 4) a (shadowBytes ((s.core uid).shadowOf false).fmt)) read] }) := by
  have hone : ((s.core uid).loadsShadow false).shadows = [(s.core uid).shadowOf false] := by simp [CoreSt.loadsShadow, hsh]
  obtain ⟨t, read, hrow⟩ := shadowRow_of_linear (s := s.setCore uid ((s.core uid).loadsShadow false)) (sh := (s.core uid).shadowOf false) (a := a)
    hidle (by rw [State.core_setCore]; exact hlin)
  rw [State.core_setCore] at hrow
  refine ⟨t, read, ?_⟩
  rw [issueM_shadow_part0 hfree hag3, shadowTick_of_first (by rw [State.core_setCore]; exact hone) rfl rfl rfl hrow,
    modShadow_of_one (c := ((s.core uid).loadsShadow false).accessed 3) hone]
  exact congrArg Except.ok (State.setCore_setCore (s.setTile (uid / 4) t) ..)

end

/-- Settles O14: a swap, an MMUL and a shadow load each by what its issue leaves of the core. -/
theorem matrixAndShadowIssue : Obligations.MatrixAndShadowIssue := by
  refine ⟨fun s uid acc row sw win hs hu hacc hrow hsh => ?_, fun s uid a hs hu hidle => ?_⟩
  · intro c w fmt r
    have hwf_mul : (okUid uid && decide (acc < 4) && decide (row < 4096)) = true := by simp [okUid, hu, hrow]; omega
    refine ⟨exec_issues (c := .mswap uid) rfl (decide_eq_true hu) hs (swapBank_of_none hsh), tagFeed_of_fed,
      fun m => mem_tagFeed_of_feeding, fun hfree hfmt hr hend => ?_⟩
    refine ⟨_, (c.swappedIf sw).mmulOf win acc row,
      exec_issues (c := .mmul uid sw win acc row) rfl hwf_mul hs (issueM_mul_of_free hacc hfree hsh hr hend sw), ?_⟩
    rw [State.core_setCore]
    obtain ⟨hmms, hbusy, hfeedY, hsregs, hvregs, hflies⟩ := feeds_frame (c.swappedIf sw) ((c.swappedIf sw).mmulOf win acc row)
    rw [occ_mmulOf (c := c.swappedIf sw) hfmt] at hbusy
    refine ⟨hmms, rfl, rfl, rfl, rfl, rfl, rfl, hbusy, hfeedY, rfl, rfl, hsregs, hvregs, hflies, fun e q hfifo => ?_, fun hfifo => ?_⟩
    · obtain ⟨hrest, hlast, hcsrs⟩ := feeds_of_cons (c := c.swappedIf sw) ((c.swappedIf sw).mmulOf win acc row) hfifo
      exact ⟨hrest, congrArg (takePad 512) (feedEntry_of_cons (c := c.swappedIf sw) hfifo), hlast, hcsrs⟩
    · obtain ⟨hrest, hearly⟩ := feeds_of_nil (c := c.swappedIf sw) ((c.swappedIf sw).mmulOf win acc row) hfifo
      exact ⟨hrest, congrArg (takePad 512) (feedEntry_of_nil (c := c.swappedIf sw) hfifo), hearly⟩
  · intro c fmt len hfree hag3 hsh
    refine ⟨fun hlin => ?_, fun hfmt => ?_⟩
    · obtain ⟨t, read, hissue⟩ := issueM_shadow_of_linear hfree hag3 hsh hidle hlin
      refine ⟨_, (c.shadowOf false).rowTaken c.cyc (spadRead s (uid / 4) a len) read,
        exec_issues (c := .mshadow uid false) rfl (decide_eq_true hu) hs hissue, ?_⟩
      rw [State.core_setCore]
      exact ⟨rfl, rfl, rfl, rfl, rfl, rfl, rfl, count_gen_setGen_advance .., rfl, rfl, rfl, rfl⟩
    · have hpart : hasPart1 fmt = false := by simp [hasPart1, isMx]; omega
      refine ⟨_, exec_issues (c := .mshadow uid true) rfl (decide_eq_true hu) hs (issueM_shadow_of_noPart1 hfree hag3 hpart), ?_⟩
      rw [State.core_setCore]
      exact ⟨sticky_setSticky _ (b := stBadCsr) (by decide), rfl, rfl, rfl, rfl⟩

end Sys2Proof.Machine

namespace Sys2Proof.Machine
open Sys2Proof

/-! ## O12, O13: the vector engine (07) -/

/-! ### Integer, bitwise and move operations (07 R136) -/

/-- The INT32 reading of a number is that of its low 32 bits as a word. -/
theorem int32_eq_toInt (v : Nat) : int32 v = (BitVec.ofNat 32 v).toInt := by
  simp only [int32, sint, BitVec.toInt, BitVec.toNat_ofNat]
  omega

theorem int32_toNat (a : Word32) : int32 a.toNat = a.toInt := by rw [int32_eq_toInt, BitVec.ofNat_toNat, BitVec.setWidth_eq]

theorem ofNat_uint (w : Nat) (i : Int) : BitVec.ofNat w (uint w i) = BitVec.ofInt w i := by
  have hlt := Int.emod_lt_of_pos i (b := ((2 ^ w : Nat) : Int)) (by positivity)
  apply BitVec.eq_of_toNat_eq
  rw [BitVec.toNat_ofNat, BitVec.toNat_ofInt, uint, Nat.mod_eq_of_lt (by omega)]

/-- Clearing the sign bit, as a remainder and as a mask. -/
theorem ofNat_mod_signBit (a : Word32) : BitVec.ofNat 32 (a.toNat % 2 ^ 31) = a &&& 0x7FFFFFFF#32 := by
  apply BitVec.eq_of_toNat_eq
  rw [BitVec.toNat_and, BitVec.toNat_ofNat, show (0x7FFFFFFF#32).toNat = 2 ^ 31 - 1 from rfl, Nat.and_two_pow_sub_one_eq_mod]
  omega

/-- Changing the sign bit, as an addition and as a mask. -/
theorem ofNat_add_signBit (a : Word32) : BitVec.ofNat 32 ((a.toNat + 2 ^ 31) % 2 ^ 32) = a ^^^ 0x80000000#32 := by
  rw [show 0x80000000#32 = BitVec.twoPow 32 31 from rfl, Nat.add_comm]
  refine BitVec.eq_of_getLsbD_eq fun i hi => ?_
  rw [BitVec.getLsbD_xor, BitVec.getLsbD_twoPow, BitVec.getLsbD_ofNat, Nat.testBit_mod_two_pow, decide_eq_true hi, Bool.true_and]
  obtain rfl | hlt : i = 31 ∨ i < 31 := by omega
  · rw [Nat.testBit_two_pow_add_eq]
    exact (Bool.xor_true _).symm
  · rw [Nat.testBit_two_pow_add_gt hlt, decide_eq_false (p := 31 = i) (by omega), Bool.and_false, Bool.xor_false]
    rfl

/-- The operations of R136 whose results `vIntResult` gives. -/
def vIntOps : List VOpc := [.viadd, .visub, .vimul, .vand, .vor, .vxor, .vshl, .vshr, .vabs, .vneg, .vmov]

theorem mem_vIntOps {op : VOpc} {a b : Word32} (h : (vIntResult op a b).isSome) : op ∈ vIntOps := by
  revert h
  cases op <;> simp [vIntResult, vIntOps]

/-- An element's result is that of R136. -/
theorem vElem_of_vIntOps {j : VJob} (hop : j.op ∈ vIntOps) (uid e shift c : Nat) (a b : Word32) :
    BitVec.ofNat 32 (vElem j uid e shift a.toNat b.toNat c).1 = (vIntResult j.op a b).getD 0#32 := by
  simp only [vIntOps, List.mem_cons, List.not_mem_nil, or_false] at hop
  rcases hop with h | h | h | h | h | h | h | h | h | h | h <;>
    simp only [vElem, vIntResult, h, Option.getD_some, ofNat_uint, int32_toNat]
  · rw [BitVec.ofInt_add, BitVec.ofInt_toInt, BitVec.ofInt_toInt]
  · rw [sub_eq_add_neg, BitVec.ofInt_add, BitVec.ofInt_neg, BitVec.ofInt_toInt, BitVec.ofInt_toInt, BitVec.sub_eq_add_neg]
  · rw [BitVec.ofInt_mul, BitVec.ofInt_toInt, BitVec.ofInt_toInt]
  · simp
  · simp
  · simp
  · rw [Nat.shiftLeft_eq]
    exact BitVec.eq_of_toNat_eq (by simp)
  · rw [Nat.shiftRight_eq_div_pow]
  · exact ofNat_mod_signBit a
  · exact ofNat_add_signBit a
  · simp

theorem vClass_of_vIntOps {op : VOpc} (h : op ∈ vIntOps) : vClass op = .elem := by
  revert h
  cases op <;> simp [vIntOps, vClass]

/-- These operations have no fields that could be illegal but the predicate and the third source. -/
theorem fieldsLegal_of_vIntOps {op : VOpc} (h : op ∈ vIntOps) {f : VArg} (hpm : f.pm = 0) (hvc : f.vc = 0) : VFieldsLegal op f := by
  have hother : ∀ x ∈ vIntOps, x ∉ [VOpc.vmax, .vmin, .vcmplt, .vcmpeq, .vrsum, .vrmax, .vrmin, .vrsegsum, .vrsegmax, .vrsegmin]
      ∧ x ≠ .vcvt ∧ x ≠ .vopt3 ∧ x ∉ [VOpc.vcmplt, .vcmpeq] ∧ x ∉ [VOpc.vsel, .vcompress, .vexpand]
      ∧ x ∉ [VOpc.vcompress, .vexpand] := by decide
  obtain ⟨hfmt, hcvt, hopt, hcmp, hpred, hself⟩ := hother op h
  exact ⟨Or.inl hpm, fun hop => absurd hop hfmt, fun hop => absurd hop hcvt, fun hop => absurd hop hopt, fun hop => absurd hop hcmp,
    fun hop => absurd hop hpred, fun hop => absurd hop hself, fun _ => hvc⟩

/-! ### An operation of one chunk of registers (07 R131; 04 R70) -/

theorem upFrom_zero (n : Nat) : upFrom 0 n = List.range n := by simp [upFrom]

theorem chunksN_of_one {j : VJob} (h1 : 1 ≤ j.n) (h256 : j.n ≤ 256) : j.chunksN = 1 := by
  unfold VJob.chunksN cdiv
  omega

/-- A job that has read its first chunk. -/
def VJob.withChunk0 (j : VJob) (c : CoreSt) : VJob := { j with chunks := [readChunk c j 0] }

theorem chunkOf_withChunk0 (j : VJob) (c : CoreSt) : chunkOf (j.withChunk0 c) 0 = some (readChunk c j 0) := rfl

/-- An element-wise operation of one chunk of registers that is no conversion, before it has read its chunk. -/
structure VJob.OneChunk (j : VJob) : Prop where
  one_le : 1 ≤ j.n
  le_256 : j.n ≤ 256
  elem : vClass j.op = .elem
  noCvt : j.op ≠ .vcvt
  src : j.src = 0
  chunks : j.chunks = []
  waiting : j.waiting = []
  emitted : j.emitted = []

section
variable {j : VJob} (h : j.OneChunk)
include h

theorem VJob.OneChunk.chunksN : j.chunksN = 1 := chunksN_of_one h.one_le h.le_256
theorem VJob.OneChunk.mxUpward : j.mxUpward = false := by simp [VJob.mxUpward, h.noCvt]
theorem VJob.OneChunk.mxDownward : j.mxDownward = false := by simp [VJob.mxDownward, h.noCvt]
theorem VJob.OneChunk.window : j.window = false := by simp [VJob.window, h.src]

theorem VJob.OneChunk.now : j.now j.t = [0] := by
  simp [VJob.now, h.chunksN, VJob.early, h.mxDownward, chunkOf, h.chunks, h.waiting]

section
variable (c : CoreSt)

theorem VJob.OneChunk.sources : (j.withChunk0 c).sources 0 = [0] := by
  have hclass : vClass (j.withChunk0 c).op = .elem := h.elem
  have hmx : (j.withChunk0 c).mxDownward = false := h.mxDownward
  have hup : (j.withChunk0 c).mxUpward = false := h.mxUpward
  have hwin : (j.withChunk0 c).window = false := h.window
  have hn : (j.withChunk0 c).chunksN = 1 := h.chunksN
  simp [VJob.sources, hclass, hmx, hup, hwin, hn]

/-- Its one output is then ready. -/
theorem VJob.OneChunk.ready : (j.withChunk0 c).ready = [0] := by
  have hclass : vClass (j.withChunk0 c).op = .elem := h.elem
  have hn : (j.withChunk0 c).chunksN = 1 := h.chunksN
  have hemitted : (j.withChunk0 c).emitted = [] := h.emitted
  have hpred : (readChunk c j 0).pred = true := rfl
  simp [VJob.ready, VJob.outputs, hclass, hn, h.sources, chunkOf_withChunk0, hemitted, hpred]

theorem VJob.OneChunk.out (uid : Nat) : (j.withChunk0 c).out c uid 0 = elemOut c (j.withChunk0 c) uid (readChunk c j 0) := by
  have hclass : vClass (j.withChunk0 c).op = .elem := h.elem
  have hmx : (j.withChunk0 c).mxDownward = false := h.mxDownward
  simp [VJob.out, hclass, hmx, chunkOf_withChunk0]

end

/-- In the cycle of its issue the engine reads the chunk, and sends the output to land. -/
theorem VJob.OneChunk.flies_vTick {s : State} {uid : Nat} {c : CoreSt} (hc : s.core uid = c) (hjobs : c.vjobs = [j]) (hflies : c.flies = [])
    (ht : j.t = c.cyc) : ((vTick s uid).core uid).flies
      = [(j.withChunk0 c).fly 0 (elemOut c (j.withChunk0 c) uid (readChunk c j 0)) false] := by
  have hnow : j.now c.cyc = [0] := ht ▸ h.now
  have hread : vReadChunk s uid j 0 = (s.setCore uid (vEmit c uid (j.withChunk0 c)).1, (vEmit c uid (j.withChunk0 c)).2) := by
    simp [vReadChunk, VJob.reads, h.window, h.chunks, VJob.withChunk0, hc]
  have hpred : (vEmit c uid (j.withChunk0 c)).2.chunks.all (fun q => q.pred) = true := rfl
  have htick : vTickJob s uid j = vReadChunk s uid j 0 := by
    simp only [vTickJob, hc, hnow, List.foldl_cons, List.foldl_nil, hread, hpred, if_true]
  simp only [vTick, hc, hjobs, List.foldl_cons, List.foldl_nil, htick, hread, State.modCore, State.core_setCore]
  simp [vEmit, h.ready, h.out, hflies]

/-- That output is due six cycles after the issue. -/
theorem VJob.OneChunk.due (c : CoreSt) : (j.withChunk0 c).due 0 = j.t + 6 := by
  have hclass : vClass (j.withChunk0 c).op = .elem := h.elem
  have hwin : (j.withChunk0 c).window = false := h.window
  simp only [VJob.due, VJob.winLat, hclass, hwin]
  rfl

end

theorem lget_map_range {α : Type} (d : α) (f : Nat → α) {n i : Nat} (hi : i < n) : lget d ((List.range n).map f) i = f i := by
  simp [lget, hi]

/-- The operands of the first chunk, and its predicate bits, by element. -/
theorem readChunk_zero {j : VJob} (hpm : j.pm = 0) (hsrc : j.src = 0) (h256 : j.n ≤ 256) (c : CoreSt) :
    readChunk c j 0 = { j := 0, xa := (List.range j.n).map (c.velem j.va), xb := (List.range j.n).map (c.velem j.vb)
                        xc := (List.range j.n).map (c.velem j.vc), xp := (List.range j.n).map fun _ => true } := by
  have hlanes : j.lanes 0 = j.n := by
    unfold VJob.lanes
    omega
  simp [readChunk, hlanes, upFrom_zero, hpm, hsrc]

/-- What an unpredicated operation of R136 on register operands writes of its first chunk. -/
theorem writes_elemOut_of_vIntOps {j : VJob} (hop : j.op ∈ vIntOps) (hpm : j.pm = 0) (hsrc : j.src = 0) (h256 : j.n ≤ 256) (c : CoreSt)
    (uid : Nat) : (elemOut c (j.withChunk0 c) uid (readChunk c j 0)).writes
      = [.vch j.vd 0 ((List.range j.n).map fun e => (e, (vIntResult j.op (c.velem j.va e) (c.velem j.vb e)).getD 0#32))] := by
  have hother : ∀ x ∈ vIntOps, x ≠ .vsel ∧ ¬(x = .vcmplt ∨ x = .vcmpeq) ∧ x ≠ .vcvt ∧ x ≠ .vbcast ∧ x ≠ .vopt3 := by decide
  obtain ⟨hsel, hcmp, hcvt, hbcast, hopt⟩ := hother j.op hop
  have hdown : (j.withChunk0 c).mxDownward = false := by simp [VJob.mxDownward, VJob.withChunk0, hcvt]
  have hup : (j.withChunk0 c).mxUpward = false := by simp [VJob.mxUpward, VJob.withChunk0, hcvt]
  have hop' : (j.withChunk0 c).op = j.op := rfl
  have hvd : (j.withChunk0 c).vd = j.vd := rfl
  have hkept : (List.range j.n).filter (fun i => lget true ((List.range j.n).map fun _ => true) i) = List.range j.n :=
    List.filter_eq_self.2 fun i hi => lget_map_range _ _ (List.mem_range.1 hi)
  simp only [elemOut, hop', hvd, hsel, hcmp, hbcast, hopt, hdown, hup, readChunk_zero hpm hsrc h256, List.length_map, List.length_range,
    Nat.mul_zero, Nat.zero_add, Bool.false_eq_true, if_false, hkept, List.map_map]
  refine congrArg (fun l => [Wr.vch j.vd 0 l]) (List.map_congr_left fun e he => ?_)
  have hlt := List.mem_range.1 he
  simp only [Function.comp_apply, lget_map_range _ _ hlt, vElem_of_vIntOps (j := j.withChunk0 c) hop, hop']

/-- Settles O12: the operation is one chunk of registers, read in the cycle of its issue. -/
theorem vectorIntegerElements : Obligations.VectorIntegerElements := by
  intro s uid op f hs hu hfit hpm hsrc hvc hn hint hfree hjobs hflies
  have hop : op ∈ vIntOps := mem_vIntOps (hint 0#32 0#32)
  have hlegal := fieldsLegal_of_vIntOps hop hpm hvc
  have hone : (vJobOf (s.core uid) op f).OneChunk := by
    obtain ⟨-, -, -, -, -, h1, -⟩ := hfit
    exact ⟨h1, hn, vClass_of_vIntOps hop, by rintro rfl; revert hop; decide, hsrc, rfl, rfl, rfl⟩
  exact ⟨_, _, exec_issues (exec_vCmd_eq ..) (vCmd_wf hu hfit op) hs (issueV_of_free hlegal hfree (by simp [hsrc])),
    hone.flies_vTick (State.core_setCore ..) (by simp [hjobs]) hflies rfl, hone.due _, rfl,
    writes_elemOut_of_vIntOps (j := vJobOf (s.core uid) op f) hop hpm hsrc hn _ uid⟩

/-! ### Special rows of VEXPSUB and VNORM (07 R140 to R142) -/

/-- A NaN is read as one, whatever subnormal_en. -/
theorem isNan_ofF32 (sub : Bool) (w : Nat) : (ofF32 sub w).isNan = isNan32 w := by
  unfold ofF32 isNan32 FV.isNan
  split
  case h_1 heq => rw [heq]; split <;> simp
  case h_2 => rfl

/-- What the top exponent of FP32 spells (08 R149). -/
theorem decode_of_topExponent {w : Nat} (h : nbits w 30 23 = 255) :
    fFP32.decode w = if w % 2 ^ 23 = 0 then .inf (nbit w 31) else .nan := if_pos ⟨rfl, h⟩

theorem decode_of_lowerExponent {w : Nat} (h : nbits w 30 23 ≠ 255) : ∃ neg m e, fFP32.decode w = .fin neg m e := by
  rw [FFmt.decode, if_neg fun htop => h htop.2, if_neg fun he4m3 => nomatch he4m3.1]
  split
  · exact ⟨_, _, _, rfl⟩
  · exact ⟨_, _, _, rfl⟩

/-- The fields of an FP32 infinity (08 R149). -/
theorem fields_of_decode_inf {w : Nat} {neg : Bool} (h : fFP32.decode w = .inf neg) :
    nbit w 31 = neg ∧ nbits w 30 23 = 255 ∧ w % 2 ^ 23 = 0 := by
  by_cases htop : nbits w 30 23 = 255
  · rw [decode_of_topExponent htop] at h
    split at h
    case isTrue hfr => exact ⟨FV.inf.inj h, htop, hfr⟩
    case isFalse => cases h
  · obtain ⟨_, _, _, hfin⟩ := decode_of_lowerExponent htop
    rw [hfin] at h
    cases h

/-- The bits of +∞ alone are read as +∞. -/
theorem ofF32_eq_posInf {w : Nat} (hw : w < 2 ^ 32) (sub : Bool) : ofF32 sub w = .inf false ↔ w = 0x7F800000 := by
  constructor
  · intro h
    have hdec : fFP32.decode w = .inf false := by
      unfold ofF32 at h
      split at h
      · split at h <;> cases h
      · exact h
    obtain ⟨hneg, htop, hfr⟩ := fields_of_decode_inf hdec
    simp only [nbit, Nat.testBit_eq_decide_div_mod_eq, decide_eq_false_iff_not] at hneg
    simp only [nbits, Nat.shiftRight_eq_div_pow] at htop
    omega
  · rintro rfl
    cases sub <;> rfl

section
variable (j : VJob) (ops : List Nat)

theorem expSub_of_nan {x m : FV} (h : (x.isNan || m.isNan) = true) : expSub j ops x m = (fFP32.nanBits, 0) := by
  simp only [expSub, h, if_true]

theorem expSub_of_negInf {x : FV} (h : x.isNan = false) : expSub j ops x (.inf true) = (0, 8) := by
  rw [expSub, h, if_neg (by decide)]
  rfl

theorem expSub_of_posInf {x : FV} (h : x.isNan = false) :
    expSub j ops x (.inf false) = (if x = .inf false then 0x3F800000 else 0, 16) := by
  rw [expSub, h, if_neg (by decide)]
  rfl

theorem vnormVal_of_zero (a : FV) {b : FV} (h : b.isZero = true) : vnormVal j ops a b = (0, 8) := by
  simp only [vnormVal, h, if_true]
  rfl

end

/-- A result with its sticky flags, and whether it is reported as a NaN (07 R147). -/
def withNanReport (r : Nat × Nat) : Nat × Bool × Nat := (r.1, isNan32 r.1, r.2)

theorem vElem_vexpsub {j : VJob} (h : j.op = .vexpsub) (uid e shift x m c : Nat) :
    vElem j uid e shift x m c = withNanReport (expSub j [x, m] (ofF32 j.sub x) (ofF32 j.sub m)) := by
  simp only [vElem, h, withNanReport]

theorem vElem_vnorm {j : VJob} (h : j.op = .vnorm) (uid e shift a b c : Nat) :
    vElem j uid e shift a b c = withNanReport (vnormVal j [a, b] (ofF32 j.sub a) (ofF32 j.sub b)) := by
  simp only [vElem, h, withNanReport]

theorem isNan32_posInfRow (x : Nat) : isNan32 (if x = 0x7F800000 then 0x3F800000 else 0) = false := by
  split <;> decide

/-- The special rows of VEXPSUB. -/
theorem vElem_vexpsub_rows {j : VJob} (h : j.op = .vexpsub) (uid e c : Nat) {x : Nat} (hx : x < 2 ^ 32) (hnan : isNan32 x = false) :
    vElem j uid e 0 x 0xFF800000 c = (0, false, 8)
      ∧ vElem j uid e 0 x 0x7F800000 c = (if x = 0x7F800000 then 0x3F800000 else 0, false, 16) := by
  have hx' : (ofF32 j.sub x).isNan = false := by rw [isNan_ofF32, hnan]
  have hneg : ofF32 j.sub 0xFF800000 = .inf true := by cases j.sub <;> rfl
  have hpos : ofF32 j.sub 0x7F800000 = .inf false := by cases j.sub <;> rfl
  rw [vElem_vexpsub h, vElem_vexpsub h, hneg, hpos, expSub_of_negInf _ _ hx', expSub_of_posInf _ _ hx']
  simp only [withNanReport, ofF32_eq_posInf hx, isNan32_posInfRow]
  exact ⟨rfl, trivial⟩

/-- A NaN operand of VEXPSUB gives the default NaN. -/
theorem vElem_vexpsub_of_nan {j : VJob} (h : j.op = .vexpsub) (uid e c : Nat) {x m : Nat} (hnan : isNan32 x = true ∨ isNan32 m = true) :
    vElem j uid e 0 x m c = (0x7FC00000, true, 0) := by
  rw [vElem_vexpsub h, expSub_of_nan _ _ (by simpa only [isNan_ofF32, Bool.or_eq_true] using hnan)]
  rfl

/-- A divisor of zero gives an empty row of VNORM. -/
theorem vElem_vnorm_of_zero {j : VJob} (h : j.op = .vnorm) (uid e x c : Nat) {b : Nat} (hb : (ofF32 j.sub b).isZero = true) :
    vElem j uid e 0 x b c = (0, false, 8) := by
  rw [vElem_vnorm h, vnormVal_of_zero _ _ _ hb]
  rfl

/-! ### An operation of the lane tree that has read its one chunk (07 R143, R145) -/

section
variable {j : VJob} {ch : VChunk} (h1 : 1 ≤ j.n) (h256 : j.n ≤ 256) (hchunks : j.chunks = [ch]) (hch : ch.j = 0)
include h1 h256 hchunks hch

theorem allA_of_one : allA j = ch.xa := by simp [allA, chunksN_of_one h1 h256, chunkOf, hchunks, hch]
theorem allP_of_one : allP j = ch.xp := by simp [allP, chunksN_of_one h1 h256, chunkOf, hchunks, hch]

end

theorem scalarOf_int {j : VJob} (h : j.fmt = 1) (v : Nat) : scalarOf j v = (BitVec.ofNat 32 v).signExtend 64 := by
  rw [scalarOf, if_pos h, int32_eq_toInt]
  rfl

/-! ### The lane tree over INT32 elements (07 R143) -/

theorem length_treeLevel (add : Nat → Nat → Nat) : (l : List Nat) → (treeLevel add l).length = (l.length + 1) / 2
  | [] => rfl
  | [a] => by simp [treeLevel]
  | _ :: _ :: r => by
    have ih := length_treeLevel add r
    simp only [treeLevel, List.length_cons, ih]
    omega

/-- k levels bring 2^k lanes down to one. -/
theorem length_treeLevels (add : Nat → Nat → Nat) (k : Nat) {l : List Nat} (h : l.length ≤ 2 ^ k) : (treeLevels add k l).length ≤ 1 := by
  induction k generalizing l with
  | zero => simpa [treeLevels] using h
  | succ k ih =>
    refine ih ?_
    rw [length_treeLevel]
    omega

section
variable {add : Nat → Nat → Nat} (hadd : ∀ a b, BitVec.ofNat 32 (add a b) = BitVec.ofNat 32 a + BitVec.ofNat 32 b)
include hadd

/-- A level keeps the sum, modulo 2^32. -/
theorem sum_treeLevel : (l : List Nat) → ((treeLevel add l).map (BitVec.ofNat 32)).sum = (l.map (BitVec.ofNat 32)).sum
  | [] => rfl
  | [_] => rfl
  | _ :: _ :: r => by simp only [treeLevel, List.map_cons, List.sum_cons, hadd, sum_treeLevel r, add_assoc]

theorem sum_treeLevels (k : Nat) (l : List Nat) : ((treeLevels add k l).map (BitVec.ofNat 32)).sum = (l.map (BitVec.ofNat 32)).sum := by
  induction k generalizing l with
  | zero => rfl
  | succ k ih => rw [treeLevels, ih, sum_treeLevel hadd]

/-- The root of a tree of k levels over at most 2^k lanes is their sum, modulo 2^32. -/
theorem root_treeLevels {k : Nat} {l : List Nat} (h : l.length ≤ 2 ^ k) :
    BitVec.ofNat 32 (lget 0 (treeLevels add k l) 0) = (l.map (BitVec.ofNat 32)).sum := by
  rw [← sum_treeLevels hadd k]
  match treeLevels add k l, length_treeLevels add k h with
  | [], _ => rfl
  | [a], _ => simp [lget]

end

theorem treeAdd_int {j : VJob} (h : j.fmt = 1) (a b : Nat) : BitVec.ofNat 32 (treeAdd j a b) = BitVec.ofNat 32 a + BitVec.ofNat 32 b := by
  rw [treeAdd, if_pos h, ← BitVec.ofNat_add]
  exact BitVec.eq_of_toNat_eq (by simp)

/-- Values past the first n of a range count as zero. -/
theorem sum_range_ite (f : Nat → Word32) {n m : Nat} (h : n ≤ m) :
    ((List.range m).map fun l => if l < n then f l else 0#32).sum = ((List.range n).map f).sum := by
  obtain ⟨k, rfl⟩ := Nat.exists_eq_add_of_le h
  have hin : (List.range n).map (fun l => if l < n then f l else 0#32) = (List.range n).map f :=
    List.map_congr_left fun l hl => if_pos (List.mem_range.1 hl)
  have hpast : ((fun l => if l < n then f l else 0#32) ∘ fun x => n + x) = fun _ => 0#32 :=
    funext fun x => if_neg (Nat.not_lt.2 (Nat.le_add_right n x))
  rw [List.range_add, List.map_append, List.sum_append, hin, List.map_map, hpast]
  simp

/-- The sum of one chunk of INT32 elements, modulo 2^32. -/
theorem treeSum_int_of_one {j : VJob} (h1 : 1 ≤ j.n) (h256 : j.n ≤ 256) (hfmt : j.fmt = 1) (x : Nat → Nat) :
    BitVec.ofNat 32 (treeSum j x) = ((List.range j.n).map fun e => BitVec.ofNat 32 (x e)).sum := by
  have hone : upFrom 1 (j.chunksN - 1) = [] := by rw [chunksN_of_one h1 h256]; rfl
  rw [treeSum, root_treeLevels (treeAdd_int hfmt) (by simp), List.map_map, ← sum_range_ite _ h256]
  refine congrArg List.sum (List.map_congr_left fun l _ => ?_)
  simp only [Function.comp_apply, hone, List.foldl_nil]
  exact apply_ite (BitVec.ofNat 32) ..

theorem map_lget_range {α : Type} (d : α) {l : List α} {n : Nat} (h : l.length = n) : (List.range n).map (lget d l) = l := by
  subst h
  exact List.ext_getElem (by simp) fun i hi _ => by simp_all [lget]

/-- What VRSUM over INT32 elements without a predicate lands, its one chunk read. -/
theorem writes_treeOut_vrsum {j : VJob} {ch : VChunk} (h1 : 1 ≤ j.n) (h256 : j.n ≤ 256) (hchunks : j.chunks = [ch]) (hch : ch.j = 0)
    (hlen : ch.xa.length = j.n) (hop : j.op = .vrsum) (hfmt : j.fmt = 1) (hpm : j.pm = 0) :
    (treeOut j).writes = [.sreg j.sr ((ch.xa.foldl (· + ·) 0#32).signExtend 64)] := by
  have hsum : BitVec.ofNat 32 (treeSum j fun e => (lget 0#32 ch.xa e).toNat) = ch.xa.foldl (· + ·) 0#32 := by
    simp only [treeSum_int_of_one h1 h256 hfmt, BitVec.ofNat_toNat, BitVec.setWidth_eq, map_lget_range 0#32 hlen]
    exact List.sum_eq_foldl
  simp only [treeOut, hop, allA_of_one h1 h256 hchunks hch, hpm, decide_true, Bool.true_or, if_true, scalarOf_int hfmt, hsum]

/-! ### Compressed elements (07 R145) -/

/-- Elements that lie in the first chunk are written as one, or not at all. -/
theorem chunkWrites_of_lt {vd : Nat} {els : List (Nat × Word32)} (h : ∀ x ∈ els, x.1 < 256) :
    chunkWrites vd els = if els.isEmpty then [] else [.vch vd 0 els] := by
  have hfirst : els.filter (fun x => decide (x.1 / 256 = 0)) = els :=
    List.filter_eq_self.2 fun x hx => decide_eq_true (Nat.div_eq_of_lt (h x hx))
  have hrest : ∀ k, els.filter (fun x => decide (x.1 / 256 = k + 1)) = [] := fun k =>
    List.filter_eq_nil_iff.2 fun x hx => by simp [Nat.div_eq_of_lt (h x hx)]
  have hrange : List.range 16 = 0 :: (List.range 15).map (· + 1) := rfl
  simp only [chunkWrites, hrange, List.map_cons, List.map_map, Function.comp_def, hfirst, hrest, List.filter_cons]
  cases els <;> simp

/-- The numbers of the elements that a predicate chooses, ascending. -/
def chosen (n : Nat) (ps : List Bool) : List Nat := (List.range n).filter fun e => ps.getD e false

theorem length_chosen_le (n : Nat) (ps : List Bool) : (chosen n ps).length ≤ n :=
  (List.length_filter_le ..).trans_eq List.length_range

theorem zip_range_map {α β : Type} (f : α → β) (d : α) (d' : β) (l : List α) :
    (List.range l.length).map (fun i => (i, f (lget d l i))) = (List.range (l.map f).length).map fun i => (i, (l.map f).getD i d') := by
  rw [List.length_map]
  refine List.map_congr_left fun i hi => ?_
  have hlt := List.mem_range.1 hi
  simp [lget, hlt]

/-- What VCOMPRESS lands, its one chunk read: the chosen elements, where there are any, and their count. -/
theorem writes_treeOut_vcompress {j : VJob} {ch : VChunk} (h1 : 1 ≤ j.n) (h256 : j.n ≤ 256) (hchunks : j.chunks = [ch]) (hch : ch.j = 0)
    (hop : j.op = .vcompress) (hpm : 8 ≤ j.pm) :
    let kept := (chosen j.n ch.xp).map fun e => ch.xa.getD e 0#32
    (treeOut j).writes = (if kept.isEmpty then [] else [.vch j.vd 0 ((List.range kept.length).map fun i => (i, kept.getD i 0#32))])
      ++ [.sreg j.sr (BitVec.ofNat 64 kept.length)] := by
  intro kept
  have hlen : kept.length = (chosen j.n ch.xp).length := List.length_map ..
  have hwrites : (treeOut j).writes =
      chunkWrites j.vd ((List.range (chosen j.n ch.xp).length).map fun i => (i, ch.xa.getD (lget 0 (chosen j.n ch.xp) i) 0#32))
        ++ [.sreg j.sr (BitVec.ofNat 64 (chosen j.n ch.xp).length)] := by
    simp only [treeOut, hop, allA_of_one h1 h256 hchunks hch, allP_of_one h1 h256 hchunks hch, show j.pm ≠ 0 by omega, decide_false,
      Bool.false_or]
    rfl
  have hfits : ∀ x ∈ (List.range kept.length).map (fun i => (i, kept.getD i 0#32)), x.1 < 256 := by
    have hle := length_chosen_le j.n ch.xp
    simp only [List.mem_map, List.mem_range]
    rintro _ ⟨i, hi, rfl⟩
    exact lt_of_lt_of_le hi (by omega)
  have hempty : ((List.range kept.length).map fun i => (i, kept.getD i 0#32)).isEmpty = kept.isEmpty := by cases kept <;> simp
  rw [hwrites, zip_range_map (fun e => ch.xa.getD e 0#32) 0 0#32, chunkWrites_of_lt hfits, hempty, hlen]

/-- Settles O13: each row by the value that its operand is read as, each tree operation by its one chunk. -/
theorem vectorSpecialResults : Obligations.VectorSpecialResults := by
  unfold Obligations.VectorSpecialResults
  refine ⟨fun j uid e x b hx => ⟨fun hop hnan => ?_, fun hop hnan m _ => ?_, fun hop => ?_⟩,
    fun j xs ps h1 h256 hlen hps hchunks => ⟨fun hop hfmt hpm => ?_, fun hop hpm => ?_⟩⟩
  · obtain ⟨hneg, hpos⟩ := vElem_vexpsub_rows hop uid e b hx hnan
    exact ⟨hneg, hpos, vElem_vexpsub_of_nan hop uid e b (Or.inr (by decide))⟩
  · exact vElem_vexpsub_of_nan hop uid e b (Or.inl hnan)
  · exact ⟨vElem_vnorm_of_zero hop uid e x b (by cases j.sub <;> rfl), vElem_vnorm_of_zero hop uid e x b (by cases j.sub <;> rfl)⟩
  · exact (writes_treeOut_vrsum h1 h256 hchunks rfl hlen hop hfmt hpm :)
  · exact ⟨_, (writes_treeOut_vcompress h1 h256 hchunks rfl hop hpm :), rfl⟩

end Sys2Proof.Machine

namespace Sys2Proof.Machine
open Sys2Proof

/-! ## O55: flights (09 R170 to R173) -/

/-! ### What a core's cycle leaves alone (04 R65, R66) -/

/-- A part of the state that no core's cycle touches: it reads neither a core's record, nor a tile's, nor what its operations write and send, and of
the flights nothing that a halt changes. -/
structure CoreBystander {α : Type} (g : State → α) : Prop extends ApartFromErrors g where
  setCore : ∀ s u c, g (State.setCore s u c) = g s
  setTile : ∀ s n t, g (State.setTile s n t) = g s
  spad : ∀ s v, g { s with spad := v } = g s
  mesh : ∀ s v, g { s with mesh := v } = g s
  fenced : ∀ s v, g { s with fenced := v } = g s
  free : ∀ s v, g { s with free := v } = g s
  halt : ∀ s part fid ix dropped, g (haltFlight s part fid ix dropped) = g s

/-- What a step that may fail comes to, if it does not, has a part of the state as `s` has it. -/
structure OkKeeps {α : Type} (g : State → α) (s : State) (x : Except IssueErr State) : Prop where
  eq : ∀ {t}, x = .ok t → g t = g s

section
variable {α : Type} {g : State → α} {s : State}

@[simp] theorem okKeeps_ok {t : State} : OkKeeps g s (.ok t) ↔ g t = g s :=
  ⟨fun h => h.eq rfl, fun h => ⟨fun e => by cases e; exact h⟩⟩
@[simp] theorem okKeeps_error {e : IssueErr} : OkKeeps g s (.error e) := ⟨fun e => by cases e⟩
theorem OkKeeps.ite {c : Prop} [Decidable c] {x y : Except IssueErr State} (hx : OkKeeps g s x) (hy : OkKeeps g s y) : OkKeeps g s (if c then x else y) := by
  split <;> assumption
theorem OkKeeps.trans {t : State} {x : Except IssueErr State} (hx : OkKeeps g t x) (h : g t = g s) : OkKeeps g s x := ⟨fun e => (hx.eq e).trans h⟩

theorem foldlFst_keeps {β γ : Type} {f : State × γ → β → State × γ} (h : ∀ x b, g (f x b).1 = g x.1) (l : List β) (x : State × γ) :
    g (l.foldl f x).1 = g x.1 :=
  List.foldlRecOn (motive := fun y => g y.1 = g x.1) l f rfl fun _ hy b _ => (h _ b).trans hy

end

section
variable {α : Type} {g : State → α} (hg : CoreBystander g)
include hg

theorem modCore_coreBystander (s : State) (uid : Nat) (f : CoreSt → CoreSt) : g (s.modCore uid f) = g s := hg.setCore ..
theorem modTile_coreBystander (s : State) (n : Nat) (f : TileSt → TileSt) : g (s.modTile n f) = g s := hg.setTile ..
theorem nextCycle_coreBystander (s : State) (tile n : Nat) : g (s.nextCycle tile n) = g s := hg.setTile ..
theorem inc_coreBystander (s : State) (f : Fld) : g (s.inc f) = g s := hg.setReg ..
theorem incBy_coreBystander (s : State) (f : Fld) (n : Nat) : g (s.incBy f n) = g s := hg.setReg ..
theorem wrAll_coreBystander (s : State) (l : List (Fld × Nat)) : g (s.wrAll l) = g s := State.wrAll_keeps g (fun _ _ _ => hg.setReg ..) l s
theorem errRaise_coreBystander (s : State) (e : ErrIn) : g (errRaise s e) = g s := errRaise_keeps hg.toApartFromErrors s e

/-! The scratchpad (05) -/

theorem present_coreBystander (s : State) (tile : Nat) (who : Requester) (k : ReqKind) (write : Bool) (segs : List (Nat × Nat)) :
    g (present s tile who k write segs).2 = g s := by
  simp only [present]
  (repeat' split) <;> simp only [hg.setTile, nextCycle_coreBystander hg]

theorem deny_coreBystander (s : State) (tile : Nat) (d : Denied) : g (deny s tile d) = g s := by
  simp only [deny, apply_ite g, inc_coreBystander hg, modTile_coreBystander hg, ite_self]

theorem tileTouch_coreBystander (s : State) (uid : Nat) : g (tileTouch s uid) = g s := by
  simp only [tileTouch, modTile_coreBystander hg, apply_ite g, nextCycle_coreBystander hg, ite_self]

theorem spadWrite_coreBystander (s : State) (tile off : Nat) (bs : List Byte) : g (spadWrite s tile off bs) = g s := by
  simp only [spadWrite, modTile_coreBystander hg, hg.spad]

theorem noteUe_coreBystander (s : State) (tile ll : Nat) : g (noteUe s tile ll) = g s := by
  simp only [noteUe, apply_ite g, wrAll_coreBystander hg, inc_coreBystander hg, hg.fenced, ite_self]

/-! Halts and landings (04 R66, R70, R82, R86) -/

theorem coreHalt_coreBystander (s : State) (uid cause addr bundle rep : Nat) (sl : Slot) (q4 : List Nat) (link : Option Nat) (up : Bool) :
    g (coreHalt s uid cause addr bundle rep sl q4 link up) = g s := by
  simp only [coreHalt, hg.halt, errRaise_coreBystander hg, hg.setCore]

theorem nanReport_coreBystander (s : State) (uid : Nat) (f : Fly) : g (nanReport s uid f) = g s := by
  unfold nanReport
  split <;> simp only [apply_ite g, coreHalt_coreBystander hg, errRaise_coreBystander hg, hg.setReg, wrAll_coreBystander hg, inc_coreBystander hg,
    hg.setCore, ite_self]

theorem ueReport_coreBystander (s : State) (uid : Nat) (f : Fly) : g (ueReport s uid f) = g s := by
  unfold ueReport
  split <;> simp only [coreHalt_coreBystander hg, noteUe_coreBystander hg]

theorem groupUe_coreBystander (s : State) (uid k : Nat) (r : GrpRead) : g (groupUe s uid k r) = g s := by
  unfold groupUe
  split <;> simp only [coreHalt_coreBystander hg, noteUe_coreBystander hg]

theorem emitInc_coreBystander (s : State) (uid : Nat) (h : HeldInc) : g (emitInc s uid h) = g s := by
  simp only [emitInc, apply_ite g, modTile_coreBystander hg, hg.mesh, ite_self]

theorem releaseIncs_coreBystander (s : State) (uid : Nat) : g (releaseIncs s uid) = g s :=
  (foldl_keeps (fun t h => emitInc_coreBystander hg t uid h) _ _).trans (hg.setCore ..)

theorem landSp_coreBystander (s : State) (uid : Nat) (f : Fly) : g (landSp s uid f) = g s := by
  simp only [landSp, apply_ite g, modCore_coreBystander hg, present_coreBystander hg, deny_coreBystander hg, ite_self]

theorem landBytes_coreBystander (s : State) (uid : Nat) (f : Fly) : g (landBytes s uid f) = g s := by
  have hwrites : ∀ (l : List Wr) (t : State),
      g (l.foldl (fun t w => match w with | .sp o bs => spadWrite t (uid / 4) o bs | _ => t) t) = g t := fun l t =>
    foldl_keeps (fun t w => by cases w <;> simp only [spadWrite_coreBystander hg]) l t
  unfold landBytes
  split
  · rw [apply_ite g, modCore_coreBystander hg]
    exact (if_congr Iff.rfl rfl (hwrites ..)).trans (ite_self _)
  · rfl

theorem shadowLandOne_coreBystander (s : State) (uid : Nat) (sh : Shadow) : g (shadowLandOne s uid sh) = g s := by
  unfold shadowLandOne
  split
  · rfl
  · refine (foldl_keeps (fun t u => ?_) _ _).trans (modCore_coreBystander hg ..)
    rw [coreHalt_coreBystander hg, noteUe_coreBystander hg]

theorem shadowLand_coreBystander (s : State) (uid : Nat) : g (shadowLand s uid) = g s :=
  foldl_keeps (fun t sh => shadowLandOne_coreBystander hg t uid sh) _ _

theorem mileSample_coreBystander (s : State) (uid : Nat) : g (mileSample s uid) = g s := by
  simp only [mileSample, apply_ite g, hg.free, hg.setCore, ite_self]

theorem landCycle_coreBystander (s : State) (uid : Nat) : g (landCycle s uid) = g s := by
  have hsp : ∀ l t, g (List.foldl (fun t f => landSp t uid f) t l) = g t := foldl_keeps fun t f => landSp_coreBystander hg t uid f
  have hbytes : ∀ l t, g (List.foldl (fun t f => landBytes t uid f) t l) = g t := foldl_keeps fun t f => landBytes_coreBystander hg t uid f
  have hnan : ∀ l t, g (List.foldl (fun t f => nanReport t uid f) t l) = g t := foldl_keeps fun t f => nanReport_coreBystander hg t uid f
  have hue : ∀ l t, g (List.foldl (fun t f => ueReport t uid f) t l) = g t := foldl_keeps fun t f => ueReport_coreBystander hg t uid f
  have hgroups : ∀ (k : Nat) l t, g (List.foldl (fun t r => groupUe t uid k r) t l) = g t := fun k =>
    foldl_keeps fun t r => groupUe_coreBystander hg t uid k r
  simp only [landCycle, apply_ite g, hg.setCore, shadowLand_coreBystander hg, foldl_keeps (fun t k => hgroups k _ t), hue, hnan,
    releaseIncs_coreBystander hg, mileSample_coreBystander hg, hbytes, hsp, modCore_coreBystander hg, ite_self]

/-! The S, L, T and Y slots (04) -/

theorem issueLoad_coreBystander (s : State) (uid : Nat) (sl : Slot) (unit : Nat) (k : LdKind) (len : Nat) (segs : Option (List (Nat × Nat))) :
    g (issueLoad s uid sl unit k len segs) = g s := by
  unfold issueLoad
  split <;> simp only [apply_ite g, hg.setCore, present_coreBystander hg, deny_coreBystander hg, ite_self]

theorem issueStore_coreBystander (s : State) (uid : Nat) (sl : Slot) (segs : Option (List (Nat × Nat))) (bs : List Byte) :
    g (issueStore s uid sl segs bs) = g s := by
  unfold issueStore
  split <;> exact hg.setCore ..

theorem issueCsrr_coreBystander (s : State) (uid d : Nat) (v : Option Word64) : g (issueCsrr s uid d v) = g s := by
  unfold issueCsrr
  split <;> exact hg.setCore ..

theorem issueS_coreBystander (s : State) (uid : Nat) (op : SOp) (last : Bool) : OkKeeps g s (issueS s uid op last) := by
  cases op <;> simp only [issueS, okKeeps_ok, apply_ite g, hg.setCore, issueCsrr_coreBystander hg, ite_self]
  all_goals
    split <;> simp only [okKeeps_ok, okKeeps_error, issueLoad_coreBystander hg, issueStore_coreBystander hg]

theorem issueL_coreBystander (s : State) (uid half : Nat) (op : LOp) : OkKeeps g s (issueL s uid half op) := by
  unfold issueL
  extract_lets c baseOf access
  have hbase : ∀ k r, OkKeeps g s (baseOf k r) := fun k r => .ite okKeeps_error (okKeeps_ok.2 (hg.setCore ..))
  have haccess : ∀ k len modes, OkKeeps g s (access k len modes) := fun k len modes => by
    unfold access
    split <;> simp only [okKeeps_ok, okKeeps_error, issueLoad_coreBystander hg, hg.setCore]
  cases op with
  | nop => exact okKeeps_ok.2 rfl
  | feed | vec | scl => exact haccess ..
  | bind => exact okKeeps_ok.2 (hg.setCore ..)
  | base => exact hbase ..
  | skip => dsimp only; split <;> simp only [okKeeps_ok, okKeeps_error, hg.setCore]
  | bind3 => exact .ite okKeeps_error (okKeeps_ok.2 (hg.setCore ..))
  | base3 => exact .ite okKeeps_error (hbase ..)

theorem issueT_coreBystander (s : State) (uid : Nat) (op : TOp) : OkKeeps g s (issueT s uid op) := by
  unfold issueT
  extract_lets c access
  have haccess : ∀ len modes bs, OkKeeps g s (access len modes bs) := fun len modes bs => by
    unfold access
    split <;> simp only [okKeeps_ok, okKeeps_error, issueStore_coreBystander hg, hg.setCore]
  cases op with
  | nop => exact okKeeps_ok.2 rfl
  | vec | vec16 | vec8 | scl => exact haccess ..
  | bind => exact okKeeps_ok.2 (hg.setCore ..)
  | base => exact .ite okKeeps_error (okKeeps_ok.2 (hg.setCore ..))
  | skip => dsimp only; split <;> simp only [okKeeps_ok, okKeeps_error, hg.setCore]

theorem issueY_coreBystander (s : State) (uid : Nat) (op : YOp) : OkKeeps g s (issueY s uid op) := by
  unfold issueY
  extract_lets c hold
  have hhold : ∀ tile k n, OkKeeps g s (hold tile k n) := fun tile k n =>
    .ite okKeeps_error (.ite (okKeeps_ok.2 ((emitInc_coreBystander hg ..).trans (hg.setCore ..))) (okKeeps_ok.2 (hg.setCore ..)))
  have hawait : OkKeeps g s (match yAwait s uid op with | some a => .error (.hold a) | none => .ok s) := by
    split <;> simp only [okKeeps_ok, okKeeps_error]
  cases op with
  | nop => exact okKeeps_ok.2 rfl
  | inc | add => exact hhold ..
  | wait => exact .ite okKeeps_error hawait
  | read => exact .ite okKeeps_error (okKeeps_ok.2 (hg.setCore ..))
  | mwait => exact hawait
  | mread => exact okKeeps_ok.2 (hg.setCore ..)

/-! The vector engine (07) -/

theorem issueV_coreBystander (s : State) (uid : Nat) (op : VOpc) (f : VArg) : OkKeeps g s (issueV s uid op f) :=
  .ite okKeeps_error (.ite okKeeps_error (.ite okKeeps_error (.ite okKeeps_error (okKeeps_ok.2 (hg.setCore ..)))))

theorem vReadChunk_coreBystander (s : State) (uid : Nat) (j : VJob) (k : Nat) : g (vReadChunk s uid j k).1 = g s := by
  simp only [vReadChunk]
  (repeat' split) <;> simp only [hg.setCore, present_coreBystander hg, deny_coreBystander hg]

theorem vTickJob_coreBystander (s : State) (uid : Nat) (j : VJob) : g (vTickJob s uid j).1 = g s := by
  have hread := foldlFst_keeps (fun (x : State × VJob) k => vReadChunk_coreBystander hg x.1 uid x.2 k) (j.now (s.core uid).cyc) (s, j)
  simp only [vTickJob]
  split <;> simp only [hg.setCore, hread]

theorem packRead_coreBystander (s : State) (uid : Nat) : g (packRead s uid) = g s := by
  simp only [packRead, apply_ite g, hg.setCore, ite_self]

theorem vTick_coreBystander (s : State) (uid : Nat) : g (vTick s uid) = g s := by
  simp only [vTick, modCore_coreBystander hg]
  refine (foldlFst_keeps (fun x j => ?_) _ _).trans rfl
  exact vTickJob_coreBystander hg x.1 uid j

/-! The matrix array (06) -/

theorem drainAdd_coreBystander (s : State) (uid : Nat) (m : MMul) : g (drainAdd s uid m) = g s := by
  simp only [drainAdd, apply_ite g, inc_coreBystander hg, incBy_coreBystander hg, hg.setCore, ite_self]

theorem drainRead_coreBystander (s : State) (uid : Nat) (m : MMul) : g (drainRead s uid m) = g s := by
  simp only [drainRead]
  split <;> simp only [apply_ite g, modCore_coreBystander hg, present_coreBystander hg, deny_coreBystander hg, ite_self]

theorem drainUe_coreBystander (s : State) (uid : Nat) (m : MMul) (u : UeAt) : g (drainUe s uid m u) = g s := by
  simp only [drainUe, coreHalt_coreBystander hg, noteUe_coreBystander hg, modCore_coreBystander hg]

theorem drainTick_coreBystander (s : State) (uid : Nat) : g (drainTick s uid) = g s := by
  simp only [drainTick, apply_ite g]
  rw [foldl_keeps (g := g), foldl_keeps (g := g), foldl_keeps (g := g), ite_self]
  · intro t m
    simp only [apply_ite g, drainRead_coreBystander hg, ite_self]
  · intro t m
    split <;> simp only [apply_ite g, drainUe_coreBystander hg, ite_self]
  · intro t m
    split <;> simp only [apply_ite g, drainAdd_coreBystander hg, ite_self]

theorem shadowRow_coreBystander (s : State) (uid : Nat) (sh : Shadow) : OkKeeps g s (shadowRow s uid sh) := by
  simp only [shadowRow]
  (repeat' split) <;> simp only [okKeeps_ok, okKeeps_error, hg.setCore, present_coreBystander hg, deny_coreBystander hg]

theorem shadowTick_coreBystander (s : State) (uid : Nat) : OkKeeps g s (shadowTick s uid) := by
  unfold shadowTick
  split
  · refine .ite (okKeeps_ok.2 rfl) ?_
    split
    · exact okKeeps_error
    · exact shadowRow_coreBystander hg ..
  · exact okKeeps_ok.2 rfl

theorem arrayTick_coreBystander (s : State) (uid : Nat) : g (arrayTick s uid) = g s :=
  (incBy_coreBystander hg ..).trans (hg.setCore ..)

theorem swapBank_coreBystander (s : State) (uid : Nat) : OkKeeps g s (swapBank s uid) :=
  .ite okKeeps_error (.ite (okKeeps_ok.2 ((inc_coreBystander hg ..).trans (hg.setCore ..))) (okKeeps_ok.2 (hg.setCore ..)))

theorem issueM_coreBystander (s : State) (uid : Nat) (op : MOp) : OkKeeps g s (issueM s uid op) := by
  have hswap : ∀ b : Bool, OkKeeps g s (if b then swapBank s uid else .ok s) := fun _ => .ite (swapBank_coreBystander hg ..) (okKeeps_ok.2 rfl)
  cases op with
  | nop => exact okKeeps_ok.2 rfl
  | swap => exact swapBank_coreBystander hg ..
  | shadow => exact .ite okKeeps_error (.ite (okKeeps_ok.2 (hg.setCore ..)) ((shadowTick_coreBystander hg ..).trans (hg.setCore ..)))
  | mul sw win acc row =>
    refine .ite okKeeps_error (.ite okKeeps_error (.ite okKeeps_error ?_))
    split
    next => exact okKeeps_error
    next s1 h1 => exact okKeeps_ok.2 ((hg.setCore ..).trans ((hswap sw).eq h1))

/-! The cycle (04 R65) -/

theorem presentGroup_coreBystander (s : State) (uid k : Nat) (r : GrpRead) : g (presentGroup s uid k r) = g s := by
  simp only [presentGroup, apply_ite g, hg.setCore, present_coreBystander hg, deny_coreBystander hg, ite_self]

theorem indexTickGen_coreBystander (s : State) (uid k : Nat) : g (indexTickGen s uid k) = g s :=
  foldl_keeps (fun t r => presentGroup_coreBystander hg t uid k r) _ _

theorem applyIssueErr_coreBystander (s : State) (uid : Nat) (e : IssueErr) : g (applyIssueErr s uid e) = g s := by
  simp only [applyIssueErr]
  (repeat' split) <;> simp only [hg.setCore, coreHalt_coreBystander hg, indexTickGen_coreBystander hg]

theorem issueSlots_coreBystander (s : State) (uid : Nat) (b : Bundle) (last : Bool) : OkKeeps g s (issueSlots s uid b last) := by
  unfold issueSlots
  extract_lets c0
  split
  next => exact okKeeps_error
  split
  next => exact okKeeps_error
  next s1 h1 =>
  split
  next => exact okKeeps_error
  next s2 h2 =>
  split
  next => exact okKeeps_error
  next s3 h3 =>
  split
  next => exact okKeeps_error
  next s4 h4 =>
  split
  next => exact okKeeps_error
  next s5 h5 =>
  split
  next => exact okKeeps_error
  next s6 h6 =>
  split
  next => exact okKeeps_error
  next s7 h7 =>
  have h3 : g s3 = g s2 := by
    split at h3
    · exact (issueV_coreBystander hg ..).eq h3
    · cases h3; rfl
  have h7 : g s7 = g s6 := by
    split at h7
    · cases h7; exact issueCsrr_coreBystander hg ..
    · exact (issueS_coreBystander hg ..).eq h7
  refine OkKeeps.trans (issueY_coreBystander hg ..) ?_
  rw [h7, (issueT_coreBystander hg ..).eq h6, (issueL_coreBystander hg ..).eq h5, (issueL_coreBystander hg ..).eq h4, vTick_coreBystander hg, h3,
    (shadowTick_coreBystander hg ..).eq h2, (issueM_coreBystander hg ..).eq h1]

theorem endCycle_coreBystander (s : State) (uid : Nat) : g (endCycle s uid) = g s := by
  have hindex : g (indexTick s uid) = g s := foldl_keeps (fun t k => indexTickGen_coreBystander hg t uid k) _ _
  rw [endCycle, modCore_coreBystander hg, arrayTick_coreBystander hg, hindex]

theorem frozenStop_coreBystander (s : State) (uid : Nat) : g (frozenStop s uid) = g s := by
  simp only [frozenStop, apply_ite g, hg.setCore, ite_self]

theorem beginCycle_coreBystander (s : State) (uid : Nat) : g (beginCycle s uid) = g s := by
  simp only [beginCycle, apply_ite g, modCore_coreBystander hg, drainTick_coreBystander hg, landCycle_coreBystander hg, packRead_coreBystander hg,
    tileTouch_coreBystander hg, ite_self]

theorem freezeMisses_coreBystander (s : State) (uid : Nat) (b : Bundle) (f : Freeze) (rd : Nat × GrpRead) : g (freezeMisses s uid b f rd) = g s :=
  (foldl_keeps (fun _ _ => applyIssueErr_coreBystander hg ..) _ _).trans (applyIssueErr_coreBystander hg ..)

theorem coreCycle_coreBystander (s : State) (uid : Nat) : g (coreCycle s uid) = g s := by
  have hbegin := beginCycle_coreBystander hg s uid
  simp only [coreCycle]
  split
  · exact frozenStop_coreBystander hg ..
  split
  · exact hbegin
  split
  · exact (hg.setCore ..).trans hbegin
  split
  · exact (coreHalt_coreBystander hg ..).trans hbegin
  split
  · exact (coreHalt_coreBystander hg ..).trans hbegin
  split
  · exact (freezeMisses_coreBystander hg ..).trans hbegin
  · exact (applyIssueErr_coreBystander hg ..).trans hbegin
  next h => exact (endCycle_coreBystander hg ..).trans ((modCore_coreBystander hg ..).trans (((issueSlots_coreBystander hg ..).eq h).trans hbegin))

end

end Sys2Proof.Machine

namespace Sys2Proof.Machine
open Sys2Proof

/-! ### The launch of a descriptor, and a change of it -/

section
variable {α : Type} {p q : α → Bool} {F : α → α} {a : α}

theorem find?_replaceFirst (hF : ∀ x, q (F x) = q x) (ha : p a = true) (hp : ∀ x, p x = true → q x = true) :
    (l : List α) → l.find? q = some a → (replaceFirst p F l).find? q = some (F a)
  | x :: l, h => by
    cases hq : q x with
    | true =>
      obtain rfl : x = a := by simpa [List.find?_cons, hq] using h
      simp [replaceFirst, ha, hF, hq]
    | false =>
      have hx : p x = false := Bool.eq_false_iff.2 fun e => by simp [hp x e] at hq
      simpa [replaceFirst, hx, hq] using find?_replaceFirst hF ha hp l (by simpa [List.find?_cons, hq] using h)

theorem find?_replaceFirst_eq_none (hF : ∀ x, q (F x) = q x) : (l : List α) → l.find? q = none → (replaceFirst p F l).find? q = none
  | [], _ => rfl
  | x :: l, h => by
    obtain ⟨hx, hl⟩ : q x = false ∧ l.find? q = none := by simpa using h
    cases hp : p x with
    | true => simpa [replaceFirst, hp, hF, hx] using hl
    | false => simpa [replaceFirst, hp, hx] using find?_replaceFirst_eq_none hF l hl

theorem map_replaceFirst {β : Type} {G : α → β} (hF : ∀ x, G (F x) = G x) : (l : List α) → (replaceFirst p F l).map G = l.map G
  | [] => rfl
  | x :: l => by
    cases hp : p x <;> simp [replaceFirst, hp, hF, map_replaceFirst hF l]

end

/-- Is a flight launched by a descriptor of this ring and count; is it the launch that its ring still knows? -/
def Flight.by (r count : Nat) (f : Flight) : Bool := decide (f.ring = r) && decide (f.count = count)
def Flight.owned (r count : Nat) (f : Flight) : Bool := f.by r count && !f.orphan

/-- Does a change of a flight leave what finds it by its launch descriptor? -/
def KeepsLaunch (F : Flight → Flight) : Prop := ∀ f, (F f).ring = f.ring ∧ (F f).count = f.count ∧ (F f).orphan = f.orphan

section
variable {s t : State} {r count : Nat} {f : Flight} {F : Flight → Flight}

theorem launchOf_eq : launchOf s r count = (s.flights.find? (Flight.owned r count)).or (s.flights.find? (Flight.by r count)) := by
  have howned : s.flights.find? (Flight.owned r count) = (s.flights.filter (Flight.by r count)).find? fun f => !f.orphan := by
    simp only [List.find?_filter, Bool.decide_and, Bool.decide_eq_true]; rfl
  have hby : s.flights.find? (Flight.by r count) = (s.flights.filter (Flight.by r count)).head? := (List.head?_filter ..).symm
  rw [howned, hby]
  unfold launchOf
  extract_lets mine
  change _ = (mine.find? fun f => !f.orphan).or mine.head?
  cases mine.find? fun f => !f.orphan <;> rfl

theorem launchOf_of_flights (h : t.flights = s.flights) : launchOf t r count = launchOf s r count := by simp only [launchOf, h]

theorem by_of_launchOf (h : launchOf s r count = some f) : f.ring = r ∧ f.count = count := by
  have : f.by r count = true := by
    rw [launchOf_eq, Option.or_eq_some_iff] at h
    rcases h with h | ⟨-, h⟩
    · have := List.find?_some h
      simp only [Flight.owned, Bool.and_eq_true] at this
      exact this.1
    · exact List.find?_some h
  simpa [Flight.by] using this

theorem by_keepsLaunch (hF : KeepsLaunch F) (x : Flight) : (F x).by r count = x.by r count := by
  obtain ⟨hr, hc, -⟩ := hF x
  simp only [Flight.by, hr, hc]
theorem owned_keepsLaunch (hF : KeepsLaunch F) (x : Flight) : (F x).owned r count = x.owned r count := by
  rw [Flight.owned, by_keepsLaunch hF, (hF x).2.2]; rfl

theorem same_self (f : Flight) : f.same f = true := by simp [Flight.same]

/-- The launch of a descriptor in a state whose flights are those of `s`, each changed. -/
theorem launchOf_of_map (hF : KeepsLaunch F) (h : t.flights = s.flights.map F) : launchOf t r count = (launchOf s r count).map F := by
  have hby : Flight.by r count ∘ F = Flight.by r count := funext (by_keepsLaunch hF)
  have howned : Flight.owned r count ∘ F = Flight.owned r count := funext (owned_keepsLaunch hF)
  rw [launchOf_eq, launchOf_eq, h, List.find?_map, List.find?_map, hby, howned]
  cases s.flights.find? (Flight.owned r count) <;> rfl

/-- A change of a launch changes the launch that its descriptor names. -/
theorem launchOf_modLaunch (hF : KeepsLaunch F) (h : launchOf s r count = some f) : launchOf (modLaunch s r count F) r count = some (F f) := by
  have hflights : (modLaunch s r count F).flights = replaceFirst f.same F s.flights := by simp only [modLaunch, h]
  obtain ⟨hr, hc⟩ := by_of_launchOf h
  have hsame : ∀ x, f.same x = true → x.by r count = true ∧ x.orphan = f.orphan := fun x hx => by
    simp only [Flight.same, Bool.and_eq_true, decide_eq_true_eq] at hx
    obtain ⟨⟨⟨⟨hxr, hxc⟩, -⟩, -⟩, hxo⟩ := hx
    exact ⟨by simp [Flight.by, hxr, hxc, hr, hc], hxo⟩
  rw [launchOf_eq, Option.or_eq_some_iff] at h ⊢
  rw [hflights]
  rcases h with h | ⟨hnone, h⟩
  · have hown : f.orphan = false := by
      have := List.find?_some h
      simp only [Flight.owned, Bool.and_eq_true, Bool.not_eq_true'] at this
      exact this.2
    exact .inl (find?_replaceFirst (owned_keepsLaunch hF) (same_self f)
      (fun x hx => by simp only [Flight.owned, (hsame x hx).1, (hsame x hx).2, hown]; rfl) _ h)
  · exact .inr ⟨find?_replaceFirst_eq_none (owned_keepsLaunch hF) _ hnone,
      find?_replaceFirst (by_keepsLaunch hF) (same_self f) (fun x hx => (hsame x hx).1) _ h⟩

theorem modLaunch_keeps {α : Type} {g : State → α} (hg : ∀ s v, g { s with flights := v } = g s) (s : State) (r count : Nat)
    (F : Flight → Flight) : g (modLaunch s r count F) = g s := by
  unfold modLaunch
  split
  · exact hg ..
  · rfl

theorem keepsLaunch_step (k : LaunchStep) : KeepsLaunch fun f => { f with step := k } := fun _ => ⟨rfl, rfl, rfl⟩

theorem voteRefresh_flights (s : State) : (voteRefresh s).flights = s.flights :=
  voteRefresh_keeps State.flights (fun _ _ => rfl) (fun _ _ _ => rfl) (fun _ _ _ => rfl) s
theorem voteRefresh_dumps (s : State) : (voteRefresh s).dumps = s.dumps :=
  voteRefresh_keeps State.dumps (fun _ _ => rfl) (fun _ _ _ => rfl) (fun _ _ _ => rfl) s
theorem launchOf_voteRefresh : launchOf (voteRefresh s) r count = launchOf s r count := launchOf_of_flights (voteRefresh_flights s)

theorem keepsLaunch_follow (s : State) : KeepsLaunch (Flight.follow s) := fun f => by
  unfold Flight.follow
  split <;> exact ⟨rfl, rfl, rfl⟩

/-- A flight whose clocks are read again is at its step, and is the same flight. -/
theorem follow_keeps (s : State) (f : Flight) :
    (f.follow s).step = f.step ∧ (f.follow s).part = f.part ∧ (f.follow s).fid = f.fid ∧ (f.follow s).cores = f.cores := by
  unfold Flight.follow
  split <;> exact ⟨rfl, rfl, rfl, rfl⟩

theorem launchOf_clockRefresh : launchOf (clockRefresh s) r count = (launchOf s r count).map (Flight.follow s) :=
  launchOf_of_map (keepsLaunch_follow s) (clockRefresh_flights s)

end

/-! ### The steps of a launch (09 R172) -/

section
variable {s : State} {r count : Nat} {f : Flight}

theorem exec_launchStepDone (hr : r < 1024) (s : State) :
    exec (.launchStepDone r count none) s = .next (voteRefresh (launchStep s r count none)) :=
  run_of_wf (by simp [Instr.wf, okRing, hr])
theorem exec_flightRelease (hr : r < 1024) (s : State) :
    exec (.flightRelease r count) s = .next (voteRefresh (release s r count)) :=
  run_of_wf (by simp [Instr.wf, okRing, hr])
theorem exec_flightEnd {part fid : Nat} (hp : part < 4) (s : State) :
    exec (.flightEnd part ⟨fid, none⟩) s = .next (voteRefresh (flightEnd s part fid none)) :=
  run_of_wf (by simp [Instr.wf, okPart, hp])

/-- The launch goes on to a step from what the step before has made of the state. -/
def Advanced (r count : Nat) (k : LaunchStep) (t : State) : State := modLaunch t r count fun g => { g with step := k }

theorem claimed_iff : f.claimed = true ↔ f.step ≠ .check ∧ f.step ≠ .idleCores := by simp [Flight.claimed]

theorem launchStep_of_waiting (h : launchOf s r count = some f) (hclaimed : f.claimed = true) {n : Nat} (hn : n ∈ f.tiles)
    (hdown : tileReady s n = false) : launchStep s r count none = s := by
  have hall : f.tiles.all (tileReady s) = false := List.all_eq_false.2 ⟨n, hn, by simp [hdown]⟩
  simp only [launchStep, h]
  rw [if_pos (.inr ⟨hclaimed, by simp [hall]⟩)]

section
variable (hf : s.isFatal = false) (h : launchOf s r count = some f)
include hf h

theorem launchStep_of_check (hstep : f.step = .check) (hfree : flightOf s f.part f.fid = none) :
    launchStep s r count none = Advanced r count .idleCores s := by
  have hclaimed : ¬f.claimed = true := by simp [claimed_iff, hstep]
  simp [launchStep, h, hf, hclaimed, hstep, hfree, Advanced]

theorem launchStep_of_busyCores (hstep : f.step = .idleCores) {u : Nat} (hu : u ∈ f.cores) (hbusy : (s.core u).phase ≠ .idle) :
    launchStep s r count none = s := by
  have hclaimed : ¬f.claimed = true := by simp [claimed_iff, hstep]
  have hall : (f.cores.all fun u => decide ((s.core u).phase = .idle)) = false := List.all_eq_false.2 ⟨u, hu, by simp [hbusy]⟩
  simp only [launchStep, h, hf, hclaimed, hstep, hall]
  simp

section
variable (hready : ∀ n ∈ f.tiles, tileReady s n = true)
include hready

theorem launchStep_of_copy (hstep : f.step = .copy) (hue : s.hbmUe = []) :
    launchStep s r count none = Advanced r count .gates (launchCopy s f) := by
  have hall : f.tiles.all (tileReady s) = true := List.all_eq_true.2 hready
  have hnone : hbmFirstUe s f.dpa f.len = none := by simp [hbmFirstUe, hue]
  simp only [launchStep, h, hf, hall, hstep, hnone, Advanced]
  simp

theorem launchStep_of_gates (hstep : f.step = .gates) : launchStep s r count none = Advanced r count .arm (launchGates s f) := by
  have hall : f.tiles.all (tileReady s) = true := List.all_eq_true.2 hready
  simp only [launchStep, h, hf, hall, hstep, Advanced]
  simp

theorem launchStep_of_arm (hstep : f.step = .arm) : launchStep s r count none = Advanced r count .release (launchArm s f) := by
  have hall : f.tiles.all (tileReady s) = true := List.all_eq_true.2 hready
  simp only [launchStep, h, hf, hall, hstep, Advanced]
  simp

end

end

end

end Sys2Proof.Machine

namespace Sys2Proof.Machine
open Sys2Proof

/-! ### What a step that goes on leaves (09 R172) -/

section
variable {s t : State} {r count : Nat} {f : Flight} {k : LaunchStep}

theorem advanced_keeps {α : Type} {g : State → α} (hg : ∀ s v, g { s with flights := v } = g s) (t : State) : g (Advanced r count k t) = g t :=
  modLaunch_keeps hg ..

@[simp] theorem advanced_cores : (Advanced r count k t).cores = t.cores := advanced_keeps (fun _ _ => rfl) t
@[simp] theorem advanced_tiles : (Advanced r count k t).tiles = t.tiles := advanced_keeps (fun _ _ => rfl) t
@[simp] theorem advanced_hbm : (Advanced r count k t).hbm = t.hbm := advanced_keeps (fun _ _ => rfl) t
@[simp] theorem advanced_spad : (Advanced r count k t).spad = t.spad := advanced_keeps (fun _ _ => rfl) t

/-- The launch that has gone on is that of before, at its new step. -/
theorem launchOf_advanced (h : launchOf s r count = some f) (hflights : t.flights = s.flights) :
    launchOf (Advanced r count k t) r count = some { f with step := k } :=
  launchOf_modLaunch (keepsLaunch_step k) ((launchOf_of_flights hflights).trans h)

@[simp] theorem core_voteRefresh (u : Nat) : (voteRefresh s).core u = s.core u := by simp only [State.core, voteRefresh_cores]
@[simp] theorem gate_voteRefresh (n g : Nat) : (voteRefresh s).gate n g = s.gate n g := by simp only [State.gate, State.tile, voteRefresh_tiles]
@[simp] theorem core_advanced (u : Nat) : (Advanced r count k t).core u = t.core u := by simp only [State.core, advanced_cores]
@[simp] theorem gate_advanced (n g : Nat) : (Advanced r count k t).gate n g = t.gate n g := by simp only [State.gate, State.tile, advanced_tiles]

end

/-! ### The cores are claimed (09 R172) -/

section
variable {F : CoreSt → CoreSt} {u : Nat}

theorem core_foldl_modCore_of_mem {P : CoreSt → Prop} (hF : ∀ c, P (F c)) : (l : List Nat) → (s : State) → u ∈ l ∨ P (s.core u) →
    P ((l.foldl (fun t v => t.modCore v F) s).core u)
  | [], _, h => h.resolve_left List.not_mem_nil
  | v :: l, s, h => by
    refine core_foldl_modCore_of_mem hF l _ ?_
    by_cases hv : u = v
    · subst hv; exact .inr (by simpa [State.modCore] using hF _)
    · exact h.imp (fun hm => (List.mem_cons.1 hm).resolve_left hv) fun hp => by simpa [State.modCore, State.core_setCore_ne _ _ hv] using hp

theorem core_foldl_modCore_of_not_mem : (l : List Nat) → (s : State) → u ∉ l → (l.foldl (fun t v => t.modCore v F) s).core u = s.core u
  | [], _, _ => rfl
  | v :: l, s, h => by
    obtain ⟨hv, hl⟩ := not_or.1 (List.mem_cons.not.1 h)
    exact (core_foldl_modCore_of_not_mem l _ hl).trans (State.core_setCore_ne _ _ hv)

end

/-- The cores of a flight armed for it. -/
def armCores (s : State) (f : Flight) : State :=
  f.cores.foldl (fun t u => t.modCore u fun c => { c with phase := .armed, part := f.part, flight := f.fid }) s

/-- The tiles of a flight are fenced no more, and its quadrants are touched and no longer pristine. -/
def claimTiles (s : State) (f : Flight) : State :=
  let quads := ([0, 1, 2, 3].filter fun q => f.tiles.any fun t => decide (tileQuad t = q))
  (List.range 4).foldl (fun t p => if quads.any fun q => nbit (t.rd (fPartQuads p)) q then t.wr (fPartPristine p) 0 else t)
    { s with
      fenced := s.fenced.filter fun t => !f.tiles.contains t
      parts := { s.parts with touched := s.parts.touched ++ quads.filter fun q => !s.parts.touched.contains q } }

section
variable {s : State} {r count : Nat} {f : Flight}

theorem claimTiles_keeps {α : Type} {g : State → α} (hwr : ∀ s f v, g (State.wr s f v) = g s)
    (hg : ∀ s a b, g { s with fenced := a, parts := b } = g s) (s : State) (f : Flight) : g (claimTiles s f) = g s :=
  (foldl_keeps (fun t p => by simp only [apply_ite g, hwr, ite_self]) _ _).trans (hg ..)

theorem claimTiles_cores : (claimTiles s f).cores = s.cores := claimTiles_keeps (fun _ _ _ => rfl) (fun _ _ _ => rfl) s f
theorem claimTiles_flights : (claimTiles s f).flights = s.flights := claimTiles_keeps (fun _ _ _ => rfl) (fun _ _ _ => rfl) s f
theorem armCores_flights : (armCores s f).flights = s.flights := by
  refine foldl_keeps (g := State.flights) (fun t u => ?_) _ _
  rfl

/-- The oldest launch finds its cores idle, and claims them. -/
theorem launchStep_of_idleCores (hf : s.isFatal = false) (h : launchOf s r count = some f) (hready : ∀ n ∈ f.tiles, tileReady s n = true)
    (hstep : f.step = .idleCores) (hfirst : s.flights.head? = some f) (hidle : ∀ u ∈ f.cores, (s.core u).phase = .idle) :
    launchStep s r count none = clockRefresh (Advanced r count .copy (claimTiles (armCores s f) f)) := by
  have htiles : f.tiles.all (tileReady s) = true := List.all_eq_true.2 hready
  have hcores : (f.cores.all fun u => decide ((s.core u).phase = .idle)) = true := List.all_eq_true.2 fun u hu => decide_eq_true (hidle u hu)
  have hnone : (s.flights.takeWhile fun g => !f.same g) = [] := by
    obtain ⟨l, hl⟩ := List.head?_eq_some_iff.1 hfirst
    simp [hl, same_self]
  simp only [launchStep, h, hf, hstep, hcores, htiles, hnone]
  simp [Advanced, claimTiles, armCores]

end

/-! ### The copy (09 R172; 04 R63) -/

/-- What the last of the steps that write a place writes is what stands there after them all. -/
theorem foldl_range_of_last {α : Type} {F : State → Nat → State} {g : State → α} {v : α} {i : Nat} (hi : ∀ t, g (F t i) = v) {n : Nat}
    (hn : i < n) (hlater : ∀ j, i < j → j < n → ∀ t, g (F t j) = g t) (s : State) : g ((List.range n).foldl F s) = v := by
  induction n with
  | zero => exact absurd hn (Nat.not_lt_zero i)
  | succ n ih =>
    rw [List.range_succ, List.foldl_append, List.foldl_cons, List.foldl_nil]
    rcases Nat.lt_succ_iff_lt_or_eq.1 hn with h | rfl
    · rw [hlater n h (Nat.lt_succ_self n)]
      exact ih h fun j hij hjn => hlater j hij (Nat.lt_succ_of_lt hjn)
    · exact hi _

theorem tget_tsetAll_range {α : Type} [DecidableEq α] (d : Nat → α) (v : Nat → α) (n k : Nat) (t : Tbl α) :
    tget d (tsetAll d t ((List.range n).map fun i => (i, v i))) k = if k < n then v k else tget d t k := by
  have hall : ∀ (l : List Nat) (t : Tbl α), tget d (tsetAll d t (l.map fun i => (i, v i))) k = if k ∈ l then v k else tget d t k := by
    intro l
    induction l with
    | nil => exact fun _ => (if_neg List.not_mem_nil).symm
    | cons i l ih =>
      intro t
      rw [List.map_cons, tsetAll, ih, tget_tset]
      by_cases hl : k ∈ l <;> by_cases hi : k = i <;> simp [hl, hi]
  simp [hall]

section
variable {s : State} {f : Flight}

theorem clearCoreRegs_keeps {α : Type} {g : State → α} (hg : ∀ s o v, g (State.setReg s o v) = g s) (s : State) (u : Nat) :
    g (clearCoreRegs s u) = g s := foldl_keeps (fun _ _ => hg ..) _ _

theorem launchCopy_keeps {α : Type} {g : State → α} (hcore : ∀ s u c, g (State.setCore s u c) = g s) (hreg : ∀ s o v, g (State.setReg s o v) = g s)
    (s : State) (f : Flight) : g (launchCopy s f) = g s :=
  foldl_keeps (fun _ _ => (clearCoreRegs_keeps hreg ..).trans (hcore ..)) _ _

/-- A core has the state that the last stage entry naming it gives. -/
theorem core_launchCopy {i : Nat} (hi : i < imgStages s f.dpa)
    (hlast : ∀ j, i < j → j < imgStages s f.dpa → stUid s (stageAt s f.dpa j) ≠ stUid s (stageAt s f.dpa i)) :
    (launchCopy s f).core (stUid s (stageAt s f.dpa i)) = stageCore s f (stageAt s f.dpa i) := by
  have hcore : ∀ (t : State) a u, (clearCoreRegs (t.setCore u a) u).core (stUid s (stageAt s f.dpa i)) = (t.setCore u a).core (stUid s (stageAt s f.dpa i)) :=
    fun t a u => clearCoreRegs_keeps (g := fun t => t.core (stUid s (stageAt s f.dpa i))) (fun _ _ _ => rfl) _ u
  refine foldl_range_of_last (g := fun t => t.core (stUid s (stageAt s f.dpa i))) (fun t => ?_) hi (fun j hij hj t => ?_) s
  · exact (hcore ..).trans (State.core_setCore ..)
  · exact (hcore ..).trans (State.core_setCore_ne _ _ (hlast j hij hj).symm)

theorem imem_stageCore (a k : Nat) : tget (fun _ => 0#256) (stageCore s f a).imem k =
    if k < stCount s a then BitVec.ofNat 256 (leNat (hbmRead s (f.dpa + stProg s a + 32 * k) 32)) else 0#256 :=
  tget_tsetAll_range (fun _ => 0#256) (fun i => BitVec.ofNat 256 (leNat (hbmRead s (f.dpa + stProg s a + 32 * i) 32))) ..

theorem takePad_nil (n : Nat) : takePad n [] = List.replicate n 0#8 := by simp [takePad]

end

/-! ### The gates and the standing barges (09 R170, R179) -/

section
variable {s : State} {f : Flight}

theorem launchGates_keeps {α : Type} {g : State → α} (hg : ∀ s n t, g (State.setTile s n t) = g s) (s : State) (f : Flight) : g (launchGates s f) = g s :=
  foldl_keeps (fun _ _ => hg ..) _ _
theorem launchArm_keeps {α : Type} {g : State → α} (hg : ∀ s n (F : TileSt → TileSt), (∀ t, (F t).gates = t.gates) → g (s.modTile n F) = g s)
    (s : State) (f : Flight) : g (launchArm s f) = g s := by
  refine (foldl_keeps (fun t i => ?_) _ _).trans (foldl_keeps (fun t n => ?_) _ _)
  · exact hg _ _ _ fun _ => rfl
  · exact hg _ _ _ fun _ => rfl

theorem gate_setTile (s : State) (n k g : Nat) (t : TileSt) : (s.setTile n t).gate k g = if k = n then tget gate0 t.gates g else s.gate k g := by
  by_cases h : k = n
  · subst h; rw [State.gate, State.tile_setTile, if_pos rfl]
  · rw [State.gate, State.tile_setTile_ne _ _ h, if_neg h]; rfl

/-- A change of a tile that leaves its gates. -/
theorem gate_modTile {F : TileSt → TileSt} (hF : ∀ t, (F t).gates = t.gates) (s : State) (n k g : Nat) : (s.modTile n F).gate k g = s.gate k g := by
  rw [State.modTile, gate_setTile, hF]
  split
  next h => rw [h]; rfl
  next => rfl

theorem gate_setGate_ne (s : State) {n k g h : Nat} (v : BitVec 32) (hne : ¬(k = n ∧ h = g)) : (s.setGate n g v).gate k h = s.gate k h := by
  rw [State.setGate, State.modTile, gate_setTile]
  split
  next hk => subst hk; exact tget_tset_ne _ _ _ fun hh => hne ⟨rfl, hh⟩
  next => rfl

/-- A gate initialisation entry names its gate by one field: tile and gate number (09 R170). -/
theorem gateField_eq {v w : Nat} (htile : nbits v 49 44 = nbits w 49 44) (hgate : nbits v 43 32 = nbits w 43 32) :
    nbits v 49 32 = nbits w 49 32 := by
  simp only [nbits_eq] at *
  omega

/-- A gate has the value that the last entry naming it gives. -/
theorem gate_launchGates {i : Nat} (hi : i < imgGates s f.dpa) :
    let w (k : Nat) := im64 s f.dpa (imgGateOff s f.dpa + 8 * k)
    (∀ j, i < j → j < imgGates s f.dpa → nbits (w j) 49 32 ≠ nbits (w i) 49 32) →
      (launchGates s f).gate (nbits (w i) 49 44) (nbits (w i) 43 32) = BitVec.ofNat 32 (w i) := by
  intro w hlast
  refine foldl_range_of_last (g := fun t => t.gate (nbits (w i) 49 44) (nbits (w i) 43 32)) (fun t => ?_) hi (fun j hij hj t => ?_) s
  · exact State.gate_setGate ..
  · exact gate_setGate_ne _ _ fun ⟨htile, hgate⟩ => hlast j hij hj (gateField_eq htile.symm hgate.symm)

theorem gate_launchArm (n g : Nat) : (launchArm s f).gate n g = s.gate n g :=
  launchArm_keeps (g := fun t => t.gate n g) (fun s k _ hF => gate_modTile hF s k n g) s f

end

/-! ### The release (09 R172) -/

/-- A flight but for what a halt of it sets (09 R184). -/
def Flight.unhalted (f : Flight) : Flight := { f with haltIx := none, dropped := false, stop := .none, notices := [] }

/-- The flights, but for their halts, and the dumps: what no core's cycle changes. -/
def flightsView (s : State) : List Flight × List Dump := (s.flights.map Flight.unhalted, s.dumps)

theorem flightsView_haltFlight (s : State) (part fid ix : Nat) (dropped : Bool) : flightsView (haltFlight s part fid ix dropped) = flightsView s := by
  have hmod : ∀ F : Flight → Flight, (∀ f, (F f).unhalted = f.unhalted) → flightsView (modFlight s part fid F) = flightsView s := fun F hF =>
    Prod.ext (map_replaceFirst hF s.flights) rfl
  have hhalt := hmod (fun f => if f.haltIx.isSome then f else { f with haltIx := some ix, dropped := dropped, stop := .halt, notices := f.tiles })
    fun f => by split <;> rfl
  unfold haltFlight
  split <;> exact hhalt

theorem flightsView_coreBystander : CoreBystander flightsView where
  setReg _ _ _ := rfl
  msixPend _ _ := rfl
  posted _ _ := rfl
  link _ _ := rfl
  log _ _ _ := rfl
  fatal _ _ _ := rfl
  setCore _ _ _ := rfl
  setTile _ _ _ := rfl
  spad _ _ := rfl
  mesh _ _ := rfl
  fenced _ _ := rfl
  free _ _ := rfl
  halt := flightsView_haltFlight

section
variable {s t : State} {r count : Nat} {f : Flight}

/-- A launch, but for a halt, is the same in states that show the same flights. -/
theorem launchOf_of_flightsView (h : flightsView t = flightsView s) :
    (launchOf t r count).map Flight.unhalted = (launchOf s r count).map Flight.unhalted := by
  have hkeeps : KeepsLaunch Flight.unhalted := fun _ => ⟨rfl, rfl, rfl⟩
  rw [← launchOf_of_map (t := { t with flights := t.flights.map Flight.unhalted }) hkeeps rfl,
    ← launchOf_of_map (t := { s with flights := s.flights.map Flight.unhalted }) hkeeps rfl]
  exact launchOf_of_flights (congrArg Prod.fst h)

/-- A flight as released, and its armed dumps applied; its cores have not yet issued. -/
def Released (s : State) (r count : Nat) (f : Flight) : State :=
  modLaunch (applyDumps s f.part f.fid) r count fun g => { g with step := .running, ts := s.mile }

theorem release_of_early (h : launchOf s r count = some f) (hearly : s.mile < f.startMile ∨ f.haltIx ≠ none) :
    release s r count = s := by
  have hstays : f.step ≠ .release ∨ f.haltIx.isSome ∨ s.mile < f.startMile ∨ s.isFatal :=
    .inr (hearly.elim (fun hm => .inr (.inl hm)) fun hh => .inl (Option.isSome_iff_ne_none.2 hh))
  simp only [release, h]
  rw [if_pos hstays]

section
variable (hf : s.isFatal = false) (h : launchOf s r count = some f) (hstep : f.step = .release) (hhalt : f.haltIx = none) (hmile : f.startMile ≤ s.mile)
include hf hstep hhalt hmile

theorem release_due : ¬(f.step ≠ .release ∨ f.haltIx.isSome ∨ s.mile < f.startMile ∨ s.isFatal) := by
  simp [hf, hstep, hhalt, hmile]

include h

theorem release_of_down {n : Nat} (hn : n ∈ f.tiles) (hdown : tileReady s n = false) : release s r count = wakeTiles s f.tiles := by
  have hall : f.tiles.all (tileReady s) = false := List.all_eq_false.2 ⟨n, hn, by simp [hdown]⟩
  simp only [release, h]
  rw [if_neg (release_due hf hstep hhalt hmile), hall]
  rfl

theorem release_of_ready (hready : ∀ n ∈ f.tiles, tileReady s n = true) : release s r count =
    f.cores.foldl (fun t u => coreCycle (t.modCore u fun c => { c with phase := .run }) u) (Released s r count f) := by
  have hall : f.tiles.all (tileReady s) = true := List.all_eq_true.2 hready
  simp only [release, h]
  rw [if_neg (release_due hf hstep hhalt hmile), hall]
  rfl

/-- The first bundles leave the flights as released, but for a halt. -/
theorem flightsView_release (hready : ∀ n ∈ f.tiles, tileReady s n = true) : flightsView (release s r count) = flightsView (Released s r count f) := by
  rw [release_of_ready hf h hstep hhalt hmile hready]
  refine foldl_keeps (fun t u => ?_) _ _
  exact (coreCycle_coreBystander flightsView_coreBystander ..).trans (modCore_coreBystander flightsView_coreBystander ..)

end

theorem launchOf_released (h : launchOf s r count = some f) : launchOf (Released s r count f) r count = some { f with step := .running, ts := s.mile } :=
  launchOf_modLaunch (fun _ => ⟨rfl, rfl, rfl⟩) ((launchOf_of_flights rfl).trans h)

theorem released_dumps : (Released s r count f).dumps =
    s.dumps.map fun d => if d.part = f.part ∧ d.fid = f.fid then { d with applied := true } else d :=
  modLaunch_keeps (g := State.dumps) (fun _ _ => rfl) ..

end

/-! ### The end (09 R173) -/

section
variable {s : State} {part fid : Nat} {f : Flight}

theorem clearRun_keeps {α : Type} {g : State → α} (hreg : ∀ s o v, g (State.setReg s o v) = g s) (hg : ∀ s a b, g { s with parts := a, trust := b } = g s)
    (s : State) (f : Flight) (status : Nat) : g (clearRun s f status) = g s := by
  have hparts : ∀ s a, g { s with parts := a } = g s := fun s a => hg s a s.trust
  have htrust : ∀ s b, g { s with trust := b } = g s := fun s b => hg s s.parts b
  have hwr : ∀ t f v, g (State.wr t f v) = g t := fun _ _ _ => hreg ..
  have hledger : ∀ t i k d, g (ledgerExtend t i k d) = g t := fun t i k d =>
    (hwr ..).trans ((htrust ..).trans (foldl_keeps (fun _ _ => hreg ..) _ _))
  simp only [clearRun, apply_ite g, hledger, hwr, hparts, ite_self]

theorem flightEnd_of_waiting (h : flightOf s part fid = some f) (hend : flightCanEnd s f = false) : flightEnd s part fid none = s := by
  simp [flightEnd, h, hend]

/-- A flight gone at its end: its firings are dropped, and its launch is judged by its cores. -/
def Ended (s : State) (f : Flight) (stopped : Nat) : State :=
  flightGone (f.tiles.foldl (fun t n => dropFirings t f.part f.fid n) s) f (endStatus s f) f.ts stopped none

/-- A flight that no halt has met, and no dump awaits, is gone with the status of its cores (06 R128). -/
theorem flightEnd_of_done (hf : s.isFatal = false) (h : flightOf s f.part f.fid = some f) (hend : flightCanEnd s f = true) (hdumps : s.dumps = [])
    (hhalt : f.haltIx = none) :
    ∃ n, flightEnd s f.part f.fid none = clearRun (Ended s f n) f (endStatus s f) := by
  have hnone : ∀ t : State, t.dumps = [] → dumpEnd t f none = t := fun t ht => by simp [dumpEnd, dumpsOf, ht]
  have hkept : (f.tiles.foldl (fun t n => dropFirings t f.part f.fid n) s).dumps = [] := (dropFirings_keeps (fun _ _ => rfl) ..).trans hdumps
  simp only [flightEnd, h, hend, hf, hhalt, hnone _ hkept]
  exact ⟨_, rfl⟩

theorem endStatus_eq (hdumps : s.dumps = []) (hhalt : f.haltIx = none) (hstop : f.stop = .none) :
    endStatus s f = if ∃ u ∈ f.cores, s.rd (fRepeats u) ≠ 0 then 0x02 else 0 := by
  simp [endStatus, dumpsOf, hdumps, hhalt, hstop]

theorem running_of_canEnd (hend : flightCanEnd s f = true) (hhalt : f.haltIx = none) : f.step = .running := by
  simp only [flightCanEnd, hhalt, Bool.and_eq_true, Bool.or_eq_true, decide_eq_true_eq, Option.isSome_none, Bool.false_eq_true, and_false, or_false] at hend
  obtain ⟨⟨⟨⟨hrun, -⟩, -⟩, -⟩, -⟩ := hend
  exact hrun

/-- The launch of a flight that has run to its end: a launch with subcode 1 is done earlier (03 R50). -/
theorem mem_out_flightGone_of_running (hrun : f.step = .running) (ho : f.orphan = false) {d : Dispatched} (hd : d ∈ (s.ring f.ring).out)
    (hc : d.count = f.count) (hw : d.work = .launch) {status : Nat} (hstatus : status ≠ 0x05) (stopped : Nat) :
    { d with work := .judged (if f.atStart then 0 else status) f.ts none } ∈ ((flightGone s f status f.ts stopped none).ring f.ring).out := by
  have hd' : d ∈ ((flightLeft s f).ring f.ring).out := by rw [State.ring, flightLeft_rings]; exact hd
  have hlaunch : { d with work := .judged (if f.atStart then 0 else status) f.ts none } ∈
      ((judgeLaunch (flightLeft s f) f status f.ts none).ring f.ring).out := by
    have hwork : judgeLaunch (flightLeft s f) f status f.ts none =
        settleWork (flightLeft s f) f.ring f.count .launch (.judged (if f.atStart then 0 else status) f.ts none) := by
      cases hstart : f.atStart <;> simp [judgeLaunch, ho, hrun, hstart, hstatus]
    rw [hwork]
    exact mem_out_settleWork hd' hc hw
  rw [State.ring, flightGone_eq, clockRefresh_rings]
  exact mem_out_mapWork hlaunch _

end

end Sys2Proof.Machine

namespace Sys2Proof.Machine
open Sys2Proof

/-! ### The statement -/

section
variable {s : State} {r count : Nat} {f : Flight}

/-- The launch claims its cores: they are armed for it, and no other is touched. -/
theorem claimed_of_idleCores (hf : s.isFatal = false) (h : launchOf s r count = some f) (hready : ∀ n ∈ f.tiles, tileReady s n = true)
    (hstep : f.step = .idleCores) (hfirst : s.flights.head? = some f) (hidle : ∀ u ∈ f.cores, (s.core u).phase = .idle) :
    let t := launchStep s r count none
    (∃ g, launchOf t r count = some g ∧ g.step = .copy ∧ g.part = f.part ∧ g.fid = f.fid ∧ g.cores = f.cores)
      ∧ (∀ u ∈ f.cores, (t.core u).phase = .armed ∧ (t.core u).part = f.part ∧ (t.core u).flight = f.fid) ∧ ∀ u, u ∉ f.cores → t.core u = s.core u := by
  intro t
  have ht : t = clockRefresh (Advanced r count .copy (claimTiles (armCores s f) f)) := launchStep_of_idleCores hf h hready hstep hfirst hidle
  have hcore : ∀ u, t.core u = (armCores s f).core u := fun u => by
    rw [ht]; simp only [State.core, clockRefresh_cores, advanced_cores, claimTiles_cores]
  have hlaunch : launchOf t r count = some (Flight.follow (Advanced r count .copy (claimTiles (armCores s f) f)) { f with step := .copy }) := by
    rw [ht, launchOf_clockRefresh, launchOf_advanced h (claimTiles_flights.trans armCores_flights)]
    rfl
  refine ⟨⟨_, hlaunch, follow_keeps ..⟩, fun u hu => ?_, fun u hu => ?_⟩
  · rw [hcore]
    exact core_foldl_modCore_of_mem (P := fun c => c.phase = .armed ∧ c.part = f.part ∧ c.flight = f.fid) (fun _ => ⟨rfl, rfl, rfl⟩) _ s (.inl hu)
  · rw [hcore]
    exact core_foldl_modCore_of_not_mem _ s hu

/-- The copy gives a core the launch state of its stage entry (04 R63). -/
theorem copied_of_launchCopy {i : Nat} (hi : i < imgStages s f.dpa)
    (hlast : ∀ j, i < j → j < imgStages s f.dpa → stUid s (stageAt s f.dpa j) ≠ stUid s (stageAt s f.dpa i)) :
    let a := stageAt s f.dpa i
    let c := (launchCopy s f).core (stUid s a)
    c.phase = .armed ∧ c.part = f.part ∧ c.flight = f.fid ∧ c.stage = stId s a ∧ c.arg = f.arg ∧ c.pc = stEntry s a
      ∧ (∀ d, c.sreg d = 0#64) ∧ (∀ v e, c.velem v e = 0#32) ∧ (∀ p e, c.pbit p e = false) ∧ c.fifo = [] ∧ c.redirects = []
      ∧ c.bankX = [] ∧ c.bankY = [] ∧ takePad 512 c.lastVec = List.replicate 512 0#8
      ∧ (∀ k, k < stCount s a → tget (fun _ => 0#256) c.imem k = BitVec.ofNat 256 (leNat (hbmRead s (f.dpa + stProg s a + 32 * k) 32)))
      ∧ (∀ k, stCount s a ≤ k → tget (fun _ => 0#256) c.imem k = 0#256) := by
  intro a c
  have hc : c = stageCore s f a := core_launchCopy hi hlast
  rw [hc]
  refine ⟨rfl, rfl, rfl, rfl, rfl, rfl, fun _ => rfl, fun _ _ => rfl, fun _ _ => rfl, rfl, rfl, rfl, rfl, takePad_nil 512, fun k hk => ?_, fun k hk => ?_⟩
  · rw [imem_stageCore, if_pos hk]
  · rw [imem_stageCore, if_neg (not_lt.2 hk)]

/-- The release sets the flight running from this milestone, and applies its dumps. -/
theorem released_of_ready (hf : s.isFatal = false) (h : launchOf s r count = some f) (hstep : f.step = .release) (hhalt : f.haltIx = none)
    (hmile : f.startMile ≤ s.mile) (hready : ∀ n ∈ f.tiles, tileReady s n = true) :
    (∃ g, launchOf (release s r count) r count = some g ∧ g.step = .running ∧ g.ts = s.mile ∧ g.part = f.part ∧ g.fid = f.fid)
      ∧ ∀ d ∈ s.dumps, d.part = f.part → d.fid = f.fid → { d with applied := true } ∈ (release s r count).dumps := by
  have hview := flightsView_release hf h hstep hhalt hmile hready
  constructor
  · have hlaunch := launchOf_of_flightsView (r := r) (count := count) hview
    rw [launchOf_released h, Option.map_some, Option.map_eq_some_iff] at hlaunch
    obtain ⟨g, hg, hsame⟩ := hlaunch
    exact ⟨g, hg, congrArg Flight.step hsame, congrArg Flight.ts hsame, (congrArg Flight.part hsame :), (congrArg Flight.fid hsame :)⟩
  · intro d hd hpart hfid
    have hdumps : (release s r count).dumps = (Released s r count f).dumps := congrArg Prod.snd hview
    rw [hdumps, released_dumps]
    exact List.mem_map.2 ⟨d, hd, if_pos ⟨hpart, hfid⟩⟩

/-- What the end of a flight that nothing has stopped leaves. -/
theorem ended_of_canEnd (hf : s.isFatal = false) (h : launchOf s r count = some f) (hflight : flightOf s f.part f.fid = some f)
    (hend : flightCanEnd s f = true) (hdumps : s.dumps = []) (hhalt : f.haltIx = none) (hstop : f.stop = .none) :
    let t := flightEnd s f.part f.fid none
    t.flights.map Flight.name = (dropFirst f.same s.flights).map Flight.name
      ∧ (∀ u ∈ f.cores, (t.core u).phase = .idle)
      ∧ (f.orphan = false → ∀ d ∈ (s.ring r).out, d.count = count → d.work = .launch →
          { d with work := .judged (if f.atStart = false ∧ ∃ u ∈ f.cores, s.rd (fRepeats u) ≠ 0 then 0x02 else 0) f.ts none } ∈ (t.ring r).out) := by
  intro t
  obtain ⟨rfl, rfl⟩ := by_of_launchOf h
  obtain ⟨n, ht⟩ := flightEnd_of_done hf hflight hend hdumps hhalt
  have hrun := running_of_canEnd hend hhalt
  have hclaimed : f.claimed = true := claimed_iff.2 (by simp [hrun])
  have hkept : (t.flights, t.cores, t.rings) = ((Ended s f n).flights, (Ended s f n).cores, (Ended s f n).rings) := by
    rw [show t = _ from ht]
    exact clearRun_keeps (g := fun t => (t.flights, t.cores, t.rings)) (fun _ _ _ => rfl) (fun _ _ _ => rfl) ..
  obtain ⟨hflights, hcores, hrings⟩ : t.flights = _ ∧ t.cores = _ ∧ t.rings = _ := by simpa only [Prod.mk.injEq] using hkept
  refine ⟨?_, fun u hu => ?_, fun ho d hd hc hw => ?_⟩
  · rw [hflights, Ended, flightGone_names, dropFirings_keeps (g := State.flights) fun _ _ => rfl]
  · rw [State.core, hcores]
    exact flightGone_phase _ _ _ _ _ _ hclaimed hu
  · have hstatus := endStatus_eq hdumps hhalt hstop
    have hjudged : (if f.atStart = false ∧ ∃ u ∈ f.cores, s.rd (fRepeats u) ≠ 0 then 0x02 else 0) = if f.atStart then 0 else endStatus s f := by
      rw [hstatus]; cases f.atStart <;> simp
    have hd' : d ∈ ((f.tiles.foldl (fun t n => dropFirings t f.part f.fid n) s).ring f.ring).out := by
      rw [State.ring, dropFirings_keeps (g := State.rings) fun _ _ => rfl]
      exact hd
    rw [hjudged, State.ring, hrings]
    exact mem_out_flightGone_of_running hrun ho hd' hc hw (by rw [hstatus]; split <;> decide) n

end

/-- Settles O55: each step of the launch by what it writes, the release by what no core's cycle changes, the end by what a flight that is gone
leaves. -/
theorem flightsLaunchAndEnd : Obligations.FlightsLaunchAndEnd := by
  intro s r count f hr _ hf h stepTo
  have hexec : ∀ {t}, launchStep s r count none = t → exec (.launchStepDone r count none) s = .next (voteRefresh t) := fun ht => by
    rw [exec_launchStepDone hr, ht]
  have hrelease : ∀ {t}, release s r count = t → exec (.flightRelease r count) s = .next (voteRefresh t) := fun ht => by
    rw [exec_flightRelease hr, ht]
  have hto : ∀ {k : LaunchStep} {P : State → Prop} {t : State}, launchStep s r count none = Advanced r count k t → t.flights = s.flights →
      P (voteRefresh (Advanced r count k t)) → stepTo k P := fun ht hflights hP =>
    ⟨_, _, hexec ht, launchOf_voteRefresh.trans (launchOf_advanced h hflights), rfl, rfl, rfl, rfl, hP⟩
  refine ⟨fun hstep hfree => ?check, fun hstep ⟨u, hu, hbusy⟩ => ?busy, fun hstep hfirst hidle hready => ?claim, fun hstep hready hue => ?copy,
    fun hstep hready => ?gates, fun hstep hready => ?arm, fun hstep ⟨n, hn, hdown⟩ => ?waits, fun hstep hmile => ?early, fun hstep hhalt => ?halted,
    fun hstep hhalt hmile ⟨n, hn, hdown⟩ => ?wakes, fun hstep hhalt hmile hready => ?release,
    fun hflight hpart _ => ⟨fun hend => ?stays, fun hend hdumps hhalt hstop => ?gone⟩⟩
  case check => exact hto (launchStep_of_check hf h hstep hfree) rfl ⟨by simp, by simp, by simp⟩
  case busy => exact hexec (launchStep_of_busyCores hf h hstep hu hbusy)
  case claim =>
    obtain ⟨⟨g, hg, hcopy, hp, hid, hcores⟩, harmed, hothers⟩ := claimed_of_idleCores hf h hready hstep hfirst hidle
    refine ⟨_, g, hexec rfl, launchOf_voteRefresh.trans hg, hcopy, hp, hid, hcores, fun u hu => ?_, fun u hu => ?_⟩
    · rw [core_voteRefresh]; exact harmed u hu
    · rw [core_voteRefresh]; exact hothers u hu
  case copy =>
    have hhbm : (launchCopy s f).hbm = s.hbm := launchCopy_keeps (fun _ _ _ => rfl) (fun _ _ _ => rfl) s f
    have hspad : (launchCopy s f).spad = s.spad := launchCopy_keeps (fun _ _ _ => rfl) (fun _ _ _ => rfl) s f
    refine hto (launchStep_of_copy hf h hready hstep hue) (launchCopy_keeps (fun _ _ _ => rfl) (fun _ _ _ => rfl) s f)
      ⟨by simp [hhbm], by simp [hspad], fun i hi hlast => ?_⟩
    simp only [core_voteRefresh, core_advanced]
    exact copied_of_launchCopy hi hlast
  case gates =>
    have hcores : (launchGates s f).cores = s.cores := launchGates_keeps (fun _ _ _ => rfl) s f
    refine hto (launchStep_of_gates hf h hready hstep) (launchGates_keeps (fun _ _ _ => rfl) s f) ⟨by simp [hcores], fun i hi => ?_⟩
    simp only [gate_voteRefresh, gate_advanced]
    exact gate_launchGates hi
  case arm =>
    have hcores : (launchArm s f).cores = s.cores := launchArm_keeps (fun _ _ _ _ => rfl) s f
    refine hto (launchStep_of_arm hf h hready hstep) (launchArm_keeps (fun _ _ _ _ => rfl) s f) ⟨by simp [hcores], fun n g => ?_⟩
    rw [gate_voteRefresh, gate_advanced, gate_launchArm]
  case waits =>
    have hclaimed : f.claimed = true := claimed_iff.2 (by
      simp only [List.mem_cons, List.not_mem_nil, or_false] at hstep
      rcases hstep with e | e | e <;> simp [e])
    exact hexec (launchStep_of_waiting h hclaimed hn hdown)
  case early => exact hrelease (release_of_early h (.inl hmile))
  case halted => exact hrelease (release_of_early h (.inr hhalt))
  case wakes => exact hrelease (release_of_down hf h hstep hhalt hmile hn hdown)
  case release =>
    obtain ⟨⟨g, hg, hrun, hts, hp, hid⟩, hdumps⟩ := released_of_ready hf h hstep hhalt hmile hready
    refine ⟨_, g, hrelease rfl, launchOf_voteRefresh.trans hg, hrun, hts, hp, hid, fun d hd hdp hdf => ?_⟩
    rw [voteRefresh_dumps]
    exact ⟨_, hdumps d hd hdp hdf, rfl⟩
  case stays => rw [exec_flightEnd hpart, flightEnd_of_waiting hflight hend]
  case gone =>
    obtain ⟨hnames, hidle, hout⟩ := ended_of_canEnd hf h hflight hend hdumps hhalt hstop
    refine ⟨_, exec_flightEnd hpart s, ?_, fun u hu => ?_, fun ho d hd hc hw => ?_⟩
    · rw [voteRefresh_flights]; exact hnames
    · rw [core_voteRefresh]; exact hidle u hu
    · rw [voteRefresh_ring]; exact hout ho d hd hc hw

end Sys2Proof.Machine

namespace Sys2Proof.Machine
open Sys2Proof

/-! ## O52 to O54: the gradient exchange (10) -/

@[simp] theorem voteRefresh_buckets (s : State) : (voteRefresh s).buckets = s.buckets :=
  voteRefresh_keeps State.buckets (fun _ _ => rfl) (fun _ _ _ => rfl) (fun _ _ _ => rfl) s
@[simp] theorem voteRefresh_slots (s : State) : (voteRefresh s).slots = s.slots :=
  voteRefresh_keeps State.slots (fun _ _ => rfl) (fun _ _ _ => rfl) (fun _ _ _ => rfl) s

/-! ### Segments taken from their buffers (10 R191, R195; 11 R216) -/

/-- What a segment's departure from its buffer leaves alone: all but the buffers and the credits of the ports. -/
theorem segTaken_keeps {α : Type} {g : State → α} (hg : ∀ s a b, g { s with segIn := a, ports := b } = g s) (s : State) (i : Nat) (m : SegIn) :
    g (SegTaken s i m) = g s := by
  unfold SegTaken
  split <;> exact hg s _ _

section
variable {s : State} {i kind n : Nat} {m : SegIn} {b : Bucket}

/-- The oldest segment of its virtual channel and port, of a running module, is not passed over. -/
theorem segTake_turn (hfatal : s.isFatal = false) (hkind : segKind m.bytes = kind) (hfirst : ∀ x ∈ s.segIn.take i, x.vc ≠ m.vc ∨ x.port ≠ m.port) :
    ¬(segKind m.bytes ≠ kind ∨ s.isFatal ∨ ((s.segIn.take i).any fun x => decide (x.vc = m.vc) && decide (x.port = m.port))) := by
  simpa [hfatal, hkind, or_iff_not_imp_left] using hfirst

/-- A segment of a known group is taken, or waits at ingress. -/
theorem segTake_of_due (h : SegDue s i kind m n) (f : State → Nat → SegIn → Seg → Option State) :
    segTake s i kind f = (f (SegTaken s i m) n m (segRead m.bytes)).getD s := by
  obtain ⟨hfatal, hm, hkind, hfirst, hgrp⟩ := h
  simp only [segTake, hm, if_neg (segTake_turn hfatal hkind hfirst), hgrp]
  rfl

theorem segTake_of_unknown (hfatal : s.isFatal = false) (hm : s.segIn[i]? = some m) (hkind : segKind m.bytes = kind)
    (hfirst : ∀ x ∈ s.segIn.take i, x.vc ≠ m.vc ∨ x.port ≠ m.port) (hgrp : groupOf s m.part (segGid m.bytes) = none)
    (f : State → Nat → SegIn → Seg → Option State) : segTake s i kind f = segDrop (SegTaken s i m) m := by
  simp only [segTake, hm, if_neg (segTake_turn hfatal hkind hfirst), hgrp]
  rfl

end

theorem exec_partialSegment (s : State) (i : Nat) : exec (.partialSegment ⟨i, none⟩) s = .next (voteRefresh (segTake s i 0 onPartial)) :=
  run_of_wf (c := .partialSegment ⟨i, none⟩) rfl
theorem exec_contributionSegment (s : State) (i : Nat) :
    exec (.contributionSegment ⟨i, none⟩) s = .next (voteRefresh (segTake s i 1 onContribution)) :=
  run_of_wf (c := .contributionSegment ⟨i, none⟩) rfl
theorem exec_missingNotice (s : State) (i : Nat) : exec (.missingNotice ⟨i, none⟩) s = .next (voteRefresh (segTake s i 2 onNotice)) :=
  run_of_wf (c := .missingNotice ⟨i, none⟩) rfl
theorem exec_resultSegment (s : State) (i : Nat) : exec (.resultSegment i) s = .next (voteRefresh (segTake s i 3 onResult)) :=
  run_of_wf (c := .resultSegment i) rfl
theorem exec_repeatNotice (s : State) (i : Nat) : exec (.repeatNotice i) s = .next (voteRefresh (segTake s i 4 onRepeat)) :=
  run_of_wf (c := .repeatNotice i) rfl
theorem exec_trailerSegment (s : State) (i : Nat) : exec (.trailerSegment ⟨i, none⟩) s = .next (voteRefresh (segTake s i 5 onTrailer)) :=
  run_of_wf (c := .trailerSegment ⟨i, none⟩) rfl


section
variable (s : State) (i : Nat) (m : SegIn) (n : Nat) (b : Bucket) (g : Seg)

@[simp] theorem rd_segTaken (f : Fld) : (SegTaken s i m).rd f = s.rd f := segTaken_keeps (g := fun t => t.rd f) (fun _ _ _ => rfl) s i m
@[simp] theorem rgAlg_segTaken : rgAlg (SegTaken s i m) n = rgAlg s n := rd_segTaken ..
@[simp] theorem rgRank_segTaken : rgRank (SegTaken s i m) n = rgRank s n := rd_segTaken ..
@[simp] theorem bucketOf_segTaken (st k : Nat) : (SegTaken s i m).bucketOf n st k = s.bucketOf n st k :=
  segTaken_keeps (g := fun t => t.bucketOf n st k) (fun _ _ _ => rfl) s i m
@[simp] theorem isChain_segTaken : isChain (SegTaken s i m) b = isChain s b := segTaken_keeps (g := fun t => isChain t b) (fun _ _ _ => rfl) s i m
@[simp] theorem isOwner_segTaken : isOwner (SegTaken s i m) b = isOwner s b := segTaken_keeps (g := fun t => isOwner t b) (fun _ _ _ => rfl) s i m
@[simp] theorem bufferUp_segTaken : bufferUp (SegTaken s i m) b = bufferUp s b := segTaken_keeps (g := fun t => bufferUp t b) (fun _ _ _ => rfl) s i m
@[simp] theorem holdRoom_segTaken : holdRoom (SegTaken s i m) n g = holdRoom s n g :=
  segTaken_keeps (g := fun t => holdRoom t n g) (fun _ _ _ => rfl) s i m
@[simp] theorem fromPrev_segTaken (x : SegIn) : fromPrev (SegTaken s i m) n x g = fromPrev s n x g :=
  segTaken_keeps (g := fun t => fromPrev t n x g) (fun _ _ _ => rfl) s i m

end

/-! ### The handlers of segments, at a key that has an entry (10 R198, R201, R202, R205 to R207) -/

section
variable {s : State} {n : Nat} {m : SegIn} {b : Bucket} (hb : s.bucketOf n (segStep m.bytes) (segBucket m.bytes) = some b) (g : Seg)
include hb

theorem entryFor_of_known : entryFor s n m g = some (b, s) := by simp only [entryFor, hb]

variable {g}

/-- At the owner a notice marks its rank, which may end the pass. -/
theorem onNotice_of_owner (halg : rgAlg s n ≠ 0) (hown : isOwner s b = true) (hnew : g.srcRank ∉ b.notices) :
    let b1 := { b with notices := b.notices ++ [g.srcRank] }
    onNotice s n m g = some (passEnd (s.putBucket b1) b1) := by
  simp [onNotice, halg, entryFor_of_known hb, hown, hnew]

theorem onResult_of_down (hphase : b.phase = .passed) (hpass : b.samePass g = true) (hdown : bufferUp s b = false) : onResult s n m g = none := by
  simp [onResult, entryFor_of_known hb, hphase, hpass, hdown]

/-- The entry with one more result of the pass, which it holds itself while it has no post. -/
def Bucket.withResult (b : Bucket) (g : Seg) : Bucket :=
  { b with results := b.results + 1, told := max b.told g.missing, resultSegs := if b.post = none then b.resultSegs ++ [g] else [] }

section
variable (hphase : b.phase = .passed) (hpass : b.samePass g = true) (hroom : b.post ≠ none ∨ holdRoom s b.grp g = true) (hup : bufferUp s b = true)
include hphase hpass hroom hup

/-- A result of the pass that ended here is written and sent on. -/
theorem onResult_of_written {t : State} (hw : writeResult s b g = some t) :
    onResult s n m g = some (finish ((sendAll t b (g.byRank (rgRank s n)) (onward s b)).putBucket (b.withResult g)) (b.withResult g)) := by
  have hwait : b.post = none → holdRoom s b.grp g = true := fun h => hroom.resolve_left (not_not.2 h)
  simpa [onResult, entryFor_of_known hb, hphase, hpass, hup, hw, Bucket.withResult] using hwait

/-- One whose write is not performed is not sent on. -/
theorem onResult_of_unwritten (hw : writeResult s b g = none) : onResult s n m g = some (resultStuck s (b.withResult g)) := by
  have hwait : b.post = none → holdRoom s b.grp g = true := fun h => hroom.resolve_left (not_not.2 h)
  simpa [onResult, entryFor_of_known hb, hphase, hpass, hup, hw, Bucket.withResult] using hwait

end

/-- A repeat is sent on, and begins the next pass with its format and exponent. -/
theorem onRepeat_of_scale (hphase : b.phase = .passed) (hfmt : g.fmt ≠ 0) :
    onRepeat s n m g = some (passAnew (sendAll s b (g.byRank (rgRank s n)) (onward s b)) b g.fmt g.exponent g.rep) := by
  simp [onRepeat, entryFor_of_known hb, hphase, hfmt]

/-- One in FP32 is a fall-back, which the group counts. -/
theorem onRepeat_of_fallback (hphase : b.phase = .passed) (hfmt : g.fmt = 0) :
    onRepeat s n m g = some (passAnew ((sendAll s b (g.byRank (rgRank s n)) (onward s b)).inc (fFallbacks n)) b 0 g.exponent g.rep) := by
  simp [onRepeat, entryFor_of_known hb, hphase, hfmt]

/-- The trailer of a pass that ended here is the final one, and is sent on. -/
theorem onTrailer_of_passed (hphase : b.phase = .passed) (hpass : b.samePass g = true) (hroom : b.post ≠ none ∨ holdRoom s b.grp g = true) :
    let b1 := { b with final := some g }
    onTrailer s n m g = some (finish ((sendAll s b (g.byRank (rgRank s n)) (onward s b)).putBucket b1) b1) := by
  have hwait : b.post = none → holdRoom s b.grp g = true := fun h => hroom.resolve_left (not_not.2 h)
  simpa [onTrailer, entryFor_of_known hb, hphase, hpass] using hwait

/-- On a chain the predecessor's trailer ends the incoming pass. -/
theorem onTrailer_of_posted (hphase : b.phase = .posted) (hchain : isChain s b = true) (hpass : b.samePass g = true) (hprev : fromPrev s n m g = true) :
    let b1 := { b with trailer := some (trailerRead g.payload), before := max b.before (trailerRead g.payload).count }
    onTrailer s n m g = some (passEnd (s.putBucket b1) b1) := by
  simp [onTrailer, entryFor_of_known hb, hphase, hchain, hpass, hprev]

end

theorem resultStuck_of_post {s : State} {b : Bucket} {p : PostSt} (h : b.post = some p) :
    resultStuck s b = if bufferFits s p then s.putBucket { b with stuck := true } else bufferHalt s b 0x43 := by
  cases hfits : bufferFits s p <;> simp [resultStuck, h, hfits]

theorem fromPrev_iff {s : State} {n : Nat} {m : SegIn} {g : Seg} : fromPrev s n m g = true ↔
    g.srcRank + 1 = rgRank s n ∧ m.srcModule = s.rd (fRg n 0x10 37 14) ∧ m.srcPart = s.rd (fRg n 0x10 13 12) := by
  simp [fromPrev, and_assoc]


/-! ### Bytes of HBM, written and read (01 R19, R20) -/

theorem stack_of_quadrant_injective : ∀ (p q : Fin 4) (i j : Fin 6), lget 0 (quadStacks p) i = lget 0 (quadStacks q) j → p = q ∧ i = j := by
  decide

/-- Two addresses of HBM have one key only if they are one. -/
theorem hbmKey_injective {s : State} {x y : Nat} (hx : x < hbmTop) (hy : y < hbmTop) (h : hbmKey s x = hbmKey s y) : x = y := by
  unfold hbmTop at hx hy
  cases hw : s.hbmWide with
  | true =>
    simp only [hbmKey, hbmMap, hw, if_true, stackBytes] at h
    omega
  | false =>
    simp only [hbmKey, hbmMap, hw, stackBytes, quadBytes, Bool.false_eq_true, if_false] at h
    have hstack : lget 0 (quadStacks (x / 0x2400000000)) (x % 0x2400000000 / 2048 % 6)
        = lget 0 (quadStacks (y / 0x2400000000)) (y % 0x2400000000 / 2048 % 6) := by omega
    have hquad := stack_of_quadrant_injective ⟨x / 0x2400000000, by omega⟩ ⟨y / 0x2400000000, by omega⟩ ⟨_, Nat.mod_lt _ (by decide)⟩
      ⟨_, Nat.mod_lt _ (by decide)⟩ hstack
    simp only [Fin.mk.injEq] at hquad
    omega

/-- A table written at distinct keys holds what was written. -/
theorem tget_tsetAll_map {α : Type} [DecidableEq α] (d : Nat → α) (key : Nat → Nat) (v : Nat → α) {n : Nat}
    (hkey : ∀ i < n, ∀ j < n, key i = key j → i = j) {j : Nat} (hj : j < n) (t : Tbl α) :
    tget d (tsetAll d t ((List.range n).map fun i => (key i, v i))) (key j) = v j := by
  have hall : ∀ (l : List Nat) (t : Tbl α), (∀ i ∈ l, i < n) →
      tget d (tsetAll d t (l.map fun i => (key i, v i))) (key j) = if j ∈ l then v j else tget d t (key j) := by
    intro l
    induction l with
    | nil => exact fun _ _ => (if_neg List.not_mem_nil).symm
    | cons i l ih =>
      intro t hl
      rw [List.map_cons, tsetAll, ih _ fun x hx => hl x (List.mem_cons_of_mem _ hx), tget_tset]
      by_cases hmem : j ∈ l
      · simp [hmem]
      · by_cases hij : j = i
        · simp [hij]
        · have hne : key j ≠ key i := fun h => hij (hkey j hj i (hl i List.mem_cons_self) h)
          simp [hmem, hij, hne]
  rw [hall _ _ fun i hi => List.mem_range.1 hi, if_pos (List.mem_range.2 hj)]

theorem dpaByte_of_hbm {s : State} {a : Nat} (h : a < hbmTop) : dpaByte s a = tget byte0 s.hbm (hbmKey s a) := by
  simp [dpaByte, dpaLoc, h]

/-- A byte written into HBM is read back. -/
theorem dpaByte_hbmWrite {s : State} {a : Nat} {bs : List Byte} (h : a + bs.length ≤ hbmTop) {j : Nat} (hj : j < bs.length) :
    dpaByte (hbmWrite s a bs) (a + j) = bs.getD j 0#8 := by
  rw [dpaByte_of_hbm (by omega)]
  exact tget_tsetAll_map byte0 (fun i => hbmKey s (a + i)) (fun i => lget 0#8 bs i)
    (fun i hi k hk e => by have := hbmKey_injective (by omega) (by omega) e; omega) hj s.hbm

/-- What stands at an address of HBM is the table's, and the interleave's. -/
theorem dpaByte_congr {s t : State} {a : Nat} (ha : a < hbmTop) (hhbm : t.hbm = s.hbm) (hwide : t.hbmWide = s.hbmWide) : dpaByte t a = dpaByte s a := by
  rw [dpaByte_of_hbm ha, dpaByte_of_hbm ha, hbmKey, hbmKey, hhbm, hwide]

/-! ### The bucket table's hold area (10 R197) -/

/-- Counting what a group's hold area holds writes the count and the group's peak. -/
theorem holdSync_keeps {α : Type} {g : State → α} (hwr : ∀ s f v, g (State.wr s f v) = g s) (huse : ∀ s u, g { s with holdUse := u } = g s)
    (s : State) (n : Nat) : g (holdSync s n) = g s := by
  simp only [holdSync, apply_ite g, hwr, huse, ite_self]

theorem bucketFree_keeps {α : Type} {g : State → α} (hwr : ∀ s f v, g (State.wr s f v) = g s) (huse : ∀ s u, g { s with holdUse := u } = g s)
    (hbuckets : ∀ s l, g { s with buckets := l } = g s) (s : State) (b : Bucket) : g (bucketFree s b) = g s :=
  (holdSync_keeps hwr huse ..).trans (hbuckets ..)

theorem length_takePad (n : Nat) (l : List Byte) : (takePad n l).length = n := by simp [takePad]; omega

/-! ### The end of a bucket (10 R197, R205, R208) -/

/-- The trailer record is written, then the consumer gate raised. -/
def recorded (s : State) (a : Nat) (bs : List Byte) (tile gate : Nat) : State := gateAddNow (hbmWrite s a bs) tile gate 1

section
variable {s : State} {a tile gate : Nat} {bs : List Byte} (hf : s.isFatal = false) (hr : tileReady s tile = true) (hq : (s.tile tile).gateOps = [])
include hf hr hq

theorem recorded_eq : recorded s a bs tile gate =
    stampAdded ((gatePush (hbmWrite s a bs) tile ⟨gate, false, 1, 4, .none⟩).setTile tile ((s.tile tile).raised gate 1)) tile :=
  gateAddNow_eq (s := hbmWrite s a bs) hf hr hq gate 1

theorem rings_recorded : (recorded s a bs tile gate).rings = s.rings := by rw [recorded_eq hf hr hq]; rfl

theorem dpaByte_recorded (htop : a + bs.length ≤ hbmTop) {j : Nat} (hj : j < bs.length) :
    dpaByte (recorded s a bs tile gate) (a + j) = bs.getD j 0#8 := by
  rw [recorded_eq hf hr hq, ← dpaByte_hbmWrite (s := s) htop hj]
  exact dpaByte_congr (by omega) rfl rfl

theorem gate_recorded (a : Nat) (bs : List Byte) : (recorded s a bs tile gate).gate tile gate = s.gate tile gate + 1 := by
  have h := gate_gateAddNow (s := hbmWrite s a bs) hf hr hq gate 1 tile gate
  rwa [if_pos ⟨rfl, rfl⟩] at h

end

@[simp] theorem settleWork_hbm (s : State) (r c : Nat) (w0 w : Work) : (settleWork s r c w0 w).hbm = s.hbm := rfl
@[simp] theorem settleWork_hbmWide (s : State) (r c : Nat) (w0 w : Work) : (settleWork s r c w0 w).hbmWide = s.hbmWide := rfl

/-- A bucket leaves the table, and its post is judged. -/
def closed (s : State) (b : Bucket) (p : PostSt) (status result : Nat) : State :=
  settleWork (bucketFree (if p.late then s.inc (fLatePosts b.grp) else s) b) p.ring p.count (.bucket b.grp b.bucket b.step) (.judged status result none)

section
variable {s : State} {b : Bucket} {p : PostSt} {status result : Nat}

theorem freed_keeps {α : Type} {F : State → α} (hwr : ∀ s f v, F (State.wr s f v) = F s) (huse : ∀ s u, F { s with holdUse := u } = F s)
    (hbuckets : ∀ s l, F { s with buckets := l } = F s) (s : State) (b : Bucket) (late : Bool) :
    F (bucketFree (if late then s.inc (fLatePosts b.grp) else s) b) = F s := by
  refine (bucketFree_keeps hwr huse hbuckets ..).trans ?_
  split
  · exact hwr ..
  · rfl

theorem dpaByte_closed {a : Nat} (ha : a < hbmTop) : dpaByte (closed s b p status result) a = dpaByte s a := by
  refine dpaByte_congr ha ?_ ?_
  · exact (settleWork_hbm ..).trans (freed_keeps (F := State.hbm) (fun _ _ _ => rfl) (fun _ _ => rfl) (fun _ _ => rfl) ..)
  · exact (settleWork_hbmWide ..).trans (freed_keeps (F := State.hbmWide) (fun _ _ _ => rfl) (fun _ _ => rfl) (fun _ _ => rfl) ..)

theorem gate_closed (tile gate : Nat) : (closed s b p status result).gate tile gate = s.gate tile gate := by
  have htiles : (closed s b p status result).tiles = s.tiles :=
    (settleWork_tiles ..).trans (freed_keeps (F := State.tiles) (fun _ _ _ => rfl) (fun _ _ => rfl) (fun _ _ => rfl) ..)
  rw [State.gate, State.tile, htiles]
  rfl

theorem mem_out_closed {x : Dispatched} (hx : x ∈ (s.ring p.ring).out) (hcount : x.count = p.count) (hwork : x.work = .bucket b.grp b.bucket b.step) :
    { x with work := .judged status result none } ∈ ((closed s b p status result).ring p.ring).out := by
  refine mem_out_settleWork (d := x) ?_ hcount hwork
  rw [State.ring, freed_keeps (F := State.rings) (fun _ _ _ => rfl) (fun _ _ => rfl) (fun _ _ => rfl)]
  exact hx

end

section
variable {s : State} {b : Bucket} {g : Seg} {p : PostSt}

theorem finish_of_partial (hfinal : b.final = some g) (helems : b.elems ≠ 0) (h : b.results < b.count s) : finish s b = s := by
  have hwhole : b.whole s = false := by simp [Bucket.whole, hfinal, helems, h]
  simp [finish, hwhole]

section
variable (hfinal : b.final = some g) (hpost : b.post = some p) (hwhole : b.whole s = true)
  (hok : hbmOk s (rgPart s b.grp) (recordAt s b) 0x1080 = true)
include hfinal hpost hwhole hok

/-- A whole result waits while its record's memory or its gate's tile is down (15 R290). -/
theorem finish_of_down (h : locReady s (recordAt s b) = false ∨ tileReady s (refTile p.gate) = false) : finish s b = s := by
  rcases h with h | h <;> simp [finish, hwhole, hfinal, hpost, hok, h]

/-- Of a whole result the trailer record is written, the consumer gate raised and the post judged, in that order. -/
theorem finish_of_up (hstuck : b.stuck = false) (hclean : s.hbmUe = []) (hloc : locReady s (recordAt s b) = true)
    (htile : tileReady s (refTile p.gate) = true) : finish s b = closed
      (recorded s (recordAt s b) (takePad 0x1080 (segWire b g)) (refTile p.gate) (refGate p.gate)) b p (postStatus b p g.fault) (postResult s b) := by
  simp [finish, hwhole, hfinal, hpost, hok, hstuck, hloc, htile, hbmPartUe_of_clean hclean, recorded, closed]

end

section
variable (hfatal : s.isFatal = false) (hfinal : b.final = some g) (hpost : b.post = some p) (hwhole : b.whole s = true)
  (hok : hbmOk s (rgPart s b.grp) (recordAt s b) 0x1080 = true) (hstuck : b.stuck = false) (hclean : s.hbmUe = [])
  (hloc : locReady s (recordAt s b) = true) (htile : tileReady s (refTile p.gate) = true) (hops : (s.tile (refTile p.gate)).gateOps = [])
include hfatal hfinal hpost hwhole hok hstuck hclean hloc htile hops

theorem finish_record {j : Nat} (hj : j < 0x1080) : dpaByte (finish s b) (recordAt s b + j) = (takePad 0x1080 (segWire b g)).getD j 0#8 := by
  have hlen := length_takePad 0x1080 (segWire b g)
  have htop : recordAt s b + 0x1080 ≤ hbmTop := by
    simp only [hbmOk, Bool.and_eq_true, decide_eq_true_eq] at hok
    exact hok.1
  rw [finish_of_up hfinal hpost hwhole hok hstuck hclean hloc htile, dpaByte_closed (by omega)]
  exact dpaByte_recorded hfatal htile hops (by omega) (by omega)

theorem finish_gate : (finish s b).gate (refTile p.gate) (refGate p.gate) = s.gate (refTile p.gate) (refGate p.gate) + 1 := by
  rw [finish_of_up hfinal hpost hwhole hok hstuck hclean hloc htile, gate_closed]
  exact gate_recorded hfatal htile hops _ _

theorem finish_judges {x : Dispatched} (hx : x ∈ (s.ring p.ring).out) (hcount : x.count = p.count) (hwork : x.work = .bucket b.grp b.bucket b.step) :
    { x with work := .judged (postStatus b p g.fault) (postResult s b) none } ∈ ((finish s b).ring p.ring).out := by
  rw [finish_of_up hfinal hpost hwhole hok hstuck hclean hloc htile]
  refine mem_out_closed ?_ hcount hwork
  rw [State.ring, rings_recorded hfatal htile hops]
  exact hx

end

end

/-! ### The statement of O53 -/

/-- Settles O53: each segment by what its handler does at the entry of its key, the end of a bucket by what is up. -/
theorem segmentsMoveBuckets : Obligations.SegmentsMoveBuckets := by
  intro s i m s1
  refine ⟨fun n b hb => ?_, fun b g p hfinal hpost helems => ⟨finish_of_partial hfinal helems, ?whole⟩, ?unknown⟩
  · have hb1 : s1.bucketOf n (segStep m.bytes) (segBucket m.bytes) = some b := (bucketOf_segTaken ..).trans hb
    refine ⟨?notice, ?down, ?result, ?again, ?fallback, ?final, ?incoming⟩
    case notice =>
      intro hd halg hown hnew b1
      rw [exec_missingNotice, segTake_of_due hd, onNotice_of_owner hb1 (by simpa [s1] using halg) (by simpa [s1] using hown) hnew, Option.getD_some]
    case down =>
      intro hd hphase hpass hdown
      rw [exec_resultSegment, segTake_of_due hd, onResult_of_down hb1 hphase hpass (by simpa [s1] using hdown), Option.getD_none]
    case result =>
      intro hd hphase hpass hroom hup b1
      have hroom1 : b.post ≠ none ∨ holdRoom s1 b.grp (segRead m.bytes) = true := by simpa [s1] using hroom
      have hup1 : bufferUp s1 b = true := by simpa [s1] using hup
      refine ⟨fun t ht => ?_, fun p hnone hpost => ?_⟩
      · rw [exec_resultSegment, segTake_of_due hd, onResult_of_written hb1 hphase hpass hroom1 hup1 ht, rgRank_segTaken, Option.getD_some]
        rfl
      · rw [exec_resultSegment, segTake_of_due hd, onResult_of_unwritten hb1 hphase hpass hroom1 hup1 hnone, Option.getD_some,
          resultStuck_of_post (b := b.withResult _) hpost]
        rfl
    case again =>
      intro hd hphase hfmt
      rw [exec_repeatNotice, segTake_of_due hd, onRepeat_of_scale hb1 hphase hfmt, rgRank_segTaken, Option.getD_some]
      rfl
    case fallback =>
      intro hd hphase hfmt
      rw [exec_repeatNotice, segTake_of_due hd, onRepeat_of_fallback hb1 hphase hfmt, rgRank_segTaken, Option.getD_some]
      rfl
    case final =>
      intro hd hphase hpass hroom b1
      rw [exec_trailerSegment, segTake_of_due hd, onTrailer_of_passed hb1 hphase hpass (by simpa [s1] using hroom), rgRank_segTaken, Option.getD_some]
      rfl
    case incoming =>
      intro hd hphase hchain hpass hrank hmodule hpart b1
      have hprev : fromPrev s n m (segRead m.bytes) = true := fromPrev_iff.2 ⟨hrank, hmodule, hpart⟩
      rw [exec_trailerSegment, segTake_of_due hd, onTrailer_of_posted hb1 hphase (by simpa [s1] using hchain) hpass (by simpa [s1] using hprev),
        Option.getD_some]
  case whole =>
    intro hcount hfatal hstuck hok hclean
    have hwhole : b.whole s = true := by simp [Bucket.whole, hfinal, helems, hcount]
    exact ⟨finish_of_down hfinal hpost hwhole hok, fun hloc htile hops =>
      ⟨fun _ => finish_record hfatal hfinal hpost hwhole hok hstuck hclean hloc htile hops,
        finish_gate hfatal hfinal hpost hwhole hok hstuck hclean hloc htile hops,
        fun _ => finish_judges hfatal hfinal hpost hwhole hok hstuck hclean hloc htile hops⟩⟩
  case unknown =>
    intro c kind hc hfatal hm hkind hfirst hgrp
    have htake := segTake_of_unknown hfatal hm hkind hfirst hgrp
    simp only [List.mem_cons, List.not_mem_nil, or_false, Prod.mk.injEq] at hc
    obtain ⟨rfl, rfl⟩ | ⟨rfl, rfl⟩ | ⟨rfl, rfl⟩ | ⟨rfl, rfl⟩ | ⟨rfl, rfl⟩ | ⟨rfl, rfl⟩ := hc
    · rw [exec_partialSegment, htake]
    · rw [exec_contributionSegment, htake]
    · rw [exec_missingNotice, htake]
    · rw [exec_resultSegment, htake]
    · rw [exec_repeatNotice, htake]
    · rw [exec_trailerSegment, htake]

end Sys2Proof.Machine

namespace Sys2Proof.Machine
open Sys2Proof

/-! ## O54: a halt notice and the adders of its tile (09 R184; 10 R203) -/

theorem exec_haltNoticeArrival {part tile : Nat} (hpart : part < 4) (htile : tile < 60) (fid : Nat) (s : State) :
    exec (.haltNoticeArrival part fid ⟨tile, none⟩) s = .next (voteRefresh (addersOf (notice s part fid tile) tile)) :=
  run_of_wf (c := .haltNoticeArrival part fid ⟨tile, none⟩) (by simp [Instr.wf, okPart, okTile, upsetIn, hpart, htile])

/-- A bucket that the wharf adders process (wharf_add), and whose buffer need not lie in one tile (10 R193): its two FP32 elements are the last
of tile 0's scratchpad and the first of tile 1's. Its one segment, empty as rank 0's are, stands in slot 1 of tile 0. -/
def straddlingBucket : Bucket :=
  { grp := 0, part := 0, gid := 5, step := 0, bucket := 0, phase := .posted, elems := 2, deadline := 100, fmt := 0, exponent := 0, rep := 0
    post := some { ring := 0, count := 0, t0 := 0, deadline := 100, dpa := tileWindow + spadBytes - 4, elems := 2, format := 0, wharfAdd := true
                   gate := gateRef 0 2, late := false, ovfWrap := false, scaleStep := 1, resultTo := 10 }
    landed := [{ slot := 1, tile := some 0, op := 0, first := false, wharf := true
                 seg := { kind := 0, last := true, empty := true, fused := false, fault := false, fmt := 0, rep := 0, prefixRank := 0, srcRank := 0,
                          count := 1, index := 0, elem := 0, exponent := 0, maxExp := 0x80, missing := 0, payload := [] } }]
    nextLand := 1 }

/-- A load of a core whose lanes have been denied. -/
def waitingLoad : Fly := { due := 14, slot := .l, seq := 0, bundle := 0, rep := 0, wait := true, load := some (.vec 0 0, [(64, 256)]) }

/-- A flight on tile 0 that has halted, and whose notice has not reached the tile. -/
def haltingFlight : Flight :=
  { part := 0, fid := 5, image := 1, dpa := 0, len := 256, ring := 0, count := 0, atStart := false, arg := 0, startMile := 0, step := .running,
    cores := [0], tiles := [0], ts := 0, stop := .halt, haltIx := some 0, dropped := false, notices := [0], clockMhz := 0 }

/-- Tile 0 with its notice to come and two slots landed (arrive gate 1), of which the exchange stage has added the first (added gate 0), so that
the bucket's is next; on tile 1 a load of core 4 waits. -/
def straddling : State :=
  State.wrAll { cores := [(0, { phase := .run }), (4, { phase := .run, flies := [waitingLoad] })]
                tiles := [(0, { gates := [(0, 1#32), (1, 2#32)] }), (1, { denied := [⟨.core 4, .load 0 0, [(64, 256)], false, 0, .asks⟩] })]
                flights := [haltingFlight], buckets := [straddlingBucket], slots := [(0, 2)], fenced := [0] }
    [(fRg 0 0 63 63, 1), (fRg 0 0 47 32, 5), (fRg 0 8 63 44, 1), (fRg 0 0x28 33 26, 4), (fRg 0 0x28 45 34, 1)]

/-- Does a datum of a core still wait for its lanes? -/
def loadWaits (s : State) (uid : Nat) : Bool := (s.core uid).flies.any fun f => f.wait

theorem loadWaits_straddling : loadWaits straddling 4 = true := by decide +kernel
/-- The adders read the contribution's last element through tile 1's endpoint, and what waits there before them is granted. -/
theorem loadWaits_after_notice : loadWaits (addersOf (notice straddling 0 5 0) 0) 4 = false := by decide +kernel

/-- Refutes O54: its clause on halt notices says that no core of another tile changes. On the tile of the notice the wharf adders take over (10
R203), and the buffer of a wharf_add bucket may go on into the next tile's scratchpad (10 R193); the adders' turn at that tile's endpoint grants
the load of its core that waits there (05 R96). -/
theorem not_bucketsLandAndTimeOut : ¬ Obligations.BucketsLandAndTimeOut := by
  intro h
  obtain ⟨-, -, -, -, -, hnotice⟩ := h straddling (by decide +kernel)
  obtain ⟨t, _, ht, -, -, -, -, -, -, hothers⟩ :=
    hnotice 0 5 0 haltingFlight (by decide) (by decide) (by decide) (by decide +kernel) (by decide)
  have hcore : t.core 4 = straddling.core 4 := hothers 4 (by decide)
  rw [exec_haltNoticeArrival (by decide) (by decide)] at ht
  have htwaits : loadWaits t 4 = false := by
    rw [← Host.Outcome.next.inj ht, loadWaits, core_voteRefresh]
    exact loadWaits_after_notice
  rw [loadWaits, hcore] at htwaits
  exact absurd (loadWaits_straddling.symm.trans htwaits) (by decide)

end Sys2Proof.Machine

namespace Sys2Proof.Machine
open Sys2Proof

/-! ## O52: posts, and segments held or landed (10 R191 to R205) -/

/-! ### The segment that a bucket lands next (10 R199, R202) -/

theorem countP_dropFirst {α : Type} {p : α → Bool} {x : α} (hx : p x = true) : (l : List α) → x ∈ l → (dropFirst p l).countP p + 1 = l.countP p
  | a :: l, h => by
    by_cases ha : p a = true
    · simp [dropFirst, ha]
    · have hmem : x ∈ l := (List.mem_cons.1 h).resolve_left fun e => ha (e ▸ hx)
      simp [dropFirst, ha, countP_dropFirst hx l hmem]

/-- Of what is held and one more, the one found is not the last where that is not what is looked for. -/
theorem dropFirst_append_ne {α : Type} {p : α → Bool} {l : List α} {a x : α} (ha : p a = false) (hfind : (l ++ [a]).find? p = some x) :
    dropFirst p (l ++ [a]) ≠ l := by
  intro h
  have hcount := countP_dropFirst (List.find?_some hfind) _ (List.mem_of_find?_eq_some hfind)
  rw [h, List.countP_append] at hcount
  simp [ha] at hcount

theorem find?_append_last {α : Type} {p : α → Bool} {l : List α} {a : α} (hl : ∀ x ∈ l, p x = false) (ha : p a = true) : (l ++ [a]).find? p = some a := by
  have hnone : l.find? p = none := List.find?_eq_none.2 fun x hx => by simp [hl x hx]
  simp [List.find?_append, hnone, ha]

theorem dropFirst_append_last {α : Type} {p : α → Bool} {a : α} (ha : p a = true) : (l : List α) → (∀ x ∈ l, p x = false) → dropFirst p (l ++ [a]) = l
  | [], _ => by simp [dropFirst, ha]
  | y :: l, hl => by
    simp [dropFirst, hl y List.mem_cons_self, dropFirst_append_last ha l fun x hx => hl x (List.mem_cons_of_mem _ hx)]

/-- Is a segment the partial that a bucket of the chain lands next? -/
def Bucket.nextPartial (s : State) (b : Bucket) (g : Seg) : Bool :=
  decide (g.kind = 0) && decide (g.index = b.nextLand) && b.samePass g && segAgrees s b g
/-- Is it the contribution that the owner lands at a rank position? -/
def Bucket.contributionAt (s : State) (b : Bucket) (q : Nat) (g : Seg) : Bool :=
  decide (g.kind = 1) && decide (g.srcRank = q % rgN s b.grp) && decide (g.index = q / rgN s b.grp) && b.samePass g && segAgrees s b g

section
variable {s : State} {b : Bucket}

/-- A posted bucket of the chain, past rank 0, lands its next partial. -/
theorem landNext_of_chain (hchain : isChain s b = true) (hrank : rgRank s b.grp ≠ 0) : landNext s b =
    if b.phase ≠ .posted ∨ b.count s ≤ b.nextLand then none
    else (b.held.find? (b.nextPartial s)).map fun g =>
      (0, false, g, { b with held := dropFirst (b.nextPartial s) b.held, nextLand := b.nextLand + 1 }) := by
  simp only [landNext, hchain, if_true, if_neg hrank]
  rfl

/-- What the owner lands leaves what is held, or is a contribution of the rank whose turn it is. -/
theorem landNext_of_owner (howner : isOwner s b = true) {x : Nat × Bool × Seg × Bucket} (h : landNext s b = some x) :
    x.2.2.2.held = b.held ∨ ∃ q g, ownerNext s b = some q ∧ b.held.find? (b.contributionAt s q) = some g
      ∧ x.2.2.2.held = dropFirst (b.contributionAt s q) b.held := by
  have hchain : isChain s b = false := by
    simp only [isOwner, Bool.and_eq_true, Bool.not_eq_true'] at howner
    exact howner.1
  simp only [landNext, hchain, howner, Bool.false_eq_true, if_false, true_and] at h
  split at h
  case isFalse => cases h
  case isTrue =>
    split at h
    case h_1 => cases h
    case h_2 q hq =>
      split at h
      case isTrue =>
        cases h
        exact .inl rfl
      case isFalse =>
        simp only [Option.map_eq_some_iff, exists_exists_and_eq_and] at h
        obtain ⟨g, hg, rfl⟩ := h
        exact .inr ⟨q, g, hq, hg, rfl⟩

end

/-! ### Held or landed (10 R205) -/

/-- A bucket with a segment more in its hold area. -/
def Bucket.arrived (b : Bucket) (g : Seg) : Bucket := { b with held := b.held ++ [g] }

section
variable {s : State} {b : Bucket} {g : Seg}

theorem landNext_arrived_of_chain (hchain : isChain s b = true) (hrank : rgRank s b.grp ≠ 0) : landNext s (b.arrived g) =
    if b.phase ≠ .posted ∨ b.count s ≤ b.nextLand then none
    else ((b.held ++ [g]).find? (b.nextPartial s)).map fun x =>
      (0, false, x, { b with held := dropFirst (b.nextPartial s) (b.held ++ [g]), nextLand := b.nextLand + 1 }) :=
  landNext_of_chain (b := b.arrived g) hchain hrank

/-- What is looked for is not the segment that arrives: then it stays with what is held. -/
theorem landNext_other_of_chain (hchain : isChain s b = true) (hrank : rgRank s b.grp ≠ 0) (hg : g.index ≠ b.nextLand)
    {x : Nat × Bool × Seg × Bucket} (h : landNext s (b.arrived g) = some x) : x.2.2.2.held ≠ b.held := by
  rw [landNext_arrived_of_chain hchain hrank] at h
  split at h
  case isTrue => cases h
  case isFalse =>
    obtain ⟨y, hy, rfl⟩ := Option.map_eq_some_iff.1 h
    exact dropFirst_append_ne (by simp [Bucket.nextPartial, hg]) hy

theorem landNext_other_of_owner (howner : isOwner s b = true)
    (hg : ∀ q, ownerNext s b = some q → g.srcRank ≠ q % rgN s b.grp ∨ g.index ≠ q / rgN s b.grp)
    {x : Nat × Bool × Seg × Bucket} (h : landNext s (b.arrived g) = some x) : x.2.2.2.held ≠ b.held := by
  rcases landNext_of_owner (b := b.arrived g) howner h with h | ⟨q, y, hq, hy, h⟩
  · rw [h, Bucket.arrived]
    exact fun e => List.cons_ne_nil _ _ (List.append_right_eq_self.1 e)
  · rw [h]
    refine dropFirst_append_ne ?_ hy
    rcases hg q hq with hg | hg
    · simp [Bucket.contributionAt, Bucket.arrived, hg]
    · simp [Bucket.contributionAt, Bucket.arrived, hg]

/-- A bucket without a post, or one whose next segment is another, holds the segment while there is room. -/
theorem landOr_of_other (h : b.post = none ∨ ∀ x, landNext s (b.arrived g) = some x → x.2.2.2.held ≠ b.held) (hroom : holdRoom s b.grp g = true) :
    landOr s b g = some (holdSeg s b g) := by
  refine Eq.trans ?_ (if_pos hroom : holdOr s b g = _)
  unfold landOr
  split
  case h_1 p op first g1 b1 hpost hnext =>
    rcases h with h | h
    · simp [hpost] at h
    · exact if_neg fun hland => h _ hnext hland.1
  case h_2 => rfl

/-- The bucket after the landing of its next segment, but for the slot. -/
def Bucket.landing (b : Bucket) : Bucket := { b with nextLand := b.nextLand + 1 }

/-- The next partial of a posted bucket lands where it has room. -/
theorem landOr_of_next {p : PostSt} (hchain : isChain s b = true) (hrank : rgRank s b.grp ≠ 0) (hpost : b.post = some p)
    (hself : b.missedSelf = false) (hphase : b.phase = .posted) (hcount : b.nextLand < b.count s) (hg : b.nextPartial s g = true)
    (hheld : ∀ x ∈ b.held, b.nextPartial s x = false) (hroom : landRoom s b.landing p 0 false g = true) :
    landOr s b g = some (landOne s b p 0 false g b.landing) := by
  have hnext : landNext s (b.arrived g) = some (0, false, g, b.landing) := by
    rw [landNext_arrived_of_chain hchain hrank, if_neg (not_or.2 ⟨not_not.2 hphase, not_le.2 hcount⟩), find?_append_last hheld hg,
      dropFirst_append_last hg b.held hheld]
    rfl
  unfold landOr
  rw [show landNext s { b with held := b.held ++ [g] } = _ from hnext, hpost]
  exact if_pos ⟨rfl, by simpa using hself, hroom⟩

end

end Sys2Proof.Machine

namespace Sys2Proof.Machine
open Sys2Proof

/-! ### What an access through a tile's endpoint leaves alone (05 R94 to R97) -/

/-- A part of the state that reads no core's record, no tile's and no scratchpad. -/
structure EndpointBystander {α : Type} (g : State → α) : Prop where
  setCore : ∀ s u c, g (State.setCore s u c) = g s
  setTile : ∀ s n t, g (State.setTile s n t) = g s
  spad : ∀ s v, g { s with spad := v } = g s

section
variable {α : Type} {g : State → α} (hg : EndpointBystander g)
include hg

theorem spadWrite_endpoint (s : State) (tile off : Nat) (bs : List Byte) : g (spadWrite s tile off bs) = g s := by
  simp only [spadWrite, State.modTile, hg.setTile, hg.spad]

theorem waitedWrites_endpoint (s : State) (tile : Nat) (fs : List Fly) : g (waitedWrites s tile fs) = g s := by
  refine foldl_keeps (fun t f => foldl_keeps (fun u w => ?_) _ _) _ _
  cases w <;> simp only [spadWrite_endpoint hg]

theorem vGrant_endpoint (s : State) (uid q k n : Nat) : g (vGrant s uid q k n) = g s := by
  simp only [vGrant]
  (repeat' split) <;> simp only [hg.setCore]

/-- What a granted request of a core does stays with the core and its scratchpad. -/
theorem grantEffect_endpoint (s : State) (tile uid : Nat) (d : Denied) (n : Nat) : g (grantEffect s tile uid d n) = g s := by
  simp only [grantEffect]
  (repeat' split) <;> simp only [State.modCore, hg.setCore, vGrant_endpoint hg, waitedWrites_endpoint hg]

theorem grantRequest_endpoint (s : State) (tile i n : Nat) : g (grantRequest s tile i n) = g s := by
  simp only [grantRequest]
  (repeat' split) <;> simp only [State.nextCycle, State.modTile, hg.setTile, grantEffect_endpoint hg]

theorem settleAhead_endpoint (s : State) (tile : Nat) (d : Denied) : g (settleAhead s tile d) = g s := by
  refine foldl_keeps (fun t _ => ?_) _ _
  split
  · exact grantRequest_endpoint hg ..
  · rfl

theorem endpointPiece_endpoint (n : Nat) (s : State) (tile : Nat) (d : Denied) : g (endpointPiece n s tile d) = g s := by
  induction n generalizing s d with
  | zero => simp only [endpointPiece, State.nextCycle, State.modTile, hg.setTile]
  | succ n ih =>
    simp only [endpointPiece]
    split
    · exact (hg.setTile ..).trans ((settleAhead_endpoint hg ..).trans (hg.setTile ..))
    · exact (ih ..).trans ((settleAhead_endpoint hg ..).trans (hg.setTile ..))

theorem endpointTurn_endpoint (s : State) (tile off n : Nat) (write : Bool) : g (endpointTurn s tile off n write) = g s := by
  unfold endpointTurn
  split
  · rfl
  · exact foldl_keeps (fun t _ => endpointPiece_endpoint hg ..) _ _

end

/-! ### Landed segments, but for the milestone of their addition (10 R199, R200) -/

/-- A landed segment without the milestone of its addition. -/
def Landed.unstamped (l : Landed) : Landed := { l with addedAt := none }
/-- A bucket whose landed segments show no milestone. -/
def Bucket.unstamped (b : Bucket) : Bucket := { b with landed := b.landed.map Landed.unstamped }
/-- What has landed, and what decides who adds it: the bucket table without milestones, the slots landed, the fenced tiles. -/
def landings (s : State) : List Bucket × Tbl Nat × List Nat := (s.buckets.map Bucket.unstamped, s.slots, s.fenced)

theorem landings_endpoint : EndpointBystander landings := ⟨fun _ _ _ => rfl, fun _ _ _ => rfl, fun _ _ => rfl⟩

theorem landings_stampAdded (s : State) (tile : Nat) : landings (stampAdded s tile) = landings s := by
  simp only [landings, stampAdded, List.map_map, Prod.mk.injEq, and_true]
  refine List.map_congr_left fun b _ => ?_
  simp only [Function.comp, Bucket.unstamped, List.map_map, Bucket.mk.injEq, true_and, and_true]
  refine List.map_congr_left fun l _ => ?_
  simp only [Function.comp, Landed.unstamped]
  split <;> rfl

theorem landings_gateAnswers (s : State) (x y : TileSt) : landings (gateAnswers s x y) = landings s := by
  refine foldl_keeps (fun u o => ?_) _ _
  split <;> rfl

theorem landings_gateAddNow (s : State) (tile g n : Nat) : landings (gateAddNow s tile g n) = landings s := by
  have hall : ∀ t, landings (gateAll t tile) = landings t := fun t => by
    simp only [gateAll]
    split
    · rfl
    · exact (landings_gateAnswers ..).trans (landings_stampAdded ..)
  unfold gateAddNow gateUnit
  split
  · rfl
  · exact hall _

theorem mem_landed_of_unstamped {b c : Bucket} (h : b.unstamped = c.unstamped) {l : Landed} (hl : l ∈ c.landed) :
    ∃ k ∈ b.landed, k.unstamped = l.unstamped := by
  have hmap : b.landed.map Landed.unstamped = c.landed.map Landed.unstamped := congrArg Bucket.landed h
  exact List.mem_map.1 (hmap ▸ List.mem_map_of_mem (f := Landed.unstamped) hl)

/-- No landed segment of the module is one that the adders of a tile process. -/
def AddersIdle (s : State) (tile : Nat) : Prop := tile ∉ s.fenced ∧ ∀ b ∈ s.buckets, ∀ l ∈ b.landed, l.wharf = false

theorem AddersIdle.congr {s t : State} {tile : Nat} (h : landings t = landings s) (hs : AddersIdle s tile) : AddersIdle t tile := by
  obtain ⟨hfenced, hstage⟩ := hs
  simp only [landings, Prod.mk.injEq] at h
  obtain ⟨hbuckets, -, hf⟩ := h
  refine ⟨hf ▸ hfenced, fun b hb l hl => ?_⟩
  obtain ⟨c, hc, hcb⟩ := List.mem_map.1 (hbuckets ▸ List.mem_map_of_mem (f := Bucket.unstamped) hb)
  obtain ⟨k, hk, hkl⟩ := mem_landed_of_unstamped hcb hl
  have hwharf : k.unstamped.wharf = l.unstamped.wharf := congrArg Landed.wharf hkl
  exact hwharf.symm.trans (hstage c hc k hk)

theorem adderNext_of_idle {s : State} {tile : Nat} (h : AddersIdle s tile) : adderNext s tile = none := by
  obtain ⟨hfenced, hstage⟩ := h
  refine List.findSome?_eq_none_iff.2 fun b hb => ?_
  rw [Option.map_eq_none_iff, List.find?_eq_none]
  intro l hl
  simp [hstage b hb l hl, hfenced]

/-- Where no segment is the adders', they add none: at most an added gate rises past what a halted post has left. -/
theorem landings_adderRun {tile : Nat} (n : Nat) {s : State} (h : AddersIdle s tile) : landings (adderRun n s tile) = landings s := by
  induction n generalizing s with
  | zero => rfl
  | succ n ih =>
    unfold adderRun
    split
    · rfl
    · rw [adderNext_of_idle h]
      cases hleft : leftSlot s tile with
      | none => rfl
      | some k =>
        have hadd := landings_gateAddNow s tile (rgAdded s k) 1
        exact (ih (h.congr hadd)).trans hadd

/-! ### A segment lands in a slot (10 R190, R199) -/

section
variable {s : State}

/-- A change of every entry that keeps its key is seen in the entry of a key. -/
theorem bucketOf_of_map {t : State} {F : Bucket → Bucket} (h : t.buckets = s.buckets.map F)
    (hkey : ∀ b, (F b).grp = b.grp ∧ (F b).step = b.step ∧ (F b).bucket = b.bucket) (n st k : Nat) :
    t.bucketOf n st k = (s.bucketOf n st k).map F := by
  simp only [State.bucketOf, h, List.find?_map, Function.comp_def, hkey]

theorem bucketOf_key {n st k : Nat} {b : Bucket} (h : s.bucketOf n st k = some b) : b.grp = n ∧ b.step = st ∧ b.bucket = k := by
  simpa [and_assoc] using List.find?_some h

theorem holdSync_buckets (s : State) (n : Nat) : (holdSync s n).buckets = s.buckets :=
  holdSync_keeps (g := State.buckets) (fun _ _ _ => rfl) (fun _ _ => rfl) s n

theorem putBucket_buckets (s : State) (b : Bucket) : (s.putBucket b).buckets = s.buckets.map fun x => if sameKey x b then b else x :=
  holdSync_buckets ..

/-- An entry put in is the entry of its key, where there was one. -/
theorem bucketOf_putBucket {b x : Bucket} (h : s.bucketOf b.grp b.step b.bucket = some x) : (s.putBucket b).bucketOf b.grp b.step b.bucket = some b := by
  obtain ⟨hgrp, hstep, hbucket⟩ := bucketOf_key h
  rw [bucketOf_of_map (putBucket_buckets s b), h]
  · simp [sameKey, hgrp, hstep, hbucket]
  · intro y
    by_cases hy : sameKey y b = true
    · simp only [sameKey, Bool.and_eq_true, decide_eq_true_eq] at hy
      simp [sameKey, hy]
    · simp [hy]

end

/-- What reads alike but for milestones has the same entry of a key, but for milestones. -/
theorem bucketOf_of_landings {s t : State} (h : landings t = landings s) {n st k : Nat} {b : Bucket} (hb : s.bucketOf n st k = some b) :
    ∃ c, t.bucketOf n st k = some c ∧ c.unstamped = b.unstamped := by
  have hmap : t.buckets.map Bucket.unstamped = s.buckets.map Bucket.unstamped := congrArg Prod.fst h
  have hkey : ∀ b : Bucket, b.unstamped.grp = b.grp ∧ b.unstamped.step = b.step ∧ b.unstamped.bucket = b.bucket := fun _ => ⟨rfl, rfl, rfl⟩
  have hboth := (bucketOf_of_map (s := t) (t := { s with buckets := s.buckets.map Bucket.unstamped }) hmap.symm hkey n st k).symm.trans
    (bucketOf_of_map (s := s) rfl hkey n st k)
  rw [hb] at hboth
  obtain ⟨c, hc, hcb⟩ := Option.map_eq_some_iff.1 hboth
  exact ⟨c, hc, hcb⟩

/-- The bucket with a segment landed in a slot of its tile, after what other segments have landed. -/
def Bucket.landedAt (b : Bucket) (before : List Landed) (slot tile : Nat) (g : Seg) : Bucket :=
  { b.landing with landed := before ++ [⟨slot, some tile, 0, false, g, false, false, none, none⟩] }

/-- The slots of a group's tile, counted anew. -/
def State.slotsTo (s : State) (x k : Nat) : State := { s with slots := tset nat0 s.slots x k }

/-- A bucket entered, and the slot of a tile counted as landed. -/
def slotted (s : State) (b : Bucket) (tile k : Nat) : State := (s.putBucket b).slotsTo (64 * b.grp + tile) (k + 1)

section
variable {s : State} {tile : Nat}

theorem bucketOf_slotsTo (x k n st b : Nat) : (s.slotsTo x k).bucketOf n st b = s.bucketOf n st b := rfl

theorem slotNext_slotted (b : Bucket) (k : Nat) : slotNext (slotted s b tile k) b.grp tile = k + 1 := by
  simp [slotNext, slotted, State.slotsTo]

theorem bucketOf_slotted {b x : Bucket} (h : s.bucketOf b.grp b.step b.bucket = some x) (k : Nat) :
    (slotted s b tile k).bucketOf b.grp b.step b.bucket = some b :=
  (bucketOf_slotsTo ..).trans (bucketOf_putBucket h)

theorem AddersIdle.slotsTo (h : AddersIdle s tile) (x k : Nat) : AddersIdle (s.slotsTo x k) tile := h

theorem addersIdle_slotted {b : Bucket} (h : AddersIdle s tile) (hb : ∀ l ∈ b.landed, l.wharf = false) (k : Nat) : AddersIdle (slotted s b tile k) tile := by
  obtain ⟨hfenced, hstage⟩ := h
  have hkeeps : (s.putBucket b).fenced = s.fenced := holdSync_keeps (g := State.fenced) (fun _ _ _ => rfl) (fun _ _ => rfl) ..
  refine AddersIdle.slotsTo ⟨fun hmem => hfenced (hkeeps ▸ hmem), fun y hy => ?_⟩ _ _
  obtain ⟨x, hx, rfl⟩ := List.mem_map.1 ((putBucket_buckets s b) ▸ hy)
  split
  · exact hb
  · exact hstage x hx

/-- The outcome of what a slot held before is all that its next segment takes from it. -/
theorem slotTaken_buckets (s : State) (n tile k : Nat) : ∃ F : Bucket → Bucket, (slotTaken s n tile k).buckets = s.buckets.map F
    ∧ (∀ b, (F b).grp = b.grp ∧ (F b).step = b.step ∧ (F b).bucket = b.bucket)
    ∧ ∀ b, (∀ l ∈ b.landed, l.wharf = false) → ∀ l ∈ (F b).landed, l.wharf = false := by
  refine ⟨_, rfl, fun _ => ⟨rfl, rfl, rfl⟩, fun b hb l hl => ?_⟩
  obtain ⟨x, hx, rfl⟩ := List.mem_map.1 hl
  split
  · exact hb x hx
  · exact hb x hx

end

section
variable {s : State} {b x : Bucket} {p : PostSt} {g : Seg} {tile : Nat}

/-- A bucket entered, its segment's bytes written into a slot of its tile, and the gate that tells of it raised. -/
def slotFilled (s : State) (b : Bucket) (tile k off gate : Nat) (bytes : List Byte) : State :=
  gateAddNow ((spadWrite (endpointTurn (s.putBucket b) tile off bytes.length true) tile off bytes).slotsTo (64 * b.grp + tile) (k + 1)) tile gate 1

/-- A segment of a posted bucket, in its tile's next slot. -/
theorem landOne_of_slot (hfatal : s.isFatal = false) (htile : postTile s p = some tile) (hwharf : (p.wharfAdd || s.fenced.contains tile) = false)
    (hfree : slotFree s b.grp tile (slotNext s b.grp tile) = true) :
    let s1 := slotTaken s b.grp tile (slotNext s b.grp tile)
    ∃ bytes, landOne s b p 0 false g b.landing =
      addersOf (slotFilled s1 (b.landedAt ((s1.bucketOf b.grp b.step b.bucket).getD b.landing).landed (slotNext s b.grp tile) tile g) tile
        (slotNext s b.grp tile) (slotOff s b.grp (slotNext s b.grp tile)) (rgArrive s b.grp) bytes) tile := by
  unfold landOne
  simp -zeta only [htile]
  rw [hwharf]
  exact ⟨_, if_neg (by simp [hfree, hfatal])⟩

theorem landings_slotFilled (k off gate : Nat) (bytes : List Byte) : landings (slotFilled s b tile k off gate bytes) = landings (slotted s b tile k) := by
  have hslots : ∀ u v : State, landings u = landings v → ∀ y k, landings (u.slotsTo y k) = landings (v.slotsTo y k) := fun u v h y k => by
    simp only [landings, Prod.mk.injEq] at h
    obtain ⟨hb, hs, hf⟩ := h
    simp only [landings, State.slotsTo, hb, hs, hf]
  exact (landings_gateAddNow ..).trans
    (hslots _ _ ((spadWrite_endpoint landings_endpoint ..).trans (endpointTurn_endpoint landings_endpoint ..)) _ _)

/-- What has landed once a segment of a posted bucket is in its tile's next slot. -/
theorem landings_landOne (hfatal : s.isFatal = false) (htile : postTile s p = some tile) (hwharf : p.wharfAdd = false) (hidle : AddersIdle s tile)
    (hfree : slotFree s b.grp tile (slotNext s b.grp tile) = true) (hx : s.bucketOf b.grp b.step b.bucket = some x) :
    ∃ t before, landings (landOne s b p 0 false g b.landing) = landings t
      ∧ t.bucketOf b.grp b.step b.bucket = some (b.landedAt before (slotNext s b.grp tile) tile g)
      ∧ slotNext t b.grp tile = slotNext s b.grp tile + 1 := by
  obtain ⟨hfenced, hstage⟩ := hidle
  obtain ⟨F, hF, hkey, hkeeps⟩ := slotTaken_buckets s b.grp tile (slotNext s b.grp tile)
  generalize hs1 : slotTaken s b.grp tile (slotNext s b.grp tile) = s1 at hF
  have hidle1 : AddersIdle s1 tile := by
    refine ⟨hs1 ▸ hfenced, fun y hy => ?_⟩
    obtain ⟨z, hz, rfl⟩ := List.mem_map.1 (hF ▸ hy)
    exact hkeeps z (hstage z hz)
  have hentry : s1.bucketOf b.grp b.step b.bucket = some (F x) := by rw [bucketOf_of_map hF hkey, hx]; rfl
  let b2 := b.landedAt (F x).landed (slotNext s b.grp tile) tile g
  have hlanded : ∀ l ∈ b2.landed, l.wharf = false := fun l hl => by
    rcases List.mem_append.1 hl with h | h
    · exact hkeeps x (hstage x (List.mem_of_find?_eq_some hx)) l h
    · rw [List.mem_singleton.1 h]
  have hidle2 := addersIdle_slotted hidle1 hlanded (slotNext s b.grp tile)
  refine ⟨slotted s1 b2 tile (slotNext s b.grp tile), (F x).landed, ?_, bucketOf_slotted (b := b2) hentry _, slotNext_slotted b2 _⟩
  obtain ⟨bytes, hland⟩ := landOne_of_slot (b := b) (g := g) hfatal htile (by simpa [hwharf] using hfenced) hfree
  rw [hland, hs1, hentry, Option.getD_some]
  have hfilled := landings_slotFilled (s := s1) (b := b2) (tile := tile) (slotNext s b.grp tile) (slotOff s b.grp (slotNext s b.grp tile)) (rgArrive s b.grp) bytes
  exact (landings_adderRun _ (hidle2.congr hfilled)).trans hfilled

end

end Sys2Proof.Machine

namespace Sys2Proof.Machine
open Sys2Proof

/-! ### Partials and contributions at a key that has an entry (10 R191, R195, R199, R205) -/

section
variable {s : State} {n : Nat} {m : SegIn} {b : Bucket} {g : Seg}

/-- A bucket to which a partial or a contribution has come, with the ranks missing before it. -/
def Bucket.reached (b : Bucket) (mile before : Nat) : Bucket := { b with firstLand := some (b.firstLand.getD mile), before := before }

theorem onPartial_of_stranger (h : g.srcRank + 1 ≠ rgRank s n) : onPartial s n m g = some (segDrop s m) := by
  simp [onPartial, fromPrev, h]

theorem onContribution_of_owner (hb : s.bucketOf n (segStep m.bytes) (segBucket m.bytes) = some b) (halg : rgAlg s n ≠ 0) (howner : isOwner s b = true) :
    onContribution s n m g = landOr s (b.reached s.mile b.before) g := by
  simp [onContribution, halg, entryFor_of_known hb, howner, Bucket.reached]

theorem onPartial_of_prev (hb : s.bucketOf n (segStep m.bytes) (segBucket m.bytes) = some b) (halg : rgAlg s n = 0) (hprev : fromPrev s n m g = true)
    (hphase : b.phase ≠ .missed) : onPartial s n m g = landOr s (b.reached s.mile (max b.before g.missing)) g := by
  simp [onPartial, halg, hprev, entryFor_of_known hb, hphase, Bucket.reached]

theorem landRoom_of_slot {p : PostSt} {tile : Nat} (htile : postTile s p = some tile) (hready : tileReady s tile = true)
    (hfree : slotFree s b.grp tile (slotNext s b.grp tile) = true) : landRoom s b p 0 false g = true := by
  have hloc : locReady s p.dpa = true := by
    cases hdpa : dpaLoc s p.dpa <;> simp_all [postTile, locReady]
  simp [landRoom, hloc, htile, hfree]

end

section
variable (s : State) (i : Nat) (m : SegIn)

@[simp] theorem mile_segTaken : (SegTaken s i m).mile = s.mile := segTaken_keeps (g := State.mile) (fun _ _ _ => rfl) s i m
@[simp] theorem buckets_segTaken : (SegTaken s i m).buckets = s.buckets := segTaken_keeps (g := State.buckets) (fun _ _ _ => rfl) s i m
@[simp] theorem fenced_segTaken : (SegTaken s i m).fenced = s.fenced := segTaken_keeps (g := State.fenced) (fun _ _ _ => rfl) s i m
@[simp] theorem isFatal_segTaken : (SegTaken s i m).isFatal = s.isFatal := segTaken_keeps (g := State.isFatal) (fun _ _ _ => rfl) s i m
@[simp] theorem rgN_segTaken (n : Nat) : rgN (SegTaken s i m) n = rgN s n := segTaken_keeps (g := fun t => rgN t n) (fun _ _ _ => rfl) s i m
@[simp] theorem ownerNext_segTaken (b : Bucket) : ownerNext (SegTaken s i m) b = ownerNext s b :=
  segTaken_keeps (g := fun t => ownerNext t b) (fun _ _ _ => rfl) s i m
@[simp] theorem count_segTaken (b : Bucket) : b.count (SegTaken s i m) = b.count s := segTaken_keeps (g := fun t => b.count t) (fun _ _ _ => rfl) s i m
@[simp] theorem nextPartial_segTaken (b : Bucket) (g : Seg) : b.nextPartial (SegTaken s i m) g = b.nextPartial s g :=
  segTaken_keeps (g := fun t => b.nextPartial t g) (fun _ _ _ => rfl) s i m
@[simp] theorem postTile_segTaken (p : PostSt) : postTile (SegTaken s i m) p = postTile s p :=
  segTaken_keeps (g := fun t => postTile t p) (fun _ _ _ => rfl) s i m
@[simp] theorem tileReady_segTaken (tile : Nat) : tileReady (SegTaken s i m) tile = tileReady s tile :=
  segTaken_keeps (g := fun t => tileReady t tile) (fun _ _ _ => rfl) s i m
@[simp] theorem slotNext_segTaken (n tile : Nat) : slotNext (SegTaken s i m) n tile = slotNext s n tile :=
  segTaken_keeps (g := fun t => slotNext t n tile) (fun _ _ _ => rfl) s i m
@[simp] theorem slotFree_segTaken (n tile k : Nat) : slotFree (SegTaken s i m) n tile k = slotFree s n tile k :=
  segTaken_keeps (g := fun t => slotFree t n tile k) (fun _ _ _ => rfl) s i m

end

theorem landings_voteRefresh (s : State) : landings (voteRefresh s) = landings s :=
  voteRefresh_keeps landings (fun _ _ => rfl) (fun _ _ _ => rfl) (fun _ _ _ => rfl) s

theorem slotNext_of_landings {s t : State} (h : landings t = landings s) (n tile : Nat) : slotNext t n tile = slotNext s n tile :=
  congrArg (fun x : List Bucket × Tbl Nat × List Nat => tget nat0 x.2.1 (64 * n + tile)) h

/-! ### The clauses of O52 on segments -/

section
variable {s : State} {i n : Nat} {m : SegIn} {b : Bucket} {kind : Nat}
  (hdue : SegDue s i kind m n) (hb : s.bucketOf n (segStep m.bytes) (segBucket m.bytes) = some b)
include hdue hb

/-- A segment whose handler holds it in a bucket is held. -/
theorem segTake_holds {f : State → Nat → SegIn → Seg → Option State} {b1 : Bucket}
    (hf : f (SegTaken s i m) n m (segRead m.bytes) = landOr (SegTaken s i m) b1 (segRead m.bytes)) (hgrp : b1.grp = n)
    (hother : b1.post = none ∨ ∀ x, landNext (SegTaken s i m) (b1.arrived (segRead m.bytes)) = some x → x.2.2.2.held ≠ b1.held)
    (hroom : holdRoom s b.grp (segRead m.bytes) = true) :
    segTake s i kind f = holdSeg (SegTaken s i m) b1 (segRead m.bytes) := by
  obtain ⟨hn, -, -⟩ := bucketOf_key hb
  rw [segTake_of_due hdue, hf, landOr_of_other hother (by rw [holdRoom_segTaken, hgrp, ← hn]; exact hroom), Option.getD_some]

end

theorem exec_partial_dropped {s : State} {i n : Nat} {m : SegIn} (hdue : SegDue s i 0 m n) (hrank : (segRead m.bytes).srcRank + 1 ≠ rgRank s n) :
    exec (.partialSegment ⟨i, none⟩) s = .next (voteRefresh (segDrop (SegTaken s i m) m)) := by
  rw [exec_partialSegment, segTake_of_due hdue, onPartial_of_stranger (by simpa using hrank), Option.getD_some]

section
variable {s : State} {i n : Nat} {m : SegIn} {b : Bucket} (hb : s.bucketOf n (segStep m.bytes) (segBucket m.bytes) = some b)
include hb

theorem exec_partial_held (hdue : SegDue s i 0 m n) (halg : rgAlg s n = 0) (hprev : fromPrev s n m (segRead m.bytes) = true) (hphase : b.phase ≠ .missed)
    (hother : b.post = none ∨ (segRead m.bytes).index ≠ b.nextLand) (hroom : holdRoom s b.grp (segRead m.bytes) = true) :
    exec (.partialSegment ⟨i, none⟩) s =
      .next (voteRefresh (holdSeg (SegTaken s i m) (b.reached s.mile (max b.before (segRead m.bytes).missing)) (segRead m.bytes))) := by
  obtain ⟨hn, -, -⟩ := bucketOf_key hb
  have hrank : rgRank s b.grp ≠ 0 := by
    rw [hn, ← (fromPrev_iff.1 hprev).1]
    exact Nat.succ_ne_zero _
  have hchain : isChain s b = true := by simpa [isChain, hn] using halg
  have hf := onPartial_of_prev (s := SegTaken s i m) (g := segRead m.bytes) (by simpa using hb) (by simpa using halg) (by simpa using hprev) hphase
  rw [mile_segTaken] at hf
  rw [exec_partialSegment, segTake_holds hdue hb hf hn _ hroom]
  exact hother.imp id fun hindex x => landNext_other_of_chain (b := b.reached s.mile (max b.before (segRead m.bytes).missing))
    ((isChain_segTaken ..).trans hchain) (by simpa [Bucket.reached] using hrank) hindex

theorem exec_contribution_held (hdue : SegDue s i 1 m n) (halg : rgAlg s n ≠ 0) (howner : isOwner s b = true)
    (hother : b.post = none ∨ ∀ q, ownerNext s b = some q → (segRead m.bytes).srcRank ≠ q % rgN s n ∨ (segRead m.bytes).index ≠ q / rgN s n)
    (hroom : holdRoom s b.grp (segRead m.bytes) = true) :
    exec (.contributionSegment ⟨i, none⟩) s = .next (voteRefresh (holdSeg (SegTaken s i m) (b.reached s.mile b.before) (segRead m.bytes))) := by
  obtain ⟨hn, -, -⟩ := bucketOf_key hb
  have hf := onContribution_of_owner (s := SegTaken s i m) (g := segRead m.bytes) (by simpa using hb) (by simpa using halg) (by simpa using howner)
  rw [mile_segTaken] at hf
  rw [exec_contributionSegment, segTake_holds hdue hb hf hn _ hroom]
  refine hother.imp id fun hturn x => landNext_other_of_owner (b := b.reached s.mile b.before) ((isOwner_segTaken ..).trans howner) fun q hq => ?_
  rw [rgN_segTaken, show (b.reached s.mile b.before).grp = n from hn]
  exact hturn q ((ownerNext_segTaken ..).symm.trans hq)

theorem exec_partial_landed {p : PostSt} {tile : Nat} (hdue : SegDue s i 0 m n) (halg : rgAlg s n = 0) (hprev : fromPrev s n m (segRead m.bytes) = true)
    (hpost : b.post = some p) (hwharf : p.wharfAdd = false) (hself : b.missedSelf = false) (hphase : b.phase = .posted) (hcount : b.nextLand < b.count s)
    (hnext : b.nextPartial s (segRead m.bytes) = true) (hheld : ∀ x ∈ b.held, b.nextPartial s x = false) (htile : postTile s p = some tile)
    (hready : tileReady s tile = true) (hidle : AddersIdle s tile) (hfree : slotFree s n tile (slotNext s n tile) = true) :
    ∃ t b1 l, exec (.partialSegment ⟨i, none⟩) s = .next t ∧ t.bucketOf n b.step b.bucket = some b1 ∧ b1.held = b.held ∧ b1.nextLand = b.nextLand + 1
      ∧ l ∈ b1.landed ∧ l.slot = slotNext s n tile ∧ l.tile = some tile ∧ l.seg = segRead m.bytes ∧ slotNext t n tile = slotNext s n tile + 1 := by
  obtain ⟨hn, hstep, hbucket⟩ := bucketOf_key hb
  subst hn
  have hrank : rgRank s b.grp ≠ 0 := by
    rw [← (fromPrev_iff.1 hprev).1]
    exact Nat.succ_ne_zero _
  let s1 := SegTaken s i m
  let b1 := b.reached s.mile (max b.before (segRead m.bytes).missing)
  have hfree1 : slotFree s1 b1.grp tile (slotNext s1 b1.grp tile) = true := by simpa [s1, b1, Bucket.reached] using hfree
  have htile1 : postTile s1 p = some tile := (postTile_segTaken ..).trans htile
  have hland : onPartial s1 b.grp m (segRead m.bytes) = some (landOne s1 b1 p 0 false (segRead m.bytes) b1.landing) := by
    rw [onPartial_of_prev (by simpa [s1] using hb) (by simpa [s1] using halg) (by simpa [s1] using hprev) (by simp [hphase]), mile_segTaken]
    exact landOr_of_next (b := b1) ((isChain_segTaken ..).trans (decide_eq_true halg)) (by simpa [s1, b1, Bucket.reached] using hrank)
      hpost hself hphase (lt_of_lt_of_eq hcount (count_segTaken s i m b).symm) ((nextPartial_segTaken ..).trans hnext)
      (fun x hx => (nextPartial_segTaken ..).trans (hheld x hx)) (landRoom_of_slot htile1 ((tileReady_segTaken ..).trans hready) hfree1)
  obtain ⟨t, before, hlands, hentry, hslot⟩ := landings_landOne (s := s1) (b := b1) (x := b) (g := segRead m.bytes) ((isFatal_segTaken ..).trans hdue.1) htile1
    hwharf (by simpa [AddersIdle, s1] using hidle) hfree1 (by simpa [s1, b1, Bucket.reached, hstep, hbucket] using hb)
  obtain ⟨c, hc, hcb⟩ := bucketOf_of_landings ((landings_voteRefresh ..).trans hlands) hentry
  have hheld1 : c.unstamped.held = _ := congrArg Bucket.held hcb
  have hnext1 : c.unstamped.nextLand = _ := congrArg Bucket.nextLand hcb
  obtain ⟨l, hl, hlk⟩ := mem_landed_of_unstamped hcb (List.mem_append_right _ List.mem_cons_self)
  have hslot1 : l.unstamped.slot = _ := congrArg Landed.slot hlk
  have htile2 : l.unstamped.tile = _ := congrArg Landed.tile hlk
  have hseg : l.unstamped.seg = _ := congrArg Landed.seg hlk
  refine ⟨_, c, l, ?_, hc, hheld1, hnext1, hl, ?_, htile2, hseg, ?_⟩
  · rw [exec_partialSegment, segTake_of_due hdue, hland, Option.getD_some]
  · exact hslot1.trans (slotNext_segTaken ..)
  · exact (slotNext_of_landings ((landings_voteRefresh ..).trans hlands) ..).trans (hslot.trans (congrArg (· + 1) (slotNext_segTaken ..)))

end

end Sys2Proof.Machine

namespace Sys2Proof.Machine
open Sys2Proof

/-! ### The dispatch of a bucket post (03 R49; 10 R190, R191) -/

/-- A ring whose outstanding descriptors are those given, and ones that are judged. -/
def OutJudged (s : State) (r : Nat) (l : List Dispatched) : Prop := ∃ k, (s.ring r).out = l ++ k ∧ ∀ x ∈ k, ∃ st, x.work = .judged st 0 none

section
variable {s : State} {r : Nat} {l : List Dispatched}

theorem outJudged_ringStart (h : OutJudged s r l) (f : Fetched) (st : Nat) : OutJudged (ringStart s r f (.judged st 0 none)) r l := by
  obtain ⟨k, hout, hk⟩ := h
  refine ⟨k ++ [⟨f.count, f.q, s.mile, .judged st 0 none⟩], ?_, fun x hx => ?_⟩
  · rw [ring_ringStart, hout, List.append_assoc]
  · rcases List.mem_append.1 hx with hx | hx
    · exact hk x hx
    · exact ⟨st, by rw [List.mem_singleton.1 hx]⟩

/-- What is judged behind a descriptor stands behind it. -/
theorem outJudged_ringJudge (n : Nat) {s : State} (h : OutJudged s r l) : OutJudged (ringJudge n s r) r l := by
  induction n generalizing s with
  | zero => exact h
  | succ n ih =>
    unfold ringJudge
    split
    case h_1 f hf =>
      split
      · exact ih (outJudged_ringStart h ..)
      · exact ih (outJudged_ringStart h ..)
      · exact h
    case h_2 => exact h

/-- Of what is judged no post waits to be placed. -/
theorem waitingPosts_of_outJudged {t : State} {d : Dispatched} {c : PostCap} (hd : d.work = .bucketWait c) (h : OutJudged t r ((s.ring r).out ++ [d])) :
    waitingPosts t r = waitingPosts s r ++ [(d, c)] := by
  obtain ⟨k, hout, hk⟩ := h
  unfold waitingPosts
  rw [hout, List.filterMap_append, List.filterMap_append]
  refine (List.append_right_eq_self.2 (List.filterMap_eq_nil_iff.2 fun x hx => ?_)).trans ?_
  · obtain ⟨st, hst⟩ := hk x hx
    rw [hst]
  · rw [List.filterMap_cons, hd]
    rfl

end

section
variable {s : State} {n : Nat}

theorem bucketOf_of_strange (h : ∀ b ∈ s.buckets, b.grp ≠ n) (st k : Nat) : s.bucketOf n st k = none :=
  List.find?_eq_none.2 fun b hb => by simp [h b hb]

theorem stepDiscard_of_strange (h : ∀ b ∈ s.buckets, b.grp ≠ n) (st : Nat) : stepDiscard s n st = s := by
  have hnone : (s.buckets.filter fun b => decide (b.grp = n) && decide (sint 32 (st + 2 ^ 32 - b.step) ≥ 2)) = [] :=
    List.filter_eq_nil_iff.2 fun b hb => by simp [h b hb]
  rw [stepDiscard, hnone]
  rfl

theorem postBody_of_fit {r : Nat} {f : Fetched} (hcheck : postCheck s (s.rd (fRPart r)) f.q = 0)
    (hgrp : groupOf s (s.rd (fRPart r)) (pqGroup f.q) = some n) (hnew : ∀ b ∈ s.buckets, b.grp ≠ n) :
    postBody r s f = (s, .bucketWait (capNow s n f.q)) := by
  simp only [postBody, hcheck, hgrp, stepDiscard_of_strange hnew]

/-- The entry that a post in time makes. -/
def postedBucket (s : State) (c : PostCap) (r count t0 : Nat) (q : List Nat) : Bucket :=
  { freshBucket c.grp (rgPart s c.grp) q with phase := .posted, post := some (newPost c r count t0 q) }

/-- The state with one entry more in the bucket table. -/
def State.bucketMore (s : State) (b : Bucket) : State := { s with buckets := s.buckets ++ [b] }

/-- A post in time for a bucket of no entry makes one. -/
theorem postEnter_of_new {c : PostCap} (hnew : ∀ b ∈ s.buckets, b.grp ≠ c.grp) (hroom : s.buckets.length < 1024) (hlate : c.late = false)
    (r count t0 : Nat) (q : List Nat) : postEnter s c r count t0 q =
      some ((s.bucketMore (freshBucket c.grp (rgPart s c.grp) q)).putBucket (postedBucket s c r count t0 q)) := by
  have hnone := bucketOf_of_strange hnew
  have hb : descBucket s c.grp (rgPart s c.grp) q = freshBucket c.grp (rgPart s c.grp) q := by rw [descBucket, hnone]
  have hadd : addBucket s (freshBucket c.grp (rgPart s c.grp) q) = s.bucketMore (freshBucket c.grp (rgPart s c.grp) q) :=
    if_neg (by rw [show s.bucketOf (freshBucket c.grp (rgPart s c.grp) q).grp _ _ = none from hnone _ _]; decide)
  unfold postEnter
  rw [if_neg (fun h => absurd h.2 (not_le.2 hroom))]
  simp only [hb, hadd]
  exact if_pos ⟨rfl, by rw [hlate]; rfl⟩

theorem buckets_posted {c : PostCap} (hnew : ∀ b ∈ s.buckets, b.grp ≠ c.grp) (r count t0 : Nat) (q : List Nat) :
    ((s.bucketMore (freshBucket c.grp (rgPart s c.grp) q)).putBucket (postedBucket s c r count t0 q)).buckets = s.buckets ++ [postedBucket s c r count t0 q] := by
  have hother : ∀ b ∈ s.buckets, sameKey b (postedBucket s c r count t0 q) = false := fun b hb => by
    have hne : b.grp ≠ (postedBucket s c r count t0 q).grp := hnew b hb
    simp [sameKey, hne]
  rw [putBucket_buckets, State.bucketMore, List.map_append, List.map_congr_left (g := id) fun b hb => by simp [hother b hb], List.map_id]
  simp [sameKey, postedBucket, freshBucket]

end

/-! ### A post in time enters the table (10 R191) -/

section
variable {s : State} {r : Nat}

theorem setWork_buckets (s : State) (r c : Nat) (w : Work) : (setWork s r c w).buckets = s.buckets := rfl

theorem ring_setWork (s : State) (r c : Nat) (w : Work) :
    (setWork s r c w).ring r = { s.ring r with out := (s.ring r).out.map fun d => if d.count = c then { d with work := w } else d } := by
  rw [setWork, State.ring_modRing]

theorem mem_out_setWork {d : Dispatched} (h : d ∈ (s.ring r).out) (w : Work) : { d with work := w } ∈ ((setWork s r d.count w).ring r).out := by
  rw [ring_setWork]
  exact List.mem_map.2 ⟨d, h, if_pos rfl⟩

theorem rings_posted (b x : Bucket) : ((s.bucketMore b).putBucket x).rings = s.rings :=
  holdSync_keeps (g := State.rings) (fun _ _ _ => rfl) (fun _ _ => rfl) ..

/-- A post in time, placed: its bucket is in the table, and its descriptor waits for it. -/
theorem postPlace_of_new {d : Dispatched} {c : PostCap} (hnew : ∀ b ∈ s.buckets, b.grp ≠ c.grp) (hroom : s.buckets.length < 1024) (hlate : c.late = false)
    (hd : d ∈ (s.ring r).out) :
    ∃ part, (postPlace s r (d, c)).buckets =
        s.buckets ++ [{ freshBucket c.grp part d.q with phase := .posted, post := some (newPost c r d.count d.t0 d.q) }]
      ∧ { d with work := .bucket c.grp (pqBucket d.q) (pqStep d.q) } ∈ ((postPlace s r (d, c)).ring r).out := by
  let s1 := setWork s r d.count (.bucket c.grp (pqBucket d.q) (pqStep d.q))
  have henter := postEnter_of_new (s := s1) hnew hroom hlate r d.count d.t0 d.q
  have hplace : postPlace s r (d, c) = _ := (congrArg (Option.getD · _) henter).trans (Option.getD_some ..)
  rw [hplace]
  refine ⟨rgPart s1 c.grp, buckets_posted (s := s1) hnew r d.count d.t0 d.q, ?_⟩
  rw [State.ring, rings_posted]
  exact mem_out_setWork hd _

/-- A bucket post that is due enters the table and waits for its bucket. -/
theorem postRun_of_new {f : Fetched} {n : Nat} (hdue : DueNow s r .bucket f) (hposts : waitingPosts s r = [])
    (hcheck : postCheck s (s.rd (fRPart r)) f.q = 0) (hgrp : groupOf s (s.rd (fRPart r)) (pqGroup f.q) = some n)
    (hnew : ∀ b ∈ s.buckets, b.grp ≠ n) (hroom : s.buckets.length < 1024) (htime : s.mile < dq f.q 5) :
    ∃ part, (postRun s r).buckets = s.buckets ++ [{ freshBucket n part f.q with
          phase := .posted, post := some (newPost (capNow s n f.q) r f.count s.mile f.q) }]
      ∧ ⟨f.count, f.q, s.mile, .bucket n (pqBucket f.q) (pqStep f.q)⟩ ∈ ((postRun s r).ring r).out := by
  let d : Dispatched := ⟨f.count, f.q, s.mile, .bucketWait (capNow s n f.q)⟩
  let s1 := ringJudge 64 (ringStart s r f d.work) r
  have hexec : ringExec s r .bucket (postBody r) = s1 := by rw [ringExec_of_due hdue, postBody_of_fit hcheck hgrp hnew]
  have hout : OutJudged s1 r ((s.ring r).out ++ [d]) :=
    outJudged_ringJudge 64 ⟨[], by rw [ring_ringStart, List.append_nil], fun _ h => absurd h List.not_mem_nil⟩
  have hbuckets : s1.buckets = s.buckets := (ringJudge_keeps (g := State.buckets) (fun _ _ _ => rfl) ..).trans rfl
  have hrun : postRun s r = postPlace s1 r (d, capNow s n f.q) := by
    have hfatal : ¬(s.isFatal = true) := fun h => by
      have hnone := ringNext_of_held (s := s) (r := r) (.inr (.inr (.inl h)))
      exact absurd (hnone.symm.trans hdue.2.1) (Option.some_ne_none f).symm
    have hone : waitingPosts s1 r = [(d, capNow s n f.q)] := by rw [waitingPosts_of_outJudged rfl hout, hposts, List.nil_append]
    unfold postRun
    simp only [hexec, hone, if_neg hfatal, List.foldl_cons, List.foldl_nil]
  have hmem : d ∈ (s1.ring r).out := by
    obtain ⟨k, hk, -⟩ := hout
    rw [hk]
    simp
  rw [hrun, ← hbuckets]
  exact postPlace_of_new (hbuckets ▸ hnew) (hbuckets ▸ hroom) (by simp [capNow, beforeDeadline, htime]) hmem

end

/-! ### O52 -/

/-- A held segment of the pass's next partial would have the arriving one's index. -/
theorem nextPartial_of_lower {s : State} {b : Bucket} {g : Seg} (hindex : g.index = b.nextLand) (hheld : ∀ x ∈ b.held, x.kind = 0 → x.index ≠ g.index) :
    ∀ x ∈ b.held, b.nextPartial s x = false := fun x hx => by
  by_cases hkind : x.kind = 0
  · simp [Bucket.nextPartial, ← hindex, hheld x hx hkind]
  · simp [Bucket.nextPartial, hkind]

/-- Settles O52: a segment is held where what would land next is another, and what has landed is looked at but for the milestones of additions,
which no access through a tile's endpoint changes. -/
theorem bucketsGather : Obligations.BucketsGather := by
  intro s
  refine ⟨fun r f n hdue hposts hcheck hgrp hnew hroom htime _ _ => ?_, fun i n m b c kind hc hdue hb => ?_⟩
  case refine_1 =>
    obtain ⟨part, hbuckets, hout⟩ := postRun_of_new hdue hposts hcheck hgrp hnew hroom htime
    refine ⟨_, _, _, exec_reductionBucketPost hdue.1 s, (voteRefresh_buckets _).trans hbuckets, rfl, rfl, rfl, rfl, rfl, rfl, rfl, rfl, rfl, rfl, rfl, rfl,
      by simp [newPost, capNow, beforeDeadline, htime], ?_⟩
    rw [State.ring, voteRefresh_rings]
    exact hout
  case refine_2 =>
    have hkind : segKind m.bytes = kind := hdue.2.2.1
    intro g held
    refine ⟨fun h0 halg hrank hmodule hpart hphase hother hroom => ?held, fun h1 halg howner hother hroom => ?added,
      fun p tile h0 halg hrank hmodule hpart hpost hwharf hself hphase hcount hindex hpass hagrees hfree htile hready hfenced hstage _ hslot => ?landed,
      fun h0 hrank => ?dropped⟩
    case held =>
      obtain ⟨rfl, -⟩ := hc.resolve_right fun h => absurd (h0.symm.trans h.2) (by decide)
      subst h0
      exact exec_partial_held hb hdue halg (fromPrev_iff.2 ⟨hrank, hmodule, hpart⟩) hphase hother hroom
    case added =>
      obtain ⟨rfl, -⟩ := hc.resolve_left fun h => absurd (h1.symm.trans h.2) (by decide)
      subst h1
      exact exec_contribution_held hb hdue halg howner hother hroom
    case landed =>
      obtain ⟨rfl, -⟩ := hc.resolve_right fun h => absurd (h0.symm.trans h.2) (by decide)
      subst h0
      have hpartial : b.nextPartial s g = true := by simp [Bucket.nextPartial, hindex, hpass, hagrees, show g.kind = 0 from hkind]
      exact exec_partial_landed hb hdue halg (fromPrev_iff.2 ⟨hrank, hmodule, hpart⟩) hpost hwharf hself hphase hcount hpartial
        (nextPartial_of_lower hindex hfree) htile hready ⟨hfenced, hstage⟩ hslot
    case dropped =>
      obtain ⟨rfl, -⟩ := hc.resolve_right fun h => absurd (h0.symm.trans h.2) (by decide)
      subst h0
      exact exec_partial_dropped hdue hrank

end Sys2Proof.Machine

namespace Sys2Proof.Machine
open Sys2Proof

/-! ## O42 to O45: the Tarlar ports (11 R211 to R226)

Most of what a port's command does besides its own effect (error entries, the lasers, the choice of upstream, the votes) leaves the port's
registers and session alone. `portView` is what is left alone; each of those operations keeps it. -/

/-! ### What the optics, the upstream choice and the votes leave alone of a port -/

/-- A port's record without what its optics, the milestone counter, the report it owes and the votes change. -/
def PortSt.session (g : PortSt) : PortSt :=
  { g with startBias := [], range := [], swap := none, xtWait := false, xtBefore := 0, oma := [], avg := [], rxOffset := [], slicers := [], eye := []
           offsets := [], owed := none, darkAsked := false, ctlq := [], tone := false, voted := false }

/-- The registers below those of the optics but for each port's LNK_EVENT, a port's session, and what has been sent. -/
structure PortView where
  regs : Nat → Word64
  session : PortSt
  hailOut : List (Nat × List Byte)
  flitOut : List (Nat × Nat × List Byte)
  wasUp : List Nat

def portView (p : Nat) (s : State) : PortView where
  regs o := if o < 0x410000 ∧ o % 0x1000 ≠ 0x40 then s.reg o else 0#64
  session := (s.port p).session
  hailOut := s.hailOut
  flitOut := s.flitOut
  wasUp := s.power.wasUp

section
variable {p : Nat} {s t : State}

theorem rd_of_portView (h : portView p t = portView p s) {f : Fld} (hf : f.off < 0x410000) (he : f.off % 0x1000 ≠ 0x40) : t.rd f = s.rd f := by
  have hreg := congrFun (congrArg PortView.regs h) f.off
  simp only [portView, hf, he, ne_eq, not_false_eq_true, and_self, if_true] at hreg
  simp only [State.rd, hreg]

theorem session_of_portView (h : portView p t = portView p s) : (t.port p).session = (s.port p).session := congrArg PortView.session h
theorem hailOut_of_portView (h : portView p t = portView p s) : t.hailOut = s.hailOut := congrArg PortView.hailOut h
theorem flitOut_of_portView (h : portView p t = portView p s) : t.flitOut = s.flitOut := congrArg PortView.flitOut h
theorem wasUp_of_portView (h : portView p t = portView p s) : t.power.wasUp = s.power.wasUp := congrArg PortView.wasUp h

theorem portView_setReg {o : Nat} (s : State) (v : Word64) (h : 0x410000 ≤ o ∨ o % 0x1000 = 0x40) : portView p (s.setReg o v) = portView p s := by
  have hregs : (portView p (s.setReg o v)).regs = (portView p s).regs := by
    funext k
    by_cases hk : k = o
    · have : ¬(k < 0x410000 ∧ k % 0x1000 ≠ 0x40) := by omega
      simp only [portView, if_neg this]
    · simp only [portView, State.reg_setReg_ne s v hk]
  exact congrArg (fun r => { portView p s with regs := r }) hregs

theorem portView_wr (s : State) {f : Fld} (v : Nat) (h : 0x410000 ≤ f.off) : portView p (s.wr f v) = portView p s := portView_setReg s _ (.inl h)

theorem portView_wrAll (s : State) {l : List (Fld × Nat)} (h : ∀ x ∈ l, 0x410000 ≤ x.1.off) : portView p (s.wrAll l) = portView p s :=
  wrAll_keeps_of l (fun t x hx => portView_wr t x.2 (h x hx)) s

theorem portView_inc (s : State) {f : Fld} (h : 0x410000 ≤ f.off) : portView p (s.inc f) = portView p s := portView_wr s _ h

theorem portView_entryBystander (p : Nat) : EntryBystander (portView p) where
  setReg s o v h := portView_setReg s v (.inl (by omega))
  msixPend _ _ := rfl
  posted _ _ := rfl
  link _ _ := rfl
  log _ _ _ := rfl
  fatal _ _ _ := rfl

theorem portView_errRaise (s : State) (e : ErrIn) : portView p (errRaise s e) = portView p s := errRaise_entryBystander (portView_entryBystander p) s e

theorem portView_lnkEvent (s : State) (q code group step : Nat) : portView p (lnkEvent s q code group step) = portView p s :=
  portView_setReg s _ (.inr (by unfold aLnk; omega))

theorem portView_portEvent (s : State) (q code group step : Nat) : portView p (portEvent s q code group step) = portView p s :=
  (portView_errRaise ..).trans (portView_lnkEvent ..)

theorem le_aOpt (q o : Nat) : 0x410000 ≤ aOpt q o := by unfold aOpt; omega

theorem portView_optEvent (s : State) (q code lane pos : Nat) : portView p (optEvent s q code lane pos) = portView p s :=
  (portView_errRaise ..).trans (portView_setReg _ _ (.inl (le_aOpt ..)))

theorem portView_mileEvent (s : State) (code : Nat) : portView p (mileEvent s code) = portView p s :=
  (portView_errRaise ..).trans (portView_wr _ _ (by simp [fMileEvent]))

/-- A change of a port's record that its session does not show. -/
theorem portView_modPort (s : State) (q : Nat) {f : PortSt → PortSt} (h : ∀ g, (f g).session = g.session) : portView p (s.modPort q f) = portView p s := by
  have hport : ((s.modPort q f).port p).session = (s.port p).session := by
    by_cases hp : p = q
    · subst hp; rw [State.modPort, State.port_putPort, h]
    · rw [State.modPort, State.port_putPort_ne _ _ hp]
  exact congrArg (fun r => { portView p s with session := r }) hport

theorem portView_putPort (s : State) (q : Nat) {g : PortSt} (h : g.session = (s.port q).session) : portView p (s.putPort q g) = portView p s := by
  have hport : ((s.putPort q g).port p).session = (s.port p).session := by
    by_cases hp : p = q
    · subst hp; rw [State.port_putPort, h]
    · rw [State.port_putPort_ne _ _ hp]
  exact congrArg (fun r => { portView p s with session := r }) hport

theorem portView_ite {c : Prop} [Decidable c] {a b : State} {v : PortView} (ha : portView p a = v) (hb : portView p b = v) :
    portView p (if c then a else b) = v := by
  split
  · exact ha
  · exact hb

theorem portView_chooseUpstream (s : State) : portView p (chooseUpstream s) = portView p s := by
  unfold chooseUpstream
  dsimp only
  generalize Option.filter _ (bestPort s) = best
  cases best with
  | some q =>
    have hshown : ∀ (t : State) (m h n u : Nat), portView p (t.wrAll [(fRefModule, m), (fHops, h), (fUpstream, n), (fMileState, u)]) = portView p t :=
      fun t _ _ _ _ => portView_wrAll t (by simp [fRefModule, fHops, fUpstream, fMileState])
    refine portView_ite (Eq.trans (portView_wrAll _ ?_) (hshown ..)) (hshown ..)
    simp [fYielded, fMileEvent]
  | none =>
    refine portView_ite (Eq.trans (portView_wrAll _ ?_) rfl) (portView_ite (Eq.trans (portView_mileEvent ..) (Eq.trans (portView_wrAll _ ?_) rfl)) rfl)
    · simp [fRefModule, fHops, fMileState, fYielded]
    · simp [fRefModule, fMileState]

theorem portView_portVote (s : State) (low : Bool) (q : Nat) : portView p (portVote s low q) = portView p s :=
  portView_ite (portView_modPort _ _ fun _ => rfl)
    (portView_ite (portView_modPort _ _ fun _ => rfl) (portView_ite (portView_modPort _ _ fun _ => rfl) rfl))

theorem portView_voteRefresh (s : State) : portView p (voteRefresh s) = portView p s := by
  have hdom : ∀ d, portView p { s with power := { s.power with dom := d } } = portView p s := fun _ => rfl
  unfold voteRefresh
  split
  · rfl
  · refine (portView_wrAll _ ?_).trans ((foldl_keeps (fun t q => portView_portVote t _ q) _ _).trans (hdom _))
    simp [fVotes, fPwrState]

/-! ### The optics -/

theorem portView_laserOn (s : State) (q j : Nat) : portView p (laserOn s q j) = portView p s :=
  portView_ite rfl (portView_wr _ _ (le_aOpt ..))

theorem portView_laserOff (s : State) (q j : Nat) : portView p (laserOff s q j) = portView p s :=
  (portView_wr _ _ (le_aOpt ..)).trans (portView_ite rfl (portView_modPort _ _ fun _ => rfl))

theorem portView_portLight (s : State) (q : Nat) (on : Bool) : portView p (portLight s q on) = portView p s :=
  (foldl_keeps (fun t l => portView_wrAll t (by simp [fTxLane, fRxLane, le_aOpt])) _ _).trans
    (foldl_keeps (fun t j => portView_ite (portView_ite (portView_laserOn ..) (portView_laserOff ..)) rfl) _ _)

theorem portView_xtStart (s : State) (q : Nat) : portView p (xtStart s q) = portView p s :=
  portView_ite rfl (portView_ite (portView_putPort _ _ rfl) ((portView_wr _ _ (le_aOpt ..)).trans (portView_putPort _ _ rfl)))

theorem portView_xtResume (s : State) (q : Nat) : portView p (xtResume s q) = portView p s := portView_ite (portView_xtStart ..) rfl

theorem portView_withdraw (s : State) (q : Nat) : portView p (withdraw s q) = portView p s :=
  foldl_keeps (fun t n => portView_ite (portView_setReg t _ (.inl (by unfold aRouteEx; omega))) rfl) _ _

end

/-! ### Fields of LNK_STATUS written together (11 R227) -/

/-- Of fields written together that share no bit, each reads as what was written to it. -/
theorem rd_wrAll_mem {f : Fld} {v : Nat} (hl : f.lo ≤ f.hi) (hh : f.hi < 64) : (l : List (Fld × Nat)) →
    l.Pairwise (fun x y => y.1.apart x.1 = true) → (f, v) ∈ l → (s : State) → (s.wrAll l).rd f = v % 2 ^ (f.hi + 1 - f.lo)
  | x :: l, hp, hm, s => by
    obtain ⟨hx, hp⟩ := List.pairwise_cons.1 hp
    rcases List.mem_cons.1 hm with rfl | hm
    · exact (rd_wrAll_apart l hx _).trans (State.rd_wr_self s f v hl hh)
    · exact rd_wrAll_mem hl hh l hp hm _

section
variable {p : Nat}

/-- The fields of LNK_STATUS that a port shows when it leaves Up share no bit. -/
theorem rd_portShow (s : State) (st step : Nat) : (portShow s p st step).rd (fPortState p) = st % 16 ∧ (portShow s p st step).rd (fHailStep p) = step % 16
    ∧ (portShow s p st step).rd (fTxGroups p) = 0 ∧ (portShow s p st step).rd (fRxGroups p) = 0 := by
  have hrd : ∀ {f : Fld} {v : Nat}, f.lo ≤ f.hi → f.hi < 64 → (f, v) ∈ [(fPortState p, st), (fHailStep p, step), (fBackoffS p, 0), (fTxGroups p, 0),
      (fRxGroups p, 0), (fRekeyPend p, 0), (fSwitchPend p, 0)] → (portShow s p st step).rd f = v % 2 ^ (f.hi + 1 - f.lo) := fun hl hh hm =>
    rd_wrAll_mem hl hh _ (by simp [Fld.apart, fPortState, fHailStep, fBackoffS, fTxGroups, fRxGroups, fRekeyPend, fSwitchPend]) hm s
  refine ⟨hrd (v := st) ?_ ?_ ?_, hrd (v := step) ?_ ?_ ?_, hrd (v := 0) ?_ ?_ ?_, hrd (v := 0) ?_ ?_ ?_⟩
  all_goals simp [fPortState, fHailStep, fTxGroups, fRxGroups]

theorem portShow_port (s : State) (st step : Nat) : (portShow s p st step).port p = s.port p :=
  State.wrAll_keeps (fun t => t.port p) (fun _ _ _ => rfl) _ s

end

/-! ### A port whose session is gone (11 R222, R223) -/

section
variable {p : Nat} {s t : State}

/-- A register of a port's own block, LNK_EVENT apart. -/
theorem rd_lnk_of_portView (hp : p < 16) (h : portView p t = portView p s) {o hi lo : Nat} (ho : o < 0x1000 ∧ o ≠ 0x40) :
    t.rd ⟨aLnk p o, hi, lo⟩ = s.rd ⟨aLnk p o, hi, lo⟩ := by
  obtain ⟨ho, hne⟩ := ho
  refine rd_of_portView h ?_ ?_
  · unfold aLnk; dsimp only; omega
  · unfold aLnk; dsimp only; omega

/-- Nothing of a session is left in a port's record (11 R222). -/
def PortSt.Gone (g : PortSt) : Prop := g.outq = [] ∧ g.inbox = [] ∧ g.replayBuf = [] ∧ g.rekey = .none

theorem gone_sessionClear (g : PortSt) : (sessionClear g).Gone := ⟨rfl, rfl, rfl, rfl⟩
theorem gone_of_session {g h : PortSt} (e : g.session = h.session) (hg : h.Gone) : g.Gone := by
  obtain ⟨hout, hin, hbuf, hkey⟩ := hg
  exact ⟨(congrArg PortSt.outq e).trans hout, (congrArg PortSt.inbox e).trans hin, (congrArg PortSt.replayBuf e).trans hbuf,
    (congrArg PortSt.rekey e).trans hkey⟩

/-- A port that shows a state and step with its session gone. -/
theorem portDropped_of_shown (hp : p < 16) {u : State} {st step : Nat} (hst : st < 16) (hstep : step < 16) (hgone : (u.port p).Gone)
    (h : portView p t = portView p (portShow u p st step)) : PortDropped t p st ∧ t.rd (fHailStep p) = step := by
  obtain ⟨hstate, hhail, htx, hrx⟩ := rd_portShow (p := p) u st step
  obtain ⟨hout, hin, hbuf, hkey⟩ := gone_of_session ((session_of_portView h).trans (congrArg PortSt.session (portShow_port u st step))) hgone
  have hrd : ∀ {hi lo}, t.rd ⟨aLnk p 0x10, hi, lo⟩ = (portShow u p st step).rd ⟨aLnk p 0x10, hi, lo⟩ := rd_lnk_of_portView hp h (by decide)
  exact ⟨⟨hrd.trans (hstate.trans (Nat.mod_eq_of_lt hst)), hrd.trans htx, hrd.trans hrx, hout, hin, hbuf, hkey⟩,
    hrd.trans (hhail.trans (Nat.mod_eq_of_lt hstep))⟩

end

end Sys2Proof.Machine

namespace Sys2Proof.Machine
open Sys2Proof

section
variable {p : Nat} {s t : State}

theorem port_portDiscard (s : State) : (portDiscard s p).port p = sessionClear (s.port p) := State.port_putPort ..

/-- A live port that goes down shows the state it goes to, with nothing left of its session. -/
theorem portDropped_portDown (hp : p < 16) (hlive : portLive s p = true) {code group : Nat} {off : Bool}
    (h : portView p t = portView p (portDown s p code group off)) :
    PortDropped t p (if off then 0 else 2) ∧ (off = false → t.rd (fHailStep p) = 1) := by
  simp only [portDown, hlive, Bool.not_true, Bool.false_eq_true, if_false, portView_chooseUpstream, portView_portLight] at h
  generalize swapPortDown _ p = s2 at h
  have hgone : ∀ e, ((errRaise (lnkEvent (withdraw (portDiscard s2 p) p) p code group 0) e).port p).Gone := fun e =>
    gone_of_session (session_of_portView ((portView_errRaise ..).trans ((portView_lnkEvent ..).trans (portView_withdraw ..))))
      (by rw [port_portDiscard]; exact gone_sessionClear _)
  have hstep : ∀ u : State, (if off then u.rd (fHailStep p) else 1) < 16 := fun u => by
    split
    · exact u.rd_lt (fHailStep p)
    · decide
  obtain ⟨hdropped, hhail⟩ := portDropped_of_shown hp (by cases off <;> decide) (hstep _) (hgone _) h
  exact ⟨hdropped, fun hoff => hhail.trans (by rw [hoff]; rfl)⟩

/-- A port that begins hail is at its first step, without a backoff (11 R223). -/
theorem hailBegin_shown (hp : p < 16) (hf : s.isFatal = false) (h : portView p t = portView p (hailBegin s p)) :
    t.rd (fPortState p) = 2 ∧ t.rd (fHailStep p) = 1 ∧ (t.port p).backoff = false := by
  simp only [hailBegin, hf, Bool.false_eq_true, if_false, portView_portLight] at h
  obtain ⟨hstate, hhail, -, -⟩ := rd_portShow (p := p) s 2 1
  have hback := congrArg PortSt.backoff (session_of_portView h)
  rw [State.modPort, State.port_putPort] at hback
  have hrd : ∀ {hi lo}, t.rd ⟨aLnk p 0x10, hi, lo⟩ = (portShow s p 2 1).rd ⟨aLnk p 0x10, hi, lo⟩ := (rd_lnk_of_portView hp h (by decide)).trans (State.rd_putPort ..)
  exact ⟨hrd.trans hstate, hrd.trans hhail, hback⟩

end

end Sys2Proof.Machine

namespace Sys2Proof.Machine
open Sys2Proof

/-- A field that a session shows is the same in the records of one session. -/
theorem session_field {α : Type} {g h : PortSt} (e : g.session = h.session) (f : PortSt → α) (hf : ∀ g, f g.session = f g) : f g = f h := by
  rw [← hf g, e, hf]

/-! ### Delivered management messages (11 R217) -/

section
variable {s : State} {p kind : Nat}

theorem takeCtl_of_mem (h : kind ∈ (s.port p).ctlIn) (hf : s.isFatal = false) : takeCtl s p kind = some (Took s p kind) :=
  if_pos ⟨List.contains_iff_mem.2 h, by simp [hf]⟩

theorem takeCtl_of_not (h : kind ∉ (s.port p).ctlIn ∨ s.isFatal = true) : takeCtl s p kind = none := by
  refine if_neg fun ⟨hmem, hf⟩ => ?_
  rcases h with h | h
  · exact h (List.contains_iff_mem.1 hmem)
  · simp [h] at hf

theorem port_took (s : State) (p kind : Nat) :
    (Took s p kind).port p = { s.port p with ctlIn := dropFirst (fun k => decide (k = kind)) (s.port p).ctlIn } := State.port_putPort ..

theorem rd_took (s : State) (p kind : Nat) (f : Fld) : (Took s p kind).rd f = s.rd f := rfl
theorem flag_took (s : State) (p kind : Nat) (f : Fld) : (Took s p kind).flag f = s.flag f := rfl

end

/-! ## O44: the rekey agreement of a port (11 R219) -/

section
variable {s t : State} {p : Nat}

/-- An agreed rekey whose frames are still ahead switches nothing. -/
theorem rekeySwitch_of_ahead {tx rx : List (LinkKey × Nat)} (h : (s.port p).rekey = .agreed tx rx) (hne : tx ≠ [])
    (htx : ∀ k f r, tx = (k, f) :: r → (s.port p).txHeads ≠ [] ∨ s.rd (fTxFrames p) < f)
    (hrx : ∀ k f r, rx = (k, f) :: r → (s.port p).rxFlits ≠ [] ∨ (s.port p).rxFrame < f) : rekeySwitch s p = s := by
  have hkeep : ∀ {l : List (List Byte)} {n f : Nat}, l ≠ [] ∨ n < f → ¬(l.isEmpty = true ∧ n ≥ f) := fun hahead ⟨hempty, hle⟩ =>
    hahead.elim (fun hl => hl (List.isEmpty_iff.1 hempty)) (by omega)
  have hopen : (s.port p).rekey ≠ .agreed [] [] := by
    rw [h]; exact fun e => hne (RekeySt.agreed.inj e).1
  obtain ⟨⟨k, f⟩, r, rfl⟩ := List.exists_cons_of_ne_nil hne
  cases rx with
  | nil => simp only [rekeySwitch, h, if_neg (hkeep (htx k f r rfl))]; exact if_neg (h ▸ hopen)
  | cons x rx =>
    simp only [rekeySwitch, h, if_neg (hkeep (htx k f r rfl)), if_neg (hkeep (hrx x.1 x.2 rx rfl))]
    exact if_neg (h ▸ hopen)

/-- A port with a new shared secret, and where its rekey then stands. -/
def withSecret (s : State) (p : Nat) (secret : List Byte) (next : RekeySt) : State :=
  ((s.putPort p { s.port p with secret := secret, rekey := next }).inc (fKeyGen p)).wr (fRekeyPend p) 1

theorem port_withSecret (s : State) (p : Nat) (secret : List Byte) (next : RekeySt) :
    (withSecret s p secret next).port p = { s.port p with secret := secret, rekey := next } := State.port_putPort ..

theorem rd_txFrames_withSecret (s : State) (p : Nat) (secret : List Byte) (next : RekeySt) :
    (withSecret s p secret next).rd (fTxFrames p) = s.rd (fTxFrames p) := by
  rw [withSecret, rd_wr_apart _ _ (by simp [Fld.apart, fRekeyPend, fTxFrames, aLnk]), State.inc, rd_wr_apart _ _ (by simp [Fld.apart, fKeyGen, fTxFrames])]
  rfl

/-- What a port shows of a new secret. -/
theorem withSecret_shown (hp : p < 16) {secret : List Byte} {next : RekeySt} (h : portView p t = portView p (withSecret s p secret next)) :
    (t.port p).rekey = next ∧ (t.port p).secret = secret ∧ t.rd (fRekeyPend p) = 1 := by
  have hsession := (session_of_portView h).trans (congrArg PortSt.session (port_withSecret ..))
  exact ⟨congrArg PortSt.rekey hsession, congrArg PortSt.secret hsession,
    (rd_lnk_of_portView hp h (by decide)).trans (State.rd_wr_self _ (fRekeyPend p) _ (by simp [fRekeyPend]) (by simp [fRekeyPend]))⟩

/-- The frame of a rekey is still ahead of both directions. -/
def FrameAhead (s : State) (p frame : Nat) : Prop :=
  ((s.port p).txHeads ≠ [] ∨ s.rd (fTxFrames p) < frame) ∧ ((s.port p).rxFlits ≠ [] ∨ (s.port p).rxFrame < frame)

/-- A rekey agreed while none waits for its frame. -/
theorem rekeyAgree_first (hnone : ∀ tx rx, (s.port p).rekey ≠ .agreed tx rx) {frame : Nat} (hahead : FrameAhead s p frame) (priv his : List Byte) :
    ∃ a b, rekeyAgree s p priv his frame = withSecret s p (Config.ecdh priv his) (.agreed [(a, frame)] [(b, frame)]) := by
  obtain ⟨htx, hrx⟩ := hahead
  let k := deriveKeys (lowerEnd (s.port p)) (Config.ecdh priv his) (s.port p).secret
  refine ⟨k.1, k.2, ?_⟩
  have hagreed : rekeyAgree s p priv his frame
      = rekeySwitch (withSecret s p (Config.ecdh priv his) (.agreed [(k.1, frame)] [(k.2, frame)])) p := by
    unfold rekeyAgree
    dsimp only
    split
    case h_1 tx rx h => exact absurd h (hnone tx rx)
    case h_2 => rfl
  rw [hagreed]
  refine rekeySwitch_of_ahead (tx := [(k.1, frame)]) (rx := [(k.2, frame)]) (by rw [port_withSecret]) (by simp) ?_ ?_
  · rintro _ _ _ ⟨⟩
    rwa [port_withSecret, rd_txFrames_withSecret]
  · rintro _ _ _ ⟨⟩
    rwa [port_withSecret]

/-- A rekey agreed while another waits for its frame follows it. -/
theorem rekeyAgree_next {tx rx : List (LinkKey × Nat)} (h : (s.port p).rekey = .agreed tx rx) {frame : Nat} (hahead : FrameAhead s p frame)
    (htx : ∀ k f r, tx = (k, f) :: r → (s.port p).txHeads ≠ [] ∨ s.rd (fTxFrames p) < f)
    (hrx : ∀ k f r, rx = (k, f) :: r → (s.port p).rxFlits ≠ [] ∨ (s.port p).rxFrame < f) (priv his : List Byte) :
    ∃ a b, rekeyAgree s p priv his frame = withSecret s p (Config.ecdh priv his) (.agreed (tx ++ [(a, frame)]) (rx ++ [(b, frame)])) := by
  obtain ⟨htxNew, hrxNew⟩ := hahead
  let k := deriveKeys (lowerEnd (s.port p)) (Config.ecdh priv his) (s.port p).secret
  refine ⟨k.1, k.2, ?_⟩
  have hagreed : rekeyAgree s p priv his frame
      = rekeySwitch (withSecret s p (Config.ecdh priv his) (.agreed (tx ++ [(k.1, frame)]) (rx ++ [(k.2, frame)]))) p := by
    unfold rekeyAgree
    dsimp only
    rw [h]
    rfl
  have hhead : ∀ {l : List (LinkKey × Nat)} {x : LinkKey} {P : Nat → Prop}, (∀ k f r, l = (k, f) :: r → P f) → P frame →
      ∀ k f r, l ++ [(x, frame)] = (k, f) :: r → P f := by
    intro l x P hl hnew k f r e
    cases l with
    | nil => cases e; exact hnew
    | cons y l => cases e; exact hl _ _ _ rfl
  rw [hagreed]
  refine rekeySwitch_of_ahead (by rw [port_withSecret]) (by simp) (hhead ?_ ?_) (hhead ?_ ?_)
  all_goals rw [port_withSecret]
  · rwa [rd_txFrames_withSecret]
  · rwa [rd_txFrames_withSecret]
  · exact hrx
  · exact hrxNew

/-- The secret half of the key pair that the module draws next. -/
def nextKey (s : State) : List Byte := (List.range 48).map (Config.freeByte s.free)
/-- The offer has been taken from the messages delivered, and a fresh key drawn. -/
def offerTaken (s : State) (p : Nat) : State := { Took s p 0x10 with free := s.free + 1 }
/-- The acceptance of an offer is queued. -/
def accepting (s : State) (p : Nat) (priv : List Byte) : State :=
  s.modPort p fun g => { g with ctlq := g.ctlq ++ [.accept (Config.publicKey priv)] }

theorem portView_accepting (s : State) (p : Nat) (priv : List Byte) : portView p (accepting s p priv) = portView p s := by
  refine portView_modPort _ _ ?_
  exact fun _ => rfl

theorem port_offerTaken (s : State) (p : Nat) : (offerTaken s p).port p = (Took s p 0x10).port p := rfl

theorem frameAhead_took {frame : Nat} (h : FrameAhead s p frame) (kind : Nat) : FrameAhead (Took s p kind) p frame := by
  rw [FrameAhead, port_took]
  exact h

/-- A port accepts offers: its setting says so, and no line is pending (11 R219). -/
def AcceptsOffers (s : State) (p : Nat) : Prop := s.flag (fRekeyAccept p) = true ∧ (s.port p).txLine = none ∧ (s.port p).rxLine = none

section
variable (hm : 0x10 ∈ (s.port p).ctlIn) (hf : s.isFatal = false)
include hm hf

theorem rekeyOffered_of_declined (ha : s.flag (fRekeyAccept p) = false) (key : List Byte) (frame : Nat) :
    rekeyOffered s p key frame = (Took s p 0x10).modPort p fun g => { g with ctlq := g.ctlq ++ [.decline] } := by
  simp only [rekeyOffered, takeCtl_of_mem hm hf, flag_took, ha, Bool.false_eq_true, false_and, if_false]
  rfl

/-- An offer that no offer of this end's crosses, or that crosses one as the lower end's, is agreed at once. -/
theorem rekeyOffered_of_agreed (ha : AcceptsOffers s p)
    (hgo : (s.port p).rekey = .none ∨ (∃ tx rx, (s.port p).rekey = .agreed tx rx) ∨ ((∃ priv f, (s.port p).rekey = .offered priv f) ∧ lowerEnd (s.port p) = false))
    (key : List Byte) (frame : Nat) :
    rekeyOffered s p key frame = accepting (rekeyAgree (offerTaken s p) p (nextKey s) key frame) p (nextKey s) := by
  obtain ⟨hflag, htx, hrx⟩ := ha
  have hlow : lowerEnd ((Took s p 0x10).port p) = lowerEnd (s.port p) := by rw [port_took]; rfl
  have hrekey : ((Took s p 0x10).port p).rekey = (s.port p).rekey := by rw [port_took]
  simp only [rekeyOffered, takeCtl_of_mem hm hf, flag_took, hflag, hlow, hrekey]
  rw [if_pos (by simp [port_took, htx, hrx])]
  rcases hgo with h | ⟨tx, rx, h⟩ | ⟨⟨priv, f, h⟩, hend⟩
  · rw [h]; rfl
  · rw [h]; rfl
  · rw [h]; simp only [hend]; rfl

/-- The lower end keeps its own offer, and accepts the other one too in case its own is declined. -/
theorem rekeyOffered_of_crossed (ha : AcceptsOffers s p) {priv : List Byte} {f : Nat} (h : (s.port p).rekey = .offered priv f)
    (hend : lowerEnd (s.port p) = true) (key : List Byte) (frame : Nat) :
    rekeyOffered s p key frame = accepting ((offerTaken s p).putPort p { (Took s p 0x10).port p with rekey := .crossed priv f (nextKey s) key frame }) p (nextKey s) := by
  obtain ⟨hflag, htx, hrx⟩ := ha
  have hlow : lowerEnd ((Took s p 0x10).port p) = lowerEnd (s.port p) := by rw [port_took]; rfl
  have hrekey : ((Took s p 0x10).port p).rekey = (s.port p).rekey := by rw [port_took]
  simp only [rekeyOffered, takeCtl_of_mem hm hf, flag_took, hflag, hlow, hrekey]
  rw [if_pos (by simp [port_took, htx, hrx]), h]
  simp only [hend]
  rfl

end

/-- The commands of the rekey agreement, each on a port of the module. -/
theorem exec_rekey (hp : p < 16) (s : State) (key : List Byte) (frame : Nat) :
    exec (.rekeyOffer p key frame) s = .next (voteRefresh (rekeyOffered s p key frame))
    ∧ exec (.rekeyAccept p key) s = .next (voteRefresh (rekeyAccepted s p key))
    ∧ exec (.rekeyDecline p) s = .next (voteRefresh (rekeyDeclined s p))
    ∧ exec (.rekeyPeriodExpiry p) s = .next (voteRefresh (rekeyDue s p))
    ∧ exec (.rekeyOfferRepeat p) s = .next (voteRefresh (rekeyAgain s p)) :=
  have hwf : okPort p = true := decide_eq_true hp
  ⟨run_of_wf (c := .rekeyOffer p key frame) hwf, run_of_wf (c := .rekeyAccept p key) hwf, run_of_wf (c := .rekeyDecline p) hwf,
    run_of_wf (c := .rekeyPeriodExpiry p) hwf, run_of_wf (c := .rekeyOfferRepeat p) hwf⟩

/-- An outcome that leaves a first rekey agreed, as the statement of O44 names it. -/
theorem agreed_of_first (hp : p < 16) {u w : State} (hnone : ∀ tx rx, (w.port p).rekey ≠ .agreed tx rx) {frame : Nat} (hahead : FrameAhead w p frame)
    {priv his : List Byte} (hu : portView p u = portView p (rekeyAgree w p priv his frame)) :
    ∃ a b, ((voteRefresh u).port p).rekey = .agreed [(a, frame)] [(b, frame)] ∧ ((voteRefresh u).port p).secret = Config.ecdh priv his
      ∧ (voteRefresh u).rd (fRekeyPend p) = 1 := by
  obtain ⟨a, b, he⟩ := rekeyAgree_first hnone hahead priv his
  exact ⟨a, b, withSecret_shown hp ((portView_voteRefresh u).trans (hu.trans (congrArg (portView p) he)))⟩

/-- An offer is made of a port that has no rekey under way. -/
theorem rekeyOffer_of_up (hup : portUp s p = true) (h : (s.port p).rekey = .none) : rekeyOffer s p =
    { s with free := s.free + 1 }.putPort p { s.port p with
      rekey := .offered (nextKey s) (s.rd (fTxFrames p) + 1024 + Config.freeNat s.free)
      declined := false
      ctlq := (s.port p).ctlq ++ [CtlMsg.offer (Config.publicKey (nextKey s)) (s.rd (fTxFrames p) + 1024 + Config.freeNat s.free)] } := by
  simp only [rekeyOffer, h, hup]
  rfl

@[simp] theorem voteRefresh_free (s : State) : (voteRefresh s).free = s.free :=
  voteRefresh_keeps State.free (fun _ _ => rfl) (fun _ _ _ => rfl) (fun _ _ _ => rfl) s

theorem rekeyOffer_shown (hup : portUp s p = true) (h : (s.port p).rekey = .none) :
    (voteRefresh (rekeyOffer s p)).free = s.free + 1 ∧ ((voteRefresh (rekeyOffer s p)).port p).declined = false
      ∧ ((voteRefresh (rekeyOffer s p)).port p).rekey = .offered (nextKey s) (s.rd (fTxFrames p) + 1024 + Config.freeNat s.free) := by
  have hsession := session_of_portView (portView_voteRefresh (p := p) (rekeyOffer s p))
  rw [rekeyOffer_of_up hup h, State.port_putPort] at hsession
  exact ⟨by rw [voteRefresh_free, rekeyOffer_of_up hup h]; rfl, by rw [rekeyOffer_of_up hup h]; exact congrArg PortSt.declined hsession,
    by rw [rekeyOffer_of_up hup h]; exact congrArg PortSt.rekey hsession⟩

end

/-- Settles O44: each message is taken and judged by where the rekey stands; an agreed rekey's frame is still ahead, so that nothing switches yet. -/
theorem rekeyIsAgreed : Obligations.RekeyIsAgreed := by
  intro s p key frame hp hf
  obtain ⟨hoffer, haccept, hdecline, hperiod, hrepeat⟩ := exec_rekey hp s key frame
  dsimp only
  rw [hoffer, haccept, hdecline, hperiod, hrepeat]
  refine ⟨fun hm => ⟨fun hflag htx hrx hahead => ?offered, fun hflag => by rw [rekeyOffered_of_declined hm hf hflag]⟩, fun priv f hm hahead h => ?accepted,
    fun priv f hm h => ?declined, fun x y priv f hm hahead h => ?crossDeclined, ⟨fun hup h => ⟨fun hdue => ?period, fun hdeclined => ?again⟩, fun hnever => ?never⟩⟩
  case offered =>
    have ha : AcceptsOffers s p := ⟨hflag, htx, hrx⟩
    have hrekey : ((offerTaken s p).port p).rekey = (s.port p).rekey := by rw [port_offerTaken, port_took]
    have hahead' : FrameAhead (offerTaken s p) p frame := frameAhead_took hahead 0x10
    have hfirst : ∀ u, (∀ tx rx, (s.port p).rekey ≠ .agreed tx rx) → u = accepting (rekeyAgree (offerTaken s p) p (nextKey s) key frame) p (nextKey s) → _ :=
      fun u hnone hu => agreed_of_first hp (w := offerTaken s p) (u := u) (by rwa [hrekey]) hahead' (by rw [hu, portView_accepting])
    refine ⟨fun h => ?_, fun priv f h hend => ?_, fun priv f h hend => ?_, fun tx rx h htxAhead hrxAhead => ?_⟩
    · obtain ⟨a, b, hab⟩ := hfirst _ (by simp [h]) (rekeyOffered_of_agreed hm hf ha (.inl h) key frame)
      exact ⟨_, a, b, rfl, hab⟩
    · obtain ⟨a, b, hab⟩ := hfirst _ (by simp [h]) (rekeyOffered_of_agreed hm hf ha (.inr (.inr ⟨⟨priv, f, h⟩, hend⟩)) key frame)
      exact ⟨_, a, b, rfl, hab⟩
    · have hsession := session_of_portView ((portView_voteRefresh (p := p) (rekeyOffered s p key frame)).trans
        ((congrArg (portView p) (rekeyOffered_of_crossed hm hf ha h hend key frame)).trans (portView_accepting ..)))
      rw [State.port_putPort, port_took] at hsession
      exact ⟨_, rfl, congrArg PortSt.rekey hsession, session_field hsession PortSt.secret fun _ => rfl⟩
    · obtain ⟨a, b, he⟩ := rekeyAgree_next (s := offerTaken s p) (hrekey.trans h) hahead'
        (by rw [port_offerTaken, port_took]; exact htxAhead) (by rw [port_offerTaken, port_took]; exact hrxAhead) (nextKey s) key
      have hview := (portView_voteRefresh (p := p) (rekeyOffered s p key frame)).trans
        ((congrArg (portView p) (rekeyOffered_of_agreed hm hf ha (.inr (.inl ⟨tx, rx, h⟩)) key frame)).trans
          ((portView_accepting ..).trans (congrArg (portView p) he)))
      obtain ⟨hnext, hsecret, -⟩ := withSecret_shown hp hview
      exact ⟨_, a, b, rfl, hnext, hsecret⟩
  case accepted =>
    have hrekey : ((Took s p 0x11).port p).rekey = (s.port p).rekey := by rw [port_took]
    have he : rekeyAccepted s p key = rekeyAgree (Took s p 0x11) p priv key f := by
      simp only [rekeyAccepted, takeCtl_of_mem hm hf, hrekey]
      rcases h with h | ⟨x, y, z, h⟩ <;> rw [h]
    have hnone : ∀ tx rx, ((Took s p 0x11).port p).rekey ≠ .agreed tx rx := by
      rw [hrekey]
      rcases h with h | ⟨x, y, z, h⟩ <;> simp [h]
    obtain ⟨a, b, hab⟩ := agreed_of_first hp hnone (frameAhead_took hahead 0x11) (congrArg (portView p) he)
    exact ⟨_, a, b, rfl, hab⟩
  case declined =>
    have he : rekeyDeclined s p = (Took s p 0x12).modPort p fun g => { g with rekey := .none, declined := true } := by
      simp only [rekeyDeclined, takeCtl_of_mem hm hf, port_took, h]
    have hsession := session_of_portView ((portView_voteRefresh (p := p) (rekeyDeclined s p)).trans (congrArg (portView p) he))
    rw [State.modPort, State.port_putPort] at hsession
    exact ⟨_, rfl, congrArg PortSt.rekey hsession, congrArg PortSt.declined hsession⟩
  case crossDeclined =>
    have hrekey : ((Took s p 0x12).port p).rekey = .crossed x y priv key f := by rw [port_took, h]
    have he : rekeyDeclined s p = rekeyAgree (Took s p 0x12) p priv key f := by
      simp only [rekeyDeclined, takeCtl_of_mem hm hf, hrekey]
    obtain ⟨a, b, hab⟩ := agreed_of_first hp (by simp [hrekey]) (frameAhead_took hahead 0x12) (congrArg (portView p) he)
    exact ⟨_, a, b, rfl, hab⟩
  case period =>
    rw [show rekeyDue s p = rekeyOffer s p from if_neg (by simp [hdue, hf])]
    exact ⟨_, rfl, rekeyOffer_shown hup h⟩
  case never => rw [show rekeyDue s p = s from if_pos (.inl hnever)]
  case again =>
    rw [show rekeyAgain s p = rekeyOffer s p from if_pos (by simp [hdeclined, hf])]
    exact ⟨_, rfl, rekeyOffer_shown hup h⟩

end Sys2Proof.Machine

namespace Sys2Proof.Machine
open Sys2Proof

/-! ## O43: lane groups retired and restored (11 R220, R222) -/

section
variable {s t : State} {p : Nat}

/-- The commands of lane changes, each on a port and a group of the module. -/
theorem exec_lanes (hp : p < 16) {group : Nat} (hg : group < 16) (s : State) (line : Nat) (rx clean : Bool) :
    exec (.retireAnnouncement p group line) s = .next (voteRefresh (announced s p 1 group line))
    ∧ exec (.restoreAnnouncement p group line) s = .next (voteRefresh (announced s p 2 group line))
    ∧ exec (.lineSwitch p rx) s = .next (voteRefresh (if rx then rxLinePass s p else txLinePass s p))
    ∧ exec (.testPatternReport p group clean) s = .next (voteRefresh (testReported s p group clean)) :=
  have hwf : (okPort p && decide (group < 16)) = true := by simp [okPort, hp, hg]
  ⟨run_of_wf (c := .retireAnnouncement p group line) hwf, run_of_wf (c := .restoreAnnouncement p group line) hwf,
    run_of_wf (c := .lineSwitch p rx) (decide_eq_true hp), run_of_wf (c := .testPatternReport p group clean) hwf⟩

theorem rd_switchPend_wr (s : State) (v : Nat) : (s.wr (fSwitchPend p) v).rd (fSwitchPend p) = v % 2 :=
  State.rd_wr_self _ _ _ (by simp [fSwitchPend]) (by simp [fSwitchPend])

/-- Flits run on a port by its state, its step and its backoff. -/
theorem portLive_congr (hstate : t.rd (fPortState p) = s.rd (fPortState p)) (hstep : t.rd (fHailStep p) = s.rd (fHailStep p))
    (hback : (t.port p).backoff = (s.port p).backoff) : portLive t p = portLive s p := by
  simp only [portLive, portUp, hstate, hstep, hback]

theorem portLive_took (s : State) (p kind : Nat) : portLive (Took s p kind) p = portLive s p := portLive_congr rfl rfl (by rw [port_took])

theorem mclr_le (m k : Nat) : mclr m k ≤ m := by
  unfold mclr
  split
  · exact Nat.sub_le ..
  · exact le_rfl

/-- The groups in service after a line, as a mask of sixteen. -/
theorem mask_lt {m k : Nat} (hm : m < 2 ^ 16) (hk : k < 16) (retire : Bool) : (if retire then mclr m k else mset m k) < 2 ^ 16 := by
  split
  · exact (mclr_le m k).trans_lt hm
  · exact Nat.or_lt_two_pow hm (Nat.pow_lt_pow_right (by decide) hk)

/-! ### What waits to be announced -/

theorem announceNext_of_none {n : Nat} (h : (s.port p).lineQ = []) : announceNext (n + 1) s p = s := by
  rw [announceNext]
  split
  case h_1 hq => exact absurd (h.symm.trans hq) (by simp)
  case h_2 => rfl

/-- A restoration asked for with no line pending and none waiting is announced, switch_lead lines ahead. -/
theorem laneAsk_restore (hlive : portLive s p = true) (hq : (s.port p).lineQ = []) (htx : (s.port p).txLine = none) {k : Nat}
    (hout : (s.rd (fTxGroups p)).testBit k = false) : ∃ u : State, laneAsk s p k false = u.wr (fSwitchPend p) 1
      ∧ (u.port p).txLine = some ⟨k, ((s.port p).lineTx + switchLead s p) % 2 ^ 32, false⟩ := by
  have hasked : laneAsk s p k false = announceNext 17 (s.modPort p fun g => { g with lineQ := g.lineQ ++ [(k, false)] }) p :=
    if_neg (by simp [hlive, hq])
  have hport : (s.modPort p fun g => { g with lineQ := g.lineQ ++ [(k, false)] }).port p = { s.port p with lineQ := [(k, false)] } := by
    rw [State.modPort, State.port_putPort, hq, List.nil_append]
  have hnbit : ∀ f, (s.modPort p f).rd (fTxGroups p) = s.rd (fTxGroups p) := fun _ => rfl
  rw [hasked, announceNext]
  simp only [hport, htx, hnbit, nbit, hout, ne_eq, not_true_eq_false, if_false, Bool.false_eq_true, false_and]
  exact ⟨_, rfl, by simp only [State.port_putPort]; rfl⟩

/-! ### A line of the transmit direction (11 R220) -/

/-- A relock that begins at a retired group leaves a port with no change waiting as it was, but for its optics. -/
theorem portView_relockNext (hq : (s.port p).lineQ = []) : portView p (relockNext s p) = portView p s := by
  have hstop : portView p (xtStop s p) = portView p s := by
    refine portView_ite ((portView_modPort _ _ ?_).trans (portView_wr (f := fXtState p) _ _ (le_aOpt ..))) rfl
    exact fun _ => rfl
  have hbegin : ∀ k a, nbit (s.rd (fTxGroups p)) k = false → portView p (swapBegin s p ⟨k, a, a, false, false⟩) = portView p s := by
    intro k a hk
    have hmarked : portView p (((xtStop s p).modPort p fun g =>
        { g with swap := some ⟨k, a, a, false, false⟩, lineQ := g.lineQ.filter fun q => decide (q ≠ (k, false)) }).wr (fSwapGroup p) k) = portView p s := by
      refine (portView_wr (f := fSwapGroup p) _ _ (le_aOpt ..)).trans ((portView_putPort _ _ ?_).trans hstop)
      have hlineQ := (session_field (session_of_portView hstop) PortSt.lineQ fun _ => rfl).trans hq
      simp only [PortSt.session, hlineQ, List.filter_nil]
    simp only [swapBegin, hk, Bool.false_eq_true, if_false, swapWarm]
    exact portView_ite ((portView_wr (f := fSwapPhase p) _ _ (le_aOpt ..)).trans hmarked) ((portView_wr (f := fSwapPhase p) _ _ (le_aOpt ..)).trans hmarked)
  unfold relockNext
  dsimp only
  split
  · rfl
  · split
    case h_1 k hk =>
      have hretired := List.find?_some hk
      simp only [Bool.and_eq_true, Bool.not_eq_true'] at hretired
      split
      · exact hbegin _ _ hretired.1.1.1
      · rfl
    case h_2 => rfl

/-- The registers of a lane group lie apart from the port's own. -/
theorem rd_wr_grpFld (s : State) (k hi lo v : Nat) {o hi' lo' : Nat} (ho : o < 0x100) :
    (s.wr (fGrpFld p k hi lo) v).rd ⟨aLnk p o, hi', lo'⟩ = s.rd ⟨aLnk p o, hi', lo'⟩ :=
  State.rd_wr_ne _ _ _ _ (by unfold fGrpFld aLnk; dsimp only; omega)

/-- The state in which a transmit line has been passed, before what waits for it goes on. -/
def txLinePassed (s : State) (p : Nat) (x : LaneLine) : State :=
  let s1 := (s.putPort p { s.port p with txLine := none }).wr (fSwitchPend p) (b2n (s.port p).rxLine.isSome)
  if x.retire then
    portEvent (((s1.wr (fTxGroups p) (mclr (s.rd (fTxGroups p)) x.group)).wr (fGrpState p x.group) 1).inc (fGrpFld p x.group 15 8)) p 0x0A x.group 0
  else portEvent ((s1.wr (fTxGroups p) (mset (s.rd (fTxGroups p)) x.group)).wr (fGrpState p x.group) 0) p 0x0B x.group 0

theorem txLinePass_eq {x : LaneLine} (hx : (s.port p).txLine = some x) (hline : 0 ≤ sint 32 ((s.port p).lineTx + 2 ^ 32 - x.line))
    (hswap : (s.port p).swap = none) : txLinePass s p =
    xtResume (announceNext 17 (if x.retire then relockNext (txLinePassed s p x) p else txLinePassed s p x) p) p := by
  simp only [txLinePass, hx, if_neg (not_lt.2 hline), hswap, txLinePassed]

theorem session_txLinePassed (s : State) (p : Nat) (x : LaneLine) :
    ((txLinePassed s p x).port p).session = PortSt.session { s.port p with txLine := none } := by
  unfold txLinePassed
  dsimp only
  split
  all_goals
    rw [session_of_portView (portView_portEvent ..)]
    simp only [State.inc, State.port_wr, State.port_putPort]

theorem rd_txLinePassed (hp : p < 16) (s : State) {x : LaneLine} (hk : x.group < 16) : (txLinePassed s p x).rd (fTxGroups p) =
    if x.retire then mclr (s.rd (fTxGroups p)) x.group else mset (s.rd (fTxGroups p)) x.group := by
  have hmask := mask_lt (s.rd_lt (fTxGroups p)) hk x.retire
  have hself : ∀ (u : State) {m}, m < 2 ^ 16 → (u.wr (fTxGroups p) m).rd (fTxGroups p) = m := fun u m hm =>
    (State.rd_wr_self u (fTxGroups p) m (by simp [fTxGroups]) (by simp [fTxGroups])).trans (Nat.mod_eq_of_lt hm)
  have hgrp : ∀ (u : State) k hi lo v, (u.wr (fGrpFld p k hi lo) v).rd (fTxGroups p) = u.rd (fTxGroups p) := fun u k hi lo v =>
    rd_wr_grpFld u k hi lo v (by decide)
  have hevent : ∀ (u : State) code group step, (portEvent u p code group step).rd (fTxGroups p) = u.rd (fTxGroups p) := fun u _ _ _ =>
    rd_lnk_of_portView hp (portView_portEvent ..) (by decide)
  unfold txLinePassed
  dsimp only
  split
  case isTrue hr =>
    rw [if_pos hr] at hmask
    rw [hevent, State.inc, hgrp, fGrpState, hgrp, hself _ hmask]
  case isFalse hr =>
    rw [if_neg hr] at hmask
    rw [hevent, fGrpState, hgrp, hself _ hmask]

/-- A line that the count has reached takes its group out of service, or back into it. -/
theorem txLinePass_shown (hp : p < 16) {x : LaneLine} (hx : (s.port p).txLine = some x) (hk : x.group < 16)
    (hline : 0 ≤ sint 32 ((s.port p).lineTx + 2 ^ 32 - x.line)) (hswap : (s.port p).swap = none) (hq : (s.port p).lineQ = [])
    (h : portView p t = portView p (txLinePass s p)) : (t.port p).txLine = none
      ∧ t.rd (fTxGroups p) = if x.retire then mclr (s.rd (fTxGroups p)) x.group else mset (s.rd (fTxGroups p)) x.group := by
  have hlineQ : ((txLinePassed s p x).port p).lineQ = [] := (session_field (session_txLinePassed s p x) PortSt.lineQ fun _ => rfl).trans hq
  have hnext : ∀ u, portView p u = portView p (txLinePassed s p x) → portView p (xtResume (announceNext 17 u p) p) = portView p (txLinePassed s p x) :=
    fun u hu => (portView_xtResume ..).trans ((congrArg (portView p)
      (announceNext_of_none ((session_field (session_of_portView hu) PortSt.lineQ fun _ => rfl).trans hlineQ))).trans hu)
  have hview : portView p t = portView p (txLinePassed s p x) := by
    rw [h, txLinePass_eq hx hline hswap]
    exact hnext _ (portView_ite (portView_relockNext hlineQ) rfl)
  exact ⟨session_field ((session_of_portView hview).trans (session_txLinePassed s p x)) PortSt.txLine fun _ => rfl,
    (rd_lnk_of_portView hp hview (by decide)).trans (rd_txLinePassed hp s hk)⟩

/-! ### A line of the receive direction (11 R220, R222) -/

/-- The state in which a receive line has been passed, and the groups in service are those of a mask. -/
def rxLinePassed (s : State) (p : Nat) (x : LaneLine) (m : Nat) : State :=
  ((s.putPort p { s.port p with rxLine := none, rxTest := if x.retire then mset (s.port p).rxTest x.group else mclr (s.port p).rxTest x.group }).wr
    (fRxGroups p) m).wr (fSwitchPend p) (b2n (s.port p).txLine.isSome)

theorem rxLinePass_eq {x : LaneLine} (hx : (s.port p).rxLine = some x) (hline : 0 ≤ sint 32 ((s.port p).lineRx + 2 ^ 32 - x.line)) :
    rxLinePass s p =
      let m := if x.retire then mclr (s.rd (fRxGroups p)) x.group else mset (s.rd (fRxGroups p)) x.group
      if popcount 16 m < minGroups s p then portDown (rxLinePassed s p x m) p 0x05 x.group false else xtResume (rxLinePassed s p x m) p := by
  simp only [rxLinePass, hx, if_neg (not_lt.2 hline)]
  rfl

theorem port_rxLinePassed (s : State) (p : Nat) (x : LaneLine) (m : Nat) : (rxLinePassed s p x m).port p =
    { s.port p with rxLine := none, rxTest := if x.retire then mset (s.port p).rxTest x.group else mclr (s.port p).rxTest x.group } :=
  State.port_putPort ..

theorem rd_rxLinePassed (s : State) (p : Nat) (x : LaneLine) {m : Nat} (hm : m < 2 ^ 16) : (rxLinePassed s p x m).rd (fRxGroups p) = m := by
  rw [rxLinePassed, rd_wr_apart _ _ (by simp [Fld.apart, fSwitchPend, fRxGroups]), State.rd_wr_self _ _ _ (by simp [fRxGroups]) (by simp [fRxGroups])]
  exact Nat.mod_eq_of_lt hm

theorem portLive_rxLinePassed (s : State) (p : Nat) (x : LaneLine) (m : Nat) : portLive (rxLinePassed s p x m) p = portLive s p := by
  have hrd : ∀ {f : Fld}, (fRxGroups p).apart f = true → (fSwitchPend p).apart f = true → (rxLinePassed s p x m).rd f = s.rd f := fun h1 h2 => by
    rw [rxLinePassed, rd_wr_apart _ _ h2, rd_wr_apart _ _ h1, State.rd_putPort]
  refine portLive_congr (hrd ?_ ?_) (hrd ?_ ?_) (by rw [port_rxLinePassed])
  all_goals simp [Fld.apart, fRxGroups, fSwitchPend, fPortState, fHailStep]

end

/-- Settles O43: an announcement is judged by the line count, a line by what it passes, a report by the retired group. -/
theorem lanesRetireAndReturn : Obligations.LanesRetireAndReturn := by
  intro s p group line hp hg
  obtain ⟨hretire, hrestore, -, -⟩ := exec_lanes hp hg s line true true
  obtain ⟨-, -, hrxSwitch, -⟩ := exec_lanes hp hg s line true true
  obtain ⟨-, -, htxSwitch, hclean⟩ := exec_lanes hp hg s line false true
  obtain ⟨-, -, -, hfail⟩ := exec_lanes hp hg s line false false
  dsimp only
  refine ⟨fun c kind hc => ?announced, fun x hx hk hline => ?rx, fun x hx hk hline hswap hq => ?tx, fun hm hf => ⟨?failed, fun hout hlive hswap hq htx => ?restored⟩⟩
  case announced =>
    have he : exec c s = .next (voteRefresh (announced s p kind group line)) := by
      rcases hc with ⟨rfl, rfl⟩ | ⟨rfl, rfl⟩
      · exact hretire
      · exact hrestore
    rw [he]
    refine ⟨fun hnot => by rw [announced, takeCtl_of_not hnot], fun hm hf hline => ⟨_, rfl, ?_⟩⟩
    have hpending : announced s p kind group line =
        ((Took s p kind).putPort p { (Took s p kind).port p with rxLine := some ⟨group, line % 2 ^ 32, decide (kind = 1)⟩ }).wr (fSwitchPend p) 1 := by
      simp only [announced, takeCtl_of_mem hm hf, port_took, if_neg (not_lt.2 hline)]
    have hview := portView_voteRefresh (p := p) (announced s p kind group line)
    rw [hpending] at hview ⊢
    exact ⟨session_field ((session_of_portView hview).trans (congrArg PortSt.session (State.port_putPort ..))) PortSt.rxLine fun _ => rfl,
      (rd_lnk_of_portView hp hview (by decide)).trans (rd_switchPend_wr ..)⟩
  case rx =>
    have hmask := mask_lt (s.rd_lt (fRxGroups p)) hk x.retire
    have hview := portView_voteRefresh (p := p) (rxLinePass s p)
    rw [hrxSwitch, if_pos rfl]
    rw [rxLinePass_eq hx hline] at hview ⊢
    dsimp only at hview ⊢
    refine ⟨fun hmin => ⟨_, rfl, ?_⟩, fun hmin hlive => ⟨_, rfl, ?_⟩⟩
    · rw [if_neg (not_lt.2 hmin)] at hview ⊢
      have hpassed := hview.trans (portView_xtResume ..)
      exact ⟨(rd_lnk_of_portView hp hpassed (by decide)).trans (rd_rxLinePassed s p x hmask),
        session_field ((session_of_portView hpassed).trans (congrArg PortSt.session (port_rxLinePassed ..))) PortSt.rxLine fun _ => rfl⟩
    · rw [if_pos hmin] at hview ⊢
      exact (portDropped_portDown hp ((portLive_rxLinePassed ..).trans hlive) hview).1
  case tx =>
    rw [htxSwitch, if_neg (by decide)]
    exact ⟨_, rfl, txLinePass_shown hp hx hk hline hswap hq (portView_voteRefresh _)⟩
  case failed =>
    rw [hfail, testReported, takeCtl_of_mem hm hf]
    simp only [Bool.not_false, or_true, if_true]
  case restored =>
    have hreported : testReported s p group true = laneAsk (Took s p 3) p group false := by
      simp only [testReported, takeCtl_of_mem hm hf, rd_took, nbit, hout, port_took, hswap]
      simp
    obtain ⟨u, hu, hline⟩ := laneAsk_restore (s := Took s p 3) ((portLive_took ..).trans hlive) (by rw [port_took]; exact hq)
      (by rw [port_took]; exact htx) (k := group) hout
    have hview := portView_voteRefresh (p := p) (testReported s p group true)
    rw [hclean]
    rw [hreported, hu] at hview ⊢
    rw [port_took] at hline
    exact ⟨_, rfl, (session_field (session_of_portView hview) PortSt.txLine fun _ => rfl).trans hline,
      (rd_lnk_of_portView hp hview (by decide)).trans (rd_switchPend_wr ..)⟩

end Sys2Proof.Machine

namespace Sys2Proof.Machine
open Sys2Proof

/-! ## O42: flits sent and received (11 R211 to R216, R221, R223) -/

section
variable {s t : State} {p : Nat}

/-- The commands of flits, each on a port and a group of the module. -/
theorem exec_flits (hp : p < 16) {group : Nat} (hg : group < 16) (s : State) (corr : Nat) (bad : Bool) (bytes : List Byte) :
    exec (.flitTransmit p) s = .next (voteRefresh (darkAfter (flitSend s p) p))
    ∧ exec (.flitReceive p group corr bad bytes) s = .next (voteRefresh (flitArrives s p group corr bad bytes))
    ∧ exec (.ackTimeout p) s = .next (voteRefresh (ackTimeout s p)) :=
  ⟨run_of_wf (c := .flitTransmit p) (decide_eq_true hp),
    run_of_wf (c := .flitReceive p group corr bad bytes) (show (okPort p && decide (group < 16)) = true by simp [okPort, hp, hg]),
    run_of_wf (c := .ackTimeout p) (decide_eq_true hp)⟩

/-! ### A flit sent (11 R212, R213) -/

/-- A new sequenced flit with a header has been put on the next line of a port, and kept for replay. -/
structure FlitSent (s t : State) (p : Nat) (head b : List Byte) : Prop where
  header : b.take 4 = head
  out : t.flitOut = s.flitOut ++ [(p, nextGroup s p, b)]
  seq : (t.port p).txSeq = ((s.port p).txSeq + 1) % 2 ^ 15
  kept : (t.port p).replayBuf = (s.port p).replayBuf ++ [⟨(s.port p).txSeq, b, s.mile, 0⟩]
  credits : (t.port p).credits = (s.port p).credits
  rekey : (t.port p).rekey = (s.port p).rekey
  darkSent : (t.port p).darkSent = (s.port p).darkSent
  frames : t.rd (fTxFrames p) = (s.rd (fTxFrames p) + if (s.port p).txSeq % 16 = 15 then 1 else 0) % 2 ^ 48

theorem length_flitHeader (typ vc som len seq : Nat) : (flitHeader typ vc som len seq).length = 4 := length_leBytes ..

/-- A new sequenced flit as a line and a change of the port's record. -/
theorem sendFlit_eq (s : State) (p typ vc som len : Nat) (payload : List Byte) : ∃ b, ∃ f : PortSt → PortSt,
    b.take 4 = flitHeader typ vc som len (s.port p).txSeq
    ∧ sendFlit s p typ vc som len payload = (if (s.port p).txSeq % 16 = 15 then ((putLine s p b).modPort p f).wr (fTxFrames p) (s.rd (fTxFrames p) + 1)
        else (putLine s p b).modPort p f)
    ∧ ∀ g, (f g).txSeq = (g.txSeq + 1) % 2 ^ 15 ∧ (f g).replayBuf = g.replayBuf ++ [⟨g.txSeq, b, s.mile, 0⟩] ∧ (f g).credits = g.credits
        ∧ (f g).rekey = g.rekey ∧ (f g).darkSent = g.darkSent := by
  have htake : ∀ a b : List Byte, (withCrc (flitHeader typ vc som len (s.port p).txSeq ++ a ++ b)).take 4 = flitHeader typ vc som len (s.port p).txSeq :=
    fun a b => by rw [withCrc, List.append_assoc, List.append_assoc]; exact List.take_left' (length_flitHeader ..)
  unfold sendFlit
  dsimp only
  simp only [decide_eq_true_eq]
  exact ⟨_, _, htake _ _, rfl, fun g => ⟨rfl, rfl, rfl, rfl, rfl⟩⟩

theorem sendFlit_sent (s : State) (p typ vc som len : Nat) (payload : List Byte) :
    ∃ b, FlitSent s (sendFlit s p typ vc som len payload) p (flitHeader typ vc som len (s.port p).txSeq) b := by
  obtain ⟨b, f, hhead, he, hf⟩ := sendFlit_eq s p typ vc som len payload
  have hport : (sendFlit s p typ vc som len payload).port p = f ((putLine s p b).port p) := by
    rw [he]
    split
    · rw [State.port_wr, State.modPort, State.port_putPort]
    · rw [State.modPort, State.port_putPort]
  have hline : (putLine s p b).port p = { s.port p with turn := nextGroup s p, lineTx := ((s.port p).lineTx + 1) % 2 ^ 32 } := State.port_putPort ..
  obtain ⟨hseq, hkept, hcredits, hrekey, hdark⟩ := hf ((putLine s p b).port p)
  rw [← hport, hline] at hseq hkept hcredits hrekey hdark
  refine ⟨b, hhead, ?out, hseq, hkept, hcredits, hrekey, hdark, ?frames⟩
  case out => rw [he]; split <;> rfl
  case frames =>
    rw [he]
    split
    · exact State.rd_wr_self _ _ _ (by simp [fTxFrames]) (by simp [fTxFrames])
    · exact (Nat.mod_eq_of_lt (s.rd_lt (fTxFrames p))).symm

/-- Without a rekey under way and below 2^47 frames nothing follows a frame (11 R219). -/
theorem afterFrame_of_quiet (h : (s.port p).rekey = .none) (hfr : s.rd (fTxFrames p) < 2 ^ 47) : afterFrame s p = s := by
  have hswitch : rekeySwitch s p = s := by rw [rekeySwitch, h]
  rw [afterFrame, hswitch, if_neg (by omega), if_neg fun hdue => by omega]

/-- What holds of a port that sends a new data or idle flit next: none replayed, no management message queued, no rekey (11 R215 to R219). -/
structure SendsFlit (s : State) (p : Nat) : Prop where
  live : portLive s p = true
  runs : s.isFatal = false
  groups : txMask s p ≠ 0
  replay : (s.port p).replay = none
  room : (s.port p).replayBuf.length < 8192
  ctlq : (s.port p).ctlq = []
  rekey : (s.port p).rekey = .none
  frames : s.rd (fTxFrames p) < 2 ^ 47 - 1

/-- A message's port record as its next data flit leaves it: a credit taken, the message on, or gone from the queue. -/
def dataTaken (g : PortSt) (m : OutMsg) (n : Nat) : PortSt :=
  { g with
    vcLast := m.vc
    credits := g.credits.set m.vc (lget 0 g.credits m.vc - 1)
    outq := if m.sent + n ≥ m.bytes.length then dropFirst (fun x => decide (x.vc = m.vc)) g.outq
            else replaceFirst (fun x => decide (x.vc = m.vc)) (fun _ => { m with sent := m.sent + n }) g.outq }

/-- The payload bytes of the next flit's message. -/
def dataLen (g : PortSt) (m : OutMsg) : Nat := min (if g.txSeq % 16 = 15 then 224 else 248) (m.bytes.length - m.sent)

/-- The next flit carries data where the port is Up and a virtual channel has credit, else it is idle. The records of the ports may stand in
another table than before: a withdrawn acknowledgement that was not there has been taken out. -/
theorem flitSend_of_next (h : SendsFlit s p) : ∃ ports, ({ s with ports := ports } : State).port p = s.port p
    ∧ flitSend s p = match (if portUp s p then pickData (s.port p) else none) with
      | some m => afterFrame (sendFlit (({ s with ports := ports } : State).putPort p (dataTaken (s.port p) m (dataLen (s.port p) m))) p
          0 m.vc (b2n (decide (m.sent = 0))) (dataLen (s.port p) m) (m.bytes.drop m.sent)) p
      | none => afterFrame (sendFlit { s with ports := ports } p 1 0 0 0 []) p := by
  obtain ⟨hlive, hf, hgroups, hreplay, hroom, hctlq, -, -⟩ := h
  have hsame : ∀ g : PortSt, g.ctlq = [] → ({ g with ctlq := g.ctlq.filter fun c => decide (c ≠ .dark true) } : PortSt) = g := fun g hg => by
    rw [hg, List.filter_nil, ← hg]
  have hkept : ∃ ports, ({ s with ports := ports } : State).port p = s.port p ∧
      (if portIdle s p then s else s.modPort p fun g => { g with ctlq := g.ctlq.filter fun c => decide (c ≠ .dark true) }) = { s with ports := ports } := by
    by_cases hidle : portIdle s p = true
    · exact ⟨s.ports, rfl, if_pos hidle⟩
    · exact ⟨_, (State.port_putPort ..).trans (hsame _ hctlq), if_neg hidle⟩
  obtain ⟨ports, hport, hcase⟩ := hkept
  refine ⟨ports, hport, ?_⟩
  have hup : portUp ({ s with ports := ports } : State) p = portUp s p := rfl
  have hopen : ¬((!portLive s p) = true ∨ s.isFatal = true ∨ txMask s p = 0) := by simp [hlive, hf, hgroups]
  rw [flitSend, if_neg hopen, hcase]
  dsimp only
  rw [hport, hup]
  split
  next hx => exact absurd (hreplay.symm.trans hx) nofun
  next =>
    rw [if_neg (not_le.2 hroom)]
    generalize hdata : (if portUp s p = true then pickData (s.port p) else none) = data
    split
    next hx _ => exact absurd (hctlq.symm.trans hx) nofun
    case h_2 => rfl
    case h_3 => rfl

/-- What a port's record has to do with the lines and the frames it sends. -/
def PortSt.sender (g : PortSt) : Nat × List SentFlit × Bool × RekeySt × Nat × Nat × Option LaneLine :=
  (g.txSeq, g.replayBuf, g.darkSent, g.rekey, g.turn, g.lineTx, g.txLine)

/-- A flit sent from a state that differs in the ports' records alone, and there not in what it is sent by. -/
theorem afterFrame_sendFlit (h : SendsFlit s p) {ports : Tbl PortSt} (hsame : (({ s with ports := ports } : State).port p).sender = (s.port p).sender)
    (typ vc som len : Nat) (payload : List Byte) {u : State} (hu : u = afterFrame (sendFlit { s with ports := ports } p typ vc som len payload) p) :
    ∃ b, u.flitOut = s.flitOut ++ [(p, nextGroup s p, b)] ∧ (u.port p).txSeq = ((s.port p).txSeq + 1) % 2 ^ 15
      ∧ (u.port p).replayBuf = (s.port p).replayBuf ++ [⟨(s.port p).txSeq, b, s.mile, 0⟩] ∧ (u.port p).darkSent = (s.port p).darkSent
      ∧ u.rd (fTxFrames p) = s.rd (fTxFrames p) + (if (s.port p).txSeq % 16 = 15 then 1 else 0)
      ∧ b.take 4 = flitHeader typ vc som len (s.port p).txSeq ∧ (u.port p).credits = (({ s with ports := ports } : State).port p).credits := by
  have hframes := h.frames
  have hframe : ((s.rd (fTxFrames p) + if (s.port p).txSeq % 16 = 15 then 1 else 0) % 2 ^ 48) =
      s.rd (fTxFrames p) + if (s.port p).txSeq % 16 = 15 then 1 else 0 := Nat.mod_eq_of_lt (by split <;> omega)
  simp only [PortSt.sender, Prod.mk.injEq] at hsame
  obtain ⟨hseq, hbuf, hdark, hrekey, hturn, hline, htxLine⟩ := hsame
  obtain ⟨b, hb⟩ := sendFlit_sent { s with ports := ports } p typ vc som len payload
  have hgroup : nextGroup { s with ports := ports } p = nextGroup s p := by simp only [nextGroup, txMask, hturn, hline, htxLine]; rfl
  have hrd : ({ s with ports := ports } : State).rd (fTxFrames p) = s.rd (fTxFrames p) := rfl
  rw [afterFrame_of_quiet (hb.rekey.trans (hrekey.trans h.rekey)) (by rw [hb.frames, hseq, hrd, hframe]; split <;> omega)] at hu
  have hhead := hb.header
  have hout := hb.out
  have hseq' := hb.seq
  have hkept := hb.kept
  have hfr := hb.frames
  simp only [hgroup, hseq, hbuf] at hhead hout hseq' hkept hfr
  rw [hu]
  exact ⟨b, hout, hseq', hkept, hb.darkSent.trans hdark, hfr.trans hframe, hhead, hb.credits⟩

/-- The flit sent next, by what it carries: its line, and what it leaves of the port. -/
theorem flitSend_sent (h : SendsFlit s p) : ∃ b, (flitSend s p).flitOut = s.flitOut ++ [(p, nextGroup s p, b)]
    ∧ ((flitSend s p).port p).txSeq = ((s.port p).txSeq + 1) % 2 ^ 15
    ∧ ((flitSend s p).port p).replayBuf = (s.port p).replayBuf ++ [⟨(s.port p).txSeq, b, s.mile, 0⟩]
    ∧ ((flitSend s p).port p).darkSent = (s.port p).darkSent
    ∧ (flitSend s p).rd (fTxFrames p) = s.rd (fTxFrames p) + (if (s.port p).txSeq % 16 = 15 then 1 else 0)
    ∧ match (if portUp s p then pickData (s.port p) else none) with
      | some m => b.take 4 = flitHeader 0 m.vc (b2n (decide (m.sent = 0))) (dataLen (s.port p) m) (s.port p).txSeq
          ∧ ((flitSend s p).port p).credits = (s.port p).credits.set m.vc (lget 0 (s.port p).credits m.vc - 1)
      | none => b.take 4 = flitHeader 1 0 0 0 (s.port p).txSeq ∧ ((flitSend s p).port p).credits = (s.port p).credits := by
  obtain ⟨ports, hport, hsend⟩ := flitSend_of_next h
  generalize (if portUp s p = true then pickData (s.port p) else none) = data at hsend ⊢
  cases data with
  | none =>
    obtain ⟨b, hout, hseq, hkept, hdark, hfr, hhead, hcredits⟩ := afterFrame_sendFlit h (congrArg PortSt.sender hport) 1 0 0 0 [] hsend
    exact ⟨b, hout, hseq, hkept, hdark, hfr, hhead, hcredits.trans (congrArg PortSt.credits hport)⟩
  | some m =>
    have htaken := State.port_putPort { s with ports := ports } p (dataTaken (s.port p) m (dataLen (s.port p) m))
    have hsender : (dataTaken (s.port p) m (dataLen (s.port p) m)).sender = (s.port p).sender := rfl
    obtain ⟨b, hout, hseq, hkept, hdark, hfr, hhead, hcredits⟩ :=
      afterFrame_sendFlit h (ports := tset port0 ports p _) ((congrArg PortSt.sender htaken).trans hsender) 0 m.vc _ _ _ hsend
    exact ⟨b, hout, hseq, hkept, hdark, hfr, hhead, hcredits.trans (congrArg PortSt.credits htaken)⟩

theorem darkAfter_of_unsent (h : (s.port p).darkSent = false) : darkAfter s p = s := by rw [darkAfter, h]; exact if_neg (by simp)

/-- The command that sends a new flit: the lines, and what it leaves of the port (11 R211 to R216, R223). -/
theorem flitTransmit_sends (hp : p < 16) (h : SendsFlit s p) (hdark : (s.port p).darkSent = false) :
    ∃ t b, exec (.flitTransmit p) s = .next t ∧ t.flitOut = s.flitOut ++ [(p, nextGroup s p, b)]
      ∧ (t.port p).txSeq = ((s.port p).txSeq + 1) % 2 ^ 15 ∧ (t.port p).replayBuf = (s.port p).replayBuf ++ [⟨(s.port p).txSeq, b, s.mile, 0⟩]
      ∧ t.rd (fTxFrames p) = s.rd (fTxFrames p) + (if (s.port p).txSeq % 16 = 15 then 1 else 0)
      ∧ match (if s.rd (fPortState p) = 3 then pickData (s.port p) else none) with
        | none => b.take 4 = flitHeader 1 0 0 0 (s.port p).txSeq ∧ (t.port p).credits = (s.port p).credits
        | some m => b.take 4 = flitHeader 0 m.vc (b2n (decide (m.sent = 0)))
              (min (if (s.port p).txSeq % 16 = 15 then 224 else 248) (m.bytes.length - m.sent)) (s.port p).txSeq
            ∧ (t.port p).credits = (s.port p).credits.set m.vc ((s.port p).credits.getD m.vc 0 - 1) := by
  obtain ⟨b, hout, hseq, hkept, hsent, hfr, hwhat⟩ := flitSend_sent h
  have hview := portView_voteRefresh (p := p) (flitSend s p)
  have hses := session_of_portView hview
  refine ⟨_, b, (exec_flits hp (group := 0) (by decide) s 0 false []).1, ?_⟩
  rw [darkAfter_of_unsent (hsent.trans hdark)]
  refine ⟨(flitOut_of_portView hview).trans hout, (session_field hses PortSt.txSeq fun _ => rfl).trans hseq,
    (session_field hses PortSt.replayBuf fun _ => rfl).trans hkept, (rd_lnk_of_portView hp hview (by decide)).trans hfr, ?_⟩
  rw [session_field hses PortSt.credits fun _ => rfl]
  simp only [portUp, decide_eq_true_eq] at hwhat
  change match (if s.rd (fPortState p) = 3 then pickData (s.port p) else none) with | some m => _ | none => _ at hwhat
  generalize (if s.rd (fPortState p) = 3 then pickData (s.port p) else none) = data at hwhat ⊢
  cases data with
  | none => exact hwhat
  | some m => exact hwhat

/-! ### A flit that arrives (11 R211, R212, R215) -/

/-- What the codeword that ended on a group has added to its counts. -/
def FecCounted (s t : State) (p group corr : Nat) (bad : Bool) : Prop :=
  if bad = true ∨ 15 < corr then t.rd (fGrpFld p group 39 24) = min 0xFFFF (s.rd (fGrpFld p group 39 24) + 1)
  else t.rd (fGrpFld p group 63 40) = min 0xFFFFFF (s.rd (fGrpFld p group 63 40) + corr)

variable {group corr : Nat} {bad : Bool} {bytes : List Byte}

theorem FecCounted.congr {u : State} (h : FecCounted s u p group corr bad) (hrd : ∀ hi lo, t.rd (fGrpFld p group hi lo) = u.rd (fGrpFld p group hi lo)) :
    FecCounted s t p group corr bad := by
  unfold FecCounted
  rw [hrd, hrd]
  exact h

theorem fecCounted_fecCount (s : State) (p group corr : Nat) (bad : Bool) : FecCounted s (fecCount s p group corr bad) p group corr bad := by
  unfold FecCounted fecCount
  by_cases h : bad = true ∨ 15 < corr
  · rw [if_pos h, if_pos h, State.modPort, State.rd_putPort]
    exact rd_inc_self s (by simp [fGrpFld]) (by simp [fGrpFld])
  · rw [if_neg h, if_neg h, State.incBy, State.rd_wr_self _ _ _ (by simp [fGrpFld]) (by simp [fGrpFld]), satAdd, min_comm]
    exact Nat.mod_eq_of_lt (lt_of_le_of_lt (min_le_left _ _) (Nat.sub_lt (by positivity) one_pos))

/-- The counts of a codeword are the group's: neither the port's settings nor its session change, but for the count of the bad ones. -/
theorem fecCount_keeps (s : State) (p group corr : Nat) (bad : Bool) : (∃ u, (fecCount s p group corr bad).port p = { s.port p with uncorr := u })
    ∧ ∀ {o hi lo}, o < 0x100 → (fecCount s p group corr bad).rd ⟨aLnk p o, hi, lo⟩ = s.rd ⟨aLnk p o, hi, lo⟩ := by
  unfold fecCount
  split
  · exact ⟨⟨_, State.port_putPort ..⟩, fun ho => rd_wr_grpFld s group 39 24 _ ho⟩
  · exact ⟨⟨(s.port p).uncorr, rfl⟩, fun ho => rd_wr_grpFld s group 63 40 _ ho⟩

/-- A flit of a group out of service is none (11 R220). -/
theorem flitArrives_retired (hlive : portLive s p = true) (hf : s.isFatal = false) (hout : (rxMask s p).testBit group = false)
    (hline : ∀ x, (s.port p).rxLine = some x → x.group ≠ group) : flitArrives s p group corr bad bytes = fecCount s p group corr bad := by
  have hpend : ((s.port p).rxLine.any fun x => decide (x.group = group) && !x.retire) = false := by
    cases h : (s.port p).rxLine with
    | none => rfl
    | some x => simp [hline x h]
  rw [flitArrives, if_neg (by simp [hlive, hf])]
  exact if_pos (by simp [nbit, hout, hpend])

/-- The state in which a flit waits for its group's turn. -/
def flitWaits (s : State) (p group corr : Nat) (bad : Bool) (bytes : List Byte) : State :=
  (fecCount s p group corr bad).modPort p fun g => { g with rxWait := g.rxWait ++ [(group, bytes)] }

section
variable (hlive : portLive s p = true) (hf : s.isFatal = false) (hin : (rxMask s p).testBit group = true) (hwait : (s.port p).rxWait = [])
include hwait

theorem port_flitWaits : ∃ u, (flitWaits s p group corr bad bytes).port p = { s.port p with uncorr := u, rxWait := [(group, bytes)] } := by
  obtain ⟨u, hu⟩ := (fecCount_keeps s p group corr bad).1
  refine ⟨u, ?_⟩
  rw [flitWaits, State.modPort, State.port_putPort, hu, hwait, List.nil_append]

theorem rxMask_flitWaits : rxMask (flitWaits s p group corr bad bytes) p = rxMask s p := by
  obtain ⟨u, hu⟩ := port_flitWaits (s := s) (p := p) (group := group) (corr := corr) (bad := bad) (bytes := bytes) hwait
  rw [rxMask, rxMask, hu]
  exact congrArg (maskAt · _ _) ((fecCount_keeps s p group corr bad).2 (by decide))

include hlive

theorem portLive_flitWaits : portLive (flitWaits s p group corr bad bytes) p = true := by
  obtain ⟨u, hu⟩ := port_flitWaits (s := s) (p := p) (group := group) (corr := corr) (bad := bad) (bytes := bytes) hwait
  have hrd : ∀ {hi lo}, (flitWaits s p group corr bad bytes).rd ⟨aLnk p 0x10, hi, lo⟩ = s.rd ⟨aLnk p 0x10, hi, lo⟩ :=
    (fecCount_keeps s p group corr bad).2 (by decide)
  exact (portLive_congr hrd hrd (by rw [hu])).trans hlive

include hf hin

theorem flitArrives_inService : flitArrives s p group corr bad bytes = mergeFlits 1 (flitWaits s p group corr bad bytes) p := by
  obtain ⟨u, hu⟩ := port_flitWaits (s := s) (p := p) (group := group) (corr := corr) (bad := bad) (bytes := bytes) hwait
  rw [flitArrives, if_neg (by simp [hlive, hf])]
  dsimp only
  rw [if_neg (by simp [nbit, hin])]
  change mergeFlits ((flitWaits s p group corr bad bytes).port p).rxWait.length _ p = _
  rw [hu]
  rfl

theorem flitArrives_waits (hturn : turnAfter (rxMask s p) (s.port p).rxTurn ≠ group) :
    flitArrives s p group corr bad bytes = flitWaits s p group corr bad bytes := by
  obtain ⟨u, hu⟩ := port_flitWaits (s := s) (p := p) (group := group) (corr := corr) (bad := bad) (bytes := bytes) hwait
  have hnone : [(group, bytes)].find? (fun f => decide (f.1 = turnAfter (rxMask s p) (s.port p).rxTurn)) = none := by simp [hturn.symm]
  rw [flitArrives_inService hlive hf hin hwait, mergeFlits, rxMask_flitWaits hwait, hu, hnone]

/-- A flit whose group has its turn is taken at once. -/
theorem flitArrives_taken (hturn : turnAfter (rxMask s p) (s.port p).rxTurn = group) : ∃ v u, flitArrives s p group corr bad bytes = flitTake v p bytes
    ∧ v.port p = { s.port p with uncorr := u, rxTurn := group, rxWait := [] } ∧ ∀ f, v.rd f = (fecCount s p group corr bad).rd f := by
  obtain ⟨u, hu⟩ := port_flitWaits (s := s) (p := p) (group := group) (corr := corr) (bad := bad) (bytes := bytes) hwait
  have hfirst : [(group, bytes)].find? (fun f => decide (f.1 = group)) = some (group, bytes) := by simp
  have hrest : dropFirst (fun f => decide (f.1 = group)) [(group, bytes)] = [] := by simp [dropFirst]
  refine ⟨(flitWaits s p group corr bad bytes).putPort p { s.port p with uncorr := u, rxTurn := group, rxWait := [] }, u, ?_, State.port_putPort .., fun _ => rfl⟩
  rw [flitArrives_inService hlive hf hin hwait, mergeFlits]
  dsimp only
  rw [rxMask_flitWaits hwait, hu]
  dsimp only
  rw [hturn, hfirst]
  dsimp only
  rw [portLive_flitWaits hlive hwait, hrest]
  rfl

end

/-! ### A flit taken in turn order -/

/-- A flit taken passes its line. -/
def linePassed (s : State) (p : Nat) : State := s.modPort p fun g => { g with lineRx := (g.lineRx + 1) % 2 ^ 32 }

theorem port_linePassed (s : State) (p : Nat) : (linePassed s p).port p = { s.port p with lineRx := ((s.port p).lineRx + 1) % 2 ^ 32 } := State.port_putPort ..

theorem flitTake_of_badCrc (hcrc : leNat (sliceB bytes 252 4) ≠ crc32 (sliceB bytes 0 252)) :
    flitTake s p bytes = ((linePassed s p).inc (fCrcErrors p)).putPort p { (linePassed s p).port p with nak := true } := if_pos hcrc

variable (hcrc : leNat (sliceB bytes 252 4) = crc32 (sliceB bytes 0 252)) (hkind : nbits (leNat (sliceB bytes 0 4)) 31 30 ≠ 3)
include hcrc hkind

theorem flitTake_of_badSeq (hseq : nbits (leNat (sliceB bytes 0 4)) 14 0 ≠ (s.port p).rxNext) :
    flitTake s p bytes = (linePassed s p).putPort p { (linePassed s p).port p with nak := true } := by
  have hseq' : nbits (leNat (sliceB bytes 0 4)) 14 0 ≠ ((linePassed s p).port p).rxNext := by rwa [port_linePassed]
  rw [flitTake]
  dsimp only
  rw [if_neg (not_not.2 hcrc), if_neg hkind]
  exact if_pos hseq'

theorem flitTake_of_inSequence (hseq : nbits (leNat (sliceB bytes 0 4)) 14 0 = (s.port p).rxNext) (hmid : (s.port p).rxNext % 16 ≠ 15) :
    flitTake s p bytes = (linePassed s p).putPort p { (linePassed s p).port p with
      rxNext := (((linePassed s p).port p).rxNext + 1) % 2 ^ 15, rxFlits := ((linePassed s p).port p).rxFlits ++ [bytes] } := by
  have hnext : ((linePassed s p).port p).rxNext = (s.port p).rxNext := by rw [port_linePassed]
  rw [flitTake]
  dsimp only
  rw [if_neg (not_not.2 hcrc), if_neg hkind]
  change (if nbits (leNat (sliceB bytes 0 4)) 14 0 ≠ ((linePassed s p).port p).rxNext then _ else
    if ((linePassed s p).port p).rxNext % 16 = 15 then _ else _) = _
  rw [hnext, if_neg (not_not.2 hseq), if_neg hmid, ← hnext]
  rfl

end

/-! ### The three commands -/

/-- A codeword's counts after the command. -/
theorem fecCounted_of_view {s t u : State} {p : Nat} (hp : p < 16) {group corr : Nat} {bad : Bool} (hg : group < 16) (h : portView p t = portView p u)
    (hu : ∀ hi lo, u.rd (fGrpFld p group hi lo) = (fecCount s p group corr bad).rd (fGrpFld p group hi lo)) : FecCounted s t p group corr bad :=
  (fecCounted_fecCount s p group corr bad).congr fun hi lo => (rd_lnk_of_portView hp h (by omega)).trans (hu hi lo)

section
variable {s : State} {p : Nat} (hp : p < 16) (hlive : portLive s p = true) (hf : s.isFatal = false)
include hp hlive hf

/-- A flit of a group out of service, and one that waits for its group's turn. -/
theorem flitReceive_keeps (group corr : Nat) (bad : Bool) (bytes : List Byte) (hg : group < 16) :
    ((rxMask s p).testBit group = false → (∀ x, (s.port p).rxLine = some x → x.group ≠ group) →
      ∃ t, exec (.flitReceive p group corr bad bytes) s = .next t ∧ FecCounted s t p group corr bad ∧ (t.port p).rxNext = (s.port p).rxNext
        ∧ (t.port p).rxFlits = (s.port p).rxFlits ∧ (t.port p).rxWait = (s.port p).rxWait ∧ (t.port p).lineRx = (s.port p).lineRx)
    ∧ ((rxMask s p).testBit group = true → (s.port p).rxWait = [] → turnAfter (rxMask s p) (s.port p).rxTurn ≠ group →
      ∃ t, exec (.flitReceive p group corr bad bytes) s = .next t ∧ FecCounted s t p group corr bad ∧ (t.port p).rxWait = [(group, bytes)]
        ∧ (t.port p).rxNext = (s.port p).rxNext ∧ (t.port p).rxFlits = (s.port p).rxFlits ∧ (t.port p).lineRx = (s.port p).lineRx) := by
  have hexec := (exec_flits hp hg s corr bad bytes).2.1
  have hview := portView_voteRefresh (p := p) (flitArrives s p group corr bad bytes)
  have hses := session_of_portView hview
  have hnext := session_field hses PortSt.rxNext fun _ => rfl
  have hflits := session_field hses PortSt.rxFlits fun _ => rfl
  have hwaits := session_field hses PortSt.rxWait fun _ => rfl
  have hline := session_field hses PortSt.lineRx fun _ => rfl
  constructor
  · intro hout hpend
    have harrives := flitArrives_retired (corr := corr) (bad := bad) (bytes := bytes) hlive hf hout hpend
    obtain ⟨u, hu⟩ := (fecCount_keeps s p group corr bad).1
    refine ⟨_, hexec, fecCounted_of_view hp hg hview fun _ _ => by rw [harrives], ?_⟩
    rw [hnext, hflits, hwaits, hline, harrives, hu]
    exact ⟨rfl, rfl, rfl, rfl⟩
  · intro hin hwait hturn
    have harrives := flitArrives_waits (corr := corr) (bad := bad) (bytes := bytes) hlive hf hin hwait hturn
    obtain ⟨u, hu⟩ := port_flitWaits (group := group) (corr := corr) (bad := bad) (bytes := bytes) hwait
    refine ⟨_, hexec, fecCounted_of_view hp hg hview fun _ _ => by rw [harrives]; rfl, ?_⟩
    rw [hnext, hflits, hwaits, hline, harrives, hu]
    exact ⟨rfl, rfl, rfl, rfl⟩

/-- A flit taken in its turn: one whose CRC is wrong, or whose sequence number is another, asks for replay; one in sequence joins its frame. -/
theorem flitReceive_takes (group corr : Nat) (bad : Bool) (bytes : List Byte) (hg : group < 16) (hin : (rxMask s p).testBit group = true)
    (hwait : (s.port p).rxWait = []) (hturn : turnAfter (rxMask s p) (s.port p).rxTurn = group) :
    ∃ t, exec (.flitReceive p group corr bad bytes) s = .next t
      ∧ (leNat (sliceB bytes 252 4) ≠ crc32 (sliceB bytes 0 252) →
          FecCounted s t p group corr bad ∧ (t.port p).rxTurn = group ∧ (t.port p).rxWait = [] ∧ (t.port p).lineRx = ((s.port p).lineRx + 1) % 2 ^ 32
            ∧ (t.port p).nak = true ∧ (t.port p).rxNext = (s.port p).rxNext ∧ (t.port p).rxFlits = (s.port p).rxFlits
            ∧ t.rd (fCrcErrors p) = min (2 ^ 32 - 1) (s.rd (fCrcErrors p) + 1))
      ∧ (leNat (sliceB bytes 252 4) = crc32 (sliceB bytes 0 252) → nbits (leNat (sliceB bytes 0 4)) 31 30 ≠ 3 →
          (nbits (leNat (sliceB bytes 0 4)) 14 0 ≠ (s.port p).rxNext → (t.port p).nak = true ∧ (t.port p).rxFlits = (s.port p).rxFlits)
          ∧ (nbits (leNat (sliceB bytes 0 4)) 14 0 = (s.port p).rxNext → (s.port p).rxNext % 16 ≠ 15 →
              (t.port p).rxNext = ((s.port p).rxNext + 1) % 2 ^ 15 ∧ (t.port p).rxFlits = (s.port p).rxFlits ++ [bytes])) := by
  obtain ⟨v, w, hv, hvport, hvrd⟩ := flitArrives_taken (corr := corr) (bad := bad) (bytes := bytes) hlive hf hin hwait hturn
  have hview := portView_voteRefresh (p := p) (flitArrives s p group corr bad bytes)
  have hses := session_of_portView hview
  have hline := port_linePassed v p
  have hvnext : (v.port p).rxNext = (s.port p).rxNext := by rw [hvport]
  rw [hvport] at hline
  refine ⟨_, (exec_flits hp hg s corr bad bytes).2.1, fun hcrc => ?_, fun hcrc hkind => ⟨fun hseq => ?_, fun hseq hmid => ?_⟩⟩
  · rw [flitTake_of_badCrc hcrc, hline] at hv
    have hcount : (flitArrives s p group corr bad bytes).rd (fCrcErrors p) = min (2 ^ 32 - 1) (s.rd (fCrcErrors p) + 1) := by
      rw [hv, State.rd_putPort, rd_inc_self _ (by simp [fCrcErrors]) (by simp [fCrcErrors])]
      exact congrArg (fun n => min (2 ^ 32 - 1) (n + 1)) ((hvrd _).trans ((fecCount_keeps s p group corr bad).2 (o := 0x28) (by decide)))
    have hport : (flitArrives s p group corr bad bytes).port p = _ := (congrArg (State.port · p) hv).trans (State.port_putPort ..)
    refine ⟨fecCounted_of_view hp hg hview fun hi lo => ?_, ?_⟩
    · rw [hv, State.rd_putPort, State.inc, State.rd_wr_ne _ _ _ _ (by unfold fGrpFld fCrcErrors aLnk; dsimp only; omega)]
      exact hvrd _
    · rw [session_field hses PortSt.rxTurn fun _ => rfl, session_field hses PortSt.rxWait fun _ => rfl, session_field hses PortSt.lineRx fun _ => rfl,
        session_field hses PortSt.nak fun _ => rfl, session_field hses PortSt.rxNext fun _ => rfl, session_field hses PortSt.rxFlits fun _ => rfl, hport]
      exact ⟨rfl, rfl, rfl, rfl, rfl, rfl, (rd_lnk_of_portView hp hview (by decide)).trans hcount⟩
  · rw [flitTake_of_badSeq hcrc hkind (by rwa [hvnext]), hline] at hv
    rw [session_field hses PortSt.nak fun _ => rfl, session_field hses PortSt.rxFlits fun _ => rfl, hv, State.port_putPort]
    exact ⟨rfl, rfl⟩
  · rw [flitTake_of_inSequence hcrc hkind (by rwa [hvnext]) (by rwa [hvnext]), hline] at hv
    rw [session_field hses PortSt.rxNext fun _ => rfl, session_field hses PortSt.rxFlits fun _ => rfl, hv, State.port_putPort]
    exact ⟨rfl, rfl⟩

/-- An oldest flit that has waited too long for its acknowledgement starts a replay, or takes the port down at the limit (11 R215). -/
theorem ackTimeout_acts {f : SentFlit} {l : List SentFlit} (hbuf : (s.port p).replayBuf = f :: l) (hreplay : (s.port p).replay = none) :
    ((s.mile + 2 ^ 64 - f.t0) % 2 ^ 64 ≤ ackTicks s p → exec (.ackTimeout p) s = .next (voteRefresh s))
    ∧ (ackTicks s p < (s.mile + 2 ^ 64 - f.t0) % 2 ^ 64 →
        let limit := if s.rd ⟨aLnk p 0, 23, 20⟩ = 0 then 8 else s.rd ⟨aLnk p 0, 23, 20⟩
        (f.times < limit →
          ∃ t, exec (.ackTimeout p) s = .next t ∧ (t.port p).replay = some 0 ∧ t.rd (fReplays p) = min (2 ^ 32 - 1) (s.rd (fReplays p) + 1))
        ∧ (limit ≤ f.times → ∃ t, exec (.ackTimeout p) s = .next t ∧ PortDropped t p 2)) := by
  have hexec := (exec_flits hp (group := 0) (by decide) s 0 false []).2.2
  have hview := portView_voteRefresh (p := p) (ackTimeout s p)
  have hack : ackTimeout s p = if ackTicks s p < (s.mile + 2 ^ 64 - f.t0) % 2 ^ 64 then startReplay s p else s := by
    rw [ackTimeout, hbuf, hreplay]
    simp [hlive, hf]
  refine ⟨fun hyoung => ?_, fun hold => ?_⟩
  · rw [hexec, hack, if_neg (not_lt.2 hyoung)]
  rw [hack, if_pos hold] at hview
  rw [hack, if_pos hold] at hexec
  intro limit
  have hdue : replayDue s p = (true, decide (limit ≤ f.times)) := by rw [replayDue, hbuf]
  refine ⟨fun hbelow => ?_, fun hat => ?_⟩
  · have hstart : startReplay s p = (s.inc (fReplays p)).modPort p fun g => { g with replay := some 0 } := by
      rw [startReplay, hdue, decide_eq_false (not_le.2 hbelow)]
    rw [hstart] at hview hexec
    refine ⟨_, hexec, (session_field (session_of_portView hview) PortSt.replay fun _ => rfl).trans ?_, (rd_lnk_of_portView hp hview (by decide)).trans ?_⟩
    · rw [State.modPort, State.port_putPort]
    · exact rd_inc_self s (f := fReplays p) (by simp [fReplays]) (by simp [fReplays])
  · have hstart : startReplay s p = portDown s p 0x02 0 false := by rw [startReplay, hdue, decide_eq_true hat]
    rw [hstart] at hview hexec
    exact ⟨_, hexec, (portDropped_portDown hp hlive hview).1⟩

end

/-- Settles O42: a flit sent, one that arrives, an acknowledgement that stays away, and a short darkness. -/
theorem flitsLeaveAndArrive : Obligations.FlitsLeaveAndArrive := by
  unfold Obligations.FlitsLeaveAndArrive
  intro s p hp hlive hf
  refine ⟨fun hgroups hreplay hroom hctlq hrekey hdark hframes =>
      flitTransmit_sends hp ⟨hlive, hf, hgroups, hreplay, hroom, hctlq, hrekey, hframes⟩ hdark,
    fun group corr bad bytes hg => ⟨(flitReceive_keeps hp hlive hf group corr bad bytes hg).1, fun hin hwait =>
      ⟨(flitReceive_keeps hp hlive hf group corr bad bytes hg).2 hin hwait, flitReceive_takes hp hlive hf group corr bad bytes hg hin hwait⟩⟩,
    fun f l hbuf hreplay => ackTimeout_acts hp hlive hf hbuf hreplay, run_of_wf (c := .laneRelock) rfl⟩

end Sys2Proof.Machine

namespace Sys2Proof.Machine
open Sys2Proof

/-! ## O46: a port that stays up although nothing voted for it (11 R226)

The frame that carries the acknowledgement of a dark request also counts itself. The statement asks for no vote before that count, the model
judges the votes after it. In a state of the model's type the two differ: the partition of a barge is any number, and the remote-target
entry of partition 4148 and entry 2 (13 R256) lies at the offset of port 15's frame counter. No partition of the module has that number. -/

/-- A barge of partition 4148 whose destination lies behind remote-target entry 2. -/
def strayBarge : Barge :=
  { id := 0, part := 4148, engine := 0, chan := 0, src := 0, dst := regWindow + 0x82000000, rowBytes := 4, rows := 1, srcPitch := 0
    dstPitch := 0, transpose := 0, done := none, release := none, origin := .dump }

/-- Port 15 is Up and idle, all else in its low form, a dark acknowledgement on its way in the frame that its next flit ends; module 1 has a
route through the port, and the barge's entry names module 0 until a frame has been counted. -/
def votedByFrame : State :=
  { barges := [strayBarge], ports := [(15, { darkSent := true, txSeq := 15 })]
    power := { dom := (List.range 60 ++ [120, 121, 122, 123]).map fun d => (d, .low) }
    regs := [(aLnk 15 0x10, 0x3000_FFFF_FFFF_0000#64), (0x500000, 0xFC00_0000_0000_0001#64)] }

/-- The votes before and after the frame has been counted. -/
theorem portVotes_votedByFrame : portVotes votedByFrame 15 = 0 ∧ portVotes (votedByFrame.wr (fTxFrames 15) 1) 15 = 1 := by decide +kernel

/-- What the clause asks of the state besides. -/
theorem votedByFrame_asksDark : portUp votedByFrame 15 = true ∧ allLow votedByFrame.power.dom = true ∧ portIdle votedByFrame 15 = true
    ∧ txMask votedByFrame 15 ≠ 0 ∧ votedByFrame.rd (fTxFrames 15) < 2 ^ 47 - 1 := by decide +kernel

/-- The port's state after the frame's last flit. -/
theorem flitTransmit_votedByFrame :
    (match exec (.flitTransmit 15) votedByFrame with | .next t => decide (t.rd (fPortState 15) = portUpCode) | _ => false) = true := by decide +kernel

/-- Refutes O46: the count of the frame that carries a dark acknowledgement gives a stray barge's route a vote for the port, which stays Up. -/
theorem not_portsGoDarkAndReturn : ¬ Obligations.PortsGoDarkAndReturn := by
  unfold Obligations.PortsGoDarkAndReturn
  intro h
  obtain ⟨-, hsent, -⟩ := h votedByFrame 15 (by decide) (by decide +kernel)
  obtain ⟨hup, hlow, hidle, hgroups, hframes⟩ := votedByFrame_asksDark
  obtain ⟨t, b, hexec, -, hdark, -⟩ := hsent hup rfl portVotes_votedByFrame.1 hlow hidle hgroups rfl (by decide) rfl rfl hframes rfl
  have hstays := flitTransmit_votedByFrame
  rw [hexec] at hstays
  exact absurd (hdark.symm.trans (of_decide_eq_true hstays)) (by decide)

end Sys2Proof.Machine

namespace Sys2Proof.Machine
open Sys2Proof

/-! ## O45: hail (11 R222 to R226) -/

/-! ### What the steps of hail leave alone of the port -/

section
variable {p : Nat}

theorem portView_putTrust (s : State) (t : TrustSt) : portView p (s.putTrust t) = portView p s :=
  putTrust_keeps (g := portView p) (fun _ _ => rfl) (fun s o v ho => portView_setReg s v (.inl (by omega))) s t

theorem portView_attPush (s : State) (q : AttReq) : portView p (attPush s q) = portView p s := by
  rw [attPush, attServe, portView_putTrust, portView_putTrust]

theorem portView_reportTry (s : State) (q : Nat) : portView p (reportTry s q) = portView p s := by
  unfold reportTry
  split
  · exact portView_ite ((portView_attPush ..).trans (portView_modPort _ _ fun _ => rfl)) rfl
  · rfl

theorem portView_wrs {α : Type} (f : α → Fld) (v : State → α → Nat) (hf : ∀ x, 0x410000 ≤ (f x).off) (l : List α) (s : State) :
    portView p (l.foldl (fun t x => t.wr (f x) (v t x)) s) = portView p s :=
  foldl_keeps (fun t x => portView_wr t _ (hf x)) l s

theorem portView_matrixPut (s : State) (q g : Nat) (m : Nat → Nat → Nat) : portView p (matrixPut s q g m) = portView p s :=
  portView_wrs (fun k => fXtalk q g (k / 16) (k % 16)) (fun _ k => m (k / 16) (k % 16)) (fun _ => le_aOpt ..) _ s

theorem le_fHeater (q r : Nat) : 0x410000 ≤ (fHeater q r).off := by
  unfold fHeater
  split
  · exact le_aOpt ..
  · exact le_aOpt ..

theorem portView_driveGroup (s : State) (q g : Nat) : portView p (driveGroup s q g) = portView p s := by
  unfold driveGroup
  split
  next h _ => exact portView_wrs (fun i => fHeater q (16 * g + i)) (fun _ i => lget 0 h i) (fun _ => le_fHeater ..) _ s
  · rfl

theorem portView_headroom (s : State) (q : Nat) : portView p (headroom s q) = portView p s := portView_wr s _ (le_aOpt ..)

theorem portView_laneCalib (s : State) (q l : Nat) (r : LaneRead) : portView p (laneCalib s q l r) = portView p s := by
  have hlevels : portView p (laneLevels s q l r) = portView p s := by
    rw [laneLevels, portView_wrAll _ (by simp [fRxLane, le_aOpt])]
    refine portView_modPort _ _ ?_
    exact fun _ => rfl
  rw [laneCalib, portView_wrAll _ (by simp [fRxLane, le_aOpt]), ← hlevels]
  refine portView_modPort _ _ ?_
  exact fun _ => rfl

theorem portView_matricesRejected (s : State) (q : Nat) (bad : List Nat) : portView p (matricesRejected s q bad) = portView p s :=
  foldl_keeps (fun t _ => (portView_optEvent ..).trans (portView_wr t _ (le_aOpt ..))) bad s

theorem portView_learn (s : State) (q m : Nat) : portView p (learn s q m) = portView p s := by
  unfold learn
  dsimp only
  split
  · rfl
  · split
    · exact portView_setReg s _ (.inl (by unfold aRouteEx; omega))
    · exact portView_inc s (by simp [fLearnFull])

/-! The milestone counter's corrections change the offsets and the timestamps of the ports alone. -/

/-- A port's record with its offsets moved. -/
def offsetMoved (n : Int) (g : PortSt) : PortSt := { g with offsets := g.offsets.map (· + n) }

theorem port_offsetsMoved (s : State) (n : Int) (hp : (s.port p).offsets ≠ []) : (offsetsMoved s n).port p = offsetMoved n (s.port p) := by
  have hlisted : tget port0 s.ports p ≠ port0 p := fun e => hp (congrArg PortSt.offsets e)
  have hstays : offsetMoved n (s.port p) ≠ port0 p := fun e => hp (List.map_eq_nil_iff.1 (congrArg PortSt.offsets e))
  exact tget_tmap_of_listed (F := fun _ => offsetMoved n) s.ports hlisted hstays

theorem portView_offsetsMoved (s : State) (n : Int) (hp : (s.port p).offsets ≠ []) : portView p (offsetsMoved s n) = portView p s := by
  have hsession : ((offsetsMoved s n).port p).session = (s.port p).session := by rw [port_offsetsMoved s n hp]; rfl
  exact congrArg (fun r => { portView p s with session := r }) hsession

theorem portView_stampAll (s : State) : portView p (stampAll s) = portView p s := by
  refine foldl_keeps (fun t q => ?_) _ s
  refine portView_ite (portView_modPort _ _ ?_) rfl
  exact fun _ => rfl

theorem portView_mileJump (s : State) (n : Nat) : portView p (mileJump s n) = portView p s := by
  unfold mileJump
  dsimp only
  have hset : portView p (if s.mile + n < 2 ^ 64 then { s with mile := s.mile + n } else { mileWrap s with mile := (s.mile + n) % 2 ^ 64 }) = portView p s :=
    portView_ite rfl rfl
  exact portView_ite ((portView_stampAll _).trans hset) hset

theorem portView_mileCorrect (s : State) (off : Int) (hp : (s.port p).offsets ≠ []) : portView p (mileCorrect s off) = portView p s := by
  have hmoved : ∀ (m : MileSt) k v, portView p ((offsetsMoved { s with mileSt := m } k).wr fMileState v) = portView p s := fun m k v =>
    (portView_wr _ v (by simp [fMileState])).trans (portView_offsetsMoved { s with mileSt := m } k hp)
  have hjump : ∀ (m : MileSt) k n v, portView p ((mileJump (offsetsMoved { s with mileSt := m } k) n).wr fMileState v) = portView p s := fun m k n v =>
    (portView_wr _ v (by simp [fMileState])).trans ((portView_mileJump ..).trans (portView_offsetsMoved { s with mileSt := m } k hp))
  unfold mileCorrect
  refine portView_ite ?_ (portView_ite (portView_ite rfl ?_) (portView_ite ?_ ?_))
  · rw [portView_mileEvent, hjump]
  · rw [portView_mileEvent]; rfl
  · exact hjump ..
  · exact hmoved ..

theorem portView_mileFollow (s : State) : portView p (mileFollow s p) = portView p s := by
  unfold mileFollow
  split
  case isFalse => rfl
  case isTrue h =>
    obtain ⟨-, -, hoffsets⟩ := h
    have hne : ((s.wr fOffset (sclamp 16 (meanOffset (s.port p).offsets))).port p).offsets ≠ [] := fun e => by
      rw [State.port_wr] at e
      simp [e] at hoffsets
    dsimp only
    have hcorrect := (portView_mileCorrect _ (meanOffset (s.port p).offsets) hne).trans (portView_wr s _ (by simp [fOffset]))
    refine portView_ite (Eq.trans (portView_modPort _ _ ?_) hcorrect) hcorrect
    exact fun _ => rfl

end

end Sys2Proof.Machine

namespace Sys2Proof.Machine
open Sys2Proof

/-! ### Where hail is, what this end has said, and a backoff (11 R223, R224) -/

/-- A port in hail is at a step, without a backoff. -/
def HailAt (t : State) (p k : Nat) : Prop := t.rd (fHailStep p) = k ∧ t.rd (fPortState p) = 2 ∧ (t.port p).backoff = false

/-- A message has gone out, and stands for its retries. -/
def HailSaid (s t : State) (p : Nat) (m : List Byte) : Prop := t.hailOut = s.hailOut ++ [(p, m)] ∧ (t.port p).hailMsg = [m]

/-- A port backs off from its attempt, in a state of its registers. -/
def BacksOff (s t : State) (p state : Nat) : Prop :=
  (t.port p).backoff = true ∧ t.rd (fPortState p) = state ∧ t.rd (fHailFails p) = min 255 (s.rd (fHailFails p) + 1)
    ∧ t.rd (fBackoffS p) = 2 ^ min 6 (min 255 (s.rd (fHailFails p) + 1) - 1)

section
variable {s t u : State} {p k : Nat} (hp : p < 16)

theorem HailSaid.of_view {m : List Byte} (h : portView p t = portView p u) (hsaid : HailSaid s u p m) : HailSaid s t p m := by
  obtain ⟨hout, hmsg⟩ := hsaid
  exact ⟨(hailOut_of_portView h).trans hout, (session_field (session_of_portView h) PortSt.hailMsg fun _ => rfl).trans hmsg⟩

include hp

theorem HailAt.of_view (h : portView p t = portView p u) (hat : HailAt u p k) : HailAt t p k := by
  obtain ⟨hstep, hstate, hback⟩ := hat
  exact ⟨(rd_lnk_of_portView hp h (by decide)).trans hstep, (rd_lnk_of_portView hp h (by decide)).trans hstate,
    (session_field (session_of_portView h) PortSt.backoff fun _ => rfl).trans hback⟩

theorem BacksOff.of_view {state : Nat} (h : portView p t = portView p u) (hback : BacksOff s u p state) : BacksOff s t p state := by
  obtain ⟨hback, hstate, hfails, hsecs⟩ := hback
  exact ⟨(session_field (session_of_portView h) PortSt.backoff fun _ => rfl).trans hback, (rd_lnk_of_portView hp h (by decide)).trans hstate,
    (rd_lnk_of_portView hp h (by decide)).trans hfails, (rd_lnk_of_portView hp h (by decide)).trans hsecs⟩

/-- The commands of hail. -/
theorem exec_hail (s : State) (h : HailInfo) :
    exec (.lightDetected p) s = .next (voteRefresh (lightSeen s p))
    ∧ exec (.hailStepDone p h) s = .next (voteRefresh (hailStep s p h fun t => blkApply stagedAct t (.port p)))
    ∧ exec (.hailAttemptTimeout p) s = .next (voteRefresh (hailTimeout s p))
    ∧ exec (.hailBackoffExpiry p) s = .next (voteRefresh (backoffOver s p))
    ∧ exec (.lossOfLight p) s = .next (voteRefresh (if s.isFatal then s else portDown s p 0x01 0 false)) :=
  ⟨run_of_wf (c := .lightDetected p) (decide_eq_true hp), run_of_wf (c := .hailStepDone p h) (decide_eq_true hp),
    run_of_wf (c := .hailAttemptTimeout p) (decide_eq_true hp), run_of_wf (c := .hailBackoffExpiry p) (decide_eq_true hp),
    run_of_wf (c := .lossOfLight p) (decide_eq_true hp)⟩

omit hp

/-- The step is written next to a port's state. -/
theorem hailAt_wr_step (hk : k < 16) (hstate : u.rd (fPortState p) = 2) (hback : (u.port p).backoff = false) : HailAt (u.wr (fHailStep p) k) p k :=
  ⟨(State.rd_wr_self _ _ _ (by simp [fHailStep]) (by simp [fHailStep])).trans (Nat.mod_eq_of_lt hk),
    (rd_wr_apart _ _ (by simp [Fld.apart, fHailStep, fPortState])).trans hstate, (congrArg PortSt.backoff (State.port_wr ..)).trans hback⟩

/-- A message said changes nothing but what has been said. -/
theorem hailSay_said (u : State) (p step : Nat) (parts : List (List Byte)) :
    HailSaid u (hailSay u p step parts) p (withCrc (Config.hailBody step parts))
    ∧ (hailSay u p step parts).port p = { u.port p with hailMsg := [withCrc (Config.hailBody step parts)] }
    ∧ ∀ f, (hailSay u p step parts).rd f = u.rd f := by
  have hport : (hailSay u p step parts).port p = { u.port p with hailMsg := [withCrc (Config.hailBody step parts)] } :=
    State.port_putPort u p _
  exact ⟨⟨rfl, by rw [hport]⟩, hport, fun _ => rfl⟩

/-! ### Light, and this end's hello (11 R223; 15 R291) -/

theorem helloSay_speaks (hat : HailAt u p k) : HailAt (helloSay u p) p k ∧ ∃ b, HailSaid u (helloSay u p) p (withCrc b) := by
  obtain ⟨hstep, hstate, hback⟩ := hat
  unfold helloSay
  dsimp only
  generalize hg : Config.publicKey _ = key
  obtain ⟨hsaid, hport, hrd⟩ := hailSay_said ((fresh (fresh u 32).2 48).2.modPort p fun g => { g with nonce := (fresh u 32).1, priv := (fresh (fresh u 32).2 48).1 }) p 2
    [(fresh u 32).1, Config.capability, key]
  refine ⟨⟨(hrd _).trans hstep, (hrd _).trans hstate, ?_⟩, _, hsaid⟩
  rw [hport, State.modPort, State.port_putPort]
  exact hback

/-- Light begins an attempt (11 R223). -/
def lightBegins (u : State) (p : Nat) : State := helloSay ((u.wr (fHailStep p) 2).inc (fHailCount p)) p

theorem HailAt.wr (hat : HailAt u p k) {f : Fld} (v : Nat) (hstep : f.apart (fHailStep p) = true) (hstate : f.apart (fPortState p) = true) :
    HailAt (u.wr f v) p k := by
  obtain ⟨hk, h2, hback⟩ := hat
  exact ⟨(rd_wr_apart _ _ hstep).trans hk, (rd_wr_apart _ _ hstate).trans h2, (congrArg PortSt.backoff (State.port_wr ..)).trans hback⟩

theorem lightBegins_speaks (hstate : u.rd (fPortState p) = 2) (hback : (u.port p).backoff = false) :
    HailAt (lightBegins u p) p 2 ∧ ∃ b, HailSaid u (lightBegins u p) p (withCrc b) := by
  have hcounted : HailAt ((u.wr (fHailStep p) 2).inc (fHailCount p)) p 2 := (hailAt_wr_step (by decide) hstate hback).wr _
    (by simp [Fld.apart, fHailStep, fHailCount, aLnk]) (by simp [Fld.apart, fHailCount, fPortState, aLnk])
  obtain ⟨hat, b, hout, hmsg⟩ := helloSay_speaks hcounted
  rw [State.inc, State.wr_hailOut, State.wr_hailOut] at hout
  exact ⟨hat, b, hout, hmsg⟩

include hp

theorem lightDetected_inHail (hf : s.isFatal = false) (hat : HailAt s p 1) :
    ∃ t b, exec (.lightDetected p) s = .next t ∧ HailAt t p 2 ∧ HailSaid s t p (withCrc b) := by
  obtain ⟨hstep, hstate, hback⟩ := hat
  obtain ⟨hat, b, hsaid⟩ := lightBegins_speaks hstate hback
  have hview := portView_voteRefresh (p := p) (lightSeen s p)
  have hseen : lightSeen s p = lightBegins s p := by
    rw [lightSeen]
    dsimp only
    rw [if_neg (by simp [hf]), if_pos ⟨hstate, hstep, by simp [hback]⟩]
    rfl
  rw [hseen] at hview
  exact ⟨_, b, (exec_hail hp s {}).1.trans (by rw [hseen]), hat.of_view hp hview, hsaid.of_view hview⟩

theorem lightDetected_dark (hf : s.isFatal = false) (hdark : portDark s p = true) :
    ∃ t b, exec (.lightDetected p) s = .next t ∧ HailAt t p 2 ∧ HailSaid s t p (withCrc b) := by
  have hstate : s.rd (fPortState p) = 1 := of_decide_eq_true hdark
  obtain ⟨hstate', -, hback⟩ := hailBegin_shown hp hf (rfl : portView p (hailBegin s p) = _)
  obtain ⟨hat, b, hsaid⟩ := lightBegins_speaks hstate' hback
  have hview := portView_voteRefresh (p := p) (lightSeen s p)
  have hseen : lightSeen s p = lightBegins (hailBegin s p) p := by
    rw [lightSeen]
    dsimp only
    rw [if_neg (by simp [hf]), if_neg (by simp [hstate]), if_pos hstate]
    rfl
  have hout : (hailBegin s p).hailOut = s.hailOut := by
    rw [hailBegin, if_neg (by simp [hf]), hailOut_of_portView (p := p) (portView_portLight ..), State.modPort, State.putPort_hailOut, portShow]
    exact State.wrAll_keeps State.hailOut State.wr_hailOut _ s
  rw [hseen] at hview
  refine ⟨_, b, (exec_hail hp s {}).1.trans (by rw [hseen]), hat.of_view hp hview, HailSaid.of_view hview ?_⟩
  obtain ⟨hsaid, hmsg⟩ := hsaid
  exact ⟨hsaid.trans (by rw [hout]), hmsg⟩

/-! ### A failed attempt, its backoff, and the end of light (11 R222, R224, R225) -/

omit hp in
theorem hailFail_backsOff (refused : Bool) (hview : portView p t = portView p (hailFail s p refused)) (hp : p < 16) :
    BacksOff s t p (if refused then 4 else 2) := by
  have hfails : satAdd 8 (s.rd (fHailFails p)) 1 = min 255 (s.rd (fHailFails p) + 1) := min_comm ..
  have hsecs : 2 ^ min 6 (min 255 (s.rd (fHailFails p) + 1) - 1) < 2 ^ 8 := Nat.pow_lt_pow_right (by decide) (by omega)
  unfold hailFail at hview
  dsimp only at hview
  rw [portView_chooseUpstream, portView_portEvent, hfails] at hview
  refine BacksOff.of_view hp hview ?_
  generalize hu : (s.modPort p fun g => { sessionClear g with outq := g.outq, backoff := true }) = u
  have hport : (u.port p).backoff = true := by rw [← hu, State.modPort, State.port_putPort]
  generalize hl : [(fPortState p, if refused then 4 else 2), (fHailFails p, min 255 (s.rd (fHailFails p) + 1)),
    (fBackoffS p, 2 ^ min 6 (min 255 (s.rd (fHailFails p) + 1) - 1)), (fTxGroups p, 0), (fRxGroups p, 0), (fRekeyPend p, 0), (fSwitchPend p, 0)] = l
  have hrd : ∀ {f : Fld} {v : Nat}, f.lo ≤ f.hi → f.hi < 64 → (f, v) ∈ l → (u.wrAll l).rd f = v % 2 ^ (f.hi + 1 - f.lo) := fun hl' hh hm =>
    rd_wrAll_mem hl' hh _ (by simp [← hl, Fld.apart, fPortState, fHailFails, fBackoffS, fTxGroups, fRxGroups, fRekeyPend, fSwitchPend]) hm u
  refine ⟨(congrArg PortSt.backoff (State.wrAll_keeps (fun t => t.port p) (fun _ _ _ => rfl) l u)).trans hport, ?_, ?_, ?_⟩
  · rw [hrd (v := if refused then 4 else 2) (by simp [fPortState]) (by simp [fPortState]) (by simp [← hl])]
    cases refused <;> rfl
  · rw [hrd (v := min 255 (s.rd (fHailFails p) + 1)) (by simp [fHailFails]) (by simp [fHailFails]) (by simp [← hl])]
    exact Nat.mod_eq_of_lt (by simp only [fHailFails]; omega)
  · rw [hrd (v := 2 ^ min 6 (min 255 (s.rd (fHailFails p) + 1) - 1)) (by simp [fBackoffS]) (by simp [fBackoffS]) (by simp [← hl])]
    exact Nat.mod_eq_of_lt hsecs

theorem hailAttemptTimeout_backsOff (hf : s.isFatal = false) (hat : HailAt s p k) (hk : 2 ≤ k) :
    ∃ t, exec (.hailAttemptTimeout p) s = .next t ∧ BacksOff s t p 2 := by
  obtain ⟨hstep, hstate, hback⟩ := hat
  have hfails : hailTimeout s p = hailFail s p false := if_pos ⟨hstate, by simp [hback], by omega, by simp [hf]⟩
  have hview := portView_voteRefresh (p := p) (hailTimeout s p)
  rw [hfails] at hview
  exact ⟨_, (exec_hail hp s {}).2.2.1.trans (by rw [hfails]), hailFail_backsOff false hview hp⟩

theorem hailBackoffExpiry_begins (hf : s.isFatal = false) (hback : (s.port p).backoff = true) :
    ∃ t, exec (.hailBackoffExpiry p) s = .next t ∧ HailAt t p 1 := by
  have hover : backoffOver s p = (s.modPort p fun g => { g with backoff := false }).wrAll [(fPortState p, 2), (fHailStep p, 1), (fBackoffS p, 0)] :=
    if_pos ⟨hback, by simp [hf]⟩
  have hview := portView_voteRefresh (p := p) (backoffOver s p)
  refine ⟨_, (exec_hail hp s {}).2.2.2.1, HailAt.of_view hp hview ?_⟩
  rw [hover]
  generalize hu : (s.modPort p fun g => { g with backoff := false }) = u
  have hport : (u.port p).backoff = false := by rw [← hu, State.modPort, State.port_putPort]
  have hrd : ∀ {f : Fld} {v : Nat}, f.lo ≤ f.hi → f.hi < 64 → (f, v) ∈ [(fPortState p, 2), (fHailStep p, 1), (fBackoffS p, 0)] →
      (u.wrAll [(fPortState p, 2), (fHailStep p, 1), (fBackoffS p, 0)]).rd f = v % 2 ^ (f.hi + 1 - f.lo) := fun hl hh hm =>
    rd_wrAll_mem hl hh _ (by simp [Fld.apart, fPortState, fHailStep, fBackoffS]) hm u
  exact ⟨hrd (v := 1) (by simp [fHailStep]) (by simp [fHailStep]) (by simp), hrd (v := 2) (by simp [fPortState]) (by simp [fPortState]) (by simp),
    (congrArg PortSt.backoff (State.wrAll_keeps (fun t => t.port p) (fun _ _ _ => rfl) _ u)).trans hport⟩

theorem lossOfLight_drops (hf : s.isFatal = false) (hlive : portLive s p = true) :
    ∃ t, exec (.lossOfLight p) s = .next t ∧ PortDropped t p 2 ∧ t.rd (fHailStep p) = 1 := by
  have hview := portView_voteRefresh (p := p) (portDown s p 0x01 0 false)
  obtain ⟨hdropped, hstep⟩ := portDropped_portDown hp hlive hview
  exact ⟨_, (exec_hail hp s {}).2.2.2.2.trans (by rw [if_neg (by simp [hf])]), hdropped, hstep rfl⟩

end

end Sys2Proof.Machine

namespace Sys2Proof.Machine
open Sys2Proof

/-! ### The steps of hail (11 R223) -/

section
variable {s t u : State} {p k : Nat} {h : HailInfo}

/-- What the end of a hail step does, but for what the votes leave alone. -/
theorem hailStepDone_view (hp : p < 16) (hu : hailStep s p h (fun t => blkApply stagedAct t (.port p)) = u) :
    ∃ t, exec (.hailStepDone p h) s = .next t ∧ portView p t = portView p u :=
  ⟨_, (exec_hail hp s h).2.1, (portView_voteRefresh ..).trans (congrArg (portView p) hu)⟩

theorem HailAt.inHail (hat : HailAt s p k) (hf : s.isFatal = false) : ¬(s.rd (fPortState p) ≠ 2 ∨ (s.port p).backoff = true ∨ s.isFatal = true) := by
  obtain ⟨-, hstate, hback⟩ := hat
  simp [hstate, hback, hf]

theorem HailAt.modPort (hat : HailAt u p k) {f : PortSt → PortSt} (hback : ∀ g, (f g).backoff = g.backoff) : HailAt (u.modPort p f) p k := by
  obtain ⟨hstep, hstate, hb⟩ := hat
  exact ⟨hstep, hstate, by rw [State.modPort, State.port_putPort, hback, hb]⟩

/-! ### Step 2: the partner's hello, and this end's authentication -/

/-- What the partner said of its own, and this end's key, in the record of a port. -/
def HelloKept (t : State) (p : Nat) (h : HailInfo) (key : List Byte) : Prop :=
  (t.port p).hisNonce = h.nonce ∧ (t.port p).hisCap = h.cap ∧ (t.port p).hisKey = h.key ∧ (t.port p).myKey = key

theorem HelloKept.of_view {key : List Byte} (e : portView p t = portView p u) (hkept : HelloKept u p h key) : HelloKept t p h key := by
  obtain ⟨hnonce, hcap, hkey, hmine⟩ := hkept
  have hses := session_of_portView e
  exact ⟨(session_field hses PortSt.hisNonce fun _ => rfl).trans hnonce, (session_field hses PortSt.hisCap fun _ => rfl).trans hcap,
    (session_field hses PortSt.hisKey fun _ => rfl).trans hkey, (session_field hses PortSt.myKey fun _ => rfl).trans hmine⟩

/-- The state in which the partner's hello has been kept. -/
def helloKept (s : State) (p : Nat) (h : HailInfo) : State :=
  (s.modPort p fun g => { g with hisNonce := h.nonce, hisCap := h.cap, hisKey := h.key }).wr (fHailStep p) 3

theorem portView_hailHello (s : State) (p : Nat) (h : HailInfo) : portView p (hailHello s p h) = portView p (authSay (helloKept s p h) p) := by
  rw [hailHello, portView_reportTry]
  refine portView_modPort _ _ ?_
  exact fun _ => rfl

theorem port_helloKept (s : State) (p : Nat) (h : HailInfo) :
    (helloKept s p h).port p = { s.port p with hisNonce := h.nonce, hisCap := h.cap, hisKey := h.key } := by
  rw [helloKept, State.port_wr, State.modPort, State.port_putPort]

theorem authSay_speaks (hat : HailAt u p k) : HailAt (authSay u p) p k ∧ (∃ b, HailSaid u (authSay u p) p (withCrc b))
    ∧ (authSay u p).port p = { u.port p with myKey := Config.publicKey u.trust.lik, hailMsg := ((authSay u p).port p).hailMsg } := by
  obtain ⟨hstep, hstate, hback⟩ := hat
  unfold authSay
  dsimp only
  generalize Config.ecdsaSign _ _ = sig
  obtain ⟨hsaid, hport, hrd⟩ := hailSay_said (u.putPort p { u.port p with myKey := Config.publicKey u.trust.lik }) p 3 [u.trust.chain, sig]
  rw [State.port_putPort] at hport
  refine ⟨⟨(hrd _).trans hstep, (hrd _).trans hstate, ?_⟩, ⟨_, hsaid⟩, ?_⟩
  · rw [hport]
    exact hback
  · rw [hport]

theorem hailHello_speaks (hp : p < 16) (hf : s.isFatal = false) (hat : HailAt s p 2) :
    ∃ t, exec (.hailStepDone p h) s = .next t ∧ HailAt t p 3 ∧ (∃ b, HailSaid s t p (withCrc b)) ∧ HelloKept t p h (Config.publicKey s.trust.lik) := by
  have hin := hat.inHail hf
  obtain ⟨hstep, hstate, hback⟩ := hat
  obtain ⟨t, hexec, hview⟩ := hailStepDone_view hp (s := s) (h := h) (u := hailHello s p h) (by rw [hailStep, if_neg hin, hstep]; rfl)
  rw [portView_hailHello] at hview
  have hkept : HailAt (helloKept s p h) p 3 := hailAt_wr_step (by decide) hstate (by rw [State.modPort, State.port_putPort]; exact hback)
  obtain ⟨hat, ⟨b, hout, hmsg⟩, hport⟩ := authSay_speaks hkept
  have hlik : (helloKept s p h).trust = s.trust := State.wr_trust ..
  have hsaid : (helloKept s p h).hailOut = s.hailOut := State.wr_hailOut ..
  rw [port_helloKept, hlik] at hport
  refine ⟨t, hexec, hat.of_view hp hview, ⟨b, HailSaid.of_view hview ⟨hout.trans (by rw [hsaid]), hmsg⟩⟩, HelloKept.of_view hview ?_⟩
  unfold HelloKept
  rw [hport]
  exact ⟨rfl, rfl, rfl, rfl⟩

/-! ### Step 3: authentication, and the reports exchanged (11 R225) -/

theorem trust_putTrust (s : State) (x : TrustSt) : (s.putTrust x).trust = x := State.wrAll_keeps State.trust (fun _ _ _ => rfl) _ _

theorem trust_attPush (s : State) (q : AttReq) : (attPush s q).trust.queue = s.trust.queue ++ [q] ∧ (attPush s q).trust.root = s.trust.root := by
  rw [attPush, attServe, trust_putTrust, trust_putTrust]
  exact ⟨rfl, rfl⟩

/-- A report owed stays owed until it has been signed; trying to queue it does not touch the installation root. -/
theorem reportTry_owed (s : State) (p : Nat) : reportOwed (reportTry s p) p = reportOwed s p ∧ (reportTry s p).trust.root = s.trust.root := by
  unfold reportTry
  split
  next n hn =>
    split
    · obtain ⟨hqueue, hroot⟩ := trust_attPush (s.modPort p fun g => { g with owed := none }) ⟨.hail p, n, false, 0, 0⟩
      refine ⟨?_, hroot⟩
      rw [reportOwed, reportOwed, hn, hqueue]
      simp
    · exact ⟨rfl, rfl⟩
  · exact ⟨rfl, rfl⟩

/-- The end of step 3 as it is decided: a partner that is not authentic, a report that is still missing, or the next step. -/
theorem hailAuth_eq (hp : p < 16) (s : State) (h : HailInfo) : hailAuth s p h =
    if s.trust.root.isEmpty = true ∨ (!h.auth) = true then hailFail (reportTry s p) p true
    else if s.flag (fAttestReq p) = true ∧ (!h.report || reportOwed s p) = true then reportTry s p
    else ((reportTry s p).modPort p fun g => { g with hisCert := h.cert, hailMsg := [] }).wr (fHailStep p) 4 := by
  obtain ⟨howed, hroot⟩ := reportTry_owed s p
  have hflag : (reportTry s p).flag (fAttestReq p) = s.flag (fAttestReq p) :=
    congrArg (fun n => decide (n = 1)) (rd_lnk_of_portView hp (portView_reportTry s p) (o := 0) (by decide))
  rw [hailAuth, howed, hroot, hflag]

section
variable (hp : p < 16) (hf : s.isFatal = false) (hat : HailAt s p 3)
include hp hf hat

theorem hailStepDone_auth (h : HailInfo) : ∃ t, exec (.hailStepDone p h) s = .next t ∧ portView p t = portView p (hailAuth s p h) := by
  have hin := hat.inHail hf
  obtain ⟨hstep, -⟩ := hat
  exact hailStepDone_view hp (by rw [hailStep, if_neg hin, hstep]; rfl)

theorem hailAuth_refuses (hauth : h.auth = false) : ∃ t, exec (.hailStepDone p h) s = .next t ∧ BacksOff s t p 4 := by
  obtain ⟨t, hexec, hview⟩ := hailStepDone_auth hp hf hat h
  rw [hailAuth_eq hp, if_pos (.inr (by simp [hauth]))] at hview
  have hfails : (reportTry s p).rd (fHailFails p) = s.rd (fHailFails p) := rd_lnk_of_portView hp (portView_reportTry s p) (by decide)
  have hback := hailFail_backsOff true hview hp
  rw [BacksOff, hfails] at hback
  exact ⟨t, hexec, hback⟩

variable (hroot : s.trust.root ≠ []) (hauth : h.auth = true)
include hroot hauth

theorem hailAuth_done (hreports : s.flag (fAttestReq p) = false ∨ (h.report = true ∧ reportOwed s p = false)) :
    ∃ t, exec (.hailStepDone p h) s = .next t ∧ HailAt t p 4 := by
  obtain ⟨t, hexec, hview⟩ := hailStepDone_auth hp hf hat h
  have hall : ¬(s.flag (fAttestReq p) = true ∧ (!h.report || reportOwed s p) = true) := by
    rcases hreports with hno | ⟨hhis, hown⟩
    · simp [hno]
    · simp [hhis, hown]
  rw [hailAuth_eq hp, if_neg (by simp [hroot, hauth]), if_neg hall] at hview
  have hkept : HailAt ((reportTry s p).modPort p fun g => { g with hisCert := h.cert, hailMsg := [] }) p 3 :=
    (hat.of_view hp (portView_reportTry s p)).modPort fun _ => rfl
  obtain ⟨-, hstate, hback⟩ := hkept
  exact ⟨t, hexec, (hailAt_wr_step (by decide) hstate hback).of_view hp hview⟩

theorem hailAuth_waits (hreports : ¬(s.flag (fAttestReq p) = false ∨ (h.report = true ∧ reportOwed s p = false))) :
    ∃ t, exec (.hailStepDone p h) s = .next t ∧ HailAt t p 3 ∧ t.hailOut = s.hailOut := by
  obtain ⟨t, hexec, hview⟩ := hailStepDone_auth hp hf hat h
  have hsome : s.flag (fAttestReq p) = true ∧ (!h.report || reportOwed s p) = true := by
    obtain ⟨hasked, hmissing⟩ := not_or.1 hreports
    refine ⟨by simpa using hasked, ?_⟩
    cases hr : h.report with
    | false => rfl
    | true => simpa [hr] using hmissing
  rw [hailAuth_eq hp, if_neg (by simp [hroot, hauth]), if_pos hsome, portView_reportTry] at hview
  exact ⟨t, hexec, hat.of_view hp hview, hailOut_of_portView hview⟩

end

/-! ### Steps 4 and 5: keys, and the lanes calibrated -/

theorem HailAt.foldl {α : Type} {f : State → α → State} (hstep : ∀ t x, HailAt t p k → HailAt (f t x) p k) (l : List α) (hat : HailAt u p k) :
    HailAt (l.foldl f u) p k := List.foldlRecOn l f hat fun t ht x _ => hstep t x ht

theorem HailAt.wr_grpState (hat : HailAt u p k) (g v : Nat) : HailAt (u.wr (fGrpState p g) v) p k :=
  hat.wr v (by simp [Fld.apart, fGrpState, fGrpFld, fHailStep, aLnk]) (by simp [Fld.apart, fGrpState, fGrpFld, fPortState, aLnk])

theorem hailKeys_at (hp : p < 16) (hat : HailAt s p 4) : HailAt (hailKeys s p) p 5 := by
  obtain ⟨-, hstate, hback⟩ := hat
  unfold hailKeys
  extract_lets g low secret salt keys s1 s2 s3
  have hone : HailAt (s1.inc (fKeyGen p)) p (s.rd (fHailStep p)) := by
    have hput : HailAt s1 p (s.rd (fHailStep p)) := ⟨rfl, hstate, (congrArg PortSt.backoff (State.port_putPort ..)).trans hback⟩
    exact hput.wr _ (by simp [Fld.apart, fKeyGen, fHailStep, aLnk]) (by simp [Fld.apart, fKeyGen, fPortState, aLnk])
  have htwo : HailAt s2 p 5 := by
    obtain ⟨-, hstate, hback⟩ := hone.wr (f := fTxFrames p) 0 (by simp [Fld.apart, fTxFrames, fHailStep, aLnk]) (by simp [Fld.apart, fTxFrames, fPortState, aLnk])
    exact hailAt_wr_step (by decide) hstate hback
  have hthree : HailAt s3 p 5 :=
    htwo.of_view hp (portView_ite rfl (portView_wr s2 _ (le_aOpt ..)))
  exact hthree.foldl (fun t x ht => ht.wr_grpState x 2) _

theorem hailLanes_at (hp : p < 16) (hat : HailAt s p k) : HailAt (hailLanes s p h) p 6 := by
  unfold hailLanes
  extract_lets m g0 ok lost keep tx rx s1 s2 s3 s4 s5 bad s6
  have hone : HailAt s1 p k := hat.foldl (fun t g ht => ht.of_view hp (portView_ite (portView_matrixPut ..) rfl)) _
  have htwo : HailAt s2 p k := hone.modPort fun _ => rfl
  have hthree : HailAt s3 p k := htwo.foldl (fun t g ht => ht.of_view hp (portView_driveGroup ..)) _
  have hfour : HailAt s4 p k := hthree.foldl (fun t l ht => ht.of_view hp ((portView_laneCalib ..).trans
    (portView_wrAll _ (by simp [fTxLane, fRxLane, le_aOpt])))) _
  have hfive : HailAt s5 p k := hfour.foldl (fun t g ht => ht.wr_grpState g _) _
  have hsix : HailAt s6 p k := hfive.of_view hp ((portView_matricesRejected ..).trans (portView_wr _ _ (le_aOpt ..)))
  have hgroups : HailAt ((s6.wr (fTxGroups p) tx).wr (fRxGroups p) rx) p k :=
    (hsix.wr tx (by simp [Fld.apart, fTxGroups, fHailStep]) (by simp [Fld.apart, fTxGroups, fPortState])).wr rx
      (by simp [Fld.apart, fRxGroups, fHailStep]) (by simp [Fld.apart, fRxGroups, fPortState])
  obtain ⟨-, hstate, hback⟩ := hgroups
  exact (hailAt_wr_step (by decide) hstate hback).of_view hp (portView_headroom ..)

theorem hailStepDone_keys (hp : p < 16) (hf : s.isFatal = false) (hat : HailAt s p 4) : ∃ t, exec (.hailStepDone p h) s = .next t ∧ HailAt t p 5 := by
  obtain ⟨t, hexec, hview⟩ := hailStepDone_view hp (s := s) (h := h) (u := hailKeys s p) (by rw [hailStep, if_neg (hat.inHail hf), hat.1]; rfl)
  exact ⟨t, hexec, (hailKeys_at hp hat).of_view hp hview⟩

theorem hailStepDone_lanes (hp : p < 16) (hf : s.isFatal = false) (hat : HailAt s p 5) : ∃ t, exec (.hailStepDone p h) s = .next t ∧ HailAt t p 6 := by
  obtain ⟨t, hexec, hview⟩ := hailStepDone_view hp (s := s) (h := h) (u := hailLanes s p h) (by rw [hailStep, if_neg (hat.inHail hf), hat.1]; rfl)
  exact ⟨t, hexec, (hailLanes_at hp hat).of_view hp hview⟩

end

end Sys2Proof.Machine

namespace Sys2Proof.Machine
open Sys2Proof

/-! ### Step 6: link start (11 R216, R223; 18 R335) -/

section
variable {s t u : State} {p k : Nat} {h : HailInfo}

/-- Nothing waits on a port: applying what does is the count of pending writes shown again. -/
theorem blkApply_of_quiet (act : State → Nat → Nat → Nat → State) {b : Blk} (hpend : s.pendingSt.filter (fun x => decide (regBlk x.1 = some b)) = [])
    (hstaged : stagedWaiting s b = []) : ∃ l, blkApply act s b = ({ s with pendingSt := l } : State).wr fStPending l.length := by
  refine ⟨s.pendingSt.filter fun x => !decide (regBlk x.1 = some b), ?_⟩
  rw [blkApply, hstaged, List.foldl_nil, applyPending, hpend]
  rfl

/-- Two states that agree on a port's own block, its record and what has been said. -/
def SameLink (s t : State) (p : Nat) : Prop :=
  (∀ o hi lo, t.rd ⟨aLnk p o, hi, lo⟩ = s.rd ⟨aLnk p o, hi, lo⟩) ∧ t.port p = s.port p ∧ t.hailOut = s.hailOut

theorem sameLink_blkApply (act : State → Nat → Nat → Nat → State) {b : Blk} (hpend : s.pendingSt.filter (fun x => decide (regBlk x.1 = some b)) = [])
    (hstaged : stagedWaiting s b = []) : SameLink s (blkApply act s b) p := by
  obtain ⟨l, e⟩ := blkApply_of_quiet act hpend hstaged
  rw [e]
  exact ⟨fun o hi lo => State.rd_wr_ne _ _ _ _ (by simp only [fStPending, aLnk]; omega), State.port_wr .., State.wr_hailOut ..⟩

theorem HailAt.sameLink (hat : HailAt s p k) (h : SameLink s t p) : HailAt t p k := by
  obtain ⟨hstep, hstate, hback⟩ := hat
  obtain ⟨hrd, hport, -⟩ := h
  exact ⟨(hrd ..).trans hstep, (hrd ..).trans hstate, by rw [hport, hback]⟩

/-- The credits in units of 16 flits that LNK_VC_CREDIT asks for, and the flits that this end grants. -/
def creditsAsked (s : State) (p : Nat) : List Nat := (List.range 8).map fun v => s.rd ⟨aLnk p 8, 8 * v + 7, 8 * v⟩
def creditsGranted (l : List Nat) : List Nat := if 1024 < l.sum then List.replicate 8 2048 else l.map (16 * ·)

/-- LNK_VC_CREDIT as link start leaves it. -/
def creditsSettled (s : State) (p : Nat) : State :=
  if (creditsAsked s p).sum > 1024 then (s.setReg (aLnk p 8) 0x8080808080808080#64).wr (fLnkCfgErr p) 1 else s

theorem creditsAsked_settled (s : State) (p : Nat) : (creditsAsked (creditsSettled s p) p).map (16 * ·) = creditsGranted (creditsAsked s p) := by
  unfold creditsSettled creditsGranted
  split
  · have heach : ∀ v < 8, ((s.setReg (aLnk p 8) 0x8080808080808080#64).wr (fLnkCfgErr p) 1).rd ⟨aLnk p 8, 8 * v + 7, 8 * v⟩ = 128 := fun v hv => by
      rw [State.rd_wr_ne _ _ _ _ (by simp [fLnkCfgErr, aLnk]), State.rd, State.reg_setReg]
      dsimp only
      revert v
      decide
    refine List.eq_replicate_iff.2 ⟨by simp [creditsAsked], fun b hb => ?_⟩
    simp only [creditsAsked, List.map_map, List.mem_map, List.mem_range, Function.comp_apply] at hb
    obtain ⟨v, hv, rfl⟩ := hb
    rw [heach v hv]
  · rfl

theorem HailAt.creditsSettled (hat : HailAt s p k) : HailAt (creditsSettled s p) p k := by
  unfold Machine.creditsSettled
  split
  · have hset : HailAt (s.setReg (aLnk p 8) 0x8080808080808080#64) p k := by
      obtain ⟨hstep, hstate, hback⟩ := hat
      have hrd : ∀ hi lo, (s.setReg (aLnk p 8) 0x8080808080808080#64).rd ⟨aLnk p 0x10, hi, lo⟩ = s.rd ⟨aLnk p 0x10, hi, lo⟩ := fun hi lo => by
        rw [State.rd, State.reg_setReg_ne _ _ (by simp [aLnk])]
        rfl
      exact ⟨(hrd ..).trans hstep, (hrd ..).trans hstate, (congrArg PortSt.backoff (State.port_setReg ..)).trans hback⟩
    exact hset.wr _ (by simp [Fld.apart, fLnkCfgErr, fHailStep]) (by simp [Fld.apart, fLnkCfgErr, fPortState])
  · exact hat

theorem hailOut_creditsSettled (s : State) (p : Nat) : (creditsSettled s p).hailOut = s.hailOut := by
  unfold creditsSettled
  split
  · rw [State.wr_hailOut, State.setReg_hailOut]
  · rfl

/-- The session of a link that has just started: the credits both ways, and every count at 0. -/
structure LinkStarted (g : PortSt) (grant credits : List Nat) : Prop where
  room : g.room = grant
  credits : g.credits = credits
  txSeq : g.txSeq = 0
  rxNext : g.rxNext = 0
  lineTx : g.lineTx = 0
  lineRx : g.lineRx = 0
  replayBuf : g.replayBuf = []

theorem LinkStarted.of_session {g g' : PortSt} {grant credits : List Nat} (e : g'.session = g.session) (hs : LinkStarted g grant credits) :
    LinkStarted g' grant credits where
  room := (session_field e PortSt.room fun _ => rfl).trans hs.room
  credits := (session_field e PortSt.credits fun _ => rfl).trans hs.credits
  txSeq := (session_field e PortSt.txSeq fun _ => rfl).trans hs.txSeq
  rxNext := (session_field e PortSt.rxNext fun _ => rfl).trans hs.rxNext
  lineTx := (session_field e PortSt.lineTx fun _ => rfl).trans hs.lineTx
  lineRx := (session_field e PortSt.lineRx fun _ => rfl).trans hs.lineRx
  replayBuf := (session_field e PortSt.replayBuf fun _ => rfl).trans hs.replayBuf

theorem linkReady_eq (hf : s.isFatal = false) (hat : HailAt s p 6) : linkReady s p =
    (decide (minGroups s p ≤ popcount 16 (s.rd (fTxGroups p))) && decide (minGroups s p ≤ popcount 16 (s.rd (fRxGroups p)))) := by
  obtain ⟨hstep, hstate, hback⟩ := hat
  simp [linkReady, hstep, hstate, hback, hf]

/-- Link start as a message said, a change of the port's record and two fields written. -/
theorem hailStart_eq {app : State → State} (hready : linkReady s p = true) (hstate : (app s).rd (fPortState p) = 2) : ∃ f : PortSt → PortSt,
    hailStart s p h app = (((hailSay (creditsSettled (app s) p) p 6 [(creditsGranted (creditsAsked (app s) p)).flatMap (leBytes 2)]).modPort p f).wr
      (fTxFrames p) 0).wr (fHailStep p) 7
    ∧ ∀ g, LinkStarted (f g) (creditsGranted (creditsAsked (app s) p)) ((List.range 8).map fun v => h.credits.getD v 0) ∧ (f g).backoff = g.backoff := by
  have hgrant : (List.range 8).map (fun v => 16 * (creditsSettled (app s) p).rd ⟨aLnk p 8, 8 * v + 7, 8 * v⟩) = creditsGranted (creditsAsked (app s) p) := by
    rw [← creditsAsked_settled, creditsAsked, List.map_map]
    rfl
  rw [← hgrant]
  have hopen : ¬((!linkReady s p) = true) := by simp [hready]
  unfold hailStart
  dsimp only
  rw [if_neg hopen, if_neg (not_not.2 hstate), lsum_eq_sum]
  exact ⟨_, rfl, fun g => ⟨⟨rfl, rfl, rfl, rfl, rfl, rfl, rfl⟩, rfl⟩⟩

/-- Link start, once what waited on the port has been applied. -/
theorem hailStart_starts {app : State → State} (hat : HailAt s p 6) (hready : linkReady s p = true) (happ : SameLink s (app s) p) :
    HailAt (hailStart s p h app) p 7
    ∧ (hailStart s p h app).hailOut = s.hailOut ++ [(p, withCrc (Config.hailBody 6 [(creditsGranted (creditsAsked s p)).flatMap (leBytes 2)]))]
    ∧ LinkStarted ((hailStart s p h app).port p) (creditsGranted (creditsAsked s p)) ((List.range 8).map fun v => h.credits.getD v 0)
    ∧ (hailStart s p h app).rd (fTxFrames p) = 0 := by
  have hsettled : HailAt (creditsSettled (app s) p) p 6 := (hat.sameLink happ).creditsSettled
  obtain ⟨f, he, hf⟩ := hailStart_eq (h := h) hready (hat.sameLink happ).2.1
  obtain ⟨hrd, -, hout⟩ := happ
  have hasked : creditsAsked (app s) p = creditsAsked s p := List.map_congr_left fun v _ => hrd ..
  rw [hasked] at he hf
  obtain ⟨⟨hsaid, -⟩, hport, hsame⟩ := hailSay_said (creditsSettled (app s) p) p 6 [(creditsGranted (creditsAsked s p)).flatMap (leBytes 2)]
  generalize hailSay (creditsSettled (app s) p) p 6 _ = v at he hsaid hport hsame
  obtain ⟨hstep, hstate, hback⟩ := hsettled
  have hv : HailAt v p 6 := ⟨(hsame _).trans hstep, (hsame _).trans hstate, by rw [hport]; exact hback⟩
  obtain ⟨-, hstate, hback⟩ := (hv.modPort fun g => (hf g).2).wr (f := fTxFrames p) 0 (by simp [Fld.apart, fTxFrames, fHailStep, aLnk])
    (by simp [Fld.apart, fTxFrames, fPortState, aLnk])
  rw [he]
  refine ⟨hailAt_wr_step (by decide) hstate hback, ?_, ?_, ?_⟩
  · rw [State.wr_hailOut, State.wr_hailOut, State.modPort, State.putPort_hailOut, hsaid, hailOut_creditsSettled, hout]
  · rw [State.port_wr, State.port_wr, State.modPort, State.port_putPort]
    exact (hf _).1
  · rw [rd_wr_apart _ _ (by simp [Fld.apart, fTxFrames, fHailStep, aLnk]), State.rd_wr_self _ _ _ (by simp [fTxFrames]) (by simp [fTxFrames])]
    rfl

section
variable (hp : p < 16) (hf : s.isFatal = false) (hat : HailAt s p 6)
include hp hf hat

theorem hailStepDone_start (h : HailInfo) : exec (.hailStepDone p h) s = .next (voteRefresh (hailStart s p h fun t => blkApply stagedAct t (.port p))) := by
  have hstart : hailStep s p h (fun t => blkApply stagedAct t (.port p)) = hailStart s p h fun t => blkApply stagedAct t (.port p) := by
    rw [hailStep, if_neg (hat.inHail hf), hat.1]
    rfl
  exact (exec_hail hp s h).2.1.trans (by rw [hstart])

/-- Without enough groups the link does not start; with them it does. -/
theorem hailStepDone_links : let enough := minGroups s p ≤ popcount 16 (s.rd (fTxGroups p)) ∧ minGroups s p ≤ popcount 16 (s.rd (fRxGroups p))
    (¬ enough → exec (.hailStepDone p h) s = .next (voteRefresh s))
    ∧ (enough → s.pendingSt.filter (fun x => decide (regBlk x.1 = some (.port p))) = [] → stagedWaiting s (.port p) = [] →
        ∃ t, exec (.hailStepDone p h) s = .next t ∧ HailAt t p 7
          ∧ t.hailOut = s.hailOut ++ [(p, withCrc (Config.hailBody 6 [(creditsGranted (creditsAsked s p)).flatMap (leBytes 2)]))]
          ∧ LinkStarted (t.port p) (creditsGranted (creditsAsked s p)) ((List.range 8).map fun v => h.credits.getD v 0) ∧ t.rd (fTxFrames p) = 0) := by
  have hexec := hailStepDone_start hp hf hat h
  have hready := linkReady_eq hf hat
  refine ⟨fun hfew => ?_, fun henough hpend hstaged => ?_⟩
  · have hwaits : linkReady s p = false := by rw [hready]; simpa using hfew
    rw [hexec, hailStart]
    dsimp only
    rw [if_pos (by simp [hwaits])]
  · obtain ⟨hat7, hout, hsession, hframes⟩ := hailStart_starts (h := h) (app := fun t => blkApply stagedAct t (.port p)) hat
      (by rw [hready]; simp [henough]) (sameLink_blkApply stagedAct hpend hstaged)
    have hview := portView_voteRefresh (p := p) (hailStart s p h fun t => blkApply stagedAct t (.port p))
    exact ⟨_, hexec, hat7.of_view hp hview, (hailOut_of_portView hview).trans hout, hsession.of_session (session_of_portView hview),
      (rd_lnk_of_portView hp hview (by decide)).trans hframes⟩

end

end

end Sys2Proof.Machine

namespace Sys2Proof.Machine
open Sys2Proof

/-! ### Step 7: the partner's milestone, and this end's routes (13 R253, R258) -/

section
variable {s t u : State} {p k : Nat} {h : HailInfo}

theorem reg_of_portView (e : portView p t = portView p s) {o : Nat} (ho : o < 0x410000) (hne : o % 0x1000 ≠ 0x40) : t.reg o = s.reg o := by
  have hreg := congrFun (congrArg PortView.regs e) o
  simpa only [portView, ho, hne, ne_eq, not_false_eq_true, and_self, if_true] using hreg

/-- The message of step 8: this module's ID and the port's LNK_SLICE bitmap. -/
def routesSaid (s : State) (p : Nat) : List Byte := withCrc (Config.hailBody 8 [leBytes 3 (s.rd fModuleId),
  (List.range 64).flatMap fun q => leBytes 8 (s.reg (aLnk p (0x400 + 8 * q))).toNat])

theorem routesSaid_of_view (hp : p < 16) (e : portView p t = portView p s) : routesSaid (t.wr (fHailStep p) k) p = routesSaid s p := by
  have hid : (t.wr (fHailStep p) k).rd fModuleId = s.rd fModuleId :=
    (State.rd_wr_ne _ _ _ _ (by simp only [fModuleId, fHailStep, aLnk]; omega)).trans (rd_of_portView e (by decide) (by decide))
  have hreg : ∀ q ∈ List.range 64, (t.wr (fHailStep p) k).reg (aLnk p (0x400 + 8 * q)) = s.reg (aLnk p (0x400 + 8 * q)) := fun q hq => by
    have hq := List.mem_range.1 hq
    rw [State.wr, State.reg_setReg_ne _ _ (by simp only [fHailStep, aLnk]; omega)]
    exact reg_of_portView e (by unfold aLnk; omega) (by unfold aLnk; omega)
  rw [routesSaid, routesSaid, hid, List.flatMap_congr fun q hq => by rw [hreg q hq]]

theorem hailMile_speaks (hp : p < 16) (hat : HailAt s p k) : HailAt (hailMile s p h) p 8 ∧ HailSaid s (hailMile s p h) p (routesSaid s p) := by
  unfold hailMile
  extract_lets s1 s2
  have hone : HailAt s1 p k := hat.modPort fun _ => rfl
  have hview : portView p (mileFollow (chooseUpstream s1) p) = portView p s1 := (portView_mileFollow _).trans (portView_chooseUpstream s1)
  obtain ⟨-, hstate, hback⟩ := hone.of_view hp hview
  obtain ⟨hstep, hstate, hback⟩ : HailAt s2 p 8 := hailAt_wr_step (by decide) hstate hback
  obtain ⟨hsaid, hport, hrd⟩ := hailSay_said s2 p 8 [leBytes 3 (s2.rd fModuleId), (List.range 64).flatMap fun q => leBytes 8 (s2.reg (aLnk p (0x400 + 8 * q))).toNat]
  have hroutes : routesSaid s2 p = routesSaid s1 p := routesSaid_of_view hp hview
  have hkept : s1.hailOut = s.hailOut := State.putPort_hailOut ..
  have hout : s2.hailOut = s.hailOut := (State.wr_hailOut ..).trans ((hailOut_of_portView hview).trans hkept)
  refine ⟨⟨(hrd _).trans hstep, (hrd _).trans hstate, by rw [hport]; exact hback⟩, ?_⟩
  obtain ⟨hsaid, hmsg⟩ := hsaid
  rw [hout] at hsaid
  change _ = s.hailOut ++ [(p, routesSaid s2 p)] at hsaid
  change _ = [routesSaid s2 p] at hmsg
  rw [hroutes] at hsaid hmsg
  exact ⟨hsaid, hmsg⟩

theorem hailStepDone_mile (hp : p < 16) (hf : s.isFatal = false) (hat : HailAt s p 7) :
    ∃ t, exec (.hailStepDone p h) s = .next t ∧ HailAt t p 8 ∧ HailSaid s t p (routesSaid s p) := by
  obtain ⟨t, hexec, hview⟩ := hailStepDone_view hp (s := s) (h := h) (u := hailMile s p h) (by rw [hailStep, if_neg (hat.inHail hf), hat.1]; rfl)
  obtain ⟨hat, hsaid⟩ := hailMile_speaks (h := h) hp hat
  exact ⟨t, hexec, hat.of_view hp hview, hsaid.of_view hview⟩

/-! ### Step 8: routing admission (11 R223; 13 R253) -/

/-- A port that has been admitted: it is Up, its failures are forgotten, and its partner is known. -/
structure Admitted (t : State) (p : Nat) (h : HailInfo) : Prop where
  up : portUp t p = true
  fails : t.rd (fHailFails p) = 0
  partner : t.rd (fPartnerMod p) = h.module % 2 ^ 24
  slices : (t.port p).hisSlices = h.slices
  wasUp : p ∈ t.power.wasUp

theorem Admitted.of_view (hp : p < 16) (e : portView p t = portView p u) (ha : Admitted u p h) : Admitted t p h where
  up := (congrArg (fun n => decide (n = portUpCode)) (rd_lnk_of_portView hp e (o := 0x10) (by decide))).trans ha.up
  fails := (rd_lnk_of_portView hp e (by decide)).trans ha.fails
  partner := (rd_lnk_of_portView hp e (by decide)).trans ha.partner
  slices := (session_field (session_of_portView e) PortSt.hisSlices fun _ => rfl).trans ha.slices
  wasUp := by rw [wasUp_of_portView e]; exact ha.wasUp

theorem hailAdmit_admits (hp : p < 16) (hid : s.rd fModuleId ≠ 0xFFFFFF) : Admitted (hailAdmit s p h) p h := by
  unfold hailAdmit
  rw [if_neg hid]
  extract_lets dig same s1 s2
  refine Admitted.of_view hp (portView_xtResume ..) ?_
  have hpartner : s1.rd (fPartnerMod p) = h.module % 2 ^ 24 :=
    rd_wrAll_mem (by simp [fPartnerMod]) (by simp [fPartnerMod]) _ (by simp [Fld.apart, fPartnerMod, fPartnerPort, fIdDigest]) (by simp) s
  have htwo : s2.rd (fPartnerMod p) = h.module % 2 ^ 24 := by
    have hview : portView p s2 = portView p s1 := portView_ite rfl (portView_portEvent ..)
    exact (rd_lnk_of_portView hp hview (by decide)).trans hpartner
  have hlearn := portView_learn (p := p) { s2 with power := { s2.power with wasUp := s2.power.wasUp ++ [p] } } p (h.module % 2 ^ 24)
  have hlearned : (learn { s2 with power := { s2.power with wasUp := s2.power.wasUp ++ [p] } } p (h.module % 2 ^ 24)).rd (fPartnerMod p) = h.module % 2 ^ 24 :=
    (rd_lnk_of_portView hp hlearn (by decide)).trans htwo
  have hwas : p ∈ (learn { s2 with power := { s2.power with wasUp := s2.power.wasUp ++ [p] } } p (h.module % 2 ^ 24)).power.wasUp := by
    rw [wasUp_of_portView hlearn]
    exact List.mem_append_right _ (List.mem_singleton_self p)
  generalize learn _ p _ = v at hlearned hwas
  generalize hw : (v.modPort p fun g => { g with lastReport := s.mile, hisSlices := h.slices, hailMsg := [] }) = w
  have hslices : (w.port p).hisSlices = h.slices := by rw [← hw, State.modPort, State.port_putPort]
  have hwpartner : w.rd (fPartnerMod p) = h.module % 2 ^ 24 := by rw [← hw]; exact hlearned
  have hwwas : p ∈ w.power.wasUp := by rw [← hw]; exact hwas
  have hrd : ∀ {f : Fld} {v : Nat}, f.lo ≤ f.hi → f.hi < 64 → (f, v) ∈ [(fPortState p, 3), (fHailFails p, 0), (fBackoffS p, 0)] →
      (w.wrAll [(fPortState p, 3), (fHailFails p, 0), (fBackoffS p, 0)]).rd f = v % 2 ^ (f.hi + 1 - f.lo) := fun hl hh hm =>
    rd_wrAll_mem hl hh _ (by simp [Fld.apart, fPortState, fHailFails, fBackoffS]) hm w
  exact {
    up := decide_eq_true (hrd (v := 3) (by simp [fPortState]) (by simp [fPortState]) (by simp))
    fails := hrd (v := 0) (by simp [fHailFails]) (by simp [fHailFails]) (by simp)
    partner := (rd_wrAll_apart _ (by simp [Fld.apart, fPortState, fHailFails, fBackoffS, fPartnerMod, aLnk]) w).trans hwpartner
    slices := (congrArg PortSt.hisSlices (State.wrAll_keeps (fun t => t.port p) (fun _ _ _ => rfl) _ w)).trans hslices
    wasUp := by rw [State.wrAll_keeps (fun t => t.power) (fun _ _ _ => rfl) _ w]; exact hwwas }

section
variable (hp : p < 16) (hf : s.isFatal = false) (hat : HailAt s p 8)
include hp hf hat

theorem hailStepDone_admit (h : HailInfo) : ∃ t, exec (.hailStepDone p h) s = .next t ∧ portView p t = portView p (hailAdmit s p h) :=
  hailStepDone_view hp (by rw [hailStep, if_neg (hat.inHail hf), hat.1]; rfl)

theorem hailStepDone_admits (hid : s.rd fModuleId ≠ 0xFFFFFF) : ∃ t, exec (.hailStepDone p h) s = .next t ∧ Admitted t p h := by
  obtain ⟨t, hexec, hview⟩ := hailStepDone_admit hp hf hat h
  exact ⟨t, hexec, (hailAdmit_admits hp hid).of_view hp hview⟩

theorem hailStepDone_nameless (hid : s.rd fModuleId = 0xFFFFFF) : ∃ t, exec (.hailStepDone p h) s = .next t ∧ BacksOff s t p 2 := by
  obtain ⟨t, hexec, hview⟩ := hailStepDone_admit hp hf hat h
  rw [hailAdmit, if_pos hid] at hview
  exact ⟨t, hexec, hailFail_backsOff false hview hp⟩

end

end

/-- Settles O45, hail's steps one after another, its backoff, and the loss of light. -/
theorem hailBringsPortsUp : Obligations.HailBringsPortsUp := by
  unfold Obligations.HailBringsPortsUp
  intro s p h hp hf
  have hat : ∀ {k}, s.rd (fPortState p) = 2 ∧ (s.port p).backoff = false → s.rd (fHailStep p) = k → HailAt s p k := fun hruns hstep =>
    ⟨hstep, hruns.1, hruns.2⟩
  refine ⟨fun hruns hstep => lightDetected_inHail hp hf (hat hruns hstep), fun hdark => lightDetected_dark hp hf hdark, fun hruns hstep => ?hello,
    fun hruns hstep hroot hauth hreports => hailAuth_done hp hf (hat hruns hstep) hroot hauth hreports,
    fun hruns hstep hroot hauth hreports => hailAuth_waits hp hf (hat hruns hstep) hroot hauth hreports,
    fun hruns hstep hauth => hailAuth_refuses hp hf (hat hruns hstep) hauth,
    fun hruns hstep => hailStepDone_keys hp hf (hat hruns hstep), fun hruns hstep => hailStepDone_lanes hp hf (hat hruns hstep),
    fun hruns hstep => ?link, fun hruns hstep => ?mile, fun hruns hstep hid => ?partner,
    fun hruns hstep hid => hailStepDone_nameless hp hf (hat hruns hstep) hid,
    fun hruns hstep => hailAttemptTimeout_backsOff hp hf (hat hruns rfl) hstep, fun hback => hailBackoffExpiry_begins hp hf hback,
    fun hlive => lossOfLight_drops hp hf hlive⟩
  case hello =>
    obtain ⟨t, hexec, hat, ⟨b, hsaid⟩, hkept⟩ := hailHello_speaks (h := h) hp hf (hat hruns hstep)
    exact ⟨⟨t, b, hexec, hat, hsaid⟩, t, hexec, hkept⟩
  case link =>
    obtain ⟨hwaits, hlinks⟩ := hailStepDone_links (h := h) hp hf (hat hruns hstep)
    refine ⟨hwaits, fun henough hpend hstaged => ?_⟩
    obtain ⟨t, hexec, hat, hout, hsession, hframes⟩ := hlinks henough hpend hstaged
    exact ⟨t, hexec, hat, hout, hsession.room, hsession.credits, hsession.txSeq, hsession.rxNext, hsession.lineTx, hsession.lineRx, hsession.replayBuf, hframes⟩
  case mile =>
    obtain ⟨t, hexec, hat, hsaid⟩ := hailStepDone_mile (h := h) hp hf (hat hruns hstep)
    have hslice : ∀ q, aLnk p (0x400 + 8 * q) = 0x400000 + 0x1000 * p + 0x400 + 8 * q := fun q => (Nat.add_assoc ..).symm
    simp only [routesSaid, hslice] at hsaid
    exact ⟨t, hexec, hat, hsaid⟩
  case partner =>
    obtain ⟨t, hexec, hup, hfails, hpartner, hslices, hwas⟩ := hailStepDone_admits (h := h) hp hf (hat hruns hstep) hid
    exact ⟨t, hexec, hup, hfails, hpartner, hslices, hwas⟩

end Sys2Proof.Machine
